-- ==== Sys2Proof/Word.lean ====
section
/-! DEFINITION. The words of the KN-128's registers and memories, and their plainest arithmetic (R5, R6, R8). -/
namespace Sys2Proof

/-- A register word. -/
abbrev Word := BitVec 32
/-- A byte of memory. -/
abbrev Byte := BitVec 8
/-- A 64-bit quantity: a counter, a console name, a feature word. -/
abbrev DWord := BitVec 64

/-- Bits [hi:lo] of a word, as a number (R6's field notation). -/
def field (w : Word) (hi lo : Nat) : Nat := (w.toNat >>> lo) % 2 ^ (hi + 1 - lo)

/-- Bit n of a word. -/
def bit (w : Word) (n : Nat) : Bool := w.getLsbD n

/-- The word with field [hi:lo] replaced by the low bits of v. -/
def putField (w : Word) (hi lo : Nat) (v : Nat) : Word :=
  let m : Word := BitVec.ofNat 32 ((2 ^ (hi + 1 - lo) - 1) <<< lo)
  (w &&& ~~~ m) ||| (BitVec.ofNat 32 (v <<< lo) &&& m)

/-- The word with bit n set to b. -/
def putBit (w : Word) (n : Nat) (b : Bool) : Word := putField w n n b.toNat

/-- The word from a number, modulo 2^32. -/
def word (n : Nat) : Word := BitVec.ofNat 32 n

/-- The k-th byte, least significant first. -/
def byteOf (n k : Nat) : Byte := BitVec.ofNat 8 (n >>> (8 * k))

/-- n as k little-endian bytes. -/
def leBytes (k n : Nat) : List Byte := (List.range k).map (byteOf n)

/-- The number that little-endian bytes spell. -/
def ofLe : List Byte → Nat
  | [] => 0
  | b :: bs => b.toNat + 256 * ofLe bs

/-- ⌈a / b⌉. -/
def ceilDiv (a b : Nat) : Nat := (a + b - 1) / b

/-- A bit vector as a signed number, narrowed from a Nat: two's complement of width w. -/
def signed (w n : Nat) : Int := (BitVec.ofNat w n).toInt

/-- An integer as a two's-complement number of w bits. -/
def unsign (w : Nat) (i : Int) : Nat := (BitVec.ofInt w i).toNat

/-- An integer held between two bounds. -/
def clampInt (lo hi i : Int) : Int := max lo (min hi i)

end Sys2Proof
end

