-- ==== Sys2Proof/Syntax.lean ====
section
/-! DEFINITION. The commands of the KN-128: one constructor of Instr per row of spec/opcode_table.json, with the row's
operands. A command comes from outside the block (a register access, a packet, a pin) or says that something the
block does by itself happens now (a line is composed, a frame starts, a timer ticks). -/
namespace Sys2Proof

/-- A host lane HP0 to HP127 (R2). -/
abbrev Lane := Fin 128
/-- A virtual head V0 to V127 (R2). -/
abbrev VHead := Fin 128
/-- A head: 0 to 127 for V0 to V127, 128 to 131 for P0 to P3 (R215's numbering). -/
abbrev Head := Fin 132
/-- A physical head P0 to P3 (R2). -/
abbrev PHead := Fin 4
/-- A line engine LE0 to LE31. -/
abbrev Le := Fin 32
/-- An Auver link AL0 to AL7. -/
abbrev Al := Fin 8
/-- An application-core hart (R499). -/
abbrev Hart := Fin 4
/-- A page index of R8. -/
abbrev Page := Fin 1024
/-- An offset within a 4 KiB view of a page (R9). -/
abbrev Offset := BitVec 12
/-- A session of this chip (R326). -/
abbrev Sess := Fin 1024
/-- A DMA channel (R478). -/
abbrev Chan := Fin 16
/-- A general timer (R523). -/
abbrev Tmr := Fin 16
/-- A GPIO pin (R524). -/
abbrev Pin := Fin 64

/-- Who makes an access: R13 and R26 tell requesters apart. -/
inductive Req where
  | hart (c : Hart) | lane (n : Lane) | engine (e : Le) | dma | debug
  deriving DecidableEq, Repr

/-- The three functions of a lane (R60). -/
inductive Fn where
  | display | input | audio
  deriving DecidableEq, Repr

/-- The BARs of a function (R60). -/
inductive Bar where
  | bar0 | bar2 | rom | none
  deriving DecidableEq, Repr

/-- What is wrong with a received TLP (R59). -/
inductive TlpFlaw where
  | good | poisoned | ecrc | malformed
  deriving DecidableEq, Repr

/-- ALU0 or ALU1 (R194). -/
inductive Alu where
  | a0 | a1
  deriving DecidableEq, Repr

/-- A session key's direction (R333). -/
inductive Dir where
  | tx | rx
  deriving DecidableEq, Repr

/-- A port with the MAC of R336 to R339. -/
inductive Port where
  | eth0 | eth1 | mgmt
  deriving DecidableEq, Repr

/-- A dmi operation (R502). -/
inductive DmiOp where
  | nop | read | write
  deriving DecidableEq, Repr

/-- The atomic operations of R424. -/
inductive AmoOp where
  | swap | add | and | or | xor | min | max | minu | maxu
  deriving DecidableEq, Repr

/-- One access of an application core (R422 to R424). -/
inductive CoreAcc where
  | load | fetch | store (v : DWord) | amo (op : AmoOp) (v : DWord) | lr | sc (v : DWord)
  deriving DecidableEq, Repr

/-- A stereo frame: left and right 24-bit samples (R347). -/
abbrev Frame24 := BitVec 24 × BitVec 24

/-- What the sampled audio pins present in one tick: the jack microphone, and for the four slot pairs of I2S0 and then of I2S1
the frames whose frame sync fell in the tick, oldest first: one on a master port, as many as its FS gives on a slave port. -/
structure AudioPins where
  mic : BitVec 24
  i2s : List (List Frame24)
  deriving DecidableEq, Repr

/-- A HELLO packet's fields (R385). -/
structure HelloMsg where
  role : Fin 4
  serial : DWord
  fabricId : DWord
  feat : DWord
  addr : BitVec 12
  addrValid : Bool
  coordHops : Byte
  coordSerial : DWord
  deriving DecidableEq, Repr

/-- An input event (R91): sequence number, arrival stamp, type 1 to 4, origin 0 to 3, twelve payload bytes. -/
structure InputMsg where
  seq : Nat
  arrival : Nat
  kind : Nat
  origin : Nat
  payload : List Byte
  deriving DecidableEq, Repr

/-- An attestation message (R387): the 32-byte nonce, the certificate chain with the signature, or that the sender's own
check passed. -/
inductive AttestMsg where
  | nonce (b : List Byte)
  | proof (chain sig : List Byte)
  | passed
  deriving DecidableEq, Repr

/-- The RESERVE step of a migration between two chips (R410): what A asks of B (both heads, the name, timing, allocation
sizes, the number of viewing sessions, and whether A's TIME is LOCKED), or B's answer to A with a code of R409, 0 for a
grant. The slot is A's. -/
inductive ReserveMsg where
  | ask (slot : Fin 8) (chipA : BitVec 12) (va vb : VHead) (name : DWord) (htime vtime fperiod : Word) (origin : DWord)
      (dramSize glyphSize sessions : Nat) (aLocked : Bool)
  | answer (slot : Fin 8) (code : Nat)
  deriving DecidableEq, Repr

/-- What a migration carries from chip A as it stands at s1 (R33, R410): s1, head words by offset, bytes of the glyph store
and DRAM allocations by BAR2 offset, the hidden state of the tone channels (divider, position, a start that waits), the next
input sequence number where A holds it, and the viewers: home chip, session and sound entry. -/
structure Carried where
  s1 : Nat
  regs : List (Nat × Word)
  bytes : List (Nat × List Byte)
  tones : List (Nat × Nat × Bool)
  nextSeq : Option Nat
  viewers : List (BitVec 12 × Sess × BitVec 16)
  deriving DecidableEq, Repr

/-- The SCHEDULE step of a migration (R410): A receives F_b with the slots that B gave A's own sessions, or
B receives A's acknowledgement. -/
inductive ScheduleMsg where
  | schedule (frame : DWord) (slots : List (Sess × BitVec 16))
  | acknowledged
  deriving DecidableEq, Repr

/-- A log record (R413). -/
structure LogRec where
  firstFt : Nat
  lastFt : Nat
  source : Nat
  origin : Nat
  kind : Nat
  type : Nat
  flags : Nat
  count : Nat
  data : Word
  deriving DecidableEq, Repr

/-- What a patrol read found (R432 to R436): nothing, errors it corrected (the address, the device, subchannel, rank
and row, and whether the row's bank group has a spare left), or a burst it could not correct (with a good mirror copy
or none). -/
inductive BurstResult where
  | clean
  | corrected (addr : BitVec 48) (device : Fin 10) (sub : Bool) (rank : BitVec 3) (row : Nat) (spare : Bool)
  | uncorrectable (addr : BitVec 48) (device : Fin 10) (sub : Bool) (rank : BitVec 3) (mirrorGood : Bool)
  deriving DecidableEq, Repr

/-- A failing cell that a march test found (R448, R449): scratchpad, bank, row and column. -/
structure MarchFail where
  pad : Fin 8
  bank : Fin 64
  row : Nat
  col : Nat
  deriving DecidableEq, Repr

/-- The interface of an attached USB device (R536). -/
inductive UsbDev where
  | keyboard | mouse | other
  deriving DecidableEq, Repr

/-- A wake source (R563). -/
inductive WakeSrc where
  | perst (n : Lane) | wakePin | alarm
  deriving DecidableEq, Repr

/-- What a module's SPD hub says (R425, R426). -/
structure SpdInfo where
  sizeGB : Nat
  ranks : Nat
  x4 : Bool
  speedMts : Nat
  rdimm : Bool
  deriving DecidableEq, Repr

/-- The commands, in the order of spec/opcode_table.json. -/
inductive Instr where
  /-- REGISTER_WRITE (R6). A write to a register field that has no behaviour of its own sets, clears or ignores bits as its access code gives. -/
  | registerWrite (r : Req) (addr : BitVec 48) (size : Nat) (v : DWord)
  /-- SET_ALIAS_WRITE (R10). A write through the set alias ORs its value into the RW and RWL bits of the word as one atomic read-modify-write. -/
  | setAliasWrite (r : Req) (p : Page) (off : Offset) (v : Word)
  /-- CLEAR_ALIAS_WRITE (R10). A write through the clear alias clears the RW and RWL bits that are 1 in its value, atomically. -/
  | clearAliasWrite (r : Req) (p : Page) (off : Offset) (v : Word)
  /-- IRQ_SET (R14). A write to IRQ_SET sets the matching IRQ_STAT bits for test. -/
  | irqSet (r : Req) (p : Page) (v : Word)
  /-- SOFT_RESET (R18). A write of 1 to BLK_CTL.SOFT_RESET starts a soft reset of the page's registers and block. -/
  | softReset (r : Req) (p : Page)
  /-- SOFT_RESET_DONE (R17). A soft reset completes and SOFT_RESET and IN_RESET clear. -/
  | softResetDone (p : Page)
  /-- BLK_ENABLE_WRITE (R19). A write to BLK_CTL.ENABLE of an LE, TMR, DMA or BLT page stops or resumes that block. -/
  | blkEnableWrite (r : Req) (p : Page) (en : Bool)
  /-- FENCE_WRITE (R24). A write to FENCE marks all earlier accepted writes to the page as earlier than any later write. -/
  | fenceWrite (r : Req) (p : Page) (v : Word)
  /-- LOCK_ARM (R26). A LOCK write with 0xC3 in [31:24] arms the page lock. -/
  | lockArm (r : Req) (p : Page) (low : BitVec 24)
  /-- LOCK_BLOCK (R26). A second LOCK write from the same requester with 0x3C locks the page's RWL fields until chip reset. -/
  | lockBlock (r : Req) (p : Page) (low : BitVec 24)
  /-- SNAP (R49). A write of 1 to ACCT_CTL.SNAP copies every identity term of the page into its snapshot registers. -/
  | snap (r : Req) (p : Page)
  /-- INJECT_MISMATCH (R49). A write of 1 to ACCT_CTL.INJECT makes identity INJ_SEL's check see a mismatch for one cycle. -/
  | injectMismatch (r : Req) (p : Page)
  /-- DEBUG_HALT (R504). The debugger halts an application hart. -/
  | debugHalt (c : Hart)
  /-- DEBUG_RESUME (R502). The debugger resumes or steps a halted hart, ending any freeze. -/
  | debugResume (c : Hart) (stepOnly : Bool)
  /-- DMI_OPERATION (R503). A dmi operation through the TAP acts on the debug module, or fails while debug access is closed. -/
  | dmiOperation (op : DmiOp) (addr : BitVec 7) (v : Word)
  /-- PERST_ASSERT (R106). PERST# of a lane is asserted, resetting all three functions and refusing pending input. -/
  | perstAssert (n : Lane)
  /-- PERST_RELEASE (R104). PERST# of a lane is released and link training begins. -/
  | perstRelease (n : Lane)
  /-- HOT_RESET (R106). A hot reset on a lane resets all three functions. -/
  | hotReset (n : Lane)
  /-- LANE_LINK_DOWN (R106). A lane's link is lost, with the reset effects of PERST#. -/
  | laneLinkDown (n : Lane)
  /-- LANE_LINK_UP (R104). A lane's link training completes and LINK_UP is raised. -/
  | laneLinkUp (n : Lane) (speed : Fin 4)
  /-- CFG_READY (R104). The lane becomes ready for configuration requests after its readiness work completes. -/
  | cfgReady (n : Lane)
  /-- CONFIG_REQUEST (R104). A configuration request arrives, and is answered with Retry Status until CFG_READY. -/
  | configRequest (n : Lane) (f : Fn) (off : BitVec 12) (wr : Option Word)
  /-- FUNCTION_LEVEL_RESET (R106). A Function Level Reset resets one function with the effects in R106. -/
  | functionLevelReset (n : Lane) (f : Fn)
  /-- D3HOT_TO_D0 (R106). A function goes from D3hot to D0, acting as a function reset. -/
  | d3hotToD0 (n : Lane) (f : Fn)
  /-- HOST_WRITE (R76). A posted write TLP from the host enters its function's ingress queue and takes credits. -/
  | hostWrite (n : Lane) (f : Fn) (bar : Bar) (off : BitVec 29) (data : List (Option Byte)) (relaxed : Bool) (flaw : TlpFlaw)
  /-- COMMIT (R78). The ingress applies a write to memory or registers and stamps it with fabric time. -/
  | commit (n : Lane) (f : Fn) (k : Nat)
  /-- HOST_READ (R80). A host read of a BAR completes after all earlier writes of its function have committed. -/
  | hostRead (n : Lane) (f : Fn) (bar : Bar) (off : BitVec 29) (len : Nat) (bad : Bool)
  /-- FEAT_OK (R52). A write of 1 to HF_CTL.FEAT_OK starts a feature negotiation. -/
  | featOk (n : Lane) (f : Fn)
  /-- FEAT_DONE (R74). The function answers the negotiation with ACCEPT or REJECT and raises FEAT_DONE. -/
  | featDone (n : Lane) (f : Fn)
  /-- PRESENT (R86). A write to HF_PRESENT commits a PRESENT carrying a tag. -/
  | present (n : Lane) (tag : Word)
  /-- IR_ENABLE (R89). IR_CTL.EN changes from 0 to 1 and the input ring indexes reset. -/
  | irEnable (n : Lane)
  /-- IR_CONS_WRITE (R90). The host writes IR_CONS, which is ignored with RING_ERR if it exceeds the ring size. -/
  | irConsWrite (n : Lane) (v : Word)
  /-- IR_LED_WRITE (R96). A host write to IR_LED is passed to the controlling session and the local keyboard. -/
  | irLedWrite (n : Lane) (v : Word)
  /-- INPUT_DELIVER (R93). The input delivery unit writes the next pending event to the host ring and writes back IR_PROD. -/
  | inputDeliver (n : Lane)
  /-- PL_ENABLE (R353). PL_CTL.EN changes from 0 to 1, fixing the tick T0 of ring frame 0. -/
  | plEnable (n : Lane)
  /-- PLAY_BLOCK_READ (R353). At its tick the device reads a playback block, substitutes missing frames and advances PL_CONS. -/
  | playBlockRead (n : Lane) (host : List Byte)
  /-- CP_ENABLE (R355). CP_CTL.EN changes from 0 to 1 and capture starts at the next block boundary. -/
  | cpEnable (n : Lane)
  /-- CAPTURE_BLOCK (R355). A capture block is written to the host ring, or discarded if it does not fit. -/
  | captureBlock (n : Lane)
  /-- BIND (R108). HB_CTL.BIND asks the locator to bind HB_NAME to the head. -/
  | bind (n : VHead)
  /-- UNBIND (R108). HB_CTL.UNBIND sets the name to 0 and ends the console's sessions. -/
  | unbind (n : VHead)
  /-- BIND_ANSWER (R108). The locator's answer sets NAME_STATE bound or refused and raises BIND_DONE. -/
  | bindAnswer (n : VHead) (grant : Bool)
  /-- BIND_TIMEOUT (R403). A bind request without answer for 1 s is refused with code 3. -/
  | bindTimeout (n : VHead)
  /-- ALLOC_CLEAR (R602). A lane reset clears the head's allocations as one commit at the next frame start. -/
  | allocClear (n : VHead)
  /-- ADMISSION_REQUEST (R152). A write of 1 to HD_MODE.ENABLE requests admission of the head. -/
  | admissionRequest (h : Head)
  /-- ADMIT (R152). The device answers an admission request with a code, taking tokens and setting the origin on admission. -/
  | admitHead (h : Head)
  /-- HEAD_DISABLE (R155). A write of 0 to HD_MODE.ENABLE returns a waiting head to OFF or sets a running head STOPPING. -/
  | headDisable (h : Head)
  /-- HEAD_STOP (R155). A stopping head stops at the next frame start instant and its tokens return. -/
  | headStop (h : Head)
  /-- CONSIST_WRITE (R157). A write changes HD_MODE.CONSIST, to take effect at the next frame start. -/
  | consistWrite (h : Head) (mode : BitVec 2)
  /-- CONSIST_EFFECT (R157). A new consistency mode takes effect at a frame start instant and squashes the window. -/
  | consistEffect (h : Head)
  /-- DETACH_WRITE (R109). HD_MODE.DETACHED changes, gating host access and raising DETACH_CHANGE. -/
  | detachWrite (h : Head) (on : Bool)
  /-- FRAME_START (R150). The start instant of a frame of a running head passes. -/
  | frameStart (h : Head)
  /-- COMPOSE_LINE (R161). A composer composes a head's next line when the head holds fewer than EFF composed lines. -/
  | composeLine (h : Head)
  /-- LINE_FINAL (R163). A composed line becomes final once its sample instant has passed. -/
  | lineFinal (h : Head)
  /-- LINE_TAKE (R161). The encoder takes a final line, or it is written into the back output frame. -/
  | lineTake (h : Head)
  /-- LATE (R168). A virtual head's line misses its deadline, so its frame is withheld and its unfinished lines abandoned. -/
  | late (h : VHead)
  /-- FRAME_INCOMPLETE (R171). A physical-head frame is not complete at its last sample instant and will be repeated. -/
  | frameIncomplete (h : PHead)
  /-- LE_MOVE (R181). An instruction's move writes a register or operand port, or issues with no trigger. -/
  | leMove (e : Le)
  /-- TADD (R195). ALU trigger TADD computes T + O. -/
  | tadd (e : Le) (u : Alu) (t : Word)
  /-- TSUB (R195). ALU trigger TSUB computes T − O. -/
  | tsub (e : Le) (u : Alu) (t : Word)
  /-- TAND (R195). ALU trigger TAND computes T AND O. -/
  | tand (e : Le) (u : Alu) (t : Word)
  /-- TOR (R195). ALU trigger TOR computes T OR O. -/
  | tor (e : Le) (u : Alu) (t : Word)
  /-- TXOR (R195). ALU trigger TXOR computes T XOR O. -/
  | txor (e : Le) (u : Alu) (t : Word)
  /-- TSHL (R195). ALU trigger TSHL shifts T left. -/
  | tshl (e : Le) (u : Alu) (t : Word)
  /-- TSHR (R195). ALU trigger TSHR shifts T right logically. -/
  | tshr (e : Le) (u : Alu) (t : Word)
  /-- TSAR (R195). ALU trigger TSAR shifts T right arithmetically. -/
  | tsar (e : Le) (u : Alu) (t : Word)
  /-- TCMPEQ (R195). ALU trigger TCMPEQ compares T and O for equality. -/
  | tcmpeq (e : Le) (u : Alu) (t : Word)
  /-- TCMPLT (R195). ALU trigger TCMPLT compares T below O signed. -/
  | tcmplt (e : Le) (u : Alu) (t : Word)
  /-- TCMPLTU (R195). ALU trigger TCMPLTU compares T below O unsigned. -/
  | tcmpltu (e : Le) (u : Alu) (t : Word)
  /-- TMIN (R195). ALU trigger TMIN gives the signed lesser of T and O. -/
  | tmin (e : Le) (u : Alu) (t : Word)
  /-- TMAX (R195). ALU trigger TMAX gives the signed greater of T and O. -/
  | tmax (e : Le) (u : Alu) (t : Word)
  /-- TMUL (R197). M.TMUL sets M.RES to T × M.OP after 2 cycles. -/
  | tmul (e : Le) (t : Word)
  /-- TMAC (R197). M.TMAC adds T × M.OP into M.ACC after 2 cycles. -/
  | tmac (e : Le) (t : Word)
  /-- TLDB (R199). Loads a sign-extended byte at T. -/
  | tldb (e : Le) (t : Word)
  /-- TLDBU (R199). Loads a zero-extended byte at T. -/
  | tldbu (e : Le) (t : Word)
  /-- TLDH (R199). Loads a sign-extended halfword at T. -/
  | tldh (e : Le) (t : Word)
  /-- TLDHU (R199). Loads a zero-extended halfword at T. -/
  | tldhu (e : Le) (t : Word)
  /-- TLDW (R199). Loads the word at T. -/
  | tldw (e : Le) (t : Word)
  /-- TSTB (R199). Stores L.DATA[7:0] at T. -/
  | tstb (e : Le) (t : Word)
  /-- TSTH (R199). Stores L.DATA[15:0] at T. -/
  | tsth (e : Le) (t : Word)
  /-- TSTW (R199). Stores L.DATA at T. -/
  | tstw (e : Le) (t : Word)
  /-- LOAD_COMPLETE (R201). A shared-window load completes and sets L.RES. -/
  | loadComplete (e : Le)
  /-- L_WAIT (R202). A read of L.WAIT stalls until no shared access of the engine is outstanding. -/
  | lWait (e : Le)
  /-- TJMP (R205). B.TJMP branches to T. -/
  | tjmp (e : Le) (t : Word)
  /-- TREL (R205). B.TREL branches relative to the instruction address. -/
  | trel (e : Le) (t : Word)
  /-- TCALL (R205). B.TCALL branches to T and sets B.LINK. -/
  | tcall (e : Le) (t : Word)
  /-- TRET (R205). B.TRET branches to B.LINK. -/
  | tret (e : Le) (t : Word)
  /-- TSTART (R209). LP.TSTART sets up a block repeat, or skips the body when LP.COUNT is 0. -/
  | tstart (e : Le) (t : Word)
  /-- TMOVE (R211). ST.TMOVE starts a background byte move. -/
  | tmove (e : Le) (t : Word)
  /-- TFILL (R211). ST.TFILL starts a background byte fill. -/
  | tfill (e : Le) (t : Word)
  /-- STRING_DONE (R212). A string operation completes and ST.LEN reads 0. -/
  | stringDone (e : Le)
  /-- STRING_FAULT (R214). A string operation reaches a forbidden byte, stops and raises an address fault. -/
  | stringFault (e : Le)
  /-- TWAITL (R217). BM.TWAITL starts a wait for slot 0 of a line of the selected head. -/
  | twaitl (e : Le) (t : Word)
  /-- TWAITP (R217). BM.TWAITP starts a wait for a line and slot of the selected head. -/
  | twaitp (e : Le) (t : Word)
  /-- WAIT_END (R218). A beam wait reaches its target and its instruction issues. -/
  | waitEnd (e : Le)
  /-- TWR (R221). HR.TWR queues a write of T to word WORD of head HEAD. -/
  | twr (e : Le) (t : Word)
  /-- HEAD_WINDOW_WRITE (R221). A write to port 0x400 + w queues a write to word w of the selected head. -/
  | headWindowWrite (e : Le) (w : BitVec 10) (t : Word)
  /-- HREG_COMMIT (R222). A queued head-register write from an engine commits and is stamped. -/
  | hregCommit (e : Le)
  /-- TLO (R198). K.TLO joins K.HI and T into a 32-bit constant. -/
  | tlo (e : Le) (t : Word)
  /-- TRAISE (R225). EV.TRAISE sets a soft IRQ_STAT bit of the engine page. -/
  | traise (e : Le) (t : Word)
  /-- FETCH_SYNC (R254). A write to FETCH_SYNC waits for earlier stores and invalidates the fetch structures. -/
  | fetchSync (e : Le) (t : Word)
  /-- LE_FENCE (R227). A write to the engine FENCE port stalls until every earlier access has completed. -/
  | leFence (e : Le) (t : Word)
  /-- TRET_EVENT (R264). A write to E.TRET returns from the event handler. -/
  | tretEvent (e : Le) (t : Word)
  /-- FETCH_FILL (R243). A cache or fetch-buffer line arrives from the program store. -/
  | fetchFill (e : Le)
  /-- LINE_EVENT (R260). The beam reaches the engine's LE_EVLINE line and E.EPEND[0] becomes 1. -/
  | lineEvent (e : Le)
  /-- MBOX_WRITE (R260). A write to LE_MBOX sets E.MBOX and E.EPEND[1]. -/
  | mboxWrite (r : Req) (e : Le) (v : Word)
  /-- EVENT_ENTRY (R262). A takeable event enters the engine's handler in place of the next instruction. -/
  | eventEntry (e : Le)
  /-- RUN (R265). A write of 1 to LE_CTL.RUN starts the engine from LE_PC. -/
  | run (r : Req) (e : Le)
  /-- LE_STOP (R265). A write of 0 to LE_CTL.RUN stops the engine. -/
  | leStop (r : Req) (e : Le)
  /-- INVAL (R255). A write of 1 to LE_CTL.INVAL invalidates the fetch structures. -/
  | inval (r : Req) (e : Le)
  /-- LE_RESET (R269). A write of 1 to LE_CTL.RESET performs an engine reset. -/
  | leReset (r : Req) (e : Le)
  /-- HALT (R266). LE_DBG.HALT halts the engine at the next instruction boundary. -/
  | halt (r : Req) (e : Le)
  /-- RESUME (R266). LE_DBG.RESUME leaves HALTED or FAULTED. -/
  | resume (r : Req) (e : Le)
  /-- STEP (R267). LE_DBG.STEP issues exactly one instruction and halts again. -/
  | stepOne (r : Req) (e : Le)
  /-- PORT_WINDOW_WRITE (R268). A write to the engine page port window sets a port while the engine is not running. -/
  | portWindowWrite (r : Req) (e : Le) (port : BitVec 8) (v : Word)
  /-- ARM (R270). A write of 1 to LE_SWAP_CTL.ARM arms a program swap. -/
  | arm (r : Req) (e : Le)
  /-- CANCEL (R270). LE_SWAP_CTL.CANCEL clears ARM. -/
  | cancel (r : Req) (e : Le)
  /-- POOL_SWAP_GO (R274). A write to POOL_SWAP_GO arms the swaps of the selected engines in one cycle. -/
  | poolSwapGo (r : Req) (mask : Word)
  /-- SWAPPED (R271). An armed swap takes place at the chosen head's frame start and the new program begins. -/
  | swapped (e : Le)
  /-- CODE_FRAME (R283). The encoder begins coding a frame once its last active line has been taken. -/
  | codeFrame (h : VHead)
  /-- SKIP_WHILE_CODING (R317). While ENC_BACKLOG exceeds ENC_ABORT_LVL the encoder skips a pending frame of lowest priority. -/
  | skipWhileCoding
  /-- FRAME_COMMIT (R312). A coded frame commits: the hash store is updated and distribution begins. -/
  | frameCommit (h : VHead)
  /-- REBUILD (R297). A write of 1 to DICT_CTL.REBUILD starts a dictionary rebuild. -/
  | rebuild (r : Req)
  /-- REBUILD_PERIOD (R297). DICT_PERIOD elapses since the last swap and an automatic rebuild starts. -/
  | rebuildPeriod
  /-- BANK_CLEAR (R297). Once no frame is pinned to the inactive bank, the rebuild clears it. -/
  | bankClear
  /-- COMPACT (R297). The rebuild finishes copying recent slots into the inactive bank and becomes READY. -/
  | compact
  /-- DICT_SWAP (R298). The inactive bank becomes active, the epoch advances and unslotted LIVE indexes drain. -/
  | dictSwap
  /-- TLS_RECORD_RX (R328). The session engine decrypts a received TLS record and passes its plaintext on. -/
  | tlsRecordRx (s : Sess)
  /-- ACK (R328). A viewer ACK advances its mirror slot's ACK_EPOCH. -/
  | ack (s : Sess) (frame64 : DWord) (evictEpoch : Word)
  /-- KEY_REQ (R328). A viewer KEY_REQ sets the session's NEED_KEY. -/
  | keyReq (s : Sess)
  /-- OPEN (R329). SESS_CMD OPEN opens a session on a bound console and sends STREAM_START. -/
  | openSess (s : Sess)
  /-- CLOSE (R329). SESS_CMD CLOSE ends the session and releases its slot and keys. -/
  | closeSess (s : Sess)
  /-- GRANT (R330). SESS_CMD GRANT gives the session control of its console. -/
  | grant (s : Sess)
  /-- REVOKE (R329). SESS_CMD REVOKE takes control from the session. -/
  | revoke (s : Sess)
  /-- KEYFRAME (R329). SESS_CMD KEYFRAME sets NEED_KEY. -/
  | keyframe (s : Sess)
  /-- INJECT (R329). SESS_CMD INJECT encrypts the INJ_ record at the next record boundary. -/
  | inject (s : Sess)
  /-- KEY_LOAD (R329). SESS_CMD KEY_LOAD moves the staged key into a direction of the session. -/
  | keyLoad (s : Sess) (dir : Dir)
  /-- SESS_DOORBELL (R327). A write to SESS_DOORBELL makes the engine re-read the session's ring indexes. -/
  | sessDoorbell (s : Sess)
  /-- IDU_SUBMIT (R334). A write to IDU_P2 submits a viewer input event for acceptance. -/
  | iduSubmit (p2 : Word)
  /-- ETH_TX_POST (R339). Software advances TXQ_PROD to post transmit descriptors. -/
  | ethTxPost (p : Port) (prod : Word)
  /-- TX_DONE (R339). A port finishes sending a frame and marks its descriptor DONE. -/
  | txDone (p : Port)
  /-- ETH_RX (R339). A port receives a frame into a receive descriptor's buffer. -/
  | ethRx (p : Port) (frame : List Byte)
  /-- LINK_CHANGE (R337). A stream or management port's link state changes. -/
  | linkChange (p : Port) (up fecLock : Bool)
  /-- AUDIO_TICK (R341). An audio frame tick begins and Crosswalk computes every output. -/
  | audioTick (pins : AudioPins)
  /-- TONE_MS (R345). Every 48 ticks each enabled tone channel counts down LEN and steps its envelope. -/
  | toneMs
  /-- TONE_ENABLE (R344). TNc_CTL.EN changes from 0 to 1 and the channel's divider and position reset. -/
  | toneEnable (h : VHead) (c : Fin 4) (ctl : Word)
  /-- TONE_PERIOD_WRITE (R344). A write to TNc_PERIOD changes the channel's period. -/
  | tonePeriodWrite (h : VHead) (c : Fin 4) (v : Word)
  /-- SOUND (R357). Every 240 ticks a SOUND record is written to each enabled session. -/
  | sound
  /-- FAB_AUDIO_SEND (R359). A fabric audio output sends a 48-frame block. -/
  | fabAudioSend (k : Fin 64)
  /-- FAB_AUDIO_BLOCK (R408). A fabric audio block is received for an input. -/
  | fabAudioBlock (src : BitVec 12) (k : BitVec 8) (i : BitVec 8) (tick : DWord) (frames : List (BitVec 24 × BitVec 24))
  /-- SRC_LOCK (R362). A sample-rate converter locks to its source. -/
  | srcLock (k : Fin 68)
  /-- SRC_UNLOCK (R362). A converter loses its source and unlocks. -/
  | srcUnlock (k : Fin 68)
  /-- JACK_DETECT_SAMPLE (R366). Every 20 ms the jack block samples its detect switch. -/
  | jackDetectSample (low : Bool)
  /-- JACK_CLASSIFY (R367). Every 20 ms the block classifies the accessory. -/
  | jackClassify (micMv tipMv : BitVec 16)
  /-- BUTTON_SAMPLE (R368). Every 5 ms the block samples the headset buttons. -/
  | buttonSample (micMv : BitVec 16)
  /-- CLK_LOSS (R374). An I2S port loses BCLK or FS. -/
  | clkLoss (k : Fin 2)
  /-- SIGNAL_DETECT (R376). A link with EN 1 detects its peer's signal and enters TRAIN. -/
  | signalDetect (l : Al)
  /-- TRAIN_DONE (R376). A link completes training and enters HELLO. -/
  | trainDone (l : Al) (laneSwap : Bool)
  /-- TRAIN_TIMEOUT (R376). A link not locked within 100 ms returns to DOWN. -/
  | trainTimeout (l : Al)
  /-- HELLO (R385). A HELLO packet is received and feature negotiation proceeds. -/
  | hello (l : Al) (m : HelloMsg)
  /-- ATTEST (R387). An attestation message is received and verified; both passing brings the link UP. -/
  | attest (l : Al) (m : AttestMsg)
  /-- ATTEST_TIMEOUT (R376). Attestation not complete within 200 ms quarantines the link. -/
  | attestTimeout (l : Al)
  /-- QUARANTINE_EXPIRY (R376). 10 s after quarantine the link returns to TRAIN. -/
  | quarantineExpiry (l : Al)
  /-- LINK_LOSS (R384). A link loses lock or replays in vain and its replay buffer and credits reset. -/
  | linkLoss (l : Al)
  /-- RETRAIN (R376). A write of 1 to AL_CTL.RETRAIN forces link loss. -/
  | retrain (r : Req) (l : Al)
  /-- FLIT_SEND (R380). An output link chooses and sends the flit of a slot. -/
  | flitSend (l : Al)
  /-- FLIT_RX (R382). A flit is received, checked and buffered, returning credits. -/
  | flitRx (l : Al) (flit : List Byte)
  /-- REPLAY (R381). A REPLAY packet makes the sender resend every held flit after LACK. -/
  | replay (l : Al) (lack : Byte)
  /-- ELECT (R388). An ELECT packet updates the chip's coordinator candidate. -/
  | elect (l : Al) (serial : DWord) (hops : Byte)
  /-- COORD_CHANGE (R388). After 100 ms without change the chip with the lowest serial becomes coordinator. -/
  | coordChange
  /-- CLAIM_ADDRESS (R389). The coordinator receives a CLAIM and answers with ASSIGN. -/
  | claimAddress (serial : DWord) (claim : Option (BitVec 12))
  /-- ASSIGN (R389). A chip receives ASSIGN and takes its fabric address. -/
  | assign (addr : Option (BitVec 12)) (coord : BitVec 12)
  /-- MEMBERS_CHANGE (R390). A membership change takes effect at its announced instant. -/
  | membersChange (members roots : List (BitVec 12))
  /-- BEACON (R390). Every 10 ms the coordinator sends a BEACON. -/
  | beacon
  /-- REPORT (R390). Every 10 ms each chip sends the coordinator a REPORT. -/
  | report
  /-- BEACON_MISS (R390). A chip missing three BEACONs starts a new election. -/
  | beaconMiss
  /-- CHIP_LOST (R390). The coordinator declares a chip lost after 100 ms without a REPORT. -/
  | chipLost (addr : BitVec 12)
  /-- LOAD_DONE (R394). RT_CTL.LOAD_DONE marks the shadow table ready. -/
  | loadDone (r : Req)
  /-- GO (R394). RT_CTL.GO on the coordinator arms the table swap at RT_GO. -/
  | go (r : Req)
  /-- SWITCHED (R394). At RT_GO the chip inverts its active routing table and starts draining. -/
  | switched
  /-- EP_COLLECT (R394). Every 1 ms the coordinator collects EP_END counts of the old epoch. -/
  | epCollect (inj ended : DWord)
  /-- RETIRED (R394). On RETIRE a chip releases its epoch hold and returns to IDLE. -/
  | retired
  /-- ACQ_TIMEOUT (R397). No exchange within TIME_ACQ_WAIT starts fabric time at 0 on the chip alone. -/
  | acqTimeout
  /-- SYNC_REQ (R399). A child sends SYNC_REQ each millisecond of its fabric time. -/
  | syncReq
  /-- SYNC_ANSWER (R399). A chip receiving SYNC_REQ answers with SYNC_RESP. -/
  | syncAnswer (l : Al) (t1 t2 : DWord)
  /-- SYNC_RESP (R400). A child receiving SYNC_RESP completes the exchange and updates its servo. -/
  | syncResp (l : Al) (t1 t2 t3 t4 : DWord) (hops : Option (BitVec 5))
  /-- HOLDOVER (R401). 8 ms without a completed exchange enters HOLDOVER. -/
  | holdover
  /-- LOC_BIND (R403). The home chip handles a LOC_BIND and grants or refuses the name. -/
  | locBind (name : DWord) (chip : BitVec 12) (head : BitVec 7)
  /-- MIRROR_SLOT_REQUEST (R405). The encoding chip assigns a mirror slot for a remote session. -/
  | mirrorSlotRequest (chip : BitVec 12) (s : Sess) (name : DWord) (snd : BitVec 16)
  /-- STREAM_RELAY (R406). A relayed KCS record arrives at the session's home chip. -/
  | streamRelay (s : Sess) (slot : BitVec 16) (record : List Byte)
  /-- INPUT_PACKET (R407). An INPUT packet delivers a remote event to the console's chip. -/
  | inputPacket (src : BitVec 12) (name : DWord) (ev : InputMsg)
  /-- INPUT_COUNTER (R407). The input sequence counter arrives at its new holder. -/
  | inputCounter (name : DWord) (next : DWord)
  /-- MIG_START (R410). MIG_CMD START begins a migration with RESERVE. -/
  | migStart (r : Req) (auto : Bool)
  /-- RESERVE (R410). Chip B checks and reserves Vb and grants or refuses. -/
  | reserve (m : ReserveMsg)
  /-- PRECOPY_ROUND (R410). A precopy round ends and the migration may converge. -/
  | precopyRound (k : Fin 8)
  /-- MIG_CUTOVER (R410). MIG_CMD CUTOVER freezes Va and copies its final state. -/
  | migCutover (r : Req)
  /-- COPY_COMPLETE (R410). The freeze copy completes and B schedules the cut-over frame. -/
  | copyComplete (k : Fin 8) (c : Option Carried)
  /-- SCHEDULE_ACK (R410). A acknowledges the cut-over frame F_b. -/
  | scheduleAck (k : Fin 8) (m : ScheduleMsg)
  /-- CUT_OVER (R410). At start(F_b) Va stops, MOVED is sent and Vb runs the console. -/
  | cutOver (k : Fin 8) (inbound : Bool)
  /-- FORWARD_END (R410). 0.5 s after cut-over A stops forwarding input and refuses it. -/
  | forwardEnd (k : Fin 8)
  /-- MIG_ABORT (R412). MIG_CMD ABORT undoes a migration before cut-over. -/
  | migAbort (r : Req)
  /-- ACK_DEADLINE (R412). B lacks A's acknowledgement by start(F_b) − 2^22 and fails with code 8. -/
  | ackDeadline (k : Fin 8)
  /-- ABORT_RECEIVED (R412). A receives ABORT and re-admits Va. -/
  | abortReceived (k : Fin 8) (inbound : Bool)
  /-- LOG_SW2 (R420). A write to LOG_SW2 produces a software log record. -/
  | logSw2 (r : Req) (v : Word)
  /-- LOG_DELIVER (R414). A queued log record is delivered when every enabled path has taken it. -/
  | logDeliver
  /-- LOG_PACKET (R414). A collector receives a LOG packet and writes it to its ring. -/
  | logPacket (rec : LogRec)
  /-- FSR_SEND (R418). Advancing FSR_TX_PROD sends a software ring slot as a CTRL packet. -/
  | fsrSend (r : Req) (prod : Word)
  /-- FSR_RX (R418). A software CTRL message is received into the receive ring. -/
  | fsrRx (src : BitVec 12) (payload : List Byte)
  /-- DDR_INIT (R429). DDR_INIT_CMD INIT zeroes uninitialised blocks of the range. -/
  | ddrInit (r : Req)
  /-- DDR_DISCARD (R429). DDR_INIT_CMD DISCARD clears the initialisation bits of the range. -/
  | ddrDiscard (r : Req)
  /-- INIT_DONE (R429). A DRAM initialisation command completes. -/
  | initDone
  /-- PATROL_SCRUB (R434). Patrol scrub reads and corrects the next initialised burst. -/
  | patrolScrub (ch : Fin 6) (found : BurstResult)
  /-- MARCH_START (R447). MARCH_CTL.START starts a march test or is refused. -/
  | marchStart (r : Req)
  /-- MARCH_ABORT (R451). MARCH_CTL.ABORT ends the test after the word in progress. -/
  | marchAbort (r : Req)
  /-- MARCH_DONE (R449). A march test ends and repairs are made. -/
  | marchDone (fails : List MarchFail)
  /-- MARCH_PERIOD (R451). PERIOD hours elapse and an automatic preserving pass starts. -/
  | marchPeriod
  /-- FLUSH (R457). MRAM_CTL.FLUSH writes every changed persistent counter. -/
  | flush (r : Req)
  /-- COUNTER_PERSIST (R455). Once per second the device writes changed persistent counters to MRAM. -/
  | counterPersist
  /-- RING_PROD (R473). A write to RING_PROD posts rectangle commands. -/
  | ringProd (r : Req) (v : Word)
  /-- FILL (R463). A FILL command fills a rectangle with COLOUR. -/
  | fill
  /-- COPY (R467). A COPY command copies a rectangle bit-exactly in segment order. -/
  | copy
  /-- CONVERT (R464). A CONVERT command converts pixels between formats. -/
  | convert
  /-- NOTE (R471). A NOTE command writes AUX to DBASE after earlier writes. -/
  | note
  /-- SETCLIP (R471). A SETCLIP command sets clip rectangles. -/
  | setclip
  /-- BLT_GO (R474). A write to BLT_GO starts the register command or is refused. -/
  | bltGo (r : Req)
  /-- RETRY (R475). BLT_CTL.RETRY runs the failed command again. -/
  | retry (r : Req)
  /-- SKIP (R475). BLT_CTL.SKIP abandons the failed command. -/
  | skip (r : Req)
  /-- CH_ARM (R488). A write of 1 to CHn_CTL.ARM arms the shadow, starting an idle channel. -/
  | chArm (r : Req) (c : Chan)
  /-- DISARM (R488). CHn_CTL.DISARM clears ARM. -/
  | disarm (r : Req) (c : Chan)
  /-- CH_ABORT (R490). CHn_CTL.ABORT stops the channel and abandons its remaining bytes. -/
  | chAbort (r : Req) (c : Chan)
  /-- HANDOVER (R487). A descriptor ends and the shadow is copied in, or the channel idles. -/
  | handover (c : Chan)
  /-- DESC_FETCH (R489). A linked descriptor fetch completes and sets ARM. -/
  | descFetch (c : Chan)
  /-- BURST (R485). A channel starts a burst when its request line allows. -/
  | burst (c : Chan)
  /-- DMA_RESUME (R493). A write to DMA_RESUME resumes the selected frozen channels. -/
  | dmaResume (r : Req) (mask : BitVec 16)
  /-- DELIVER (R507). The event controller delivers an eligible source to a free hart. -/
  | deliver
  /-- CLAIM (R508). A hart's read of CLAIM takes the delivered source into service. -/
  | claim (c : Hart)
  /-- COMPLETE (R510). A hart's write to COMPLETE returns its source to idle. -/
  | complete (c : Hart) (v : Word)
  /-- WITHDRAW (R509). A delivered source is withdrawn when its level, enable or target changes. -/
  | withdraw (src : Fin 512)
  /-- MTIP (R501). The time CSR reaches a hart's MTIMECMP and MTIP rises. -/
  | mtip (c : Hart)
  /-- TMR_GO (R514). A write to TMR_GO starts the selected timers on one edge. -/
  | tmrGo (r : Req) (mask : BitVec 16)
  /-- TMR_STOP (R514). A write to TMR_STOP stops the selected timers. -/
  | tmrStop (r : Req) (mask : BitVec 16)
  /-- TICK (R515). A running timer ticks and its counter moves under its mode. -/
  | tick (n : Tmr)
  /-- CMP_ARM (R517). A write to CMPk_HI loads the compare value and arms the channel. -/
  | cmpArm (r : Req) (n : Tmr) (k : Fin 4) (hi : Word)
  /-- PER_WRITE (R516). A write to PER_HI loads a new period. -/
  | perWrite (r : Req) (n : Tmr) (hi : Word)
  /-- FUNC_CHANGE (R526). A change of a pin's function field takes effect over two LCLK cycles. -/
  | funcChange (p : Pin)
  /-- PIN_CHANGE (R528). A pin level changes and the pattern-match units evaluate. -/
  | pinChange (p : Pin) (level : Bool)
  /-- GPIO_LOCK_ARM (R529). A GPIO_LOCKx write with 0xC3 arms a pin lock. -/
  | gpioLockArm (r : Req) (b : Fin 4) (mask : BitVec 16)
  /-- GPIO_LOCK (R529). A matching GPIO_LOCKx write with 0x3C locks the pins. -/
  | gpioLock (r : Req) (b : Fin 4) (mask : BitVec 16)
  /-- UART_TX4 (R533). A write to UART_TX4 pushes 4 bytes. -/
  | uartTx4 (r : Req) (v : Word)
  /-- UART_TX1 (R534). A write to UART_TX1 pushes one byte. -/
  | uartTx1 (r : Req) (v : Byte)
  /-- UART_RX4 (R533). A read of UART_RX4 pops 4 bytes. -/
  | uartRx4 (r : Req)
  /-- UART_RX1 (R534). A read of UART_RX1 pops one byte with its status. -/
  | uartRx1 (r : Req)
  /-- UART_RX_BYTE (R532). The UART receives a character into its FIFO. -/
  | uartRxByte (b : Byte) (parityErr framingErr brk : Bool)
  /-- UART_TX_BYTE (R532). The UART finishes transmitting a character. -/
  | uartTxByte
  /-- XSPI_CMD (R534). A write to XSPI_CMD starts an xSPI transfer. -/
  | xspiCmd (r : Req) (v : Word)
  /-- XSPI_DATA_PUSH (R533). A write to XSPI_DATA pushes 4 bytes. -/
  | xspiDataPush (r : Req) (v : Word)
  /-- XSPI_DATA_POP (R533). A read of XSPI_DATA pops 4 bytes. -/
  | xspiDataPop (r : Req)
  /-- XSPI_DONE (R535). An xSPI transfer completes. -/
  | xspiDone (rx : List Byte)
  /-- I3C_CMD (R534). A write to I3C_CMD starts an I2C/I3C transfer. -/
  | i3cCmd (r : Req) (v : Word)
  /-- I3C_DATA_PUSH (R533). A write to I3C_DATA pushes 4 bytes. -/
  | i3cDataPush (r : Req) (v : Word)
  /-- I3C_DATA_POP (R533). A read of I3C_DATA pops 4 bytes. -/
  | i3cDataPop (r : Req)
  /-- I3C_DONE (R535). An I2C/I3C transfer completes. -/
  | i3cDone (nack arbLost : Bool) (rx : List Byte)
  /-- IBI_RX (R532). An I3C target raises an in-band interrupt. -/
  | ibiRx (addr : BitVec 7) (payload : Byte)
  /-- I3C_IBI (R534). A read of I3C_IBI pops the oldest in-band interrupt. -/
  | i3cIbi (r : Req)
  /-- ATTACH (R536). A USB device attaches and is enumerated. -/
  | attach (p : Fin 2) (speed : Fin 3) (dev : UsbDev)
  /-- DETACH (R537). A USB device detaches, a keyboard detach giving RELEASE_ALL. -/
  | detach (p : Fin 2)
  /-- USB_REPORT (R537). A polled HID report becomes KEY or REL input events. -/
  | usbReport (p : Fin 2) (rep : List Byte)
  /-- OVERCURRENT (R536). OC# low removes port power. -/
  | overcurrent (p : Fin 2)
  /-- MDIO_CMD (R541). A write to MDIO_CMD starts an MDIO operation. -/
  | mdioCmd (r : Req) (v : Word)
  /-- MDIO_DONE (R541). An MDIO operation completes. -/
  | mdioDone (data : BitVec 16)
  /-- SGMII_AN (R540). SGMII auto-negotiation reports the PHY's link state. -/
  | sgmiiAn (linkUp : Bool) (speed : Fin 3) (duplex : Bool)
  /-- REQUEST_SERVICE (R543). A request for SERVICE changes the mode or is refused. -/
  | requestService (r : Req)
  /-- REQUEST_DEGRADED (R543). A request for DEGRADED changes the mode or is refused. -/
  | requestDegraded (r : Req)
  /-- REQUEST_DRAIN (R543). A request for DRAIN changes the mode or is refused. -/
  | requestDrain (r : Req)
  /-- REQUEST_REST (R562). A request for REST enters REST if all conditions hold. -/
  | requestRest (r : Req)
  /-- POWER_ON_END (R587). The power-on sequence ends and the chip enters ROOT. -/
  | powerOnEnd (strap : BitVec 2)
  /-- UART_IMAGE (R549). A replacement image over the UART is checked and run. -/
  | uartImage (img : List Byte)
  /-- RESET_PIN (R589). RESET# low for 1 µs causes a chip reset. -/
  | resetPin
  /-- PWRGOOD_FALL (R589). A fall of PWRGOOD causes a chip reset. -/
  | pwrgoodFall
  /-- CHIP_RESET (R573). SYS_CORE_CTL.CHIP_RESET with 0xA5 causes a software chip reset. -/
  | chipReset (r : Req) (v : Word)
  /-- RESTART (R564). SYS_CORE_CTL.RESTART with 0xA5 performs a core restart. -/
  | restart (r : Req) (v : Word)
  /-- WDOG_KICK (R567). A write to SYS_WDOG_KICK restarts the watchdog count. -/
  | wdogKick (r : Req) (v : Word)
  /-- WDOG_WARN (R567). The watchdog reaches half its timeout. -/
  | wdogWarn
  /-- WDOG_EXPIRY (R567). The watchdog times out and performs a core restart. -/
  | wdogExpiry
  /-- TRIAL_TIMEOUT (R567). BOOT_OK not written within 60 s of a trial boot restarts the cores. -/
  | trialTimeout
  /-- TRIAL (R567). SYS_BOOT_SEL.TRIAL selects a trial boot of the other slot. -/
  | trial (r : Req)
  /-- BOOT_OK (R567). SYS_BOOT_SEL.BOOT_OK makes the running slot ACTIVE. -/
  | bootOk (r : Req)
  /-- MF_OK (R559). MF_CTL.OK starts the management feature negotiation. -/
  | mfOk (r : Req)
  /-- EXTEND (R550). SEC_CMD EXTEND extends MEAS with MEAS_IN. -/
  | extend (r : Req)
  /-- QUOTE (R557). SEC_CMD QUOTE writes a signed quote over a nonce. -/
  | quote (r : Req)
  /-- UNLOCK (R561). SEC_CMD UNLOCK checks a token and opens debug. -/
  | unlock (r : Req)
  /-- EPOCH (R558). SEC_CMD EPOCH raises the OTP security epoch. -/
  | epoch (r : Req)
  /-- UNLOCK_TOKEN (R560). The TAP instruction UNLOCK_TOKEN delivers an unlock token. -/
  | unlockToken (token : List Byte)
  /-- UNLOCK_CHAL (R560). The TAP instruction UNLOCK_CHAL returns the current challenge. -/
  | unlockChal
  /-- PROF_WRITE (R554). PROF_CMD WRITE installs and checks a profile blob. -/
  | profWrite (r : Req) (slot : Fin 4)
  /-- PROF_SWITCH (R555). PROF_CMD SWITCH starts waiting to apply another profile. -/
  | profSwitch (r : Req) (slot : Fin 4)
  /-- PROF_CANCEL (R555). PROF_CMD CANCEL ends a waiting switch. -/
  | profCancel (r : Req)
  /-- APPLIED (R555). The waited-for conditions hold and the profile is applied. -/
  | applied
  /-- WAKE (R563). An enabled wake source ends REST and runs ROOT. -/
  | wake (src : WakeSrc) (strap : BitVec 2)
  /-- TAMPER (R569). A tamper sensor fires, zeroising secrets and entering LOCKOUT. -/
  | tamper (sensors : BitVec 7)
  /-- PWR_WARN (R571). A rail falls below its warning level and PCLK halves. -/
  | pwrWarn (core sram : Bool) (mv : BitVec 12)
  /-- PWR_RECOVER (R571). Rails hold above recovery for 10 µs and the warning ends. -/
  | pwrRecover
  /-- SUPPLY_RESET (R570). A rail below its reset level for 1 µs causes a chip reset. -/
  | supplyReset
  /-- THERM_WARN (R572). The junction reaches 115 °C. -/
  | thermWarn (temp : BitVec 16)
  /-- THERM_OK (R572). The junction falls below 110 °C. -/
  | thermOk (temp : BitVec 16)
  /-- THERMAL_TRIP (R572). The junction reaches 125 °C and the chip resets and holds. -/
  | thermalTrip (temp : BitVec 16)
  /-- AON_READY (R591). The always-on domain becomes ready after 256 good SCLK ticks. -/
  | aonReady
  /-- CRYSTAL_TIMEOUT (R591). A crystal not started within 2 s holds the chip in reset. -/
  | crystalTimeout
  /-- RESEND (R378). A source resends an end-to-end item of the CTRL, INPUT, MIGRATE, LOG or LINK class that is still unacknowledged when its resend time runs out. -/
  | resend (cls : Fin 8) (dst : BitVec 12)
  /-- CORE_MEMORY_ACCESS (R424). An application core's load, store or AMO reaches the glyph store, DRAM, audio memory, MRAM or another memory region, is performed or faults, and its writes are stamped and squash lines. -/
  | coreMemoryAccess (c : Hart) (addr : BitVec 48) (size : Nat) (acc : CoreAcc)
  /-- REGISTER_READ (R6). A register read whose behaviour goes beyond returning the value, such as the latching of an _HI word by a read of its _LO word. -/
  | registerRead (r : Req) (addr : BitVec 48) (size : Nat)
  /-- STORE_TAKES_EFFECT (R201). A posted shared-window store of a line engine takes effect at its memory, and is stamped and squashes under R232. -/
  | storeTakesEffect (e : Le)
  /-- TRAINED (R425). A DDR channel completes training after it is enabled, setting DDR_STAT.TRAINED, or POP_ERR if the population checks fail. -/
  | trained (ch : Fin 6) (spd : List SpdInfo)
  /-- MRAM_WORD_WRITE (R454). A posted MRAM word write leaves the write buffer and completes at the array. -/
  | mramWordWrite
  /-- TRIP_END (R572). After a thermal trip, the junction falls below 115 °C and the chip is released from the held reset into ROOT. -/
  | tripEnd (temp : BitVec 16)
  /-- RESET_RELEASE (R589). RESET# rises after holding the chip in reset, and the chip leaves reset and enters ROOT. -/
  | resetRelease (strap : BitVec 2)
  /-- IN_L1 (R57). A host lane's link enters or leaves the L1 power state (L1.1, L1.2) while it stays up, changing HP_STAT.IN_L1. -/
  | inL1 (n : Lane) (on : Bool)
  /-- CLK_OK (R374). BCLK and FS return on an I2S port and I2Sx_STAT.CLK_OK becomes 1. -/
  | clkOk (k : Fin 2) (hz : BitVec 24)
  /-- LOCATOR_UNBIND (R403). A console name's home chip receives an UNBIND, or a release of an abandoned request, and removes the name's locator entry. -/
  | locatorUnbind (name : DWord)
  deriving DecidableEq, Repr

end Sys2Proof
end

