-- ==== Sys2Proof/Decode.lean ====
section
/-! DEFINITION. Decoding: the block has no instruction words. spec/opcode_table.json gives its rows no bits, so no word
spells a command. -/
namespace Sys2Proof

/-- The command that a word spells by the bits of spec/opcode_table.json: no row has any. -/
def decodeTableWord (_nbits _w : Nat) : Option Instr := none

end Sys2Proof
end

