-- ==== Sys2Proof/Config.lean ====
section
/-! DEFINITION. What one chip fixes and the values that the spec leaves open. Every constant is opaque: nothing can be
proved about its value. Assumption log entries 3, 4 and 5 say what each stands for. -/
namespace Sys2Proof.Config

/-- The k-th free value drawn: a value that the spec leaves open. -/
opaque freeWord : Nat → Word
/-- The chip serial number, bits [55:0] (R61, R573). -/
opaque chipSerial : BitVec 56
/-- The device identity's OTP words: SM3 of the vendor key, SM3 of the owner key, the device's public key (R549, R552, R556). -/
opaque otpVendorHash : List Byte
opaque otpOwnerHash : List Byte
/-- SM3 of a byte string (GB/T 32905): 32 bytes, of which the caller takes 32. -/
opaque sm3 : List Byte → List Byte
/-- Whether an SM2 signature (64 bytes) over a message verifies with a public key (64 bytes) (R548, GB/T 32918.2). -/
opaque sm2Verify : (key msg sig : List Byte) → Bool
/-- The SM2 signature of the device identity key over a message, the k-th made. -/
opaque sm2Sign : (k : Nat) → (msg : List Byte) → List Byte
/-- The AEADs of the session engine's suites (R325): 1 SM4-GCM, 2 AES-128-GCM. Ciphertext and tag. -/
opaque aeadSeal : (suite : Nat) → (key nonce additional plain : List Byte) → List Byte
/-- Opening ciphertext and tag: none where authentication fails. -/
opaque aeadOpen : (suite : Nat) → (key nonce additional sealed : List Byte) → Option (List Byte)
/-- The check of a peer's attestation (R387): its certificate chain against the trust anchor's hash, and its signature over both
nonces and both HELLO packets and its measurement. -/
opaque chainVerify : (anchorHash signed chain sig : List Byte) → Bool
/-- Whether a DRAM row has a hard or a soft spare left (R435, R437): kept in the modules. -/
opaque hardSpare : (channel row : Nat) → Bool

/-- The forward DCT of a JPEG block (R291): 64 level-shifted samples in row order to 64 coefficients in row order, each in
units of 2^-16. ISO/IEC 10918-1 gives the ideal transform and not an encoder's arithmetic. -/
opaque forwardDct : (samples : List Int) → List Int
/-- The 8 × 8 chrominance samples that 4:2:0 sampling takes from a 16 × 16 plane (R291): no filter is stated. -/
opaque chromaHalf : (plane : List Nat) → List Nat
/-- The frame at a place of a tick that a sample-rate converter puts out, from the frames of its source that its buffer holds,
oldest first: the spec gives its delay and not its filter (R362). -/
opaque srcFrame : (place : Nat) → (buffer : List (Int × Int)) → Int × Int
/-- How many frames converter k takes from its source in a tick, by the frames that wait: it rates its source by the fill of
its buffer, by a rule the spec does not give (R362). -/
opaque srcTake : (k : Nat) → (tick : Nat) → (fill : Nat) → Nat
/-- A 24-bit sample in a 16-bit I2S slot: the spec does not give its rounding (R361). -/
opaque slot16 : (sample : Int) → BitVec 16
/-- Maud and Naud by the pixels of a frame and its period, which give the pixel clock: the spec says only that they are derived
from it (R360). -/
opaque dpMaud : (pixels period : Nat) → Nat × Nat
/-- The bytes of a fabric message whose layout the spec does not give, by the model's number for its kind and its contents
(R378, R388 to R410). -/
opaque fabricMsg : (kind : Nat) → (args : List Nat) → List Byte
/-- The kind and contents that a received message's bytes carry, by the same numbers. -/
opaque fabricRead : (bytes : List Byte) → Nat × List Nat
/-- A byte of the lead buffer in a PCLK cycle (R160, R422): which tokens a composed line takes, and how its pixels lie there, is
not stated. -/
opaque leadByte : (cycle address : Nat) → Byte
/-- A byte of the boot ROM (R422): the spec gives what the boot does (R549), not the ROM's contents. -/
opaque bootRomByte : Nat → Byte
/-- The TYPE of a log record, which its source defines (R413): by page and cause. -/
opaque logType : (page cause : Nat) → Byte

end Sys2Proof.Config
end

