-- ==== Sys2Proof/Machine/State.lean ====
section
/-! DEFINITION. The state of the KN-128 as plain data. Registers live in one sparse map keyed by page and offset whose
unlisted words read their reset values (Machine/RegMap.lean); memories live in one list of cells in canonical form;
what the spec gives a block beside its registers stands in a structure per block. Every structure's default values are
its values after reset. -/
namespace Sys2Proof.Machine

/-- A sparse map: keys strictly rising, no entry equal to the default of its key (Machine/Sparse.lean). -/
abbrev Sparse (α : Type) := List (Nat × α)

/-- Clocks (R4, R5, R397 to R400, R500, R571). cyc: PCLK cycles since chip reset (E.CYC). base: full-rate PCLK periods
since chip reset, from which the time CSR and SCLK are counted. ft: fabric time. ftAcc: the carried fraction of ft, in
units of 1/307,200,000 (256 parts of 1,200,000 periods in 1 ms). started: fabric time has started (R397); locked: TIME has reported lock
since chip reset (R173). aon: full-rate periods for which the always-on domain had been ready before base was 0, aonFrom: the
base at which it became ready (R574, R591). timeAdj: what wakes have added to the time CSR (R500). restAt: base at entry to
REST. timeFrom: base at which TIME last began to wait (R397): the reset's, or the last wake's (R563). -/
structure Clock where
  cyc : Nat := 0
  base : Nat := 0
  ft : Nat := 0
  ftAcc : Nat := 0
  started : Bool := false
  locked : Bool := false
  aon : Nat := 0
  aonFrom : Nat := 0
  aonReady : Bool := false
  timeAdj : Nat := 0
  restAt : Nat := 0
  timeFrom : Nat := 0
  deriving DecidableEq, Repr

/-- A posted write waiting in a lane's ingress (R76): function, BAR, offset, bytes (none where its byte enable is 0),
the Relaxed Ordering attribute, and the floor and shared credits that hold its data (R81). -/
structure Tlp where
  fn : Fn
  bar : Bar
  off : Nat
  data : List (Option Byte)
  relaxed : Bool
  floor : Nat
  share : Nat
  deriving DecidableEq, Repr

/-- What a lane holds beside its registers. queue: ingress, oldest first (R76). shareBusy: shared credits that hold
data (R82). lastCyc: the cycle of the lane's latest commit (R78). pendingIn: events waiting for the host ring (R94).
t0 and block: the tick of ring frame 0 and the next playback block (R353); underrun (R354). play: frames read for
coming ticks. capNext: the first tick of the block being captured (R355); cap: its frames so far. lastSeq: the
sequence number of the last delivered event (R91's GAP). nextSeq is kept per console (Dev.seqs). -/
structure LaneSt where
  queue : List Tlp := []
  shareBusy : Nat := 0
  lastCyc : Option Nat := none
  pendingIn : List InputMsg := []
  t0 : Option Nat := none
  block : Nat := 0
  underrun : Bool := false
  play : List (Nat × Frame24) := []
  capNext : Option Nat := none
  cap : List (Option Frame24) := []
  lastSeq : Nat := 0
  deriving DecidableEq, Repr

/-- HD_ADMIT.STATE (R148). -/
inductive Adm where
  | off | waiting | running | stopping
  deriving DecidableEq, Repr

/-- One composed line in the lead buffer (R161): frame and line number, its pixels, the effective values of the head's
words it was composed with (those that differ from reset; the squash mapping of R165 and R286 ask for them), the rectangles
of the badges it shows (R287), and whether it is final (R163). -/
structure LineBuf where
  frame : Nat
  line : Nat
  pixels : List Word
  regs : List (Nat × Word)
  badges : List (Int × Int × Nat × Nat)
  final : Bool
  deriving DecidableEq, Repr

/-- A line whose sample instant passed before it was composed, as memory and registers stood then (R39, R41): the line, its
HD_LSTAT flags and the poisoned bursts it meets. -/
structure DueLine where
  buf : LineBuf
  flags : Nat
  hits : List Nat
  deriving DecidableEq, Repr

/-- A committed PRESENT (R86), or the state latched when FENCE consistency took effect (R40): tag, stamp, and the head
words that FENCE consistency latches at it (R142). -/
structure PresentRec where
  tag : Word
  stamp : Nat
  regs : List (Nat × Word)
  deriving DecidableEq, Repr

/-- A write remembered for R87: its stamp, the ranges of memory it wrote (address, length), whether the host made it,
whether it has been counted. -/
structure FenceWr where
  stamp : Nat
  parts : List (Nat × Nat)
  byHost : Bool
  counted : Bool
  deriving DecidableEq, Repr

/-- What coding left (R283, R312, R313). tiles: the delta variant's coded tiles by number, in row-major order, with the
record that codes each, none for a tile coded semantically; keyTiles: the same of the key variant; copies, cellRecs,
keyCells: COPY_RECT records and cell records; flags: of the delta variant's FRAME_BEGIN. hashes, lines: the journal (R281).
cell, layer, palette: cell eligibility, and the values behind CELL_LAYER and the glyph base, and the palette. -/
structure Coded where
  tiles : List (Nat × Option (List Byte))
  keyTiles : Option (List (Nat × Option (List Byte)))
  copies : List (List Byte)
  cellRecs : List (List Byte)
  keyCells : List (List Byte)
  flags : Nat
  hashes : List Nat
  lines : List Nat
  cell : Bool
  layer : List Word
  palette : List Word
  deriving DecidableEq, Repr

/-- A frame pending in the encoder (R311): number, start instant, the dictionary bank it is pinned to (R295) and that
bank's epoch, whether a mirror slot needed a key at its start (R313), whether FENCE consistency was in effect, its active
width and height and sample instants of its first and last line (R280: the timing may change while it is pending), its
surface (R282), the lines taken so far, the coded result, and its pixels still in ENC_BACKLOG. -/
structure EncFrame where
  num : Nat
  start : Nat
  bank : Nat
  epoch : Nat
  key : Bool
  fence : Bool
  wd : Nat
  ht : Nat
  s0 : Nat
  s1 : Nat
  surf : Nat
  lines : List LineBuf
  coded : Option Coded
  backlog : Nat
  deriving DecidableEq, Repr

/-- What a head holds beside its registers.
Admission: adm, code, need, eff, scan, line: HD_ADMIT, HD_LEAD.EFF and HD_TOKENS (R148). reqAt: the unanswered requests
in order (whether STATE was STOPPING, the commit stamp and the commit cycle, R152). stopAt: the commit of the write that set STOPPING (R155).
first, cur, last: the run's first frame, the frame in progress, the last frame started since chip reset (R154).
Run-ahead: lines: the lead window, oldest first. next, high, fin: the line to compose next, the first line never
composed, the line to become final next. due: lines to compose whose sample instant has passed, as they stood then (R39).
sq, sqCyc: squash events of this frame and the cycle of the latest (R167).
Consistency: fence: FENCE is in effect; consAt: the commit of a CONSIST change that waits (R157); fenceAt: when FENCE
took effect; shown: the state that FENCE shows; presents: PRESENTs committed and not yet shown (R86); writes: writes
that R87 may still find.
clearAt: a lane reset whose clearing of the allocations waits for the start of this frame (R602); held: until then, the
features that the picture keeps (R106). detWas: the cycle of the latest change of DETACHED and its value at the start of that
cycle (R109).
Migration: reserved: 1 while the head holds tokens for an inbound migration and its first frame is not known, 2 once that is
scheduled, until the cut-over (R410); moved: MOVED is owed to the console's viewers when no frame is pending: NEXT_FRAME, chip
and head of the new head, and the slots there of this chip's sessions (R320).
Physical output: front: the front output frame; shownOut: a frame has been shown; written: lines of the frame in
progress written to the back frame (R171); spoiled: the frame in progress, withheld or not to be shown.
Encoder: region: hash-store pages held; pages: which ones, in the region's order (R279); tiles, hashes: tile and line hashes of the last committed frame; frames: frames
pending; granted: no frame has committed since the grant (R280); releasing: the region returns when no frame is pending;
cell, layer, palette: what the last committed frame left in the viewers' mirrors (R289); hctl: ENC_HCTL in effect (R321);
layerWr: writes that R286 and R290 ask about: 0 for a register, 1 for memory bytes, 3 and 4 for palettes 0 and 1, then the
stamp and the range of BAR2 offsets written; surf: the surface of the latest encoded frame (R282); glyphDirty: glyph bits to clear at the next commit (R302).
Binding: bindAt: base at the latest BIND (R403); abandoned: names whose requests an UNBIND abandoned (R108). -/
structure HeadSt where
  adm : Adm := .off
  code : Nat := 0
  need : Nat := 0
  eff : Nat := 0
  scan : Nat := 0
  line : Nat := 0
  reqAt : List (Bool × Nat × Nat) := []
  stopAt : Option Nat := none
  first : Nat := 0
  cur : Option Nat := none
  last : Option Nat := none
  lines : List LineBuf := []
  next : Nat × Nat := (0, 0)
  high : Nat × Nat := (0, 0)
  fin : Nat × Nat := (0, 0)
  due : List DueLine := []
  sq : Nat := 0
  sqCyc : Option Nat := none
  fence : Bool := false
  consAt : Option Nat := none
  fenceAt : Nat := 0
  shown : Option PresentRec := none
  presents : List PresentRec := []
  writes : List FenceWr := []
  clearAt : Option Nat := none
  held : Option Word := none
  detWas : Option (Nat × Bool) := none
  reserved : Nat := 0
  moved : Option (Nat × Nat × Nat × List (Nat × Nat)) := none
  front : Nat := 0
  shownOut : Bool := false
  written : Nat := 0
  spoiled : Option Nat := none
  region : Nat := 0
  pages : List Nat := []
  tiles : List Nat := []
  hashes : List Nat := []
  frames : List EncFrame := []
  granted : Bool := false
  releasing : Bool := false
  cell : Bool := false
  layer : List Word := []
  palette : List Word := []
  hctl : Word := 0x4B07
  layerWr : List (Nat × Nat × Nat × Nat) := []
  surf : Nat := 1
  glyphDirty : Nat := 0
  bindAt : Nat := 0
  abandoned : List DWord := []
  deriving DecidableEq, Repr

/-- A result on its way in a line engine (latencies of R229): what it sets when its cycle comes. -/
inductive Flight where
  | mul (v : Word) | mac (p : Word) | load (v : Word)
  deriving DecidableEq, Repr

/-- A shared access of an engine that is outstanding (R201): the cycle of its trigger, the physical address, the view (0
plain, 1 set alias, 2 clear alias), its length in bytes. A store carries its bytes. A load has the size of the whole value
and whether it is sign-extended; part says which access of a split access it is (0 not split, 1 the first, 2 the second, which
carries the first one's bytes once that has completed, R233); drop: it completes without updating L.RES (R271). -/
structure Shared where
  trig : Nat
  phys : Nat
  view : Nat
  len : Nat
  bytes : List Byte
  load : Option (Nat × Bool)
  part : Nat
  drop : Bool
  deriving DecidableEq, Repr

/-- A string operation in progress (R211): move (descending or not) or fill (its value), the cycle of its trigger, and the
address and word of the instruction that started it with the move that did (R214); zeroAtEnd: a swap left it running (R271);
moved: the bytes moved so far. -/
structure StrOp where
  fill : Bool
  down : Bool
  val : Word
  trig : Nat
  pc : Nat
  iword : Word
  moveB : Bool
  zeroAtEnd : Bool
  moved : Nat
  deriving DecidableEq, Repr

/-- A beam wait in progress (R217, R218): its head, line and slot, and the instant c that it counts from; fresh: the head was
not RUNNING at the trigger (R219); row: it was started by a trigger row, not by the instruction at LE_PC. -/
structure WaitOp where
  head : Nat
  line : Nat
  slot : Nat
  c : Nat
  fresh : Bool
  row : Bool
  deriving DecidableEq, Repr

/-- LE_STAT.STATE (R265). -/
inductive LeState where
  | stopped | running | halted | faulted
  deriving DecidableEq, Repr

/-- A line engine beside its page registers: its state, its ports (R194), and
flights: results on their way, with their cycles (R229); macAt: the latest TMAC to complete, its cycle and product (R197).
shared: shared accesses outstanding, oldest first; str: the string operation; hreg: queued head-register writes: trigger
cycle, head, offset, value (R222).
hregWord: head and offset of the latest head-register write to commit (R223).
storeAt, storeDone: the first cycles in which the latest local and shared store have taken effect (R200, R254, R257); sharedAt, hregAt: one more than the cycle of the
latest shared access or head-register write to complete (R202, R227); doneCnt: the latest cycle in which shared accesses
completed, and how many did (R201); halfAt: the first cycle in which an event or halt may enter after a split local access
(R233); localFrom: the first cycle in which a local access of the engine may follow the latest shared access to its local memory
(R204).
wait: the beam wait that stalls the instruction at LE_PC. stallAt: the cycle from which that instruction stalls (R183).
ready: the first cycle in which the next instruction may issue.
Fetch (R241 to R256): cache: lines held, latest used first; fbuf; missing: the line awaited and the cycle in which the miss
was found; btb: by index, the branch's address, its target and whether it is guarded; lbuf: words captured, lbufOn: engaged;
stale: words fetched before a store changed them (R253); lpPrev: LP.COUNT and LP.STATE before the latest write to them, with
that write's cycle (R250); fq: the words fetched ahead, the one at LE_PC first, each with its address, whether the loop buffer
gave it, whether it was predicted taken and the cycle of its F2, fpc: the address that fetch goes on with, fcyc: the cycle of its F1 (R245);
invalReq: an INVAL waits for the next instruction boundary (R255); syncAt: the issue cycle of a FETCH_SYNC that has not taken effect (R254).
Events and debug (R259 to R267): evIn, evWait, evPred, evSrc: E.ESTATE; lineAt: the head and frame whose LINE event has been
raised or cancelled; pendNow: the latest cycle in which E.EPEND bits were set, and which (R260); lateFault: a fault of a cycle in
which LE_FAULT.VALID was 1: its cycle, what LE_FAULT, LE_FAULT_PC, LE_FAULT_WORD and LE_FAULT_ADDR would take (R238); haltReq: a halt requested, with its HALT_WHY; why: HALT_WHY; waitHeld; useHeld: a wait that the next
instruction triggers counts from E.EWAITC; stepping; skipBp: breakpoints do not match the next instruction; the
latches of R228, R259 and R273. armedAt, runAt: fabric time when ARM became 1, and when the engine last became RUNNING. -/
structure Engine where
  st : LeState := .stopped
  g : List Word := List.replicate 32 0
  p1 : Bool := false
  p2 : Bool := false
  p3 : Bool := false
  op0 : Word := 0
  op1 : Word := 0
  res0 : Word := 0
  res1 : Word := 0
  mop : Word := 0
  macc : Word := 0
  mres : Word := 0
  ldata : Word := 0
  lres : Word := 0
  blink : Word := 0
  lpCount : Word := 0
  lpState : Word := 0
  stSrc : Word := 0
  stDst : Word := 0
  stLen : Word := 0
  bmHead : Word := 0
  hrSel : Word := 0
  khi : Word := 0
  kres : Word := 0
  flights : List (Nat × Flight) := []
  macAt : Option (Nat × Word) := none
  shared : List Shared := []
  str : Option StrOp := none
  hreg : List (Nat × Nat × Nat × Word) := []
  storeAt : Nat := 0
  storeDone : Nat := 0
  sharedAt : Nat := 0
  hregAt : Nat := 0
  hregWord : Nat × Nat := (0, 0)
  wait : Option WaitOp := none
  stallAt : Option Nat := none
  ready : Nat := 0
  cache : List (Nat × List Byte) := []
  fbuf : Option (Nat × List Byte) := none
  missing : Option (Nat × Nat) := none
  btb : Sparse (Nat × Nat × Bool) := []
  lbuf : List (Nat × Word) := []
  lbufOn : Bool := false
  stale : List (Nat × Word) := []
  lpPrev : Option (Nat × Word × Word) := none
  fq : List (Nat × Word × Bool × Bool × Nat) := []
  fpc : Nat := 0
  fcyc : Nat := 0
  invalReq : Bool := false
  doneCnt : Nat × Nat := (0, 0)
  halfAt : Nat := 0
  localFrom : Nat := 0
  pendNow : Nat × Nat := (0, 0)
  lateFault : Option (Nat × Nat × Nat × Word × Nat) := none
  syncAt : Option Nat := none
  epc : Word := 0
  evIn : Bool := false
  evWait : Bool := false
  evPred : Nat := 0
  evSrc : Bool := false
  emask : Word := 0
  epend : Nat := 0
  ewaitc : Nat := 0
  mbox : Word := 0
  lineAt : Option (Nat × Nat) := none
  haltReq : Option Nat := none
  why : Nat := 0
  waitHeld : Bool := false
  useHeld : Bool := false
  stepping : Bool := false
  skipBp : Bool := false
  latchCyc : Option Word := none
  latchFt : Option Word := none
  latchEw : Option Word := none
  latchIss : Option Word := none
  armedAt : Nat := 0
  runAt : Nat := 0
  deriving DecidableEq, Repr

/-- Keys and framing of a session (R325 to R329) that its descriptor does not show: keys per direction, staged keys,
the plaintext received and not yet split into records, the records of a relayed frame that is still arriving (R406),
the chip and mirror slot that encode a console of another chip, whether that chip's STREAM_START is still to come and the
records that wait behind it (R310), a record of another content type that waits for room (R328), injected records that wait
for room with their types and key swaps (R329), and the software indexes read last (R327). -/
structure SessSt where
  txKey : List Byte := []
  rxKey : List Byte := []
  txStaged : Option (List Byte) := none
  rxStaged : Option (List Byte) := none
  rxBuf : List Byte := []
  relay : List (List Byte) := []
  remoteSlot : Option (Nat × Nat) := none
  awaitStart : Bool := false
  early : List (List Byte) := []
  other : Option (List Byte) := none
  injects : List (Nat × List Byte × Bool) := []
  txCons : Nat := 0
  rxcProd : Nat := 0
  rxpCons : Nat := 0
  deriving DecidableEq, Repr

/-- A mirror slot of the encoder (R302, R405): the head it views, ACK_EPOCH, NEED_KEY and when it was last set (R43), the session's home chip (none for a
session of this chip), its index and sound entry, epochs whose DICT_EVICT is still to be sent (R299), a DICT_RESET still to be
sent (R300). -/
structure Mirror where
  head : Nat
  ack : Nat
  needKey : Bool
  needAt : Nat
  chip : Option Nat
  sess : Nat
  snd : Nat
  evict : List Nat
  reset : Bool
  deriving DecidableEq, Repr

/-- Encoder-wide state: when the dictionary was last swapped (a full-rate period count, R297), mirror slots by number,
sessions by index, the staged key words SESS_KEY0 to SESS_KEY7, and the session that controls a console, by name (R330;
one more than its index, 0 for none), the session of another chip that controls a console of this one, by name (chip and
index, R330), the state words of the dictionary's indexes (R293), whether a rebuild period that fell due has not started a
rebuild yet (R297). -/
structure EncSt where
  swapAt : Nat := 0
  mirrors : Sparse (Option Mirror) := []
  sessions : Sparse SessSt := []
  keyStage : List Word := List.replicate 8 0
  control : Sparse Nat := []
  holders : Sparse (Option (Nat × Nat)) := []
  states : Sparse Nat := []
  periodDue : Bool := false
  deriving DecidableEq, Repr

/-- A tone channel beside its registers (R343, R344): divider, position (or shift register s on channel 3), whether an
enable waits for the next frame, and the cycle of the latest write. -/
structure ToneSt where
  divider : Nat := 0
  pos : Nat := 0
  start : Bool := false
  wrote : Option (Nat × List Nat) := none
  deriving DecidableEq, Repr

/-- A Crosswalk node's target and ramp (R351): target, the gain the ramp left, the frames of the ramp done, the gain used
in the previous frame. -/
structure NodeSt where
  target : Nat := 0
  from_ : Nat := 0
  k : Nat := 64
  last : Nat := 0
  deriving DecidableEq, Repr

/-- A whole block of a fabric output: its first tick, and its frames, none for one not computed in its tick (R359). -/
structure FabBlock where
  tick : Nat
  frames : List (Option Frame24)
  deriving DecidableEq, Repr

/-- A frame that waits for DisplayPort: its tick and samples. -/
structure DpFrame where
  tick : Nat
  left : Int
  right : Int
  deriving DecidableEq, Repr

/-- Sound beside its registers and audio memory. tick: the next audio tick to begin. msDone: the tick of the latest step of
R345. outs: the outputs of the frame before, none for one not computed in its tick (R352). hpf: a filter's x[k-1] and
y[k-1] by input and side (R363). dpLine: the frames a head's DisplayPort audio holds, by tick, none while it does not run (R360). nodes: the nodes by output and input, the low-latency routes from
65,536 on. fabIn: frames accepted for fabric inputs, by tick (R359). fabNow, fabDone: frames gathered for a fabric output,
and its whole block with its first tick. sndNow, sndDone: console feeds and stream buses of the 240 ticks in progress
and before, by 240 times the feed plus the place, silence left out; sndTick: the first tick of sndDone until the
records have been written (R357). delay: delay lines (R362, R365). Jack: the last detect sample,
classification and button sample (R366 to R368). -/
structure SoundSt where
  tick : Nat := 0
  msDone : Option Nat := none
  outs : List (Option (Int × Int)) := []
  hpf : Sparse (Int × Int) := []
  tones : Sparse ToneSt := []
  nodes : Sparse NodeSt := []
  fabIn : Sparse (List (Nat × Frame24)) := []
  fabNow : Sparse (List (Option Frame24)) := []
  fabDone : Sparse (Option FabBlock) := []
  sndNow : Sparse (Int × Int) := []
  sndDone : Sparse (Int × Int) := []
  sndTick : Option Nat := none
  delay : Sparse (List (Int × Int)) := []
  dpLine : Sparse (Option (List DpFrame)) := []
  detLast : Option Bool := none
  clsLast : Nat := 0
  btnLast : Option Nat := none
  deriving DecidableEq, Repr

/-- AL_STAT.STATE (R376). -/
inductive LinkState where
  | down | train | hello | attest | up | quarantine
  deriving DecidableEq, Repr

/-- A link beside its page registers. st; enteredAt: base periods at entry to it. txSeq: the next LSEQ to send; rxSeq: the
LSEQ received last; replays: REPLAYs without advance of LACK; held: the replay buffer (R381); resend: flits being replayed;
queue: flits waiting to be sent, each with the link whose buffer it occupies (R382); asm: received packets being assembled,
by class; waitReplay: a REPLAY has been sent and nothing in order has come since; lastClass: the class served last; past:
the classes of the latest 1,023 slots, latest first (R380). sent, offered: the HELLO packets of ROLE 0 sent and received;
taken: the taker's choice; nonce, peerNonce: nonces of R387; passed, peerPassed: whose checks have passed. peerHops: hops to
the time root that the peer reported (R398); peerAddr: the peer's address. -/
structure Link where
  st : LinkState := .down
  enteredAt : Nat := 0
  txSeq : Nat := 0
  rxSeq : Nat := 255
  replays : Nat := 0
  held : List (List Byte) := []
  resend : List (List Byte) := []
  queue : List (Option Nat × List Byte) := []
  asm : Sparse (List (List Byte)) := []
  waitReplay : Bool := false
  lastClass : Nat := 5
  past : List Nat := []
  sent : List Byte := []
  offered : Option HelloMsg := none
  taken : DWord := 0
  nonce : List Byte := []
  peerNonce : List Byte := []
  passed : Bool := false
  peerPassed : Bool := false
  peerHops : Option Nat := none
  peerAddr : Nat := 0
  deriving DecidableEq, Repr

/-- A packet on its way to or from the fabric: class, epoch bit, destination, source, hops, bytes, and the link whose buffers
it occupies. -/
structure Packet where
  cls : Nat
  epoch : Bool
  dst : Nat
  src : Nat
  hops : Nat
  bytes : List Byte
  via : Option Nat := none
  deriving DecidableEq, Repr

/-- A locator entry (R402): chip, head, and whether it is MOVING. -/
structure Loc where
  chip : Nat
  head : Nat
  moving : Bool
  deriving DecidableEq, Repr

/-- MIG_STAT.STATE (R418). -/
inductive MigSt where
  | idle | reserve | precopy | converged | cutover | done | failed
  deriving DecidableEq, Repr

/-- A migration slot (R409, R410). Outgoing slots (0 to 7): the words behind MIG_SEL (src, dst, STATE, RESULT, ROUND,
MIG_DIRTY, MIG_FRAME), goSrc and goDst: src and dst as START took them, auto, s1, whether Va was detached before s1, the pages of Va's allocations written since they were
last copied, the console's name, A's acknowledgement, and whether INPUT packets are forwarded (step 6, from cutAt). Incoming
slots (8 to 15): the peer chip and its slot, both heads, F_b, the slots reserved, what A carried, and the acknowledgement. -/
structure Mig where
  st : MigSt := .idle
  src : Word := 0
  dst : Word := 0
  goSrc : Word := 0
  goDst : Word := 0
  result : Nat := 0
  round : Nat := 0
  dirtyKiB : Nat := 0
  frame : Nat := 0
  auto : Bool := false
  s1 : Nat := 0
  wasDetached : Bool := false
  acked : Bool := false
  dirty : List Nat := []
  name : DWord := 0
  forwarding : Bool := false
  cutAt : Nat := 0
  viewers : List (Nat × Mirror) := []
  peer : Nat := 0
  peerSlot : Nat := 0
  va : Nat := 0
  vb : Nat := 0
  slots : List Nat := []
  carried : Option Carried := none
  deriving DecidableEq, Repr

/-- An end-to-end item (R378): its class; the chip it goes to, or for a LINK packet the link; within the class, the kind of a LINK
packet, the console name of an INPUT event or the slot of a migration; its sequence number; the base period at which it is
resent; and its packet. -/
structure Unacked where
  cls : Nat
  dst : Nat
  key : Nat
  seq : Nat
  due : Nat
  packet : Packet
  deriving DecidableEq, Repr

/-- The sequence numbers of a class heard from a chip (R378): all below next, and those of beyond. -/
structure Heard where
  next : Nat := 0
  beyond : List Nat := []
  deriving DecidableEq, Repr

/-- A claim of an address that the coordinator has heard (R389): the chip's serial, the address it claims, and the one given. -/
structure Claim where
  serial : DWord
  claim : Option Nat
  given : Option Nat
  deriving DecidableEq, Repr

/-- The fabric beside its registers. links; discovery (R388): the lowest serial known (none: the chip's own), its hops, the
parent link, the base at which it last changed, a silent coordinator left out of the election (R390); claims (R389); the next
BEACON and REPORT, in base periods; members and the members with TIME_CTL.ROOT set (R390, R398); the members before the latest change, and the base by which entries of the locator have come from their old
homes (R404). table0, table1: routing
tables, words of eight entries (R392); hold: the epoch hold (R395), in order of arrival; goAt: the armed instant; nextCollect,
epSum, epAt: the next collection of EP_END, its last sum and the base at which that changed; lostDraining: a member was lost
while the old bit drains (R394). parent: the link of the time parent (R398). servoI, servoC, goodRun, badRun, lastSync: the servo (R400, R401). locs: locator entries by
name (R402). mail: LOG flits whose buffers a collector keeps while its ring is full, by link (R414). migs: migration slots.
unacked: items not acknowledged, waiting: those that wait for room in their window, seqs: the next sequence number by 4,096
times the class plus the destination, heard: the numbers heard by class and source (R378). counterMoved: a console's input counter is not where R407 puts it without a remote
controller: away from the console's chip, or here for a console of another chip. -/
structure FabricSt where
  links : Sparse Link := []
  coordSerial : Option DWord := none
  coordHops : Nat := 0
  parentLink : Option Nat := none
  coordAt : Nat := 0
  silent : Option DWord := none
  claims : List Claim := []
  nextBeacon : Nat := 0
  nextReport : Nat := 0
  members : List Nat := []
  roots : List Nat := []
  locFrom : List Nat := []
  locUntil : Nat := 0
  table0 : Sparse Nat := []
  table1 : Sparse Nat := []
  hold : List Packet := []
  goAt : Option Nat := none
  nextCollect : Nat := 0
  epSum : Nat := 0
  epAt : Nat := 0
  lostDraining : Bool := false
  parent : Option Nat := none
  servoI : Int := 0
  servoC : Int := 0
  goodRun : Nat := 0
  badRun : Nat := 0
  lastSync : Nat := 0
  locs : Sparse (Option Loc) := []
  mail : List (Nat × Nat) := []
  migs : Sparse Mig := []
  unacked : List Unacked := []
  waiting : List Unacked := []
  seqs : Sparse Nat := []
  heard : Sparse Heard := []
  counterMoved : Sparse Bool := []
  deriving DecidableEq, Repr

/-- The LOG unit's queue (R414, R415), oldest first: records with the entry each took (true: its source's reserved one),
and the append count of the MRAM log tail (R453). flying: the sequence number of the oldest record on LOG, while it has gone to
the collector (R414). -/
structure LogSt where
  queue : List (Bool × LogRec) := []
  appended : Nat := 0
  flying : Option Nat := none
  deriving DecidableEq, Repr

/-- Corrected errors of one row from one device in a patrol pass (R435, R436): channel, device (with subchannel and rank),
row, count, whether the row's bank group has a spare left, whether a repair has been made or refused. -/
structure RowErr where
  ch : Nat
  dev : Nat
  row : Nat
  n : Nat
  spare : Bool
  done : Bool
  deriving DecidableEq, Repr

/-- Memory protection and repair beside the registers. inited: the initialisation map (R428) as ranges of 2 MiB blocks,
lower bound in, upper bound out, none overlapping. poison: poisoned 64-byte bursts (R433). rowErrs: corrected errors of the
patrol pass in progress. scrubPos: the channel offset that patrol scrub reads next (R434). repairRows: DRAM rows awaiting
hard repair, channel and row (R435, R437). hardDone: R437's repair has been done in this BRINGUP. spares: spares given to
a scratchpad bank: scratchpad, bank, row (true) or column, which (R449). lastSppr: base at a channel's last soft repair.
speed: the speed bin of a channel's modules (R425). mramBuf: posted MRAM words, oldest first; those beyond the 64th are
writers that stall (R454). persist: persistent-counter words that differ from MRAM, by word of the region (R455), and the
base at which they were last written. marchMode: the running march test is destructive; marchAt: the base from which
PERIOD counts. initOp: DDR_INIT_CMD in progress: operation and range. -/
structure MemSt where
  inited : List (Nat × Nat) := []
  poison : List Nat := []
  rowErrs : List RowErr := []
  scrubPos : Sparse Nat := []
  repairRows : List (Nat × Nat) := []
  hardDone : Bool := false
  spares : List (Nat × Nat × Bool × Nat) := []
  lastSppr : Sparse (Option Nat) := []
  speed : Sparse Nat := []
  mramBuf : List (Nat × List Byte) := []
  persist : Sparse (Option Nat) := []
  persistAt : Option Nat := none
  marchMode : Bool := false
  marchAt : Nat := 0
  initOp : Option (Nat × Nat × Nat) := none
  deriving DecidableEq, Repr

/-- The rectangle engine: clip rectangles are registers; clipAt holds the failed or running command's source. -/
structure BltSt where
  cmd : List Byte := []
  deriving DecidableEq, Repr

/-- A DMA channel beside CHn_CTL and CHn_STAT (R478 to R493): its active descriptor words; the stream bytes read and written;
the bytes in its holding register; the bytes left of a burst that has started; whether a descriptor fetch is in progress; the
hand-over that is due, with its cycle, and whether a descriptor ended at it; the time of its last burst, in base periods. -/
structure ChanSt where
  active : List Word := List.replicate 13 0
  spos : Nat := 0
  dpos : Nat := 0
  held : List Byte := []
  left : Nat := 0
  fetching : Bool := false
  handAt : Option Nat := none
  ended : Bool := false
  lastBurst : Option Nat := none
  deriving DecidableEq, Repr

/-- DMA beside its registers: channels, the channel served last, request flags of PM0 to PM7 and TMR0 to TMR15 (R484). -/
structure DmaSt where
  chans : Sparse ChanSt := []
  lastServed : Nat := 15
  flags : Nat := 0
  deriving DecidableEq, Repr

/-- The event controller (R506): for each source not idle, its hart and whether it is in service. -/
structure EvcSt where
  owner : Sparse (Option (Nat × Bool)) := []
  deriving DecidableEq, Repr

/-- A timer beside its registers (R514 to R519, R522): the cycle of its next tick while it runs, the cycles left to it
while the page is frozen, held low words of PER and CMP writes. -/
structure TmrSt where
  nextTick : Nat := 0
  left : Option Nat := none
  perHeld : Option Word := none
  cmpHeld : List (Nat × Word) := []
  deriving DecidableEq, Repr

/-- GPIO beside its registers. level: the levels that the outside gives the pins. hist: levels seen at the pins, latest
first, each with the LCLK edge that first samples it (R527). unseen: how many entries of hist the pattern-match
units have not evaluated yet. prev: the units' previous matches (R528). armed: pin-lock arming by bank with its requester and mask (R529).
inEffect: the function in effect of each pin (R526). outEdge: the LCLK edge at which the latest GPIO_OUT or GPIO_OE write
reaches the pins (R527); fenced, fenceEdge: the pins, and the edge, that the latest write to FENCE marked (R24). -/
structure GpioSt where
  level : Nat := 0
  hist : List (Nat × Nat) := []
  unseen : Nat := 0
  prev : Nat := 0
  armed : Sparse (Option (Req × Nat)) := []
  inEffect : Sparse Nat := []
  outEdge : Nat := 0
  fenced : List Nat := []
  fenceEdge : Nat := 0
  deriving DecidableEq, Repr

/-- Low-speed peripherals: FIFOs and transfers (R532 to R535). A received UART character carries its three error flags. -/
structure LspSt where
  utx : List Byte := []
  urx : List (Byte × Nat) := []
  xfifo : List Byte := []
  xfer : Option Word := none
  ififo : List Byte := []
  ixfer : Option Word := none
  ibis : List (Nat × Byte) := []
  deriving DecidableEq, Repr

/-- USB: the previous report of each port (R537). -/
structure UsbSt where
  last : Sparse (List Byte) := []
  deriving DecidableEq, Repr

/-- The MDIO operation in progress (R541), and for each port the base at which a received PAUSE ends (R336) and its error
counter (R433). -/
structure MgmtSt where
  mdio : Option Word := none
  pauseEnd : Sparse Nat := []
  errors : Sparse Nat := []
  deriving DecidableEq, Repr

/-- SYS, PWR, SEC, PROF state beside the registers. hold: what holds the chip in reset (R587, R589, R591): bit 0 the power-on
sequence, 1 RESET#, 2 a thermal trip, 3 the crystal. resetHarts, haltedHarts: harts held in reset and halted by the debugger
(bit masks). dm: debug module words (R502). causes: reset causes gathered since the last reset ended (R589). dbgWas: debug
was open before the reset (R550). wdogAt: base from which the watchdog counts, wdogWarned: WDOG_WARN has been raised since
(R567). trialAt: base at a trial boot not yet confirmed. image: VERSION of the running image (R558). profSlot: slot of a
waiting switch (R555). anchor, rom, profAddr: what the active profile's ANCHOR_HASH, ROM_IMAGE (flash offset and length) and
FABRIC items say (R552, R553). dipMin: the lowest VDD_CORE of the warning in force (R571). -/
structure SysSt where
  hold : Nat := 1
  resetHarts : Nat := 15
  haltedHarts : Nat := 0
  dm : Sparse Word := []
  causes : Nat := 1
  dbgWas : Bool := false
  wdogAt : Nat := 0
  wdogWarned : Bool := false
  trialAt : Option Nat := none
  image : Word := 0
  profSlot : Nat := 0
  anchor : List Byte := []
  rom : Nat × Nat := (0, 0)
  profAddr : Option Nat := none
  dipMin : Nat := 0
  deriving DecidableEq, Repr

/-- What a command puts out of the block: writes to host memory, interrupt messages, records, packets, characters. The
kinds of coreIrq: 0 MEIP, 1 SEIP, 2 MTIP, 3 MSIP. video: the frame that a physical head's DisplayPort output scans during the
frame that starts, by its address; none for black (R156, R171). -/
inductive Output where
  | hostWrite (lane : Nat) (addr : Nat) (bytes : List Byte)
  | hostRead (lane : Nat) (addr : Nat) (len : Nat)
  | msi (lane : Nat) (fn : Fn) (vector : Nat)
  | flit (link : Nat) (bytes : List Byte)
  | frame (port : Port) (bytes : List Byte)
  | badFcsFrame (port : Port) (bytes : List Byte)
  | uart (b : Byte)
  | xspi (cmd : Word) (data : List Byte)
  | i3c (cmd : Word) (data : List Byte)
  | mdio (cmd : Word)
  | usbLed (port : Nat) (bits : Nat)
  | jack (left right : Int)
  | i2s (pair : Nat) (left right : Int)
  | dp (head : Nat) (left right : Int)
  | dpInfo (head : Nat) (maud naud : Nat)
  | video (head : Nat) (frame : Option Nat)
  | coreIrq (hart kind : Nat) (on : Bool)
  | tap (bytes : List Byte)
  deriving DecidableEq, Repr

/-- What a command answers to its sender. -/
inductive Answer where
  | none
  | done
  | data (v : DWord)
  | bytes (bs : List Byte)
  | poisoned (bs : List Byte)
  | accessFault
  | misaligned
  | retryStatus
  | waits
  | dmiFailed
  deriving DecidableEq, Repr

/-- A write of the command in progress: one byte, or a range of addresses set to what unlisted addresses read as. -/
inductive MemWr where
  | put (a : Nat) (b : Byte)
  | clear (lo hi : Nat)
  deriving DecidableEq, Repr

/-- Everything the KN-128 holds but the queue of waiting commands. regs: the registers (Machine/RegMap.lean). setNow: the bits of words that
hardware has set in the present PCLK cycle (R23). mem: the
memories as cells in canonical form (Machine/Ops.lean). latches: words that a read of a low word has latched
(R70, R100). locks: pages whose LOCK is armed, and by whom (R26); locked: pages locked. seqs: the last input sequence
number accepted for a console name (R92); resv: load reservations of
harts: hart and 64-byte block (R424); gaps: lower numbers not accepted yet (R95). wlog: what the command in progress writes to memory, latest first; it lands in mem when
the command ends (State.run): each command is whole and indivisible. draws: how many free values have been drawn (the model's own
field: Config.freeWord is applied to it). outs and answer are those of the latest command. -/
structure Dev where
  regs : Sparse Word := []
  setNow : Sparse Word := []
  mem : List Host.Cell := []
  wlog : List MemWr := []
  clock : Clock := {}
  latches : Sparse (Option Word) := []
  armed : Sparse (Option Req) := []
  locked : List Nat := []
  inReset : List Nat := []
  lanes : Sparse LaneSt := []
  heads : Sparse HeadSt := []
  engines : Sparse Engine := []
  enc : EncSt := {}
  snd : SoundSt := {}
  fab : FabricSt := {}
  log : LogSt := {}
  ram : MemSt := {}
  blt : BltSt := {}
  dma : DmaSt := {}
  evc : EvcSt := {}
  tmrs : Sparse TmrSt := []
  gpio : GpioSt := {}
  lsp : LspSt := {}
  usb : UsbSt := {}
  mgmt : MgmtSt := {}
  sys : SysSt := {}
  seqs : Sparse Nat := []
  gaps : Sparse (List Nat) := []
  lastBorrow : Nat := 127
  resv : List (Nat × Nat) := []
  outs : List Output := []
  answer : Answer := .none
  draws : Nat := 0
  deriving DecidableEq, Repr

/-- The state: the device, and the commands that wait, first in, first out. -/
structure State where
  dev : Dev := {}
  pending : List Instr := []
  deriving DecidableEq, Repr

/-- Why a command stops the machine: no command does. -/
inductive Fault where
  /-- A command outside the shapes that the spec gives its operands. Raised by none: exec answers each of them as the
  hardware answers such an item, which it does not take (assumption log 7). Safe. -/
  | illFormed
  deriving DecidableEq, Repr

/-- Why exec has no meaning for a command. -/
inductive Refusal where
  /-- Raised by an arm of exec whose command has no meaning in this model yet. Safe. -/
  | notModelled (mnemonic : String)
  deriving DecidableEq, Repr

/-- The machine right after a chip reset from cold power, held in reset until the power-on sequence ends (R587, R589):
every register at its reset value, every memory as MEMORY in notes/assumptions says, no command waiting. -/
def State.reset : State := {}

end Sys2Proof.Machine
end

