-- ==== Sys2Proof/Machine/RegMap.lean ====
section
/-! DEFINITION. The register map: the offset of every named word of a page, and for each kind of page its rows (offset,
how many words at what stride, which bits each access code of R6 covers, the value after a chip reset, and whether a
soft reset keeps it, R18 and R600). Function registers of lane n stand on pseudo page 1024 + 4n + f (f: 0 display, with
its offsets counted from BAR0 + 0x2000; 1 input; 2 audio), configuration space on pseudo page 2048 + 4n + f. -/
namespace Sys2Proof.Machine

/-- The kinds of page (R28), the function registers of a lane (R64) and its configuration spaces (R60). -/
inductive PK where
  | sys | pwr | sec | prof | evc | tmr | gpio | lsp | dma | blt | march | mram | ddr | ddr0 | compose | lead | enc | dict | sess | eth | mgmt | aud | jack | i2s | fab | time | log | al | usb | lepool | le | hp | vhead | phead | fnd | fni | fna | cfg | none
  deriving DecidableEq, Repr

/-- One row of a register table. -/
structure Row where
  off : Nat
  cnt : Nat
  stride : Nat
  rw : Nat
  rwl : Nat
  w1c : Nat
  w1s : Nat
  reset : Nat
  keep : Bool
  deriving DecidableEq, Repr

namespace Reg
/-- The common words of R14. -/
abbrev BLK_ID : Nat := 0x000
abbrev BLK_VER : Nat := 0x004
abbrev BLK_FEAT : Nat := 0x008
abbrev BLK_CTL : Nat := 0x00C
abbrev BLK_STAT : Nat := 0x010
abbrev IRQ_STAT : Nat := 0x014
abbrev IRQ_EN : Nat := 0x018
abbrev IRQ_SET : Nat := 0x01C
abbrev FENCE : Nat := 0x020
abbrev LOCK : Nat := 0x024
/-- Words of the sys rows. -/
abbrev SYS_MODE : Nat := 0x040
abbrev SYS_MODE_REQ : Nat := 0x044
abbrev SYS_STAT : Nat := 0x048
abbrev SYS_DEG_CAUSE : Nat := 0x04C
abbrev SYS_RESET_CAUSE : Nat := 0x050
abbrev SYS_CORE_CTL : Nat := 0x054
abbrev SYS_BOOT_STAT : Nat := 0x058
abbrev SYS_BOOT_SEL : Nat := 0x05C
abbrev SYS_WDOG : Nat := 0x060
abbrev SYS_WDOG_KICK : Nat := 0x064
abbrev SYS_SERIAL_LO : Nat := 0x068
abbrev SYS_SERIAL_HI : Nat := 0x06C
abbrev SYS_RESTARTS : Nat := 0x070
abbrev MF_OFFER_LO : Nat := 0x080
abbrev MF_OFFER_HI : Nat := 0x084
abbrev MF_CHOICE_LO : Nat := 0x088
abbrev MF_CHOICE_HI : Nat := 0x08C
abbrev MF_CTL : Nat := 0x090
abbrev MF_STAT : Nat := 0x094
abbrev MF_NEG_LO : Nat := 0x098
abbrev MF_NEG_HI : Nat := 0x09C
abbrev ING_SH_TOTAL : Nat := 0xF00
abbrev ING_SH_USED : Nat := 0xF04
abbrev ING_SH_FREE : Nat := 0xF08
abbrev SYS_ACCT_CTL : Nat := 0xF0C
abbrev SYS_ACCT_STAT : Nat := 0xF10
abbrev ING_SH_SNAP : Nat := 0xF14
/-- Words of the pwr rows. -/
abbrev PWR_STAT : Nat := 0x040
abbrev PWR_VCORE : Nat := 0x044
abbrev PWR_VSRAM : Nat := 0x048
abbrev PWR_TEMP : Nat := 0x04C
abbrev PWR_DIPS : Nat := 0x050
abbrev PWR_DIP_MIN : Nat := 0x054
abbrev AON_CNT_LO : Nat := 0x058
abbrev AON_CNT_HI : Nat := 0x05C
abbrev REST_ALARM_LO : Nat := 0x060
abbrev REST_ALARM_HI : Nat := 0x064
abbrev PWR_WAKE_EN : Nat := 0x068
abbrev PWR_WAKE_CAUSE : Nat := 0x06C
/-- Words of the sec rows. -/
abbrev SEC_STAT : Nat := 0x040
abbrev SEC_TAMP_EN : Nat := 0x044
abbrev SEC_TAMP_REC : Nat := 0x048
abbrev SEC_CERT_LEN : Nat := 0x04C
abbrev SEC_TAMP_TIME_LO : Nat := 0x050
abbrev SEC_TAMP_TIME_HI : Nat := 0x054
abbrev MEAS : Nat := 0x060
abbrev MEAS_IN : Nat := 0x080
abbrev SEC_CMD : Nat := 0x0A0
abbrev SEC_CMD_STAT : Nat := 0x0A4
abbrev SEC_BUF : Nat := 0x0A8
abbrev DBG_CHAL : Nat := 0x0C0
/-- Words of the prof rows. -/
abbrev PROF_ACTIVE : Nat := 0x040
abbrev PROF_STRAP : Nat := 0x044
abbrev PROF_CMD : Nat := 0x048
abbrev PROF_STAT : Nat := 0x04C
abbrev PROF_AFFECT : Nat := 0x050
abbrev PROF_SRC_LO : Nat := 0x064
abbrev PROF_SRC_HI : Nat := 0x068
abbrev PROF_LEN : Nat := 0x06C
abbrev PROF_VALID : Nat := 0x070
/-- Words of the evc rows. -/
abbrev EVC_CERRS : Nat := 0x040
abbrev EVC_LEVEL : Nat := 0x080
abbrev EVC_EN : Nat := 0x0C0
abbrev EVC_EN_1_7 : Nat := 0x0C4
abbrev EVC_EN_8 : Nat := 0x0E0
abbrev EVC_SVC : Nat := 0x100
abbrev EVC_TGT : Nat := 0x200
abbrev EVC_TGT_1_33 : Nat := 0x204
abbrev EVC_CCTL : Nat := 0x400
abbrev CURPRI : Nat := 0x404
abbrev CLAIM : Nat := 0x408
abbrev COMPLETE : Nat := 0x40C
abbrev EVC_CSTAT : Nat := 0x410
abbrev MSIP : Nat := 0x414
abbrev MTIMECMP_LO : Nat := 0x418
abbrev MTIMECMP_HI : Nat := 0x41C
/-- Words of the tmr rows. -/
abbrev TMR_GO : Nat := 0x040
abbrev TMR_STOP : Nat := 0x044
abbrev TMR_RUN : Nat := 0x048
abbrev TMR_CTL : Nat := 0x100
abbrev TMR_PRESC : Nat := 0x104
abbrev TMR_CNT_LO : Nat := 0x108
abbrev TMR_CNT_HI : Nat := 0x10C
abbrev TMR_PER_LO : Nat := 0x110
abbrev TMR_PER_HI : Nat := 0x114
abbrev TMR_EVT : Nat := 0x118
abbrev TMR_EVT_EN : Nat := 0x11C
abbrev CMP0_LO : Nat := 0x120
abbrev CMP0_HI : Nat := 0x124
abbrev CMP0_CTL : Nat := 0x128
abbrev CMP1_LO : Nat := 0x130
abbrev CMP1_HI : Nat := 0x134
abbrev CMP1_CTL : Nat := 0x138
abbrev CMP2_LO : Nat := 0x140
abbrev CMP2_HI : Nat := 0x144
abbrev CMP2_CTL : Nat := 0x148
abbrev CMP3_LO : Nat := 0x150
abbrev CMP3_HI : Nat := 0x154
abbrev CMP3_CTL : Nat := 0x158
/-- Words of the gpio rows. -/
abbrev GPIO_FUNC : Nat := 0x040
abbrev GPIO_OUT : Nat := 0x060
abbrev GPIO_OE : Nat := 0x068
abbrev GPIO_IN : Nat := 0x070
abbrev GPIO_PULL : Nat := 0x078
abbrev GPIO_STAT : Nat := 0x088
abbrev GPIO_LOCK : Nat := 0x090
abbrev PM_CTL : Nat := 0x0A0
abbrev PM_VAL : Nat := 0x0A4
/-- Words of the lsp rows. -/
abbrev UART_CTL : Nat := 0x040
abbrev UART_DIV : Nat := 0x044
abbrev UART_STAT : Nat := 0x048
abbrev UART_TX4 : Nat := 0x04C
abbrev UART_TX1 : Nat := 0x050
abbrev UART_RX4 : Nat := 0x054
abbrev UART_RX1 : Nat := 0x058
abbrev XSPI_CTL : Nat := 0x080
abbrev XSPI_RDCMD : Nat := 0x084
abbrev XSPI_ADDR : Nat := 0x088
abbrev XSPI_LEN : Nat := 0x08C
abbrev XSPI_CMD : Nat := 0x090
abbrev XSPI_DATA : Nat := 0x094
abbrev XSPI_STAT : Nat := 0x098
abbrev I3C_CTL : Nat := 0x0C0
abbrev I3C_CMD : Nat := 0x0C4
abbrev I3C_DATA : Nat := 0x0C8
abbrev I3C_STAT : Nat := 0x0CC
abbrev I3C_IBI : Nat := 0x0D0
/-- Words of the dma rows. -/
abbrev DMA_STAT : Nat := 0x040
abbrev DMA_ERR_LO : Nat := 0x044
abbrev DMA_ERR_HI : Nat := 0x048
abbrev DMA_SUSPECT : Nat := 0x04C
abbrev DMA_RESUME : Nat := 0x050
abbrev DMA_ACCT_CTL : Nat := 0x054
abbrev DMA_ACCT_STAT : Nat := 0x058
abbrev DMA_ERRS : Nat := 0x05C
abbrev DMA_REQ : Nat := 0x060
abbrev CH_CTL : Nat := 0x080
abbrev CH_STAT : Nat := 0x084
abbrev CH_SHADOW : Nat := 0x100
abbrev CH_ACTIVE : Nat := 0x500
abbrev CH_COUNT : Nat := 0x900
/-- Words of the blt rows. -/
abbrev BLT_CTL : Nat := 0x040
abbrev BLT_STAT : Nat := 0x044
abbrev RING_BASE_LO : Nat := 0x048
abbrev RING_BASE_HI : Nat := 0x04C
abbrev RING_SIZE : Nat := 0x050
abbrev RING_PROD : Nat := 0x054
abbrev RING_CONS : Nat := 0x058
abbrev BLT_ERR_LO : Nat := 0x05C
abbrev BLT_ERR_HI : Nat := 0x060
abbrev BLT_GO : Nat := 0x064
abbrev BLT_CMDS : Nat := 0x068
abbrev BLT_PIXELS : Nat := 0x070
abbrev BLT_CMD : Nat := 0x080
abbrev BLT_CLIP_A : Nat := 0x0C0
abbrev BLT_CLIP_B : Nat := 0x0C4
/-- Words of the march rows. -/
abbrev MARCH_CTL : Nat := 0x040
abbrev MARCH_SEL : Nat := 0x044
abbrev MARCH_STAT : Nat := 0x048
abbrev MARCH_LAST : Nat := 0x04C
abbrev SRAM_CE : Nat := 0x050
abbrev SRAM_UE : Nat := 0x054
/-- Words of the mram rows. -/
abbrev MRAM_CTL : Nat := 0x040
abbrev MRAM_STAT : Nat := 0x044
abbrev MRAM_PROT : Nat := 0x048
abbrev MRAM_WRITES : Nat := 0x050
abbrev MRAM_CE : Nat := 0x058
abbrev MRAM_UE : Nat := 0x05C
/-- Words of the ddr rows. -/
abbrev DDR_CTL : Nat := 0x040
abbrev DDR_STAT : Nat := 0x044
abbrev DDR_PPR_THR : Nat := 0x048
abbrev DDR_CE : Nat := 0x04C
abbrev DDR_UE : Nat := 0x050
abbrev DDR_ERR_LO : Nat := 0x054
abbrev DDR_ERR_HI : Nat := 0x058
abbrev DDR_MARK : Nat := 0x05C
abbrev DDR_SCRUB : Nat := 0x060
abbrev DDR_PASSES : Nat := 0x064
abbrev DDR_SPPR : Nat := 0x068
abbrev DDR_MIRREC : Nat := 0x06C
/-- Words of the ddr0 rows. -/
abbrev DDR_MIR : Nat := 0x080
abbrev DDR_TOTAL : Nat := 0x084
abbrev DDR_INIT_BASE : Nat := 0x088
abbrev DDR_INIT_END : Nat := 0x08C
abbrev DDR_INIT_CMD : Nat := 0x090
abbrev DDR_INIT_DONE : Nat := 0x094
abbrev DDR_INIT_RATE : Nat := 0x098
/-- Words of the compose rows. -/
abbrev TOK_TOTAL : Nat := 0x040
abbrev TOK_HELD : Nat := 0x044
abbrev TOK_FREE : Nat := 0x048
abbrev COMPOSE_ACCT_CTL : Nat := 0x04C
abbrev COMPOSE_ACCT_STAT : Nat := 0x050
abbrev TOK_SNAP : Nat := 0x054
abbrev RECOMP_PIX : Nat := 0x058
abbrev HEAD_PEND : Nat := 0x060
/-- Words of the lead rows. -/
abbrev LTOK_TOTAL : Nat := 0x040
abbrev LTOK_HELD : Nat := 0x044
abbrev LTOK_FREE : Nat := 0x048
abbrev LEAD_ACCT_CTL : Nat := 0x04C
abbrev LEAD_ACCT_STAT : Nat := 0x050
abbrev LTOK_SNAP : Nat := 0x054
abbrev SQUASH_ALL : Nat := 0x058
/-- Words of the enc rows. -/
abbrev ENC_AREA : Nat := 0x040
abbrev ENC_MIRROR : Nat := 0x044
abbrev ENC_SKIP_LVL : Nat := 0x048
abbrev ENC_ABORT_LVL : Nat := 0x04C
abbrev ENC_BACKLOG : Nat := 0x050
abbrev HS_TOTAL : Nat := 0x054
abbrev HS_USED : Nat := 0x058
abbrev HS_FREE : Nat := 0x05C
abbrev ENC_CELLS : Nat := 0x060
abbrev ENC_REFS : Nat := 0x068
abbrev ENC_PRUNS : Nat := 0x070
abbrev ENC_JPEGS : Nat := 0x078
abbrev ENC_INSERTS : Nat := 0x080
abbrev ENC_RAWS : Nat := 0x088
abbrev ENC_COPIES : Nat := 0x090
abbrev ENC_BLOCK_PIX : Nat := 0x098
/-- Words of the dict rows. -/
abbrev DICT_CTL : Nat := 0x040
abbrev DICT_AREA : Nat := 0x044
abbrev DICT_LOW : Nat := 0x048
abbrev DICT_PERIOD : Nat := 0x04C
abbrev DICT_EPOCH : Nat := 0x050
abbrev DICT_STAT : Nat := 0x054
abbrev DICT_FREE : Nat := 0x058
abbrev DICT_LIVE : Nat := 0x05C
abbrev DICT_DRAIN : Nat := 0x060
abbrev DICT_LOOKUPS : Nat := 0x068
abbrev DICT_HITS : Nat := 0x070
abbrev DICT_INSERTS : Nat := 0x078
abbrev DICT_INS_FAIL : Nat := 0x080
abbrev DICT_EVICTED : Nat := 0x088
/-- Words of the sess rows. -/
abbrev SESS_TABLE_LO : Nat := 0x040
abbrev SESS_TABLE_HI : Nat := 0x044
abbrev SESS_CMD : Nat := 0x048
abbrev SESS_CMD_STAT : Nat := 0x04C
abbrev SESS_DOORBELL : Nat := 0x050
abbrev SESS_OPEN : Nat := 0x054
abbrev SESS_KEY : Nat := 0x058
abbrev IDU_SESSION : Nat := 0x080
abbrev IDU_P0 : Nat := 0x084
abbrev IDU_P1 : Nat := 0x088
abbrev IDU_P2 : Nat := 0x08C
abbrev IDU_STAT : Nat := 0x090
abbrev IDU_SEQ : Nat := 0x098
abbrev IN_SUBMITTED : Nat := 0x0A0
abbrev IN_NOCTL : Nat := 0x0A8
/-- Words of the eth rows. -/
abbrev ETH_CTL : Nat := 0x040
abbrev ETH_STAT : Nat := 0x044
abbrev MAC_LO : Nat := 0x048
abbrev MAC_HI : Nat := 0x04C
abbrev TXQ_BASE_LO : Nat := 0x050
abbrev TXQ_BASE_HI : Nat := 0x054
abbrev TXQ_SIZE : Nat := 0x058
abbrev TXQ_PROD : Nat := 0x05C
abbrev TXQ_CONS : Nat := 0x060
abbrev RXQ_BASE_LO : Nat := 0x064
abbrev RXQ_BASE_HI : Nat := 0x068
abbrev RXQ_SIZE : Nat := 0x06C
abbrev RXQ_PROD : Nat := 0x070
abbrev RXQ_CONS : Nat := 0x074
abbrev TX_FRAMES : Nat := 0x080
abbrev RX_FRAMES : Nat := 0x088
abbrev RX_DROPS : Nat := 0x090
abbrev FEC_UNCORR : Nat := 0x098
/-- Words of the mgmt rows. -/
abbrev MG_CTL : Nat := 0x040
abbrev MDIO_CMD : Nat := 0x0A0
abbrev MDIO_STAT : Nat := 0x0A4
abbrev SGMII_STAT : Nat := 0x0A8
/-- Words of the aud rows. -/
abbrev AUD_TICK_LO : Nat := 0x040
abbrev AUD_TICK_HI : Nat := 0x044
abbrev AUD_ACCT_CTL : Nat := 0x048
abbrev AUD_ACCT_STAT : Nat := 0x04C
abbrev AUD_CLIPS : Nat := 0x050
abbrev AUD_HPF0 : Nat := 0x054
abbrev AUD_HPF1 : Nat := 0x058
abbrev AUD_HPF2 : Nat := 0x05C
abbrev DP_DELAY : Nat := 0x060
abbrev LL_CTL : Nat := 0x070
abbrev LL_GAIN : Nat := 0x074
abbrev AUD_FAB_DELAY : Nat := 0x084
abbrev SRC_LOCK : Nat := 0x088
abbrev VOICE_OVFS : Nat := 0x094
abbrev AUD_FAB_LATE : Nat := 0x098
/-- Words of the jack rows. -/
abbrev JACK_CTL : Nat := 0x040
abbrev JACK_STAT : Nat := 0x044
abbrev JACK_TIP : Nat := 0x048
/-- Words of the i2s rows. -/
abbrev I2S_CTL : Nat := 0x040
abbrev I2S_STAT : Nat := 0x044
/-- Words of the fab rows. -/
abbrev FAB_CTL : Nat := 0x040
abbrev FAB_STAT : Nat := 0x044
abbrev FAB_SERIAL_LO : Nat := 0x048
abbrev FAB_SERIAL_HI : Nat := 0x04C
abbrev FAB_ID_LO : Nat := 0x050
abbrev FAB_ID_HI : Nat := 0x054
abbrev FAB_OFFER_LO : Nat := 0x058
abbrev FAB_OFFER_HI : Nat := 0x05C
abbrev FAB_MEMBERS : Nat := 0x060
abbrev RT_CTL : Nat := 0x064
abbrev RT_GO_LO : Nat := 0x068
abbrev RT_GO_HI : Nat := 0x06C
abbrev RT_READ : Nat := 0x070
abbrev EP_INJ : Nat := 0x078
abbrev EP_END : Nat := 0x088
abbrev NOROUTE : Nat := 0x098
abbrev HOP_DROPS : Nat := 0x0A0
abbrev FEAT_DROPS : Nat := 0x0A4
abbrev HOLD_DROPS : Nat := 0x0A8
abbrev HOLD_USED : Nat := 0x0AC
abbrev HOLD_BASE : Nat := 0x0B0
abbrev LOC_AREA : Nat := 0x0B4
abbrev REL_AREA : Nat := 0x0B8
abbrev FA_REJECTS : Nat := 0x0BC
abbrev FSR_BASE : Nat := 0x0C0
abbrev FSR_TX_PROD : Nat := 0x0C4
abbrev FSR_TX_CONS : Nat := 0x0C8
abbrev FSR_RX_PROD : Nat := 0x0CC
abbrev FSR_RX_CONS : Nat := 0x0D0
abbrev MIG_SEL : Nat := 0x0E0
abbrev MIG_SRC : Nat := 0x0E4
abbrev MIG_DST : Nat := 0x0E8
abbrev MIG_CMD : Nat := 0x0EC
abbrev MIG_STAT : Nat := 0x0F0
abbrev MIG_DIRTY : Nat := 0x0F4
abbrev MIG_FRAME : Nat := 0x0F8
abbrev MIG_DIRTY_LIM : Nat := 0x0FC
abbrev FA_OUT : Nat := 0x400
abbrev FA_IN : Nat := 0x500
abbrev MEMBER : Nat := 0x600
abbrev RT_SHADOW : Nat := 0x800
/-- Words of the time rows. -/
abbrev TIME_CTL : Nat := 0x040
abbrev TIME_ACQ_WAIT : Nat := 0x044
abbrev TIME_STAT : Nat := 0x048
abbrev TIME_FT_LO : Nat := 0x050
abbrev TIME_FT_HI : Nat := 0x054
abbrev TIME_OFFSET : Nat := 0x058
abbrev TIME_CORR : Nat := 0x05C
abbrev TIME_TRIM : Nat := 0x060
abbrev TIME_SYNCS : Nat := 0x068
abbrev TIME_UNLOCKS : Nat := 0x070
/-- Words of the log rows. -/
abbrev LOG_CTL : Nat := 0x040
abbrev LOG_STAT : Nat := 0x044
abbrev LOG_TRACE_LVL : Nat := 0x048
abbrev LOG_COAL_LVL : Nat := 0x04C
abbrev LOG_AREA : Nat := 0x050
abbrev LOG_ACCT_CTL : Nat := 0x054
abbrev LOG_ACCT_STAT : Nat := 0x058
abbrev LOG_RING_PROD : Nat := 0x05C
abbrev LOG_RING_CONS : Nat := 0x060
abbrev LOG_SW0 : Nat := 0x064
abbrev LOG_SW1 : Nat := 0x068
abbrev LOG_SW2 : Nat := 0x06C
abbrev LOG_RX_REMOTE : Nat := 0x070
/-- Words of the al rows. -/
abbrev AL_CTL : Nat := 0x040
abbrev AL_STAT : Nat := 0x044
abbrev AL_PEER_SN_LO : Nat := 0x048
abbrev AL_PEER_SN_HI : Nat := 0x04C
abbrev AL_NEG_LO : Nat := 0x050
abbrev AL_NEG_HI : Nat := 0x054
abbrev AL_ACCT_CTL : Nat := 0x058
abbrev AL_ACCT_STAT : Nat := 0x05C
abbrev AL_DELAY : Nat := 0x060
abbrev AL_ASYM : Nat := 0x064
abbrev AL_FLITS_TX : Nat := 0x068
abbrev AL_FLITS_RX : Nat := 0x070
abbrev AL_REPLAYS : Nat := 0x078
abbrev AL_CRC_ERRS : Nat := 0x07C
abbrev AL_CRED : Nat := 0x080
abbrev AL_CSNAP : Nat := 0x0E0
abbrev AL_LOST : Nat := 0x140
abbrev AL_DOWNS : Nat := 0x144
abbrev AL_FEC_UNCORR : Nat := 0x148
/-- Words of the usb rows. -/
abbrev USB_CTL : Nat := 0x040
abbrev USB_P_CTL : Nat := 0x044
abbrev USB_P_STAT : Nat := 0x04C
abbrev USB_EVENTS : Nat := 0x058
abbrev USB_DROPPED : Nat := 0x060
/-- Words of the lepool rows. -/
abbrev POOL_SWAP_GO : Nat := 0x040
abbrev POOL_RUNNING : Nat := 0x044
abbrev POOL_HALTED : Nat := 0x048
abbrev POOL_FAULTED : Nat := 0x04C
/-- Words of the le rows. -/
abbrev LE_HEADS : Nat := 0x040
abbrev LE_HEADS4 : Nat := 0x050
abbrev LE_FAULT : Nat := 0x054
abbrev LE_FAULT_PC : Nat := 0x058
abbrev LE_FAULT_WORD : Nat := 0x05C
abbrev LE_FAULT_ADDR : Nat := 0x060
abbrev LE_CTL : Nat := 0x080
abbrev LE_STAT : Nat := 0x084
abbrev LE_ENTRY : Nat := 0x088
abbrev LE_PC : Nat := 0x08C
abbrev LE_EVVEC : Nat := 0x090
abbrev LE_EVLINE : Nat := 0x094
abbrev LE_MBOX : Nat := 0x098
abbrev LE_DBG : Nat := 0x09C
abbrev LE_BP : Nat := 0x0A0
abbrev LE_SWAP_ENTRY : Nat := 0x0B0
abbrev LE_SWAP_CTL : Nat := 0x0B4
abbrev LE_SWAP_FRAME : Nat := 0x0B8
abbrev LE_ISSUED : Nat := 0x0C0
abbrev LE_STALLS : Nat := 0x0C8
abbrev LE_REDIRECTS : Nat := 0x0CC
abbrev LE_FILLS : Nat := 0x0D0
abbrev LE_LBUF : Nat := 0x0D4
/-- Words of the hp rows. -/
abbrev HP_CTL : Nat := 0x040
abbrev HP_STAT : Nat := 0x044
abbrev HP_SHARE_CAP : Nat := 0x048
abbrev HP_FLOOR_TOTAL : Nat := 0x04C
abbrev HP_FLOOR_USED : Nat := 0x050
abbrev HP_FLOOR_FREE : Nat := 0x054
abbrev HP_SHARE_USED : Nat := 0x058
abbrev HP_ACCT_CTL : Nat := 0x05C
abbrev HP_ACCT_STAT : Nat := 0x060
abbrev HP_SNAP_FLOOR : Nat := 0x064
abbrev IN_ACCEPTED : Nat := 0x070
abbrev IN_DELIVERED : Nat := 0x078
abbrev IN_PENDING : Nat := 0x080
abbrev IN_FORWARDED : Nat := 0x088
abbrev IN_REFUSED : Nat := 0x090
abbrev IN_SNAP : Nat := 0x098
abbrev ING_COMMITS : Nat := 0x0C0
abbrev ING_BYTES : Nat := 0x0C8
abbrev ING_DISCARDS : Nat := 0x0D0
abbrev ING_LAST_FT : Nat := 0x0D8
abbrev HP_FENCE_VIOL : Nat := 0x0E0
abbrev IN_DUPLICATE : Nat := 0x0E8
/-- Words of the head rows. -/
abbrev HD_MODE : Nat := 0x040
abbrev HD_HTIME : Nat := 0x044
abbrev HD_VTIME : Nat := 0x048
abbrev HD_FPERIOD : Nat := 0x04C
abbrev HD_ORIGIN_LO : Nat := 0x050
abbrev HD_ORIGIN_HI : Nat := 0x054
abbrev HD_LEAD : Nat := 0x058
abbrev HD_BEAM : Nat := 0x05C
abbrev HD_FRAME_LO : Nat := 0x060
abbrev HD_FRAME_HI : Nat := 0x064
abbrev HD_TOKENS : Nat := 0x068
abbrev HD_ADMIT : Nat := 0x06C
abbrev HD_LAYER_CTL : Nat := 0x070
abbrev HD_LAYER_ALPHA : Nat := 0x074
abbrev HD_BGCOLOUR : Nat := 0x078
abbrev HD_BUFSEL : Nat := 0x07C
abbrev TA_MAPS : Nat := 0x080
abbrev TA_GEOM : Nat := 0x084
abbrev TA_CELL : Nat := 0x088
abbrev TA_GLYPH : Nat := 0x08C
abbrev TA_SCROLL : Nat := 0x090
abbrev TB_MAPS : Nat := 0x094
abbrev TB_GEOM : Nat := 0x098
abbrev TB_CELL : Nat := 0x09C
abbrev TB_GLYPH : Nat := 0x0A0
abbrev TB_SCROLL : Nat := 0x0A4
abbrev BM_BASE0 : Nat := 0x0A8
abbrev BM_BASE1 : Nat := 0x0AC
abbrev BM_FMT : Nat := 0x0B0
abbrev BM_SIZE : Nat := 0x0B4
abbrev BM_SCROLL : Nat := 0x0B8
abbrev BM_KEY : Nat := 0x0BC
abbrev BM_KEYMASK : Nat := 0x0C0
abbrev WIN_X : Nat := 0x0C4
abbrev WIN_Y : Nat := 0x0C8
abbrev SPR_TABLE : Nat := 0x0CC
abbrev CUR_IMAGE : Nat := 0x0D0
abbrev CUR_POS : Nat := 0x0D4
abbrev CUR_CTL : Nat := 0x0D8
abbrev LT_BASE : Nat := 0x0DC
abbrev LT_CTL : Nat := 0x0E0
abbrev HD_LSTAT : Nat := 0x0E4
abbrev FRAMES_STARTED : Nat := 0x140
abbrev FRAMES_COMPLETE : Nat := 0x148
abbrev WITHHELD_FRAMES : Nat := 0x150
abbrev LATE_LINES : Nat := 0x158
abbrev SQUASHES : Nat := 0x160
abbrev RECOMPOSED_LINES : Nat := 0x168
abbrev ABANDONED_LINES : Nat := 0x170
abbrev REPEATED_FRAMES : Nat := 0x178
abbrev WINDOW_HALVINGS : Nat := 0x17C
abbrev PALETTE : Nat := 0x800
/-- Words of the vhead rows. -/
abbrev TN_CTL : Nat := 0x100
abbrev TN_PERIOD : Nat := 0x104
abbrev TN_LEN : Nat := 0x108
abbrev TN_ENV : Nat := 0x10C
abbrev ENC_HCTL : Nat := 0x180
abbrev V_ACCT_CTL : Nat := 0x184
abbrev V_ACCT_STAT : Nat := 0x188
abbrev ENC_PEND : Nat := 0x18C
abbrev ENC_COMPOSED : Nat := 0x190
abbrev ENC_SENT : Nat := 0x198
abbrev ENC_WITHHELD : Nat := 0x1A0
abbrev ENC_SKIPPED : Nat := 0x1A8
abbrev ENC_SNAPS : Nat := 0x1B0
abbrev HB_NAME_LO : Nat := 0x1C0
abbrev HB_NAME_HI : Nat := 0x1C4
abbrev HB_CTL : Nat := 0x1C8
abbrev HB_STAT : Nat := 0x1CC
abbrev HB_DRAM_LO : Nat := 0x1D0
abbrev HB_DRAM_HI : Nat := 0x1D4
abbrev HB_DRAM_SIZE : Nat := 0x1D8
abbrev HB_GLYPH : Nat := 0x1DC
abbrev HB_SUBSYS : Nat := 0x1E0
/-- Words of the phead rows. -/
abbrev PH_DRAM : Nat := 0x0E8
abbrev PH_ALLOC : Nat := 0x0EC
/-- Words of the fn rows. -/
abbrev HF_ID : Nat := 0x000
abbrev HF_DEV_FEAT_LO : Nat := 0x008
abbrev HF_DEV_FEAT_HI : Nat := 0x00C
abbrev HF_DRV_FEAT_LO : Nat := 0x010
abbrev HF_DRV_FEAT_HI : Nat := 0x014
abbrev HF_CTL : Nat := 0x018
abbrev HF_STAT : Nat := 0x01C
abbrev HF_EVT_STAT : Nat := 0x020
abbrev HF_EVT_EN : Nat := 0x024
abbrev HF_EVT_VEC : Nat := 0x028
abbrev HF_FENCE : Nat := 0x030
abbrev HF_NEG_LO : Nat := 0x038
abbrev HF_NEG_HI : Nat := 0x03C
abbrev MSIX_TABLE : Nat := 0x800
abbrev MSIX_PBA : Nat := 0xC00
/-- Words of the fnd rows. -/
abbrev HF_PRESENT : Nat := 0x040
abbrev HF_PRESENT_DONE : Nat := 0x044
abbrev HF_PRESENT_FRAME : Nat := 0x048
/-- Words of the fni rows. -/
abbrev IR_BASE_LO : Nat := 0x040
abbrev IR_BASE_HI : Nat := 0x044
abbrev IR_SIZE : Nat := 0x048
abbrev IR_CTL : Nat := 0x04C
abbrev IR_WB_LO : Nat := 0x050
abbrev IR_WB_HI : Nat := 0x054
abbrev IR_PROD : Nat := 0x058
abbrev IR_CONS : Nat := 0x05C
abbrev IR_LED : Nat := 0x060
abbrev IR_LAST_SEQ : Nat := 0x064
/-- Words of the fna rows. -/
abbrev RG_BASE_LO : Nat := 0x040
abbrev RG_BASE_HI : Nat := 0x044
abbrev RG_SIZE : Nat := 0x048
abbrev PL_CTL : Nat := 0x04C
abbrev CP_CTL : Nat := 0x06C
abbrev PL_PROD : Nat := 0x050
abbrev PL_CONS : Nat := 0x054
abbrev CP_PROD : Nat := 0x070
abbrev CP_CONS : Nat := 0x074
abbrev RG_WB_LO : Nat := 0x058
abbrev RG_WB_HI : Nat := 0x05C
/-- Words of the cfg rows. -/
abbrev CFG_COMMAND : Nat := 0x004
abbrev CFG_BAR0_LO : Nat := 0x010
abbrev CFG_BAR0_HI : Nat := 0x014
abbrev CFG_BAR2_LO : Nat := 0x018
abbrev CFG_BAR2_HI : Nat := 0x01C
abbrev CFG_ROM_BAR : Nat := 0x030
abbrev CFG_PMCSR : Nat := 0x044
abbrev CFG_INT_LINE : Nat := 0x03C
abbrev CFG_MSI : Nat := 0x050
abbrev CFG_MSI_ADDR : Nat := 0x054
abbrev CFG_MSIX : Nat := 0x060
abbrev CFG_DEVCTL : Nat := 0x078
abbrev CFG_AER_UES : Nat := 0x114
abbrev CFG_AER_UEM : Nat := 0x118
abbrev CFG_AER_UEV : Nat := 0x11C
abbrev CFG_AER_CES : Nat := 0x120
abbrev CFG_AER_CEM : Nat := 0x124
abbrev CFG_AER_CAP : Nat := 0x128
abbrev CFG_AER_HDR : Nat := 0x12C
abbrev CFG_L1SS_CTL : Nat := 0x168
abbrev CFG_LTR : Nat := 0x174
abbrev CFG_MARGIN : Nat := 0x188
end Reg

/-- R103, R573. -/
def sysRows0 : List Row := [
  ⟨Reg.SYS_MODE, 1, 4, 0x0, 0x0, 0x0, 0x0, 0x1, true⟩,
  ⟨Reg.SYS_MODE_REQ, 1, 4, 0x0, 0x0, 0x0, 0x0, 0x0, false⟩,
  ⟨Reg.SYS_STAT, 1, 4, 0x0, 0x0, 0x0, 0x0, 0x0, true⟩,
  ⟨Reg.SYS_DEG_CAUSE, 1, 4, 0x0, 0x0, 0x1F, 0x0, 0x0, false⟩,
  ⟨Reg.SYS_RESET_CAUSE, 1, 4, 0x0, 0x0, 0x0, 0x0, 0x1, true⟩,
  ⟨Reg.SYS_CORE_CTL, 1, 4, 0x1C, 0x0, 0x0, 0x0, 0x0, false⟩,
  ⟨Reg.SYS_BOOT_STAT, 1, 4, 0x0, 0x0, 0x0, 0x0, 0x0, true⟩,
  ⟨Reg.SYS_BOOT_SEL, 1, 4, 0x0, 0x0, 0x0, 0x0, 0x0, true⟩,
  ⟨Reg.SYS_WDOG, 1, 4, 0xFFFF, 0x0, 0x0, 0x0, 0x0, false⟩,
  ⟨Reg.SYS_WDOG_KICK, 1, 4, 0x0, 0x0, 0x0, 0x0, 0x0, false⟩,
  ⟨Reg.SYS_SERIAL_LO, 1, 4, 0x0, 0x0, 0x0, 0x0, 0x0, true⟩,
  ⟨Reg.SYS_SERIAL_HI, 1, 4, 0x0, 0x0, 0x0, 0x0, 0x0, true⟩,
  ⟨Reg.SYS_RESTARTS, 1, 4, 0x0, 0x0, 0x0, 0x0, 0x0, false⟩,
  ⟨Reg.MF_OFFER_LO, 1, 4, 0x0, 0x0, 0x0, 0x0, 0xF, true⟩,
  ⟨Reg.MF_OFFER_HI, 1, 4, 0x0, 0x0, 0x0, 0x0, 0x0, true⟩,
  ⟨Reg.MF_CHOICE_LO, 1, 4, 0xFFFFFFFF, 0x0, 0x0, 0x0, 0x0, false⟩,
  ⟨Reg.MF_CHOICE_HI, 1, 4, 0xFFFFFFFF, 0x0, 0x0, 0x0, 0x0, false⟩,
  ⟨Reg.MF_CTL, 1, 4, 0x0, 0x0, 0x0, 0x0, 0x0, true⟩,
  ⟨Reg.MF_STAT, 1, 4, 0x0, 0x0, 0x0, 0x0, 0x0, true⟩,
  ⟨Reg.MF_NEG_LO, 1, 4, 0x0, 0x0, 0x0, 0x0, 0x0, true⟩,
  ⟨Reg.MF_NEG_HI, 1, 4, 0x0, 0x0, 0x0, 0x0, 0x0, true⟩,
  ⟨Reg.ING_SH_TOTAL, 1, 4, 0x0, 0x0, 0x0, 0x0, 0x1000, true⟩,
  ⟨Reg.ING_SH_USED, 1, 4, 0x0, 0x0, 0x0, 0x0, 0x0, true⟩,
  ⟨Reg.ING_SH_FREE, 1, 4, 0x0, 0x0, 0x0, 0x0, 0x1000, true⟩]

/-- R103, R573. -/
def sysRows1 : List Row := [
  ⟨Reg.SYS_ACCT_CTL, 1, 4, 0xF00, 0x2, 0x0, 0x0, 0x2, false⟩,
  ⟨Reg.SYS_ACCT_STAT, 1, 4, 0x0, 0x0, 0xFFFF, 0x0, 0x0, false⟩,
  ⟨Reg.ING_SH_SNAP, 1, 4, 0x0, 0x0, 0x0, 0x0, 0x0, false⟩]

/-- R103, R573. -/
def sysRows : List Row := sysRows0 ++ sysRows1

/-- R574. -/
def pwrRows : List Row := [
  ⟨Reg.PWR_STAT, 1, 4, 0x0, 0x0, 0x0, 0x0, 0x0, true⟩,
  ⟨Reg.PWR_VCORE, 1, 4, 0x0, 0x0, 0x0, 0x0, 0x0, true⟩,
  ⟨Reg.PWR_VSRAM, 1, 4, 0x0, 0x0, 0x0, 0x0, 0x0, true⟩,
  ⟨Reg.PWR_TEMP, 1, 4, 0x0, 0x0, 0x0, 0x0, 0x0, true⟩,
  ⟨Reg.PWR_DIPS, 1, 4, 0x0, 0x0, 0x0, 0x0, 0x0, false⟩,
  ⟨Reg.PWR_DIP_MIN, 1, 4, 0x0, 0x0, 0x0, 0x0, 0x0, false⟩,
  ⟨Reg.AON_CNT_LO, 1, 4, 0x0, 0x0, 0x0, 0x0, 0x0, false⟩,
  ⟨Reg.AON_CNT_HI, 1, 4, 0x0, 0x0, 0x0, 0x0, 0x0, false⟩,
  ⟨Reg.REST_ALARM_LO, 1, 4, 0xFFFFFFFF, 0x0, 0x0, 0x0, 0xFFFFFFFF, false⟩,
  ⟨Reg.REST_ALARM_HI, 1, 4, 0xFFFFFFFF, 0x0, 0x0, 0x0, 0xFFFFFFFF, false⟩,
  ⟨Reg.PWR_WAKE_EN, 1, 4, 0x7, 0x0, 0x0, 0x0, 0x1, false⟩,
  ⟨Reg.PWR_WAKE_CAUSE, 1, 4, 0x0, 0x0, 0x0, 0x0, 0x0, true⟩]

/-- R575. -/
def secRows : List Row := [
  ⟨Reg.SEC_STAT, 1, 4, 0x0, 0x0, 0x0, 0x0, 0x0, true⟩,
  ⟨Reg.SEC_TAMP_EN, 1, 4, 0x0, 0x0, 0x0, 0xF, 0x0, true⟩,
  ⟨Reg.SEC_TAMP_REC, 1, 4, 0x0, 0x0, 0x7F, 0x0, 0x0, true⟩,
  ⟨Reg.SEC_CERT_LEN, 1, 4, 0x1FFFF, 0x0, 0x0, 0x0, 0x0, false⟩,
  ⟨Reg.SEC_TAMP_TIME_LO, 1, 4, 0x0, 0x0, 0x0, 0x0, 0x0, true⟩,
  ⟨Reg.SEC_TAMP_TIME_HI, 1, 4, 0x0, 0x0, 0x0, 0x0, 0x0, true⟩,
  ⟨Reg.MEAS, 8, 4, 0x0, 0x0, 0x0, 0x0, 0x0, true⟩,
  ⟨Reg.MEAS_IN, 8, 4, 0xFFFFFFFF, 0x0, 0x0, 0x0, 0x0, false⟩,
  ⟨Reg.SEC_CMD, 1, 4, 0x0, 0x0, 0x0, 0x0, 0x0, false⟩,
  ⟨Reg.SEC_CMD_STAT, 1, 4, 0x0, 0x0, 0x0, 0x0, 0x0, false⟩,
  ⟨Reg.SEC_BUF, 1, 4, 0xFFC0, 0x0, 0x0, 0x0, 0x0, false⟩,
  ⟨Reg.DBG_CHAL, 8, 4, 0x0, 0x0, 0x0, 0x0, 0x0, true⟩]

/-- R576. -/
def profRows : List Row := [
  ⟨Reg.PROF_ACTIVE, 1, 4, 0x0, 0x0, 0x0, 0x0, 0x8, true⟩,
  ⟨Reg.PROF_STRAP, 1, 4, 0x0, 0x0, 0x0, 0x0, 0x0, true⟩,
  ⟨Reg.PROF_CMD, 1, 4, 0x0, 0x0, 0x0, 0x0, 0x0, false⟩,
  ⟨Reg.PROF_STAT, 1, 4, 0x0, 0x0, 0x0, 0x0, 0x0, true⟩,
  ⟨Reg.PROF_AFFECT, 5, 4, 0x0, 0x0, 0x0, 0x0, 0x0, false⟩,
  ⟨Reg.PROF_SRC_LO, 1, 4, 0xFFFFFFC0, 0x0, 0x0, 0x0, 0x0, false⟩,
  ⟨Reg.PROF_SRC_HI, 1, 4, 0xFFFF, 0x0, 0x0, 0x0, 0x0, false⟩,
  ⟨Reg.PROF_LEN, 1, 4, 0x1FFFFF, 0x0, 0x0, 0x0, 0x0, false⟩,
  ⟨Reg.PROF_VALID, 1, 4, 0x0, 0x0, 0x0, 0x0, 0x0, true⟩]

/-- R513. -/
def evcRows : List Row := [
  ⟨Reg.EVC_CERRS, 1, 4, 0x0, 0x0, 0x0, 0x0, 0x0, false⟩,
  ⟨Reg.EVC_LEVEL, 16, 4, 0x0, 0x0, 0x0, 0x0, 0x0, false⟩,
  ⟨Reg.EVC_EN, 1, 4, 0xFFFFFFFE, 0x0, 0x0, 0x0, 0x0, false⟩,
  ⟨Reg.EVC_EN_1_7, 7, 4, 0xFFFFFFFF, 0x0, 0x0, 0x0, 0x0, false⟩,
  ⟨Reg.EVC_EN_8, 1, 4, 0xFFFF, 0x0, 0x0, 0x0, 0x0, false⟩,
  ⟨Reg.EVC_SVC, 16, 4, 0x0, 0x0, 0x0, 0x0, 0x0, false⟩,
  ⟨Reg.EVC_TGT, 1, 4, 0xFFFFFFF0, 0x0, 0x0, 0x0, 0x11111110, false⟩,
  ⟨Reg.EVC_TGT_1_33, 33, 4, 0xFFFFFFFF, 0x0, 0x0, 0x0, 0x11111111, false⟩,
  ⟨Reg.EVC_CCTL, 4, 64, 0x1, 0x0, 0x0, 0x0, 0x0, false⟩,
  ⟨Reg.CURPRI, 4, 64, 0xF, 0x0, 0x0, 0x0, 0xF, false⟩,
  ⟨Reg.CLAIM, 4, 64, 0x0, 0x0, 0x0, 0x0, 0x0, false⟩,
  ⟨Reg.COMPLETE, 4, 64, 0x0, 0x0, 0x0, 0x0, 0x0, false⟩,
  ⟨Reg.EVC_CSTAT, 4, 64, 0x0, 0x0, 0x0, 0x0, 0x0, false⟩,
  ⟨Reg.MSIP, 4, 64, 0x1, 0x0, 0x0, 0x0, 0x0, false⟩,
  ⟨Reg.MTIMECMP_LO, 4, 64, 0xFFFFFFFF, 0x0, 0x0, 0x0, 0xFFFFFFFF, false⟩,
  ⟨Reg.MTIMECMP_HI, 4, 64, 0xFFFFFFFF, 0x0, 0x0, 0x0, 0xFFFFFFFF, false⟩]

/-- R523. -/
def tmrRows : List Row := [
  ⟨Reg.TMR_GO, 1, 4, 0x0, 0x0, 0x0, 0x0, 0x0, false⟩,
  ⟨Reg.TMR_STOP, 1, 4, 0x0, 0x0, 0x0, 0x0, 0x0, false⟩,
  ⟨Reg.TMR_RUN, 1, 4, 0x0, 0x0, 0x0, 0x0, 0x0, false⟩,
  ⟨Reg.TMR_CTL, 16, 128, 0x3, 0x0, 0x0, 0x0, 0x0, false⟩,
  ⟨Reg.TMR_PRESC, 16, 128, 0xFFFF, 0x0, 0x0, 0x0, 0x0, false⟩,
  ⟨Reg.TMR_CNT_LO, 16, 128, 0xFFFFFFFF, 0x0, 0x0, 0x0, 0x0, false⟩,
  ⟨Reg.TMR_CNT_HI, 16, 128, 0xFFFFFFFF, 0x0, 0x0, 0x0, 0x0, false⟩,
  ⟨Reg.TMR_PER_LO, 16, 128, 0xFFFFFFFF, 0x0, 0x0, 0x0, 0xFFFFFFFF, false⟩,
  ⟨Reg.TMR_PER_HI, 16, 128, 0xFFFFFFFF, 0x0, 0x0, 0x0, 0xFFFFFFFF, false⟩,
  ⟨Reg.TMR_EVT, 16, 128, 0x0, 0x0, 0x7F, 0x0, 0x0, false⟩,
  ⟨Reg.TMR_EVT_EN, 16, 128, 0x7F, 0x0, 0x0, 0x0, 0x0, false⟩,
  ⟨Reg.CMP0_LO, 16, 128, 0xFFFFFFFF, 0x0, 0x0, 0x0, 0x0, false⟩,
  ⟨Reg.CMP0_HI, 16, 128, 0xFFFFFFFF, 0x0, 0x0, 0x0, 0x0, false⟩,
  ⟨Reg.CMP0_CTL, 16, 128, 0x6, 0x0, 0x0, 0x0, 0x2, false⟩,
  ⟨Reg.CMP1_LO, 16, 128, 0xFFFFFFFF, 0x0, 0x0, 0x0, 0x0, false⟩,
  ⟨Reg.CMP1_HI, 16, 128, 0xFFFFFFFF, 0x0, 0x0, 0x0, 0x0, false⟩,
  ⟨Reg.CMP1_CTL, 16, 128, 0x6, 0x0, 0x0, 0x0, 0x2, false⟩,
  ⟨Reg.CMP2_LO, 16, 128, 0xFFFFFFFF, 0x0, 0x0, 0x0, 0x0, false⟩,
  ⟨Reg.CMP2_HI, 16, 128, 0xFFFFFFFF, 0x0, 0x0, 0x0, 0x0, false⟩,
  ⟨Reg.CMP2_CTL, 16, 128, 0x2, 0x0, 0x0, 0x0, 0x2, false⟩,
  ⟨Reg.CMP3_LO, 16, 128, 0xFFFFFFFF, 0x0, 0x0, 0x0, 0x0, false⟩,
  ⟨Reg.CMP3_HI, 16, 128, 0xFFFFFFFF, 0x0, 0x0, 0x0, 0x0, false⟩,
  ⟨Reg.CMP3_CTL, 16, 128, 0x2, 0x0, 0x0, 0x0, 0x2, false⟩]

/-- R530. -/
def gpioRows : List Row := [
  ⟨Reg.GPIO_FUNC, 8, 4, 0xFFFFFFFF, 0x0, 0x0, 0x0, 0x0, false⟩,
  ⟨Reg.GPIO_OUT, 2, 4, 0xFFFFFFFF, 0x0, 0x0, 0x0, 0x0, false⟩,
  ⟨Reg.GPIO_OE, 2, 4, 0xFFFFFFFF, 0x0, 0x0, 0x0, 0x0, false⟩,
  ⟨Reg.GPIO_IN, 2, 4, 0x0, 0x0, 0x0, 0x0, 0x0, false⟩,
  ⟨Reg.GPIO_PULL, 4, 4, 0xFFFFFFFF, 0x0, 0x0, 0x0, 0x0, false⟩,
  ⟨Reg.GPIO_STAT, 1, 4, 0x0, 0x0, 0x1, 0x0, 0x0, false⟩,
  ⟨Reg.GPIO_LOCK, 4, 4, 0x0, 0x0, 0x0, 0x0, 0x0, true⟩,
  ⟨Reg.PM_CTL, 8, 8, 0xFFFF000F, 0x0, 0x0, 0x0, 0x0, false⟩,
  ⟨Reg.PM_VAL, 8, 8, 0xFFFF, 0x0, 0x0, 0x0, 0x0, false⟩]

/-- R534 (assumption log 63). -/
def lspRows : List Row := [
  ⟨Reg.UART_CTL, 1, 4, 0x7F, 0x0, 0x0, 0x0, 0x6, false⟩,
  ⟨Reg.UART_DIV, 1, 4, 0xFFFFF, 0x0, 0x0, 0x0, 0x36, false⟩,
  ⟨Reg.UART_STAT, 1, 4, 0x0, 0x0, 0x70000, 0x0, 0x40, false⟩,
  ⟨Reg.UART_TX4, 1, 4, 0x0, 0x0, 0x0, 0x0, 0x0, false⟩,
  ⟨Reg.UART_TX1, 1, 4, 0x0, 0x0, 0x0, 0x0, 0x0, false⟩,
  ⟨Reg.UART_RX4, 1, 4, 0x0, 0x0, 0x0, 0x0, 0x0, false⟩,
  ⟨Reg.UART_RX1, 1, 4, 0x0, 0x0, 0x0, 0x0, 0x0, false⟩,
  ⟨Reg.XSPI_CTL, 1, 4, 0xFF3, 0x0, 0x0, 0x0, 0x30, false⟩,
  ⟨Reg.XSPI_RDCMD, 1, 4, 0x7FFFFF, 0x0, 0x0, 0x0, 0x80003, false⟩,
  ⟨Reg.XSPI_ADDR, 1, 4, 0xFFFFFFFF, 0x0, 0x0, 0x0, 0x0, false⟩,
  ⟨Reg.XSPI_LEN, 1, 4, 0x1FFFF, 0x0, 0x0, 0x0, 0x0, false⟩,
  ⟨Reg.XSPI_CMD, 1, 4, 0x0, 0x0, 0x0, 0x0, 0x0, false⟩,
  ⟨Reg.XSPI_DATA, 1, 4, 0x0, 0x0, 0x0, 0x0, 0x0, false⟩,
  ⟨Reg.XSPI_STAT, 1, 4, 0x0, 0x0, 0xC00, 0x0, 0x0, false⟩,
  ⟨Reg.I3C_CTL, 1, 4, 0xF, 0x0, 0x0, 0x0, 0x0, false⟩,
  ⟨Reg.I3C_CMD, 1, 4, 0x0, 0x0, 0x0, 0x0, 0x0, false⟩,
  ⟨Reg.I3C_DATA, 1, 4, 0x0, 0x0, 0x0, 0x0, 0x0, false⟩,
  ⟨Reg.I3C_STAT, 1, 4, 0x0, 0x0, 0xF00, 0x0, 0x0, false⟩,
  ⟨Reg.I3C_IBI, 1, 4, 0x0, 0x0, 0x0, 0x0, 0x0, false⟩]

/-- R496. -/
def dmaRows : List Row := [
  ⟨Reg.DMA_STAT, 1, 4, 0x0, 0x0, 0x1, 0x0, 0x0, false⟩,
  ⟨Reg.DMA_ERR_LO, 1, 4, 0x0, 0x0, 0x0, 0x0, 0x0, false⟩,
  ⟨Reg.DMA_ERR_HI, 1, 4, 0x0, 0x0, 0x0, 0x0, 0x0, false⟩,
  ⟨Reg.DMA_SUSPECT, 1, 4, 0x0, 0x0, 0x0, 0x0, 0x0, false⟩,
  ⟨Reg.DMA_RESUME, 1, 4, 0x0, 0x0, 0x0, 0x0, 0x0, false⟩,
  ⟨Reg.DMA_ACCT_CTL, 1, 4, 0xF00, 0x2, 0x0, 0x0, 0x2, false⟩,
  ⟨Reg.DMA_ACCT_STAT, 1, 4, 0x0, 0x0, 0xFFFF, 0x0, 0x0, false⟩,
  ⟨Reg.DMA_ERRS, 1, 4, 0x0, 0x0, 0x0, 0x0, 0x0, false⟩,
  ⟨Reg.DMA_REQ, 1, 4, 0x0, 0x0, 0x0, 0x0, 0x0, false⟩,
  ⟨Reg.CH_CTL, 16, 8, 0xFF38, 0x0, 0x0, 0x0, 0x0, false⟩,
  ⟨Reg.CH_STAT, 16, 8, 0x0, 0x0, 0x0, 0x0, 0x0, false⟩,
  ⟨Reg.CH_SHADOW, 256, 4, 0xFFFFFFFF, 0x0, 0x0, 0x0, 0x0, false⟩,
  ⟨Reg.CH_ACTIVE, 256, 4, 0x0, 0x0, 0x0, 0x0, 0x0, false⟩,
  ⟨Reg.CH_COUNT, 256, 4, 0x0, 0x0, 0x0, 0x0, 0x0, false⟩]

/-- R476. -/
def bltRows : List Row := [
  ⟨Reg.BLT_CTL, 1, 4, 0x1, 0x0, 0x0, 0x0, 0x0, false⟩,
  ⟨Reg.BLT_STAT, 1, 4, 0x0, 0x0, 0x300, 0x0, 0x0, false⟩,
  ⟨Reg.RING_BASE_LO, 1, 4, 0xFFFFF000, 0x0, 0x0, 0x0, 0x0, false⟩,
  ⟨Reg.RING_BASE_HI, 1, 4, 0xFFFF, 0x0, 0x0, 0x0, 0x0, false⟩,
  ⟨Reg.RING_SIZE, 1, 4, 0xF, 0x0, 0x0, 0x0, 0x4, false⟩,
  ⟨Reg.RING_PROD, 1, 4, 0xFFFFFFFF, 0x0, 0x0, 0x0, 0x0, false⟩,
  ⟨Reg.RING_CONS, 1, 4, 0x0, 0x0, 0x0, 0x0, 0x0, false⟩,
  ⟨Reg.BLT_ERR_LO, 1, 4, 0x0, 0x0, 0x0, 0x0, 0x0, false⟩,
  ⟨Reg.BLT_ERR_HI, 1, 4, 0x0, 0x0, 0x0, 0x0, 0x0, false⟩,
  ⟨Reg.BLT_GO, 1, 4, 0x0, 0x0, 0x0, 0x0, 0x0, false⟩,
  ⟨Reg.BLT_CMDS, 2, 4, 0x0, 0x0, 0x0, 0x0, 0x0, false⟩,
  ⟨Reg.BLT_PIXELS, 2, 4, 0x0, 0x0, 0x0, 0x0, 0x0, false⟩,
  ⟨Reg.BLT_CMD, 16, 4, 0xFFFFFFFF, 0x0, 0x0, 0x0, 0x0, false⟩,
  ⟨Reg.BLT_CLIP_A, 4, 8, 0xFFFFFFFF, 0x0, 0x0, 0x0, 0x0, false⟩,
  ⟨Reg.BLT_CLIP_B, 4, 8, 0xFFFFFFFF, 0x0, 0x0, 0x0, 0x0, false⟩]

/-- R451. -/
def marchRows : List Row := [
  ⟨Reg.MARCH_CTL, 1, 4, 0xFF06, 0x0, 0x0, 0x0, 0x4, false⟩,
  ⟨Reg.MARCH_SEL, 1, 4, 0xFF, 0x0, 0x0, 0x0, 0xFF, false⟩,
  ⟨Reg.MARCH_STAT, 1, 4, 0x0, 0x0, 0x0, 0x0, 0x0, false⟩,
  ⟨Reg.MARCH_LAST, 1, 4, 0x0, 0x0, 0x0, 0x0, 0x0, false⟩,
  ⟨Reg.SRAM_CE, 1, 4, 0x0, 0x0, 0x0, 0x0, 0x0, false⟩,
  ⟨Reg.SRAM_UE, 1, 4, 0x0, 0x0, 0x0, 0x0, 0x0, false⟩]

/-- R457. -/
def mramRows : List Row := [
  ⟨Reg.MRAM_CTL, 1, 4, 0x0, 0x0, 0x0, 0x0, 0x0, false⟩,
  ⟨Reg.MRAM_STAT, 1, 4, 0x0, 0x0, 0x0, 0x0, 0x0, true⟩,
  ⟨Reg.MRAM_PROT, 1, 4, 0x0, 0xFFFF, 0x0, 0x0, 0x0, false⟩,
  ⟨Reg.MRAM_WRITES, 2, 4, 0x0, 0x0, 0x0, 0x0, 0x0, false⟩,
  ⟨Reg.MRAM_CE, 1, 4, 0x0, 0x0, 0x0, 0x0, 0x0, false⟩,
  ⟨Reg.MRAM_UE, 1, 4, 0x0, 0x0, 0x0, 0x0, 0x0, false⟩]

/-- R439. -/
def ddrRows : List Row := [
  ⟨Reg.DDR_CTL, 1, 4, 0xFF70, 0xF, 0x0, 0x0, 0x1878, false⟩,
  ⟨Reg.DDR_STAT, 1, 4, 0x0, 0x0, 0x0, 0x0, 0x0, true⟩,
  ⟨Reg.DDR_PPR_THR, 1, 4, 0xFF, 0x0, 0x0, 0x0, 0x4, false⟩,
  ⟨Reg.DDR_CE, 1, 4, 0x0, 0x0, 0x0, 0x0, 0x0, false⟩,
  ⟨Reg.DDR_UE, 1, 4, 0x0, 0x0, 0x0, 0x0, 0x0, false⟩,
  ⟨Reg.DDR_ERR_LO, 1, 4, 0x0, 0x0, 0x0, 0x0, 0x0, false⟩,
  ⟨Reg.DDR_ERR_HI, 1, 4, 0x0, 0x0, 0x0, 0x0, 0x0, false⟩,
  ⟨Reg.DDR_MARK, 1, 4, 0x0, 0x0, 0x0, 0x0, 0x0, false⟩,
  ⟨Reg.DDR_SCRUB, 1, 4, 0x0, 0x0, 0x0, 0x0, 0x0, false⟩,
  ⟨Reg.DDR_PASSES, 1, 4, 0x0, 0x0, 0x0, 0x0, 0x0, false⟩,
  ⟨Reg.DDR_SPPR, 1, 4, 0x0, 0x0, 0x0, 0x0, 0x0, false⟩,
  ⟨Reg.DDR_MIRREC, 1, 4, 0x0, 0x0, 0x0, 0x0, 0x0, false⟩]

/-- R439. -/
def ddr0Rows : List Row := [
  ⟨Reg.DDR_MIR, 1, 4, 0x0, 0xFF, 0x0, 0x0, 0x0, false⟩,
  ⟨Reg.DDR_TOTAL, 1, 4, 0x0, 0x0, 0x0, 0x0, 0x0, true⟩,
  ⟨Reg.DDR_INIT_BASE, 1, 4, 0xFFFFF, 0x0, 0x0, 0x0, 0x0, false⟩,
  ⟨Reg.DDR_INIT_END, 1, 4, 0xFFFFF, 0x0, 0x0, 0x0, 0x0, false⟩,
  ⟨Reg.DDR_INIT_CMD, 1, 4, 0x0, 0x0, 0x0, 0x0, 0x0, true⟩,
  ⟨Reg.DDR_INIT_DONE, 1, 4, 0x0, 0x0, 0x0, 0x0, 0x0, true⟩,
  ⟨Reg.DDR_INIT_RATE, 1, 4, 0xFF, 0x0, 0x0, 0x0, 0x8, false⟩]

/-- R177. -/
def composeRows : List Row := [
  ⟨Reg.TOK_TOTAL, 1, 4, 0x0, 0x0, 0x0, 0x0, 0x5DC0, true⟩,
  ⟨Reg.TOK_HELD, 1, 4, 0x0, 0x0, 0x0, 0x0, 0x0, true⟩,
  ⟨Reg.TOK_FREE, 1, 4, 0x0, 0x0, 0x0, 0x0, 0x5DC0, true⟩,
  ⟨Reg.COMPOSE_ACCT_CTL, 1, 4, 0xF00, 0x2, 0x0, 0x0, 0x2, false⟩,
  ⟨Reg.COMPOSE_ACCT_STAT, 1, 4, 0x0, 0x0, 0xFFFF, 0x0, 0x0, false⟩,
  ⟨Reg.TOK_SNAP, 1, 4, 0x0, 0x0, 0x0, 0x0, 0x0, false⟩,
  ⟨Reg.RECOMP_PIX, 2, 4, 0x0, 0x0, 0x0, 0x0, 0x0, false⟩,
  ⟨Reg.HEAD_PEND, 5, 4, 0x0, 0x0, 0x0, 0x0, 0x0, true⟩]

/-- R178. -/
def leadRows : List Row := [
  ⟨Reg.LTOK_TOTAL, 1, 4, 0x0, 0x0, 0x0, 0x0, 0xC00, true⟩,
  ⟨Reg.LTOK_HELD, 1, 4, 0x0, 0x0, 0x0, 0x0, 0x0, true⟩,
  ⟨Reg.LTOK_FREE, 1, 4, 0x0, 0x0, 0x0, 0x0, 0xC00, true⟩,
  ⟨Reg.LEAD_ACCT_CTL, 1, 4, 0xF00, 0x2, 0x0, 0x0, 0x2, false⟩,
  ⟨Reg.LEAD_ACCT_STAT, 1, 4, 0x0, 0x0, 0xFFFF, 0x0, 0x0, false⟩,
  ⟨Reg.LTOK_SNAP, 1, 4, 0x0, 0x0, 0x0, 0x0, 0x0, false⟩,
  ⟨Reg.SQUASH_ALL, 2, 4, 0x0, 0x0, 0x0, 0x0, 0x0, false⟩]

/-- R323. -/
def encRows : List Row := [
  ⟨Reg.ENC_AREA, 1, 4, 0x0, 0x3FFFF, 0x0, 0x0, 0x0, true⟩,
  ⟨Reg.ENC_MIRROR, 1, 4, 0x0, 0x7FFFFFF, 0x0, 0x0, 0x0, true⟩,
  ⟨Reg.ENC_SKIP_LVL, 1, 4, 0xFFFFFFFF, 0x0, 0x0, 0x0, 0x1E8480, false⟩,
  ⟨Reg.ENC_ABORT_LVL, 1, 4, 0xFFFFFFFF, 0x0, 0x0, 0x0, 0x16E3600, false⟩,
  ⟨Reg.ENC_BACKLOG, 1, 4, 0x0, 0x0, 0x0, 0x0, 0x0, true⟩,
  ⟨Reg.HS_TOTAL, 1, 4, 0x0, 0x0, 0x0, 0x0, 0xC00, true⟩,
  ⟨Reg.HS_USED, 1, 4, 0x0, 0x0, 0x0, 0x0, 0x0, true⟩,
  ⟨Reg.HS_FREE, 1, 4, 0x0, 0x0, 0x0, 0x0, 0xC00, true⟩,
  ⟨Reg.ENC_CELLS, 2, 4, 0x0, 0x0, 0x0, 0x0, 0x0, false⟩,
  ⟨Reg.ENC_REFS, 2, 4, 0x0, 0x0, 0x0, 0x0, 0x0, false⟩,
  ⟨Reg.ENC_PRUNS, 2, 4, 0x0, 0x0, 0x0, 0x0, 0x0, false⟩,
  ⟨Reg.ENC_JPEGS, 2, 4, 0x0, 0x0, 0x0, 0x0, 0x0, false⟩,
  ⟨Reg.ENC_INSERTS, 2, 4, 0x0, 0x0, 0x0, 0x0, 0x0, false⟩,
  ⟨Reg.ENC_RAWS, 2, 4, 0x0, 0x0, 0x0, 0x0, 0x0, false⟩,
  ⟨Reg.ENC_COPIES, 2, 4, 0x0, 0x0, 0x0, 0x0, 0x0, false⟩,
  ⟨Reg.ENC_BLOCK_PIX, 2, 4, 0x0, 0x0, 0x0, 0x0, 0x0, false⟩]

/-- R324. -/
def dictRows : List Row := [
  ⟨Reg.DICT_CTL, 1, 4, 0xFFFF02, 0x0, 0x0, 0x0, 0x40202, false⟩,
  ⟨Reg.DICT_AREA, 1, 4, 0x0, 0x7FFFFFF, 0x0, 0x0, 0x0, true⟩,
  ⟨Reg.DICT_LOW, 1, 4, 0xFFFFFFFF, 0x0, 0x0, 0x0, 0x10000, false⟩,
  ⟨Reg.DICT_PERIOD, 1, 4, 0xFFFFFFFF, 0x0, 0x0, 0x0, 0x2710, false⟩,
  ⟨Reg.DICT_EPOCH, 1, 4, 0x0, 0x0, 0x0, 0x0, 0x0, true⟩,
  ⟨Reg.DICT_STAT, 1, 4, 0x0, 0x0, 0x0, 0x0, 0x0, true⟩,
  ⟨Reg.DICT_FREE, 1, 4, 0x0, 0x0, 0x0, 0x0, 0x80000, true⟩,
  ⟨Reg.DICT_LIVE, 1, 4, 0x0, 0x0, 0x0, 0x0, 0x0, true⟩,
  ⟨Reg.DICT_DRAIN, 1, 4, 0x0, 0x0, 0x0, 0x0, 0x0, true⟩,
  ⟨Reg.DICT_LOOKUPS, 2, 4, 0x0, 0x0, 0x0, 0x0, 0x0, false⟩,
  ⟨Reg.DICT_HITS, 2, 4, 0x0, 0x0, 0x0, 0x0, 0x0, false⟩,
  ⟨Reg.DICT_INSERTS, 2, 4, 0x0, 0x0, 0x0, 0x0, 0x0, false⟩,
  ⟨Reg.DICT_INS_FAIL, 2, 4, 0x0, 0x0, 0x0, 0x0, 0x0, false⟩,
  ⟨Reg.DICT_EVICTED, 2, 4, 0x0, 0x0, 0x0, 0x0, 0x0, false⟩]

/-- R333. -/
def sessRows : List Row := [
  ⟨Reg.SESS_TABLE_LO, 1, 4, 0x0, 0xFFFFF000, 0x0, 0x0, 0x0, false⟩,
  ⟨Reg.SESS_TABLE_HI, 1, 4, 0x0, 0xFFFF, 0x0, 0x0, 0x0, false⟩,
  ⟨Reg.SESS_CMD, 1, 4, 0x0, 0x0, 0x0, 0x0, 0x0, false⟩,
  ⟨Reg.SESS_CMD_STAT, 1, 4, 0x0, 0x0, 0x0, 0x0, 0x0, true⟩,
  ⟨Reg.SESS_DOORBELL, 1, 4, 0x0, 0x0, 0x0, 0x0, 0x0, false⟩,
  ⟨Reg.SESS_OPEN, 1, 4, 0x0, 0x0, 0x0, 0x0, 0x0, true⟩,
  ⟨Reg.SESS_KEY, 8, 4, 0x0, 0x0, 0x0, 0x0, 0x0, false⟩,
  ⟨Reg.IDU_SESSION, 1, 4, 0xFF03FF, 0x0, 0x0, 0x0, 0x0, false⟩,
  ⟨Reg.IDU_P0, 1, 4, 0xFFFFFFFF, 0x0, 0x0, 0x0, 0x0, false⟩,
  ⟨Reg.IDU_P1, 1, 4, 0xFFFFFFFF, 0x0, 0x0, 0x0, 0x0, false⟩,
  ⟨Reg.IDU_P2, 1, 4, 0x0, 0x0, 0x0, 0x0, 0x0, false⟩,
  ⟨Reg.IDU_STAT, 1, 4, 0x0, 0x0, 0x0, 0x0, 0x0, false⟩,
  ⟨Reg.IDU_SEQ, 2, 4, 0x0, 0x0, 0x0, 0x0, 0x0, false⟩,
  ⟨Reg.IN_SUBMITTED, 2, 4, 0x0, 0x0, 0x0, 0x0, 0x0, false⟩,
  ⟨Reg.IN_NOCTL, 2, 4, 0x0, 0x0, 0x0, 0x0, 0x0, false⟩]

/-- R337. -/
def ethRows : List Row := [
  ⟨Reg.ETH_CTL, 1, 4, 0xFF07, 0x0, 0x0, 0x0, 0x2, false⟩,
  ⟨Reg.ETH_STAT, 1, 4, 0x0, 0x0, 0x0, 0x0, 0x0, false⟩,
  ⟨Reg.MAC_LO, 1, 4, 0xFFFFFFFF, 0x0, 0x0, 0x0, 0x0, false⟩,
  ⟨Reg.MAC_HI, 1, 4, 0xFFFF, 0x0, 0x0, 0x0, 0x0, false⟩,
  ⟨Reg.TXQ_BASE_LO, 1, 4, 0xFFFFF000, 0x0, 0x0, 0x0, 0x0, false⟩,
  ⟨Reg.TXQ_BASE_HI, 1, 4, 0xFFFF, 0x0, 0x0, 0x0, 0x0, false⟩,
  ⟨Reg.TXQ_SIZE, 1, 4, 0xF, 0x0, 0x0, 0x0, 0x8, false⟩,
  ⟨Reg.TXQ_PROD, 1, 4, 0xFFFFFFFF, 0x0, 0x0, 0x0, 0x0, false⟩,
  ⟨Reg.TXQ_CONS, 1, 4, 0x0, 0x0, 0x0, 0x0, 0x0, false⟩,
  ⟨Reg.RXQ_BASE_LO, 1, 4, 0xFFFFF000, 0x0, 0x0, 0x0, 0x0, false⟩,
  ⟨Reg.RXQ_BASE_HI, 1, 4, 0xFFFF, 0x0, 0x0, 0x0, 0x0, false⟩,
  ⟨Reg.RXQ_SIZE, 1, 4, 0xF, 0x0, 0x0, 0x0, 0x8, false⟩,
  ⟨Reg.RXQ_PROD, 1, 4, 0xFFFFFFFF, 0x0, 0x0, 0x0, 0x0, false⟩,
  ⟨Reg.RXQ_CONS, 1, 4, 0x0, 0x0, 0x0, 0x0, 0x0, false⟩,
  ⟨Reg.TX_FRAMES, 2, 4, 0x0, 0x0, 0x0, 0x0, 0x0, false⟩,
  ⟨Reg.RX_FRAMES, 2, 4, 0x0, 0x0, 0x0, 0x0, 0x0, false⟩,
  ⟨Reg.RX_DROPS, 2, 4, 0x0, 0x0, 0x0, 0x0, 0x0, false⟩,
  ⟨Reg.FEC_UNCORR, 2, 4, 0x0, 0x0, 0x0, 0x0, 0x0, false⟩]

/-- R541. -/
def mgmtRows : List Row := [
  ⟨Reg.MG_CTL, 1, 4, 0xFF05, 0x0, 0x0, 0x0, 0x0, false⟩,
  ⟨Reg.MDIO_CMD, 1, 4, 0x0, 0x0, 0x0, 0x0, 0x0, false⟩,
  ⟨Reg.MDIO_STAT, 1, 4, 0x0, 0x0, 0x0, 0x0, 0x0, false⟩,
  ⟨Reg.SGMII_STAT, 1, 4, 0x0, 0x0, 0x0, 0x0, 0x0, false⟩]

/-- R372. -/
def audRows : List Row := [
  ⟨Reg.AUD_TICK_LO, 1, 4, 0x0, 0x0, 0x0, 0x0, 0x0, false⟩,
  ⟨Reg.AUD_TICK_HI, 1, 4, 0x0, 0x0, 0x0, 0x0, 0x0, false⟩,
  ⟨Reg.AUD_ACCT_CTL, 1, 4, 0xF00, 0x2, 0x0, 0x0, 0x2, false⟩,
  ⟨Reg.AUD_ACCT_STAT, 1, 4, 0x0, 0x0, 0xFFFF, 0x0, 0x0, false⟩,
  ⟨Reg.AUD_CLIPS, 1, 4, 0x0, 0x0, 0x0, 0x0, 0x0, false⟩,
  ⟨Reg.AUD_HPF0, 1, 4, 0xFFFFFFFF, 0x0, 0x0, 0x0, 0x0, false⟩,
  ⟨Reg.AUD_HPF1, 1, 4, 0xFFFFFFFF, 0x0, 0x0, 0x0, 0x0, false⟩,
  ⟨Reg.AUD_HPF2, 1, 4, 0x3FF, 0x0, 0x0, 0x0, 0x0, false⟩,
  ⟨Reg.DP_DELAY, 4, 4, 0xFFF, 0x0, 0x0, 0x0, 0x320, false⟩,
  ⟨Reg.LL_CTL, 1, 4, 0x7, 0x0, 0x0, 0x0, 0x0, false⟩,
  ⟨Reg.LL_GAIN, 3, 4, 0xFFFF, 0x0, 0x0, 0x0, 0x0, false⟩,
  ⟨Reg.AUD_FAB_DELAY, 1, 4, 0xFFF, 0x0, 0x0, 0x0, 0x60, false⟩,
  ⟨Reg.SRC_LOCK, 3, 4, 0x0, 0x0, 0x0, 0x0, 0x0, true⟩,
  ⟨Reg.VOICE_OVFS, 1, 4, 0x0, 0x0, 0x0, 0x0, 0x0, false⟩,
  ⟨Reg.AUD_FAB_LATE, 1, 4, 0x0, 0x0, 0x0, 0x0, 0x0, false⟩]

/-- R373. -/
def jackRows : List Row := [
  ⟨Reg.JACK_CTL, 1, 4, 0x7, 0x0, 0x0, 0x0, 0x7, false⟩,
  ⟨Reg.JACK_STAT, 1, 4, 0x0, 0x0, 0x0, 0x0, 0x0, true⟩,
  ⟨Reg.JACK_TIP, 1, 4, 0x0, 0x0, 0x0, 0x0, 0x0, false⟩]

/-- R374. -/
def i2sRows : List Row := [
  ⟨Reg.I2S_CTL, 2, 8, 0x1FFF, 0x0, 0x0, 0x0, 0x40, false⟩,
  ⟨Reg.I2S_STAT, 2, 8, 0x0, 0x0, 0x0, 0x0, 0x0, true⟩]

/-- R418. -/
def fabRows0 : List Row := [
  ⟨Reg.FAB_CTL, 1, 4, 0x0, 0x3, 0x0, 0x0, 0x0, false⟩,
  ⟨Reg.FAB_STAT, 1, 4, 0x0, 0x0, 0x0, 0x0, 0x0, true⟩,
  ⟨Reg.FAB_SERIAL_LO, 1, 4, 0x0, 0x0, 0x0, 0x0, 0x0, true⟩,
  ⟨Reg.FAB_SERIAL_HI, 1, 4, 0x0, 0x0, 0x0, 0x0, 0x0, true⟩,
  ⟨Reg.FAB_ID_LO, 1, 4, 0x0, 0x0, 0x0, 0x0, 0x0, true⟩,
  ⟨Reg.FAB_ID_HI, 1, 4, 0x0, 0x0, 0x0, 0x0, 0x0, true⟩,
  ⟨Reg.FAB_OFFER_LO, 1, 4, 0x0, 0x1F, 0x0, 0x0, 0x0, false⟩,
  ⟨Reg.FAB_OFFER_HI, 1, 4, 0x0, 0x0, 0x0, 0x0, 0x0, false⟩,
  ⟨Reg.FAB_MEMBERS, 1, 4, 0x0, 0x0, 0x0, 0x0, 0x0, true⟩,
  ⟨Reg.RT_CTL, 1, 4, 0x0, 0x0, 0x0, 0x0, 0x0, true⟩,
  ⟨Reg.RT_GO_LO, 1, 4, 0xFFFFFFFF, 0x0, 0x0, 0x0, 0x0, false⟩,
  ⟨Reg.RT_GO_HI, 1, 4, 0xFFFFFFFF, 0x0, 0x0, 0x0, 0x0, false⟩,
  ⟨Reg.RT_READ, 1, 4, 0xFFF, 0x0, 0x0, 0x0, 0x0, false⟩,
  ⟨Reg.EP_INJ, 4, 4, 0x0, 0x0, 0x0, 0x0, 0x0, false⟩,
  ⟨Reg.EP_END, 4, 4, 0x0, 0x0, 0x0, 0x0, 0x0, false⟩,
  ⟨Reg.NOROUTE, 2, 4, 0x0, 0x0, 0x0, 0x0, 0x0, false⟩,
  ⟨Reg.HOP_DROPS, 1, 4, 0x0, 0x0, 0x0, 0x0, 0x0, false⟩,
  ⟨Reg.FEAT_DROPS, 1, 4, 0x0, 0x0, 0x0, 0x0, 0x0, false⟩,
  ⟨Reg.HOLD_DROPS, 1, 4, 0x0, 0x0, 0x0, 0x0, 0x0, false⟩,
  ⟨Reg.HOLD_USED, 1, 4, 0x0, 0x0, 0x0, 0x0, 0x0, true⟩,
  ⟨Reg.HOLD_BASE, 1, 4, 0x0, 0x7FFFFFF, 0x0, 0x0, 0x0, false⟩,
  ⟨Reg.LOC_AREA, 1, 4, 0x0, 0x7FFFFFF, 0x0, 0x0, 0x0, false⟩,
  ⟨Reg.REL_AREA, 1, 4, 0x0, 0x3FFFF, 0x0, 0x0, 0x0, false⟩,
  ⟨Reg.FA_REJECTS, 1, 4, 0x0, 0x0, 0x0, 0x0, 0x0, false⟩]

/-- R418. -/
def fabRows1 : List Row := [
  ⟨Reg.FSR_BASE, 1, 4, 0x0, 0x7FFFFFF, 0x0, 0x0, 0x0, false⟩,
  ⟨Reg.FSR_TX_PROD, 1, 4, 0xFFFFFFFF, 0x0, 0x0, 0x0, 0x0, false⟩,
  ⟨Reg.FSR_TX_CONS, 1, 4, 0x0, 0x0, 0x0, 0x0, 0x0, false⟩,
  ⟨Reg.FSR_RX_PROD, 1, 4, 0x0, 0x0, 0x0, 0x0, 0x0, false⟩,
  ⟨Reg.FSR_RX_CONS, 1, 4, 0xFFFFFFFF, 0x0, 0x0, 0x0, 0x0, false⟩,
  ⟨Reg.MIG_SEL, 1, 4, 0xF, 0x0, 0x0, 0x0, 0x0, false⟩,
  ⟨Reg.MIG_SRC, 1, 4, 0x7F, 0x0, 0x0, 0x0, 0x0, false⟩,
  ⟨Reg.MIG_DST, 1, 4, 0x7F0FFF, 0x0, 0x0, 0x0, 0x0, false⟩,
  ⟨Reg.MIG_CMD, 1, 4, 0x0, 0x0, 0x0, 0x0, 0x0, false⟩,
  ⟨Reg.MIG_STAT, 1, 4, 0x0, 0x0, 0x0, 0x0, 0x0, true⟩,
  ⟨Reg.MIG_DIRTY, 1, 4, 0x0, 0x0, 0x0, 0x0, 0x0, false⟩,
  ⟨Reg.MIG_FRAME, 1, 4, 0x0, 0x0, 0x0, 0x0, 0x0, false⟩,
  ⟨Reg.MIG_DIRTY_LIM, 1, 4, 0xFFFFFFFF, 0x0, 0x0, 0x0, 0x1000, false⟩,
  ⟨Reg.FA_OUT, 64, 4, 0x801F0FFF, 0x0, 0x0, 0x0, 0x0, false⟩,
  ⟨Reg.FA_IN, 22, 4, 0x803F0FFF, 0x0, 0x0, 0x0, 0x0, false⟩,
  ⟨Reg.MEMBER, 128, 4, 0x0, 0x0, 0x0, 0x0, 0x0, true⟩,
  ⟨Reg.RT_SHADOW, 512, 4, 0xFFFFFFFF, 0x0, 0x0, 0x0, 0xFFFFFFFF, false⟩]

/-- R418. -/
def fabRows : List Row := fabRows0 ++ fabRows1

/-- R419 (assumption log 63). -/
def timeRows : List Row := [
  ⟨Reg.TIME_CTL, 1, 4, 0x0, 0x1, 0x0, 0x0, 0x0, false⟩,
  ⟨Reg.TIME_ACQ_WAIT, 1, 4, 0xFFFF, 0x0, 0x0, 0x0, 0x12C, false⟩,
  ⟨Reg.TIME_STAT, 1, 4, 0x0, 0x0, 0x0, 0x0, 0x0, true⟩,
  ⟨Reg.TIME_FT_LO, 1, 4, 0x0, 0x0, 0x0, 0x0, 0x0, false⟩,
  ⟨Reg.TIME_FT_HI, 1, 4, 0x0, 0x0, 0x0, 0x0, 0x0, false⟩,
  ⟨Reg.TIME_OFFSET, 1, 4, 0x0, 0x0, 0x0, 0x0, 0x0, false⟩,
  ⟨Reg.TIME_CORR, 1, 4, 0x0, 0x0, 0x0, 0x0, 0x0, true⟩,
  ⟨Reg.TIME_TRIM, 1, 4, 0xFFFF, 0x0, 0x0, 0x0, 0x0, false⟩,
  ⟨Reg.TIME_SYNCS, 2, 4, 0x0, 0x0, 0x0, 0x0, 0x0, false⟩,
  ⟨Reg.TIME_UNLOCKS, 1, 4, 0x0, 0x0, 0x0, 0x0, 0x0, false⟩]

/-- R420. -/
def logRows : List Row := [
  ⟨Reg.LOG_CTL, 1, 4, 0xFFF000E, 0x1, 0x0, 0x0, 0x5, false⟩,
  ⟨Reg.LOG_STAT, 1, 4, 0x0, 0x0, 0x0, 0x0, 0x0, true⟩,
  ⟨Reg.LOG_TRACE_LVL, 1, 4, 0xFFFFFFFF, 0x0, 0x0, 0x0, 0xDE0, false⟩,
  ⟨Reg.LOG_COAL_LVL, 1, 4, 0xFFFFFFFF, 0x0, 0x0, 0x0, 0x14D0, false⟩,
  ⟨Reg.LOG_AREA, 1, 4, 0x0, 0x7FFFFFF, 0x0, 0x0, 0x0, false⟩,
  ⟨Reg.LOG_ACCT_CTL, 1, 4, 0xF00, 0x2, 0x0, 0x0, 0x2, false⟩,
  ⟨Reg.LOG_ACCT_STAT, 1, 4, 0x0, 0x0, 0xFFFF, 0x0, 0x0, false⟩,
  ⟨Reg.LOG_RING_PROD, 1, 4, 0x0, 0x0, 0x0, 0x0, 0x0, false⟩,
  ⟨Reg.LOG_RING_CONS, 1, 4, 0xFFFFFFFF, 0x0, 0x0, 0x0, 0x0, false⟩,
  ⟨Reg.LOG_SW0, 1, 4, 0xFF033F, 0x0, 0x0, 0x0, 0x0, false⟩,
  ⟨Reg.LOG_SW1, 1, 4, 0xFFFFFFFF, 0x0, 0x0, 0x0, 0x0, false⟩,
  ⟨Reg.LOG_SW2, 1, 4, 0x0, 0x0, 0x0, 0x0, 0x0, false⟩,
  ⟨Reg.LOG_RX_REMOTE, 2, 4, 0x0, 0x0, 0x0, 0x0, 0x0, false⟩]

/-- R417. -/
def alRows : List Row := [
  ⟨Reg.AL_CTL, 1, 4, 0x0, 0x3, 0x0, 0x0, 0x3, false⟩,
  ⟨Reg.AL_STAT, 1, 4, 0x0, 0x0, 0x0, 0x0, 0x0, true⟩,
  ⟨Reg.AL_PEER_SN_LO, 1, 4, 0x0, 0x0, 0x0, 0x0, 0x0, true⟩,
  ⟨Reg.AL_PEER_SN_HI, 1, 4, 0x0, 0x0, 0x0, 0x0, 0x0, true⟩,
  ⟨Reg.AL_NEG_LO, 1, 4, 0x0, 0x0, 0x0, 0x0, 0x0, true⟩,
  ⟨Reg.AL_NEG_HI, 1, 4, 0x0, 0x0, 0x0, 0x0, 0x0, true⟩,
  ⟨Reg.AL_ACCT_CTL, 1, 4, 0xF00, 0x2, 0x0, 0x0, 0x2, false⟩,
  ⟨Reg.AL_ACCT_STAT, 1, 4, 0x0, 0x0, 0xFFFF, 0x0, 0x0, false⟩,
  ⟨Reg.AL_DELAY, 1, 4, 0x0, 0x0, 0x0, 0x0, 0x0, false⟩,
  ⟨Reg.AL_ASYM, 1, 4, 0xFFFF, 0x0, 0x0, 0x0, 0x0, false⟩,
  ⟨Reg.AL_FLITS_TX, 2, 4, 0x0, 0x0, 0x0, 0x0, 0x0, false⟩,
  ⟨Reg.AL_FLITS_RX, 2, 4, 0x0, 0x0, 0x0, 0x0, 0x0, false⟩,
  ⟨Reg.AL_REPLAYS, 1, 4, 0x0, 0x0, 0x0, 0x0, 0x0, false⟩,
  ⟨Reg.AL_CRC_ERRS, 1, 4, 0x0, 0x0, 0x0, 0x0, 0x0, false⟩,
  ⟨Reg.AL_CRED, 24, 4, 0x0, 0x0, 0x0, 0x0, 0x0, true⟩,
  ⟨Reg.AL_CSNAP, 24, 4, 0x0, 0x0, 0x0, 0x0, 0x0, false⟩,
  ⟨Reg.AL_LOST, 1, 4, 0x0, 0x0, 0x0, 0x0, 0x0, false⟩,
  ⟨Reg.AL_DOWNS, 1, 4, 0x0, 0x0, 0x0, 0x0, 0x0, false⟩,
  ⟨Reg.AL_FEC_UNCORR, 1, 4, 0x0, 0x0, 0x0, 0x0, 0x0, false⟩]

/-- R539. -/
def usbRows : List Row := [
  ⟨Reg.USB_CTL, 1, 4, 0x7F03, 0x0, 0x0, 0x0, 0x0, false⟩,
  ⟨Reg.USB_P_CTL, 2, 4, 0x1, 0x0, 0x0, 0x0, 0x0, false⟩,
  ⟨Reg.USB_P_STAT, 2, 4, 0x0, 0x0, 0x0, 0x0, 0x0, true⟩,
  ⟨Reg.USB_EVENTS, 2, 4, 0x0, 0x0, 0x0, 0x0, 0x0, false⟩,
  ⟨Reg.USB_DROPPED, 2, 4, 0x0, 0x0, 0x0, 0x0, 0x0, false⟩]

/-- R274. -/
def lepoolRows : List Row := [
  ⟨Reg.POOL_SWAP_GO, 1, 4, 0x0, 0x0, 0x0, 0x0, 0x0, false⟩,
  ⟨Reg.POOL_RUNNING, 1, 4, 0x0, 0x0, 0x0, 0x0, 0x0, false⟩,
  ⟨Reg.POOL_HALTED, 1, 4, 0x0, 0x0, 0x0, 0x0, 0x0, false⟩,
  ⟨Reg.POOL_FAULTED, 1, 4, 0x0, 0x0, 0x0, 0x0, 0x0, false⟩]

/-- R236, R272. -/
def leRows : List Row := [
  ⟨Reg.LE_HEADS, 4, 4, 0x0, 0xFFFFFFFF, 0x0, 0x0, 0x0, false⟩,
  ⟨Reg.LE_HEADS4, 1, 4, 0x0, 0xF, 0x0, 0x0, 0x0, false⟩,
  ⟨Reg.LE_FAULT, 1, 4, 0x0, 0x0, 0x80000000, 0x0, 0x0, false⟩,
  ⟨Reg.LE_FAULT_PC, 1, 4, 0x0, 0x0, 0x0, 0x0, 0x0, false⟩,
  ⟨Reg.LE_FAULT_WORD, 1, 4, 0x0, 0x0, 0x0, 0x0, 0x0, false⟩,
  ⟨Reg.LE_FAULT_ADDR, 1, 4, 0x0, 0x0, 0x0, 0x0, 0x0, false⟩,
  ⟨Reg.LE_CTL, 1, 4, 0x7, 0x0, 0x0, 0x0, 0x0, false⟩,
  ⟨Reg.LE_STAT, 1, 4, 0x0, 0x0, 0x0, 0x0, 0x0, false⟩,
  ⟨Reg.LE_ENTRY, 1, 4, 0xFFFFFFFC, 0x0, 0x0, 0x0, 0x18000000, false⟩,
  ⟨Reg.LE_PC, 1, 4, 0xFFFFFFFF, 0x0, 0x0, 0x0, 0x18000000, false⟩,
  ⟨Reg.LE_EVVEC, 1, 4, 0xFFFFFFFC, 0x0, 0x0, 0x0, 0x18000000, false⟩,
  ⟨Reg.LE_EVLINE, 1, 4, 0xFF0FFF, 0x0, 0x0, 0x0, 0x0, false⟩,
  ⟨Reg.LE_MBOX, 1, 4, 0xFFFFFFFF, 0x0, 0x0, 0x0, 0x0, false⟩,
  ⟨Reg.LE_DBG, 1, 4, 0xF8, 0x0, 0x0, 0x0, 0x0, false⟩,
  ⟨Reg.LE_BP, 4, 4, 0xFFFFFFFC, 0x0, 0x0, 0x0, 0x0, false⟩,
  ⟨Reg.LE_SWAP_ENTRY, 1, 4, 0xFFFFFFFC, 0x0, 0x0, 0x0, 0x0, false⟩,
  ⟨Reg.LE_SWAP_CTL, 1, 4, 0x2FF, 0x0, 0x0, 0x0, 0x0, false⟩,
  ⟨Reg.LE_SWAP_FRAME, 1, 4, 0x0, 0x0, 0x0, 0x0, 0x0, false⟩,
  ⟨Reg.LE_ISSUED, 2, 4, 0x0, 0x0, 0x0, 0x0, 0x0, false⟩,
  ⟨Reg.LE_STALLS, 1, 4, 0x0, 0x0, 0x0, 0x0, 0x0, false⟩,
  ⟨Reg.LE_REDIRECTS, 1, 4, 0x0, 0x0, 0x0, 0x0, 0x0, false⟩,
  ⟨Reg.LE_FILLS, 1, 4, 0x0, 0x0, 0x0, 0x0, 0x0, false⟩,
  ⟨Reg.LE_LBUF, 1, 4, 0x0, 0x0, 0x0, 0x0, 0x0, false⟩]

/-- R100 (assumption log 63). -/
def hpRows : List Row := [
  ⟨Reg.HP_CTL, 1, 4, 0x18, 0x7, 0x0, 0x0, 0x1F, false⟩,
  ⟨Reg.HP_STAT, 1, 4, 0x0, 0x0, 0x0, 0x0, 0x1, true⟩,
  ⟨Reg.HP_SHARE_CAP, 1, 4, 0x1FFF, 0x0, 0x0, 0x0, 0x100, false⟩,
  ⟨Reg.HP_FLOOR_TOTAL, 1, 4, 0x0, 0x0, 0x0, 0x0, 0x20, true⟩,
  ⟨Reg.HP_FLOOR_USED, 1, 4, 0x0, 0x0, 0x0, 0x0, 0x0, true⟩,
  ⟨Reg.HP_FLOOR_FREE, 1, 4, 0x0, 0x0, 0x0, 0x0, 0x20, true⟩,
  ⟨Reg.HP_SHARE_USED, 1, 4, 0x0, 0x0, 0x0, 0x0, 0x0, true⟩,
  ⟨Reg.HP_ACCT_CTL, 1, 4, 0xF00, 0x2, 0x0, 0x0, 0x2, false⟩,
  ⟨Reg.HP_ACCT_STAT, 1, 4, 0x0, 0x0, 0xFFFF, 0x0, 0x0, false⟩,
  ⟨Reg.HP_SNAP_FLOOR, 1, 4, 0x0, 0x0, 0x0, 0x0, 0x0, false⟩,
  ⟨Reg.IN_ACCEPTED, 2, 4, 0x0, 0x0, 0x0, 0x0, 0x0, true⟩,
  ⟨Reg.IN_DELIVERED, 2, 4, 0x0, 0x0, 0x0, 0x0, 0x0, true⟩,
  ⟨Reg.IN_PENDING, 2, 4, 0x0, 0x0, 0x0, 0x0, 0x0, true⟩,
  ⟨Reg.IN_FORWARDED, 2, 4, 0x0, 0x0, 0x0, 0x0, 0x0, true⟩,
  ⟨Reg.IN_REFUSED, 2, 4, 0x0, 0x0, 0x0, 0x0, 0x0, true⟩,
  ⟨Reg.IN_SNAP, 10, 4, 0x0, 0x0, 0x0, 0x0, 0x0, false⟩,
  ⟨Reg.ING_COMMITS, 2, 4, 0x0, 0x0, 0x0, 0x0, 0x0, false⟩,
  ⟨Reg.ING_BYTES, 2, 4, 0x0, 0x0, 0x0, 0x0, 0x0, false⟩,
  ⟨Reg.ING_DISCARDS, 2, 4, 0x0, 0x0, 0x0, 0x0, 0x0, false⟩,
  ⟨Reg.ING_LAST_FT, 2, 4, 0x0, 0x0, 0x0, 0x0, 0x0, false⟩,
  ⟨Reg.HP_FENCE_VIOL, 1, 4, 0x0, 0x0, 0x0, 0x0, 0x0, false⟩,
  ⟨Reg.IN_DUPLICATE, 2, 4, 0x0, 0x0, 0x0, 0x0, 0x0, false⟩]

/-- R115, R125, R147, R174. -/
def headRows0 : List Row := [
  ⟨Reg.HD_MODE, 1, 4, 0x3F0F0F, 0x0, 0x0, 0x0, 0x80000, false⟩,
  ⟨Reg.HD_HTIME, 1, 4, 0xFFF0FFF, 0x0, 0x0, 0x0, 0x7D00780, false⟩,
  ⟨Reg.HD_VTIME, 1, 4, 0xFFF0FFF, 0x0, 0x0, 0x0, 0x4D304B0, false⟩,
  ⟨Reg.HD_FPERIOD, 1, 4, 0xFFFFFFFF, 0x0, 0x0, 0x0, 0x4444444, false⟩,
  ⟨Reg.HD_ORIGIN_LO, 1, 4, 0xFFFFFFFF, 0x0, 0x0, 0x0, 0x0, false⟩,
  ⟨Reg.HD_ORIGIN_HI, 1, 4, 0xFFFFFFFF, 0x0, 0x0, 0x0, 0x0, false⟩,
  ⟨Reg.HD_LEAD, 1, 4, 0x0, 0x0, 0x0, 0x0, 0x0, false⟩,
  ⟨Reg.HD_BEAM, 1, 4, 0x0, 0x0, 0x0, 0x0, 0x80000000, false⟩,
  ⟨Reg.HD_FRAME_LO, 1, 4, 0x0, 0x0, 0x0, 0x0, 0x0, false⟩,
  ⟨Reg.HD_FRAME_HI, 1, 4, 0x0, 0x0, 0x0, 0x0, 0x0, false⟩,
  ⟨Reg.HD_TOKENS, 1, 4, 0x0, 0x0, 0x0, 0x0, 0x0, false⟩,
  ⟨Reg.HD_ADMIT, 1, 4, 0x0, 0x0, 0x0, 0x0, 0x0, false⟩,
  ⟨Reg.HD_LAYER_CTL, 1, 4, 0xFFFF3F, 0x0, 0x0, 0x0, 0xD200, false⟩,
  ⟨Reg.HD_LAYER_ALPHA, 1, 4, 0xFFFFFFFF, 0x0, 0x0, 0x0, 0xFFFFFFFF, false⟩,
  ⟨Reg.HD_BGCOLOUR, 1, 4, 0xFFFFFF, 0x0, 0x0, 0x0, 0x0, false⟩,
  ⟨Reg.HD_BUFSEL, 1, 4, 0x7, 0x0, 0x0, 0x0, 0x0, false⟩,
  ⟨Reg.TA_MAPS, 1, 4, 0xFFFFFFFF, 0x0, 0x0, 0x0, 0x0, false⟩,
  ⟨Reg.TA_GEOM, 1, 4, 0xFFFFFFFF, 0x0, 0x0, 0x0, 0x0, false⟩,
  ⟨Reg.TA_CELL, 1, 4, 0xFF77FF, 0x0, 0x0, 0x0, 0x0, false⟩,
  ⟨Reg.TA_GLYPH, 1, 4, 0xFFFFFFC0, 0x0, 0x0, 0x0, 0x0, false⟩,
  ⟨Reg.TA_SCROLL, 1, 4, 0xFFFFFFFF, 0x0, 0x0, 0x0, 0x0, false⟩,
  ⟨Reg.TB_MAPS, 1, 4, 0xFFFFFFFF, 0x0, 0x0, 0x0, 0x0, false⟩,
  ⟨Reg.TB_GEOM, 1, 4, 0xFFFFFFFF, 0x0, 0x0, 0x0, 0x0, false⟩,
  ⟨Reg.TB_CELL, 1, 4, 0xFF77FF, 0x0, 0x0, 0x0, 0x0, false⟩]

/-- R115, R125, R147, R174. -/
def headRows1 : List Row := [
  ⟨Reg.TB_GLYPH, 1, 4, 0xFFFFFFC0, 0x0, 0x0, 0x0, 0x0, false⟩,
  ⟨Reg.TB_SCROLL, 1, 4, 0xFFFFFFFF, 0x0, 0x0, 0x0, 0x0, false⟩,
  ⟨Reg.BM_BASE0, 1, 4, 0xFFFFF000, 0x0, 0x0, 0x0, 0x0, false⟩,
  ⟨Reg.BM_BASE1, 1, 4, 0xFFFFF000, 0x0, 0x0, 0x0, 0x0, false⟩,
  ⟨Reg.BM_FMT, 1, 4, 0xFFFF001F, 0x0, 0x0, 0x0, 0x3, false⟩,
  ⟨Reg.BM_SIZE, 1, 4, 0xFFFFFFFF, 0x0, 0x0, 0x0, 0x0, false⟩,
  ⟨Reg.BM_SCROLL, 1, 4, 0xFFFFFFFF, 0x0, 0x0, 0x0, 0x0, false⟩,
  ⟨Reg.BM_KEY, 1, 4, 0xFFFFFFFF, 0x0, 0x0, 0x0, 0x0, false⟩,
  ⟨Reg.BM_KEYMASK, 1, 4, 0xFFFFFFFF, 0x0, 0x0, 0x0, 0xFFFFFFFF, false⟩,
  ⟨Reg.WIN_X, 1, 4, 0xFFFFFFFF, 0x0, 0x0, 0x0, 0x0, false⟩,
  ⟨Reg.WIN_Y, 1, 4, 0xFFFFFFFF, 0x0, 0x0, 0x0, 0x0, false⟩,
  ⟨Reg.SPR_TABLE, 1, 4, 0xFFFFFFC0, 0x0, 0x0, 0x0, 0x0, false⟩,
  ⟨Reg.CUR_IMAGE, 1, 4, 0xFFFFFFC0, 0x0, 0x0, 0x0, 0x0, false⟩,
  ⟨Reg.CUR_POS, 1, 4, 0xFFFFFFFF, 0x0, 0x0, 0x0, 0x0, false⟩,
  ⟨Reg.CUR_CTL, 1, 4, 0x3F3F01, 0x0, 0x0, 0x0, 0x0, false⟩,
  ⟨Reg.LT_BASE, 1, 4, 0xFFFFFFF8, 0x0, 0x0, 0x0, 0x0, false⟩,
  ⟨Reg.LT_CTL, 1, 4, 0x1FFF0001, 0x0, 0x0, 0x0, 0x0, false⟩,
  ⟨Reg.HD_LSTAT, 1, 4, 0x0, 0x0, 0x1F, 0x0, 0x0, false⟩,
  ⟨Reg.FRAMES_STARTED, 2, 4, 0x0, 0x0, 0x0, 0x0, 0x0, false⟩,
  ⟨Reg.FRAMES_COMPLETE, 2, 4, 0x0, 0x0, 0x0, 0x0, 0x0, false⟩,
  ⟨Reg.WITHHELD_FRAMES, 2, 4, 0x0, 0x0, 0x0, 0x0, 0x0, false⟩,
  ⟨Reg.LATE_LINES, 2, 4, 0x0, 0x0, 0x0, 0x0, 0x0, false⟩,
  ⟨Reg.SQUASHES, 2, 4, 0x0, 0x0, 0x0, 0x0, 0x0, false⟩,
  ⟨Reg.RECOMPOSED_LINES, 2, 4, 0x0, 0x0, 0x0, 0x0, 0x0, false⟩]

/-- R115, R125, R147, R174. -/
def headRows2 : List Row := [
  ⟨Reg.ABANDONED_LINES, 2, 4, 0x0, 0x0, 0x0, 0x0, 0x0, false⟩,
  ⟨Reg.REPEATED_FRAMES, 1, 4, 0x0, 0x0, 0x0, 0x0, 0x0, false⟩,
  ⟨Reg.WINDOW_HALVINGS, 1, 4, 0x0, 0x0, 0x0, 0x0, 0x0, false⟩,
  ⟨Reg.PALETTE, 512, 4, 0xFFFFFFFF, 0x0, 0x0, 0x0, 0x0, false⟩]

/-- R115, R125, R147, R174. -/
def headRows : List Row := headRows0 ++ headRows1 ++ headRows2

/-- R107, R321, R342. -/
def vheadRows : List Row := [
  ⟨Reg.TN_CTL, 4, 16, 0x3F7, 0x0, 0x0, 0x0, 0x300, false⟩,
  ⟨Reg.TN_PERIOD, 4, 16, 0xFFFF, 0x0, 0x0, 0x0, 0x0, false⟩,
  ⟨Reg.TN_LEN, 4, 16, 0xFFFF, 0x0, 0x0, 0x0, 0x0, false⟩,
  ⟨Reg.TN_ENV, 4, 16, 0x3F, 0x0, 0x0, 0x0, 0x0, false⟩,
  ⟨Reg.ENC_HCTL, 1, 4, 0x7F0F, 0x0, 0x0, 0x0, 0x4B07, false⟩,
  ⟨Reg.V_ACCT_CTL, 1, 4, 0xF00, 0x2, 0x0, 0x0, 0x2, false⟩,
  ⟨Reg.V_ACCT_STAT, 1, 4, 0x0, 0x0, 0xFFFF, 0x0, 0x0, false⟩,
  ⟨Reg.ENC_PEND, 1, 4, 0x0, 0x0, 0x0, 0x0, 0x0, false⟩,
  ⟨Reg.ENC_COMPOSED, 2, 4, 0x0, 0x0, 0x0, 0x0, 0x0, false⟩,
  ⟨Reg.ENC_SENT, 2, 4, 0x0, 0x0, 0x0, 0x0, 0x0, false⟩,
  ⟨Reg.ENC_WITHHELD, 2, 4, 0x0, 0x0, 0x0, 0x0, 0x0, false⟩,
  ⟨Reg.ENC_SKIPPED, 2, 4, 0x0, 0x0, 0x0, 0x0, 0x0, false⟩,
  ⟨Reg.ENC_SNAPS, 4, 4, 0x0, 0x0, 0x0, 0x0, 0x0, false⟩,
  ⟨Reg.HB_NAME_LO, 1, 4, 0xFFFFFFFF, 0x0, 0x0, 0x0, 0x0, false⟩,
  ⟨Reg.HB_NAME_HI, 1, 4, 0xFFFFFFFF, 0x0, 0x0, 0x0, 0x0, false⟩,
  ⟨Reg.HB_CTL, 1, 4, 0x0, 0x0, 0x0, 0x0, 0x0, false⟩,
  ⟨Reg.HB_STAT, 1, 4, 0x0, 0x0, 0x0, 0x0, 0x0, false⟩,
  ⟨Reg.HB_DRAM_LO, 1, 4, 0x0, 0xFFE00000, 0x0, 0x0, 0x0, false⟩,
  ⟨Reg.HB_DRAM_HI, 1, 4, 0x0, 0xFFFF, 0x0, 0x0, 0x0, false⟩,
  ⟨Reg.HB_DRAM_SIZE, 1, 4, 0x0, 0xFF, 0x0, 0x0, 0x0, false⟩,
  ⟨Reg.HB_GLYPH, 1, 4, 0x0, 0x3FF03FF, 0x0, 0x0, 0x0, false⟩,
  ⟨Reg.HB_SUBSYS, 1, 4, 0x0, 0xFFFFFFFF, 0x0, 0x0, 0x1281E4C, false⟩]

/-- R115. -/
def pheadRows : List Row := [
  ⟨Reg.PH_DRAM, 1, 4, 0x0, 0x7FFFFFF, 0x0, 0x0, 0x0, false⟩,
  ⟨Reg.PH_ALLOC, 1, 4, 0x0, 0x7FFFFFF, 0x0, 0x0, 0x0, false⟩]

/-- R64, R70. -/
def fnRows : List Row := [
  ⟨Reg.HF_ID, 1, 4, 0x0, 0x0, 0x0, 0x0, 0x10000, false⟩,
  ⟨Reg.HF_DEV_FEAT_LO, 1, 4, 0x0, 0x0, 0x0, 0x0, 0x0, false⟩,
  ⟨Reg.HF_DEV_FEAT_HI, 1, 4, 0x0, 0x0, 0x0, 0x0, 0x0, false⟩,
  ⟨Reg.HF_DRV_FEAT_LO, 1, 4, 0xFFFFFFFF, 0x0, 0x0, 0x0, 0x0, false⟩,
  ⟨Reg.HF_DRV_FEAT_HI, 1, 4, 0xFFFFFFFF, 0x0, 0x0, 0x0, 0x0, false⟩,
  ⟨Reg.HF_CTL, 1, 4, 0x0, 0x0, 0x0, 0x0, 0x0, false⟩,
  ⟨Reg.HF_STAT, 1, 4, 0x0, 0x0, 0x0, 0x0, 0x0, false⟩,
  ⟨Reg.HF_EVT_STAT, 1, 4, 0x0, 0x0, 0xFFFF, 0x0, 0x0, false⟩,
  ⟨Reg.HF_EVT_EN, 1, 4, 0xFFFF, 0x0, 0x0, 0x0, 0x0, false⟩,
  ⟨Reg.HF_EVT_VEC, 1, 4, 0xFFFFFFFF, 0x0, 0x0, 0x0, 0x0, false⟩,
  ⟨Reg.HF_FENCE, 2, 4, 0x0, 0x0, 0x0, 0x0, 0x0, false⟩,
  ⟨Reg.HF_NEG_LO, 1, 4, 0x0, 0x0, 0x0, 0x0, 0x0, false⟩,
  ⟨Reg.HF_NEG_HI, 1, 4, 0x0, 0x0, 0x0, 0x0, 0x0, false⟩,
  ⟨Reg.MSIX_TABLE, 16, 4, 0xFFFFFFFF, 0x0, 0x0, 0x0, 0x0, false⟩,
  ⟨Reg.MSIX_PBA, 2, 4, 0x0, 0x0, 0x0, 0x0, 0x0, false⟩]

/-- R85. -/
def fndRows : List Row := [
  ⟨Reg.HF_PRESENT, 1, 4, 0x0, 0x0, 0x0, 0x0, 0x0, false⟩,
  ⟨Reg.HF_PRESENT_DONE, 1, 4, 0x0, 0x0, 0x0, 0x0, 0x0, false⟩,
  ⟨Reg.HF_PRESENT_FRAME, 1, 4, 0x0, 0x0, 0x0, 0x0, 0x0, false⟩]

/-- R89. -/
def fniRows : List Row := [
  ⟨Reg.IR_BASE_LO, 1, 4, 0xFFFFFFC0, 0x0, 0x0, 0x0, 0x0, false⟩,
  ⟨Reg.IR_BASE_HI, 1, 4, 0xFFFFFFFF, 0x0, 0x0, 0x0, 0x0, false⟩,
  ⟨Reg.IR_SIZE, 1, 4, 0xF, 0x0, 0x0, 0x0, 0x4, false⟩,
  ⟨Reg.IR_CTL, 1, 4, 0x1, 0x0, 0x0, 0x0, 0x0, false⟩,
  ⟨Reg.IR_WB_LO, 1, 4, 0xFFFFFFF8, 0x0, 0x0, 0x0, 0x0, false⟩,
  ⟨Reg.IR_WB_HI, 1, 4, 0xFFFFFFFF, 0x0, 0x0, 0x0, 0x0, false⟩,
  ⟨Reg.IR_PROD, 1, 4, 0x0, 0x0, 0x0, 0x0, 0x0, false⟩,
  ⟨Reg.IR_CONS, 1, 4, 0xFFFFFFFF, 0x0, 0x0, 0x0, 0x0, false⟩,
  ⟨Reg.IR_LED, 1, 4, 0x1F, 0x0, 0x0, 0x0, 0x0, false⟩,
  ⟨Reg.IR_LAST_SEQ, 2, 4, 0x0, 0x0, 0x0, 0x0, 0x0, false⟩]

/-- R97. -/
def fnaRows : List Row := [
  ⟨Reg.RG_BASE_LO, 2, 32, 0xFFFFF000, 0x0, 0x0, 0x0, 0x0, false⟩,
  ⟨Reg.RG_BASE_HI, 2, 32, 0xFFFFFFFF, 0x0, 0x0, 0x0, 0x0, false⟩,
  ⟨Reg.RG_SIZE, 2, 32, 0x1F, 0x0, 0x0, 0x0, 0xC, false⟩,
  ⟨Reg.PL_CTL, 1, 4, 0x73, 0x0, 0x0, 0x0, 0x0, false⟩,
  ⟨Reg.CP_CTL, 1, 4, 0x3, 0x0, 0x0, 0x0, 0x0, false⟩,
  ⟨Reg.PL_PROD, 1, 4, 0xFFFFFFFF, 0x0, 0x0, 0x0, 0x0, false⟩,
  ⟨Reg.PL_CONS, 1, 4, 0x0, 0x0, 0x0, 0x0, 0x0, false⟩,
  ⟨Reg.CP_PROD, 1, 4, 0x0, 0x0, 0x0, 0x0, 0x0, false⟩,
  ⟨Reg.CP_CONS, 1, 4, 0xFFFFFFFF, 0x0, 0x0, 0x0, 0x0, false⟩,
  ⟨Reg.RG_WB_LO, 2, 32, 0xFFFFFFF8, 0x0, 0x0, 0x0, 0x0, false⟩,
  ⟨Reg.RG_WB_HI, 2, 32, 0xFFFFFFFF, 0x0, 0x0, 0x0, 0x0, false⟩]

/-- R57, R60, R62. -/
def cfgRows : List Row := [
  ⟨Reg.CFG_COMMAND, 1, 4, 0x7, 0x0, 0x0, 0x0, 0x0, false⟩,
  ⟨Reg.CFG_BAR0_LO, 1, 4, 0xFFFF0000, 0x0, 0x0, 0x0, 0x4, false⟩,
  ⟨Reg.CFG_BAR0_HI, 1, 4, 0xFFFFFFFF, 0x0, 0x0, 0x0, 0x0, false⟩,
  ⟨Reg.CFG_BAR2_LO, 1, 4, 0xE0000000, 0x0, 0x0, 0x0, 0xC, false⟩,
  ⟨Reg.CFG_BAR2_HI, 1, 4, 0xFFFFFFFF, 0x0, 0x0, 0x0, 0x0, false⟩,
  ⟨Reg.CFG_ROM_BAR, 1, 4, 0xFFFC0001, 0x0, 0x0, 0x0, 0x0, false⟩,
  ⟨Reg.CFG_PMCSR, 1, 4, 0x3, 0x0, 0x0, 0x0, 0x0, false⟩,
  ⟨Reg.CFG_INT_LINE, 1, 4, 0xFF, 0x0, 0x0, 0x0, 0x0, false⟩,
  ⟨Reg.CFG_MSI, 1, 4, 0x10000, 0x0, 0x0, 0x0, 0x800005, false⟩,
  ⟨Reg.CFG_MSI_ADDR, 3, 4, 0xFFFFFFFF, 0x0, 0x0, 0x0, 0x0, false⟩,
  ⟨Reg.CFG_MSIX, 1, 4, 0xC0000000, 0x0, 0x0, 0x0, 0x30011, false⟩,
  ⟨Reg.CFG_DEVCTL, 1, 4, 0x78FF, 0x0, 0x0, 0x0, 0x2810, false⟩,
  ⟨Reg.CFG_AER_UES, 1, 4, 0x0, 0x0, 0x1FF030, 0x0, 0x0, false⟩,
  ⟨Reg.CFG_AER_UEM, 1, 4, 0x1FF030, 0x0, 0x0, 0x0, 0x0, false⟩,
  ⟨Reg.CFG_AER_UEV, 1, 4, 0x1FF030, 0x0, 0x0, 0x0, 0x62030, false⟩,
  ⟨Reg.CFG_AER_CES, 1, 4, 0x0, 0x0, 0x31C1, 0x0, 0x0, false⟩,
  ⟨Reg.CFG_AER_CEM, 1, 4, 0x31C1, 0x0, 0x0, 0x0, 0x2000, false⟩,
  ⟨Reg.CFG_AER_CAP, 1, 4, 0x140, 0x0, 0x0, 0x0, 0xA0, false⟩,
  ⟨Reg.CFG_AER_HDR, 4, 4, 0x0, 0x0, 0x0, 0x0, 0x0, false⟩,
  ⟨Reg.CFG_L1SS_CTL, 2, 4, 0xFFFFFFFF, 0x0, 0x0, 0x0, 0x0, false⟩,
  ⟨Reg.CFG_LTR, 1, 4, 0x1FFF1FFF, 0x0, 0x0, 0x0, 0x0, false⟩,
  ⟨Reg.CFG_MARGIN, 1, 4, 0xFFFF, 0x0, 0x0, 0x0, 0x9C38, false⟩]

/-- The rows of a kind of page. -/
def rowsOf : PK → List Row
  | .sys => sysRows
  | .pwr => pwrRows
  | .sec => secRows
  | .prof => profRows
  | .evc => evcRows
  | .tmr => tmrRows
  | .gpio => gpioRows
  | .lsp => lspRows
  | .dma => dmaRows
  | .blt => bltRows
  | .march => marchRows
  | .mram => mramRows
  | .ddr => ddrRows
  | .ddr0 => ddr0Rows ++ ddrRows
  | .compose => composeRows
  | .lead => leadRows
  | .enc => encRows
  | .dict => dictRows
  | .sess => sessRows
  | .eth => ethRows
  | .mgmt => mgmtRows ++ ethRows
  | .aud => audRows
  | .jack => jackRows
  | .i2s => i2sRows
  | .fab => fabRows
  | .time => timeRows
  | .log => logRows
  | .al => alRows
  | .usb => usbRows
  | .lepool => lepoolRows
  | .le => leRows
  | .hp => hpRows
  | .vhead => vheadRows ++ headRows
  | .phead => pheadRows ++ headRows
  | .fnd => fndRows ++ fnRows
  | .fni => fniRows ++ fnRows
  | .fna => fnaRows ++ fnRows
  | .cfg => cfgRows
  | .none => []
/-- Page indexes of R28, and the pseudo pages. -/
abbrev pgSYS : Nat := 0x000
abbrev pgPWR : Nat := 0x001
abbrev pgSEC : Nat := 0x002
abbrev pgPROF : Nat := 0x003
abbrev pgEVC : Nat := 0x004
abbrev pgTMR : Nat := 0x005
abbrev pgGPIO : Nat := 0x006
abbrev pgLSP : Nat := 0x007
abbrev pgDMA : Nat := 0x008
abbrev pgBLT : Nat := 0x009
abbrev pgMARCH : Nat := 0x00A
abbrev pgMRAM : Nat := 0x00B
abbrev pgDDR (c : Nat) : Nat := 0x00C + c
abbrev pgCOMPOSE : Nat := 0x012
abbrev pgLEAD : Nat := 0x013
abbrev pgENC : Nat := 0x014
abbrev pgDICT : Nat := 0x015
abbrev pgSESS : Nat := 0x016
abbrev pgETH (k : Nat) : Nat := 0x017 + k
abbrev pgMGMT : Nat := 0x019
abbrev pgAUD : Nat := 0x01A
abbrev pgJACK : Nat := 0x01B
abbrev pgI2S : Nat := 0x01C
abbrev pgFAB : Nat := 0x01D
abbrev pgTIME : Nat := 0x01E
abbrev pgLOG : Nat := 0x01F
abbrev pgAL (l : Nat) : Nat := 0x020 + l
abbrev pgUSB : Nat := 0x028
abbrev pgLEPOOL : Nat := 0x029
abbrev pgLE (e : Nat) : Nat := 0x040 + e
abbrev pgHP (n : Nat) : Nat := 0x080 + n
/-- The page of a head: V0 to V127, then P0 to P3 as 128 to 131. -/
abbrev pgHD (h : Nat) : Nat := 0x100 + h
/-- The function registers of lane n (f: 0 display, 1 input, 2 audio). -/
abbrev pgFn (n f : Nat) : Nat := 1024 + 4 * n + f
/-- The configuration space of a lane's function. -/
abbrev pgCfg (n f : Nat) : Nat := 2048 + 4 * n + f
/-- A function's number (R60). -/
def Fn.num : Fn → Nat
  | .display => 0
  | .input => 1
  | .audio => 2

/-- The kind of page at an index: R28's table, then the pseudo pages. -/
def pageKind (p : Nat) : PK :=
  if p < 0x02A then
    match p with
    | 0 => .sys | 1 => .pwr | 2 => .sec | 3 => .prof | 4 => .evc | 5 => .tmr | 6 => .gpio | 7 => .lsp | 8 => .dma
    | 9 => .blt | 10 => .march | 11 => .mram | 12 => .ddr0 | 13 => .ddr | 14 => .ddr | 15 => .ddr | 16 => .ddr
    | 17 => .ddr | 18 => .compose | 19 => .lead | 20 => .enc | 21 => .dict | 22 => .sess | 23 => .eth | 24 => .eth
    | 25 => .mgmt | 26 => .aud | 27 => .jack | 28 => .i2s | 29 => .fab | 30 => .time | 31 => .log
    | 40 => .usb | 41 => .lepool | _ => .al
  else if 0x040 ≤ p ∧ p < 0x060 then .le
  else if 0x080 ≤ p ∧ p < 0x100 then .hp
  else if 0x100 ≤ p ∧ p < 0x180 then .vhead
  else if 0x180 ≤ p ∧ p < 0x184 then .phead
  else if 1024 ≤ p ∧ p < 1536 then
    match p % 4 with
    | 0 => .fnd | 1 => .fni | 2 => .fna | _ => .none
  else if 2048 ≤ p ∧ p < 2560 ∧ p % 4 < 3 then .cfg
  else .none

/-- The IRQ_STAT bits that a page's file assigns; the others are reserved (R7, R14, and each file's own list). -/
def irqBits : PK → Nat
  | .sys => 0x8000003F | .pwr => 0xF | .sec => 0xF | .prof => 0x7 | .evc => 0x1 | .tmr => 0xFFFF | .gpio => 0x1FF
  | .lsp => 0x000F0F07 | .dma => 0x8001FFFF | .blt => 0xF | .march => 0x1F | .mram => 0x1F | .ddr => 0x7F
  | .ddr0 => 0xFF | .compose => 0x80000001 | .lead => 0x80000000 | .enc => 0x7 | .dict => 0x7 | .sess => 0x1F
  | .eth => 0xF | .mgmt => 0x3F | .aud => 0x8000001F | .jack => 0xF | .i2s => 0xF | .fab => 0x3FF | .time => 0x3F
  | .log => 0x8000000F | .al => 0x8000001F | .usb => 0xF | .lepool => 0 | .le => 0xFFFF000F | .hp => 0x800007FF
  | .vhead => 0x800003FF | .phead => 0x000000FF | .fnd => 0 | .fni => 0 | .fna => 0 | .cfg => 0 | .none => 0

/-- BLK_CTL.ENABLE can be written in these pages only (R19). -/
def enableWritable : PK → Bool
  | .le => true | .tmr => true | .dma => true | .blt => true
  | _ => false

/-- BLK_CTL.FREEZE reads 0 in these pages (R20, and the end of Modes, boot, profiles, power and protection). -/
def freezeFixed : PK → Bool
  | .compose => true | .lead => true | .enc => true | .dict => true | .sess => true | .eth => true | .aud => true
  | .fab => true | .time => true | .al => true | .vhead => true | .phead => true
  | .sys => true | .pwr => true | .sec => true | .prof => true | .evc => true
  | _ => false

/-- BLK_ID (R15, R29). -/
def blkId (p : Nat) : Nat :=
  match pageKind p with
  | .none => 0
  | .ddr => 0x00C + (p - 0x00C) * 65536
  | .eth => 0x017 + (p - 0x017) * 65536
  | .al => 0x020 + (p - 0x020) * 65536
  | .le => 0x040 + (p - 0x040) * 65536
  | .hp => 0x080 + (p - 0x080) * 65536
  | .vhead => 0x100 + (p - 0x100) * 65536
  | .phead => 0x180 + (p - 0x180) * 65536
  | _ => p

/-- The common words of R14 as rows. -/
def commonRows (k : PK) (p : Nat) : List Row := [
  ⟨Reg.BLK_ID, 1, 4, 0, 0, 0, 0, blkId p, true⟩,
  ⟨Reg.BLK_VER, 1, 4, 0, 0, 0, 0, 0xB00, true⟩,
  ⟨Reg.BLK_CTL, 1, 4, 0, (if enableWritable k then 1 else 0) + (if freezeFixed k then 0 else 4), 0, 2, 1, true⟩,
  ⟨Reg.IRQ_STAT, 1, 4, 0, 0, irqBits k, 0, 0, false⟩,
  ⟨Reg.IRQ_EN, 1, 4, irqBits k, 0, 0, 0, 0, false⟩]

/-- Whether a page is one of the 1,024 of R8 (a pseudo page has no common words). -/
def isBlkPage (p : Nat) : Bool := decide (p < 1024)

/-- Does the row hold a word at the offset? -/
def Row.has (r : Row) (off : Nat) : Bool :=
  decide (r.off ≤ off) && decide ((off - r.off) % r.stride = 0) && decide ((off - r.off) / r.stride < r.cnt)

/-- The rows of a page. -/
def pageRows (p : Nat) : List Row :=
  match pageKind p with
  | .none => []
  | k => if isBlkPage p then commonRows k p ++ rowsOf k else rowsOf k

/-- The row that defines a word of a page; none where the word is reserved (R14, R28). -/
def rowAt (p off : Nat) : Option Row := (pageRows p).find? (fun r => r.has off)

/-- The features that each function offers (R72). -/
def devFeat : Nat → Nat
  | 0 => 0x79F
  | 1 => 0xC0
  | _ => 0xA0

/-- Credits of a class at reset, and whether the word of its block holds them (R417). -/
def alCredReset (off : Nat) : Nat :=
  let c := [8, 32, 32, 128, 256, 56].getD ((off - Reg.AL_CRED) / 16) 0
  match (off - Reg.AL_CRED) / 4 % 4 with
  | 0 => c + c * 65536
  | 1 => c
  | 2 => 0
  | _ => c

/-- Reset values of function registers: HF_ID names the function and the lane (R70), HF_DEV_FEAT_LO the offer (R73). -/
def fnReset (f p off : Nat) (r : Row) : Nat :=
  if off = Reg.HF_ID then 0x10000 + (p - 1024) / 4 * 256 + f
  else if off = Reg.HF_DEV_FEAT_LO then devFeat f else r.reset

/-- The value of a stored word after a chip reset. -/
def resetNat (p off : Nat) : Nat :=
  match rowAt p off with
  | none => 0
  | some r =>
    match pageKind p with
    | .phead => if off = Reg.HD_HTIME then 0x0FA00F00 else if off = Reg.HD_VTIME then 0x08AC0870 else r.reset
    | .mgmt => r.reset
    | .al => if Reg.AL_CRED ≤ off ∧ off < 0x0E0 then alCredReset off else r.reset
    | .fnd => fnReset 0 p off r
    | .fni => fnReset 1 p off r
    | .fna => fnReset 2 p off r
    | _ => r.reset

/-- The key of a word in the register map. -/
def regKey (p off : Nat) : Nat := p * 4096 + off

/-- The value of an unlisted word: its reset value. -/
def resetWord (key : Nat) : Word := BitVec.ofNat 32 (resetNat (key / 4096) (key % 4096))

end Sys2Proof.Machine
end

