-- ==== Sys2Proof/Machine/Sparse.lean ====
section
/-! DEFINITION. Sparse maps in one canonical form: keys strictly rising, no entry equal to what an unlisted key reads
as. Memory (Host.Cell), registers and per-instance structures are held this way, so that equal contents are equal data. -/
namespace Sys2Proof.Machine
variable {α : Type}

/-- The entry of a key. -/
def spFind : Sparse α → Nat → Option α
  | [], _ => none
  | e :: l, k => if e.1 = k then some e.2 else spFind l k

/-- What a key reads as. -/
def spGet (dflt : Nat → α) (l : Sparse α) (k : Nat) : α := (spFind l k).getD (dflt k)

/-- The map without a key. -/
def spDrop : Sparse α → Nat → Sparse α
  | [], _ => []
  | e :: l, k => if e.1 = k then spDrop l k else e :: spDrop l k

/-- An entry put before the first larger key. -/
def spInsert : Sparse α → Nat → α → Sparse α
  | [], k, v => [(k, v)]
  | e :: l, k, v => if k < e.1 then (k, v) :: e :: l else e :: spInsert l k v

/-- A key set to a value: an entry is kept only where it differs from what the key reads as unlisted. -/
def spPut [DecidableEq α] (dflt : Nat → α) (l : Sparse α) (k : Nat) (v : α) : Sparse α :=
  if v = dflt k then spDrop l k else spInsert (spDrop l k) k v

/-- The map without the keys of a range. -/
def spDropRange (l : Sparse α) (lo hi : Nat) : Sparse α := l.filter (fun e => !(decide (lo ≤ e.1) && decide (e.1 < hi)))

/-- Keys strictly rising from a bound on. -/
def spRising : Nat → Sparse α → Bool
  | _, [] => true
  | b, e :: l => decide (b ≤ e.1) && spRising (e.1 + 1) l

/-- The canonical form. -/
def spWf [DecidableEq α] (dflt : Nat → α) (l : Sparse α) : Bool :=
  spRising 0 l && l.all (fun e => decide (e.2 ≠ dflt e.1))

end Sys2Proof.Machine
end

