-- ==== Sys2Proof/Machine/Ops.lean ====
section
/-! DEFINITION. The named operations over registers, memory, time and outputs, and how a command runs: whole and
indivisible, its memory writes landing together at its end. -/
namespace Sys2Proof.Machine

/-! ### Registers -/

/-- A stored register word. -/
def Dev.rd (d : Dev) (p off : Nat) : Word := spGet resetWord d.regs (regKey p off)

/-- A register word set by hardware. -/
def Dev.wr (d : Dev) (p off : Nat) (v : Word) : Dev := { d with regs := spPut resetWord d.regs (regKey p off) v }

/-- A stored word as a number. -/
def Dev.rdN (d : Dev) (p off : Nat) : Nat := (d.rd p off).toNat
/-- A field of a word. -/
def Dev.rdF (d : Dev) (p off hi lo : Nat) : Nat := field (d.rd p off) hi lo
/-- A bit of a word. -/
def Dev.rdB (d : Dev) (p off n : Nat) : Bool := bit (d.rd p off) n
/-- A word set from a number, modulo 2^32. -/
def Dev.wrN (d : Dev) (p off v : Nat) : Dev := d.wr p off (word v)
/-- A field of a word set. -/
def Dev.wrF (d : Dev) (p off hi lo v : Nat) : Dev := d.wr p off (putField (d.rd p off) hi lo v)
/-- A bit of a word set. -/
def Dev.wrB (d : Dev) (p off n : Nat) (b : Bool) : Dev := d.wr p off (putBit (d.rd p off) n b)
/-- A 64-bit value in two words, low word first. -/
def Dev.rd64 (d : Dev) (p off : Nat) : Nat := d.rdN p off + d.rdN p (off + 4) * 4294967296
/-- Two words set from a 64-bit value. -/
def Dev.wr64 (d : Dev) (p off v : Nat) : Dev := (d.wrN p off v).wrN p (off + 4) (v / 4294967296)
/-- A 64-bit counter advanced (R46: counters wrap). -/
def Dev.add64 (d : Dev) (p off n : Nat) : Dev := d.wr64 p off (d.rd64 p off + n)
/-- A 32-bit counter advanced, modulo 2^32. -/
def Dev.add32 (d : Dev) (p off n : Nat) : Dev := d.wrN p off (d.rdN p off + n)
/-- Words of a page set to their reset values. -/
def Dev.wrReset (d : Dev) (p off : Nat) : Dev := d.wr p off (resetWord (regKey p off))

/-- The words of a page at offsets that q chooses set to their reset values: unlisted words read them. -/
def Dev.dropRegs (d : Dev) (p : Nat) (q : Nat → Bool) : Dev :=
  { d with regs := d.regs.filter (fun e => !(e.1 / 4096 == p && q (e.1 % 4096))) }

/-- Bits of a word that hardware has set in the present cycle (R23): until it ends a write of 1 does not clear them. -/
def Dev.heldSet (d : Dev) (p off : Nat) : Word := spGet (fun _ => 0) d.setNow (regKey p off)

/-- Bits of a word set by hardware (R14, R23). -/
def Dev.setBits (d : Dev) (p off : Nat) (m : Word) : Dev :=
  { d.wr p off (d.rd p off ||| m) with setNow := spPut (fun _ => 0) d.setNow (regKey p off) (d.heldSet p off ||| m) }

/-- IRQ_STAT bit n set by hardware (R14, R22). -/
def Dev.irq (d : Dev) (p n : Nat) : Dev := d.setBits p Reg.IRQ_STAT (word (2 ^ n))

/-- A page's event output (R22). -/
def Dev.event (d : Dev) (p : Nat) : Bool := (d.rd p Reg.IRQ_STAT &&& d.rd p Reg.IRQ_EN) ≠ 0

/-! ### Memory -/

/-- What a byte that nothing has written reads as: the hash store is all ones after clearing (R278, R446), every other
memory 0 (R428, R446; elsewhere the model's choice, log entry 2). -/
def memDefault (a : Nat) : Byte := if 0x86000000 ≤ a ∧ a < 0x86C00000 then 0xFF else 0

/-- The latest write of the command in progress to an address. -/
def wlogFind : List MemWr → Nat → Option Byte
  | [], _ => none
  | .put a b :: l, x => if a = x then some b else wlogFind l x
  | .clear lo hi :: l, x => if lo ≤ x ∧ x < hi then some (memDefault x) else wlogFind l x

/-- One byte of memory. -/
def Dev.byte (d : Dev) (a : Nat) : Byte :=
  match wlogFind d.wlog a with
  | some b => b
  | none => spGet memDefault d.mem a

/-- n bytes of memory from an address. -/
def Dev.bytes (d : Dev) (a : Nat) : Nat → List Byte
  | 0 => []
  | n + 1 => d.byte a :: d.bytes (a + 1) n

/-- A little-endian number of n bytes in memory. -/
def Dev.num (d : Dev) (a n : Nat) : Nat := ofLe (d.bytes a n)

/-- One byte written. -/
def Dev.put (d : Dev) (a : Nat) (b : Byte) : Dev := { d with wlog := .put a b :: d.wlog }

/-- Bytes written from an address on. -/
def Dev.puts (d : Dev) (a : Nat) : List Byte → Dev
  | [] => d
  | b :: bs => (d.put a b).puts (a + 1) bs

/-- A range set to what unlisted addresses read as. -/
def Dev.clear (d : Dev) (lo hi : Nat) : Dev := { d with wlog := .clear lo hi :: d.wlog }

/-- The writes of a command applied to memory, the oldest (last in the list) first. -/
def commitLog (m : List Host.Cell) : List MemWr → List Host.Cell
  | [] => m
  | .put a b :: l => spPut memDefault (commitLog m l) a b
  | .clear lo hi :: l => spDropRange (commitLog m l) lo hi

/-- The canonical form of memory. -/
def memWf (m : List Host.Cell) : Bool := spWf memDefault m

/-! ### Running a command -/

/-- A command begins: the outputs and the answer of the one before are gone. -/
def Dev.begin (d : Dev) : Dev := { d with outs := [], answer := .none, wlog := [] }

/-- A command ends: its writes land in the memory it found. -/
def Dev.finish (old : List Host.Cell) (d : Dev) : Dev := { d with mem := commitLog old d.wlog, wlog := [] }

/-- A command whose effect is f. Every command is whole and indivisible (spec/95_what_each_step_holds.md). -/
def State.run (s : State) (f : Dev → Dev) : Host.Outcome State Fault Refusal :=
  .next { s with dev := (f s.dev.begin).finish s.dev.mem }

/-- An output. -/
def Dev.out (d : Dev) (o : Output) : Dev := { d with outs := d.outs ++ [o] }
/-- The answer to the sender. -/
def Dev.reply (d : Dev) (a : Answer) : Dev := { d with answer := a }

/-- A free value drawn (assumption log 3). -/
def Dev.free (d : Dev) : Word := Config.freeWord d.draws
/-- The draw counter advanced. -/
def Dev.drew (d : Dev) : Dev := { d with draws := d.draws + 1 }

/-! ### Instances held in sparse maps -/

def Dev.lane (d : Dev) (n : Nat) : LaneSt := spGet (fun _ => {}) d.lanes n
def Dev.setLane (d : Dev) (n : Nat) (l : LaneSt) : Dev := { d with lanes := spPut (fun _ => {}) d.lanes n l }
def Dev.head (d : Dev) (h : Nat) : HeadSt := spGet (fun _ => {}) d.heads h
def Dev.setHead (d : Dev) (h : Nat) (x : HeadSt) : Dev := { d with heads := spPut (fun _ => {}) d.heads h x }
def Dev.eng (d : Dev) (e : Nat) : Engine := spGet (fun _ => {}) d.engines e
def Dev.setEng (d : Dev) (e : Nat) (x : Engine) : Dev := { d with engines := spPut (fun _ => {}) d.engines e x }
/-- A head's hidden state changed. -/
def Dev.onHead (d : Dev) (h : Nat) (f : HeadSt → HeadSt) : Dev := d.setHead h (f (d.head h))
def Dev.onLane (d : Dev) (n : Nat) (f : LaneSt → LaneSt) : Dev := d.setLane n (f (d.lane n))
def Dev.onEng (d : Dev) (e : Nat) (f : Engine → Engine) : Dev := d.setEng e (f (d.eng e))

/-! ### Time -/

/-- Parts of R400's interval: 256 parts of a unit times the 1,200,000 full-rate PCLK periods of 1 ms. -/
abbrev ftDen : Nat := 307200000

/-- The correction in force (R398, R400): TIME_TRIM at the root, the servo's c elsewhere. -/
def Dev.corr (d : Dev) : Int :=
  if d.rdB pgTIME Reg.TIME_STAT 12 then signed 16 (d.rdF pgTIME Reg.TIME_TRIM 15 0) else d.fab.servoC

/-- What one full-rate PCLK period adds to fabric time, in parts. -/
def Dev.ftRate (d : Dev) : Nat := (4294967 * 256 + d.corr).toNat

/-- Full-rate PCLK periods per PCLK cycle: 2 while PWR_WARN halves PCLK (R571). -/
def Dev.stretch (d : Dev) : Nat := if d.rdB pgPWR Reg.PWR_STAT 0 then 2 else 1

/-- n PCLK cycles pass (R4, R5, R400). -/
def Dev.pass (d : Dev) (n : Nat) : Dev :=
  let p := n * d.stretch
  let acc := d.clock.ftAcc + p * d.ftRate
  { d with
    setNow := if n = 0 then d.setNow else []
    clock := { d.clock with
      cyc := d.clock.cyc + n
      base := d.clock.base + p
      ft := if d.clock.started then (d.clock.ft + acc / ftDen) % 2 ^ 64 else d.clock.ft
      ftAcc := if d.clock.started then acc % ftDen else d.clock.ftAcc } }

/-- Fabric time now. -/
def Dev.ft (d : Dev) : Nat := d.clock.ft
/-- The PCLK cycle now. -/
def Dev.cyc (d : Dev) : Nat := d.clock.cyc

/-- The clock moved on to a cycle, if it is still to come. -/
def Dev.toCyc (d : Dev) (c : Nat) : Dev := d.pass (c - d.clock.cyc)

/-- R223: an engine's write to a word of head h has committed in cycle c. -/
def Dev.hregTaken (d : Dev) (h off c : Nat) : Bool :=
  d.engines.any (fun e => e.2.hregAt == c + 1 && e.2.hregWord == (h, off))

/-- The first cycle in which the engine's oldest queued head-register write, triggered in cycle c, may commit (R222). -/
def Engine.hregFrom (x : Engine) (c : Nat) : Nat := max (c + 3) x.hregAt

/-- The engine's oldest queued head-register write goes to a word of head h and may commit by cycle c. -/
def Engine.hregDue (x : Engine) (h off c : Nat) : Bool :=
  match x.hreg with
  | [] => false
  | (k, g, o, _) :: _ => decide (g = h ∧ o = off ∧ x.hregFrom k ≤ c)

/-- PCLK cycles until fabric time has reached x. -/
def Dev.cycTo (d : Dev) (x : Nat) : Nat :=
  if d.clock.started ∧ d.clock.ft < x then
    ceilDiv ((x - d.clock.ft) * ftDen - d.clock.ftAcc) (d.ftRate * d.stretch)
  else 0

/-- The clock moved on until fabric time has reached x. -/
def Dev.toFt (d : Dev) (x : Nat) : Dev := d.pass (d.cycTo x)

/-- The clock moved on until n full-rate periods since chip reset have passed. -/
def Dev.toBase (d : Dev) (n : Nat) : Dev := d.pass (ceilDiv (n - d.clock.base) d.stretch)

/-- Full-rate periods for which the always-on domain had been ready at a base (R591). -/
def Dev.aonAt (d : Dev) (base : Nat) : Nat := if d.clock.aonReady then d.clock.aon + base - d.clock.aonFrom else 0

/-- SCLK ticks in n full-rate periods: 32,768 Hz against 1.2 GHz. -/
def sclkTicks (n : Nat) : Nat := n * 32768 / 1200000000

/-- AON_CNT (R574): SCLK ticks since the always-on domain became ready. -/
def Dev.aonCnt (d : Dev) : Nat := sclkTicks (d.aonAt d.clock.base)

/-- The time CSR (R500): 100 MHz. -/
def Dev.timeCsr (d : Dev) : Nat := (d.clock.base / 12 + d.clock.timeAdj) % 2 ^ 64

/-- The operating mode (R542). -/
def Dev.mode (d : Dev) : Nat := d.rdF pgSYS Reg.SYS_MODE 2 0

/-- The links, the stream ports, the management port and USB are off: REST and LOCKOUT (R562, R569). -/
def Dev.portsOff (d : Dev) : Bool := d.mode == 6 || d.mode == 7

/-- Apply a function for each number below n, in order. -/
def forN {σ : Type} (n : Nat) (f : Nat → σ → σ) (s : σ) : σ := (List.range n).foldl (fun s i => f i s) s

/-- Apply a function for each element, in order. -/
def forL {σ α : Type} (l : List α) (f : α → σ → σ) (s : σ) : σ := l.foldl (fun s a => f a s) s

end Sys2Proof.Machine
end

