-- ==== Sys2Proof/Machine/Mem.lean ====
section
/-! DEFINITION. The memories: the address map (R422), the DRAM initialisation map and poison (R428, R433), the channel
map (R430), and the MRAM write buffer (R454). Every agent's stores go through Dev.store. -/
namespace Sys2Proof.Machine

abbrev dramBase : Nat := 0x010000000000
abbrev dramEnd : Nat := 0x028000000000
abbrev glyphBase : Nat := 0x80000000
abbrev glyphEnd : Nat := 0x83000000
abbrev leadBase : Nat := 0x84000000
abbrev hashBase : Nat := 0x86000000
abbrev dictBase : Nat := 0x87000000
abbrev storeBase : Nat := 0x88000000
abbrev localBase : Nat := 0x88200000
abbrev audioBase : Nat := 0x88400000
abbrev scratchBase : Nat := 0x01000000
abbrev mramBase : Nat := 0x000100000000
abbrev flashBase : Nat := 0x000200000000
abbrev blockBytes : Nat := 0x200000

/-- The usable top of DRAM (R430, R439: DDR_TOTAL in GiB). -/
def Dev.dramTop (d : Dev) : Nat := dramBase + d.rdF (pgDDR 0) Reg.DDR_TOTAL 15 0 * 0x40000000

/-- n bytes at a lie in usable DRAM. -/
def Dev.inDram (d : Dev) (a n : Nat) : Bool := decide (dramBase ≤ a) && decide (a + n ≤ d.dramTop)

/-- n bytes at a lie in the glyph store. -/
def inGlyph (a n : Nat) : Bool := decide (glyphBase ≤ a) && decide (a + n ≤ glyphEnd)

/-- Is a block initialised? -/
def Dev.blockInit (d : Dev) (b : Nat) : Bool := d.ram.inited.any (fun r => decide (r.1 ≤ b) && decide (b < r.2))

/-- A range with another taken out. -/
def cutRange (lo hi : Nat) (r : Nat × Nat) : List (Nat × Nat) :=
  (if r.1 < min r.2 lo then [(r.1, min r.2 lo)] else []) ++ (if max r.1 hi < r.2 then [(max r.1 hi, r.2)] else [])

/-- Blocks lo to hi - 1 marked initialised (R428). -/
def Dev.markInit (d : Dev) (lo hi : Nat) : Dev :=
  if hi ≤ lo ∨ d.ram.inited.any (fun r => decide (r.1 ≤ lo) && decide (hi ≤ r.2)) then d
  else { d with ram := { d.ram with inited := (lo, hi) :: d.ram.inited.flatMap (cutRange lo hi) } }

/-- Blocks lo to hi - 1 marked uninitialised: they read zeros (R428, R429). -/
def Dev.dropInit (d : Dev) (lo hi : Nat) : Dev :=
  let d := { d with ram := { d.ram with
    inited := d.ram.inited.flatMap (cutRange lo hi)
    poison := d.ram.poison.filter (fun b => !(decide ((dramBase + lo * blockBytes) / 64 ≤ b)
      && decide (b < (dramBase + hi * blockBytes) / 64))) } }
  d.clear (dramBase + lo * blockBytes) (dramBase + hi * blockBytes)

/-- How many blocks of a range are initialised. -/
def Dev.countInit (d : Dev) (lo hi : Nat) : Nat := (d.ram.inited.map (fun r => min r.2 hi - max r.1 lo)).sum

/-- Bytes stored at a memory (not MRAM, not a register). A write to an uninitialised DRAM block initialises it (R428);
a write that covers a whole poisoned burst ends its poison (R433); a load reservation of a block that it meets is lost. -/
def Dev.store (d : Dev) (a : Nat) (bs : List Byte) : Dev :=
  let n := bs.length
  let d := if dramBase ≤ a ∧ n ≠ 0 then
      d.markInit ((a - dramBase) / blockBytes) ((a + n - 1 - dramBase) / blockBytes + 1) else d
  let d := if d.ram.poison.isEmpty then d else { d with ram := { d.ram with
      poison := d.ram.poison.filter (fun b => !(decide (a ≤ b * 64) && decide (b * 64 + 64 ≤ a + n))) } }
  let d := if d.resv.isEmpty then d else
    { d with resv := d.resv.filter (fun r => !(decide (r.2 * 64 < a + n) && decide (a < r.2 * 64 + 64))) }
  d.puts a bs

/-- Does a read of n bytes meet a poisoned burst? -/
def Dev.poisoned (d : Dev) (a n : Nat) : Bool :=
  d.ram.poison.any (fun b => decide (b * 64 < a + n) && decide (a < b * 64 + 64))

/-- A device area in DRAM that software reserved: bytes are stored only where usable DRAM is (assumption log 12). -/
def Dev.storeArea (d : Dev) (a : Nat) (bs : List Byte) : Dev := if d.inDram a bs.length then d.store a bs else d

/-- The channel that serves a read of DRAM (R430, R431). -/
def Dev.chanOf (d : Dev) (a : Nat) : Nat :=
  let gib := 0x40000000
  let c := d.rdF (pgDDR 0) Reg.DDR_STAT 31 16 * gib
  let m := d.rdF (pgDDR 0) Reg.DDR_TOTAL 31 16 * gib
  let x := a - dramBase
  if x < 6 * c - 2 * m then x / 4096 % 6
  else
    let pair := (x - (6 * c - 2 * m)) / 4096 % 3
    if d.rdB (pgDDR (2 * pair)) Reg.DDR_MARK 0 then 2 * pair + 1 else 2 * pair

/-- Is a DRAM address in the mirrored region (R430)? -/
def Dev.mirrored (d : Dev) (a : Nat) : Bool :=
  let gib := 0x40000000
  let c := d.rdF (pgDDR 0) Reg.DDR_STAT 31 16 * gib
  let m := d.rdF (pgDDR 0) Reg.DDR_TOTAL 31 16 * gib
  decide (6 * c - 2 * m ≤ a - dramBase) && decide (m ≠ 0)

/-! ### MRAM -/

/-- The content of an MRAM word, with what the buffer holds for it (R454). -/
def Dev.mramWord (d : Dev) (w : Nat) : List Byte :=
  match d.ram.mramBuf.reverse.find? (fun e => e.1 == w) with
  | some e => e.2
  | none => d.bytes (mramBase + w * 64) 64

/-- One byte of MRAM at an offset. -/
def Dev.mramByte (d : Dev) (off : Nat) : Byte := (d.mramWord (off / 64)).getD (off % 64) 0

/-- MRAM writes are blocked while a supply warning is in force (R454, R571). -/
def Dev.mramBlocked (d : Dev) : Bool := d.rdB pgPWR Reg.PWR_STAT 0

/-- A word posted to the buffer (R454). -/
def Dev.mramPost (d : Dev) (w : Nat) (bs : List Byte) : Dev :=
  { d with ram := { d.ram with mramBuf := d.ram.mramBuf ++ [(w, bs)] } }

/-- Bytes written into one MRAM word: the whole word is rewritten (R454). -/
def Dev.mramWrite (d : Dev) (off : Nat) (bs : List Byte) : Dev :=
  let old := d.mramWord (off / 64)
  let k := off % 64
  d.mramPost (off / 64) ((old.take k ++ bs ++ old.drop (k + bs.length)).take 64)

/-- The oldest posted word reaches the array (R454). -/
def Dev.mramDrain (d : Dev) : Dev :=
  match d.ram.mramBuf with
  | [] => d
  | (w, bs) :: rest =>
    ({ d with ram := { d.ram with mramBuf := rest } }.puts (mramBase + w * 64) bs).add64 pgMRAM Reg.MRAM_WRITES 1

/-- Many words of MRAM written from an offset that is a multiple of 64. -/
def Dev.mramBulk (d : Dev) (off : Nat) (bs : List Byte) : Dev :=
  forN (ceilDiv bs.length 64) (fun i d => d.mramWrite (off + 64 * i) ((bs.drop (64 * i)).take 64)) d

end Sys2Proof.Machine
end

