-- ==== Sys2Proof/Machine/Log.lean ====
section
/-! DEFINITION. Log records (R413 to R416, R453), identity alarms (R47), the mode and its hardware causes (R543, R545). -/
namespace Sys2Proof.Machine

/-- This chip's fabric address (R389): FAB_STAT. -/
def Dev.myAddr (d : Dev) : Nat := d.rdF pgFAB Reg.FAB_STAT 11 0

/-- The 32 bytes of a log record (R413). -/
def logBytes (r : LogRec) : List Byte :=
  leBytes 8 r.firstFt ++ leBytes 8 r.lastFt ++ leBytes 2 r.source ++ leBytes 2 (r.origin % 4096) ++ leBytes 1 r.kind
    ++ leBytes 1 r.type ++ leBytes 2 r.flags ++ leBytes 4 r.count ++ leBytes 4 r.data.toNat

/-- LOG_AREA's address (R420). -/
def Dev.logArea (d : Dev) : Nat := d.rdF pgLOG Reg.LOG_AREA 26 0 * blockBytes

/-- A counter of a source's entry in the table at LOG_AREA changed by an amount (R416): 0 PRODUCED, 1 DELIVERED, 2
COALESCED, 3 DROPPED, 4 PENDING. -/
def Dev.logCount (d : Dev) (src k : Nat) (by_ : Int) : Dev :=
  let a := d.logArea + src * 64 + 8 * k
  d.storeArea a (leBytes 8 (unsign 64 ((d.num a 8 : Int) + by_)))

/-- General entries in use (R414). -/
def LogSt.general (l : LogSt) : Nat := (l.queue.filter (fun e => !e.1)).length
/-- Reserved entries in use (R414). -/
def LogSt.reserved (l : LogSt) : Nat := (l.queue.filter (fun e => e.1)).length

/-- A record merged into the first pending record that p chooses (R415). -/
def mergeInto (p : LogRec → Bool) (r : LogRec) (ff : Bool) : List (Bool × LogRec) → List (Bool × LogRec)
  | [] => []
  | e :: l =>
    if p e.2 then (e.1, { e.2 with count := (e.2.count + r.count) % 2 ^ 32, lastFt := r.lastFt, flags := e.2.flags ||| 2,
                                   type := if ff then 0xFF else e.2.type }) :: l
    else e :: mergeInto p r ff l

/-- A record of a kind of the same source and, where asked, the same type is pending. -/
def sameLog (r : LogRec) (typed : Bool) (q : LogRec) : Bool :=
  q.kind == r.kind && q.source == r.source && (!typed || q.type == r.type)

def Dev.logPush (d : Dev) (resv : Bool) (r : LogRec) : Dev :=
  { d with log := { d.log with queue := d.log.queue ++ [(resv, r)] } }

/-- A merged record: counted as produced and coalesced (R416), COALESCE raised. -/
def Dev.logMerge (d : Dev) (typed : Bool) (r : LogRec) : Dev :=
  ({ d with log := { d.log with queue := mergeInto (sameLog r typed) r (!typed) d.log.queue } }.logCount r.source 2 1).irq
    pgLOG 2

/-- R415: what becomes of a record that is produced. -/
def Dev.logAdmit (d : Dev) (r : LogRec) : Dev :=
  let n := d.log.general
  let room := decide (n < 7104)
  let same := d.log.queue.any (fun e => sameLog r true e.2)
  let any := d.log.queue.any (fun e => sameLog r false e.2)
  let take := fun (resv : Bool) => (d.logPush resv r).logCount r.source 4 1
  if r.kind = 0 ∧ (d.rdN pgLOG Reg.LOG_TRACE_LVL ≤ n ∨ room = false) then (d.logCount r.source 3 1).irq pgLOG 1
  else if n < d.rdN pgLOG Reg.LOG_COAL_LVL ∧ room then take false
  else if r.kind = 0 then take false
  else if r.kind = 1 then
    if same then d.logMerge true r
    else if room then take false
    else if any then d.logMerge false r
    else d.logCount r.source 3 1
  else if same then d.logMerge true r
  else if any then d.logMerge false r
  else take true

/-- An alarm appended to the MRAM log tail (R413, R453). -/
def Dev.logTail (d : Dev) (r : LogRec) : Dev :=
  let n := d.log.appended + 1
  let d := { d with log := { d.log with appended := n } }
  d.mramPost ((0x20000 + (n - 1) % 14336 * 64) / 64) (logBytes r ++ leBytes 8 n ++ List.replicate 24 0)

/-- A record produced (R413 to R416). While LOG_CTL.EN is 0 the unit queues nothing (assumption log 13). -/
def Dev.logRecord (d : Dev) (r : LogRec) : Dev :=
  let d := if r.kind = 2 then (d.logTail r).irq pgLOG 0 else d
  if d.rdB pgLOG Reg.LOG_CTL 0 then (d.logCount r.source 0 1).logAdmit r else d

/-- A record of this chip made now. -/
def Dev.logNow (d : Dev) (source kind type flags : Nat) (data : Word) : Dev :=
  d.logRecord { firstFt := d.ft, lastFt := d.ft, source := source, origin := d.myAddr, kind := kind, type := type,
                flags := flags, count := 1, data := data }

/-- An alarm whose DATA its source defines and this spec does not give: a free value (assumption log 3). -/
def Dev.alarm (d : Dev) (page cause : Nat) : Dev :=
  (d.logNow page 2 (Config.logType page cause).toNat 0 d.free).drew

/-- R47: identity i of a page fails its check. -/
def Dev.acctErr (d : Dev) (page stat i : Nat) (injected : Bool) : Dev :=
  let d := (d.wrB page stat i true).irq page 31
  (d.logNow page 2 (Config.logType page 0).toNat injected.toNat (putField d.free 3 0 i)).drew

/-- A change of mode (R543): it takes effect at once and raises MODE_CHANGE. -/
def Dev.setMode (d : Dev) (m : Nat) : Dev :=
  ((d.wrF pgSYS Reg.SYS_MODE 6 4 d.mode).wrF pgSYS Reg.SYS_MODE 2 0 m).irq pgSYS 0

/-- A cause of DEGRADED (R438, R545): its bit becomes 1, DEG_CAUSE is raised, and SERVICE becomes DEGRADED (R543). -/
def Dev.degrade (d : Dev) (k : Nat) : Dev :=
  if d.rdB pgSYS Reg.SYS_DEG_CAUSE k then d
  else
    let d := (d.wrB pgSYS Reg.SYS_DEG_CAUSE k true).irq pgSYS 2
    if d.mode = 3 then d.setMode 4 else d

/-- The error registers of a channel (R439): the latest error's address, kind, device, subchannel and rank. -/
def Dev.ddrErr (d : Dev) (ch a kind dev sub rank : Nat) : Dev :=
  (d.wrN (pgDDR ch) Reg.DDR_ERR_LO a).wrN (pgDDR ch) Reg.DDR_ERR_HI
    (a / 2 ^ 32 % 65536 + kind * 65536 + dev % 16 * 2 ^ 18 + sub % 2 * 2 ^ 22 + rank % 8 * 2 ^ 23)

/-- A read that returns poisoned data (R433, R438): counted, raised, an alarm, DEGRADED requested. The device, subchannel
and rank that DDR_ERR_HI shows are then free values. -/
def Dev.poisonRead (d : Dev) (a : Nat) : Dev :=
  if dramBase ≤ a then
    let ch := d.chanOf a
    let w := d.free
    let d := ((d.drew.ddrErr ch a 2 (field w 3 0) (field w 4 4) (field w 7 5)).add32 (pgDDR ch) Reg.DDR_UE 1).irq (pgDDR ch) 1
    (d.alarm (pgDDR ch) 1).degrade 0
  else ((d.add32 pgMARCH Reg.SRAM_UE 1).irq pgMARCH 4).alarm pgMARCH 1 |>.degrade 0

/-- The first poisoned address of a read of n bytes at a. -/
def Dev.poisonAddr (d : Dev) (a n : Nat) : Nat :=
  match d.ram.poison.find? (fun b => decide (b * 64 < a + n) && decide (a < b * 64 + 64)) with
  | some b => max a (b * 64)
  | none => a

end Sys2Proof.Machine
end

