-- ==== Sys2Proof/Machine/FnEvent.lean ====
section
/-! DEFINITION. Events of the host functions and their interrupt messages (R57, R72), and lane-page counters. -/
namespace Sys2Proof.Machine

/-- The function with a number (R60). -/
def fnOf : Nat → Fn
  | 0 => .display
  | 1 => .input
  | _ => .audio

/-- An interrupt message on a vector (R57, R72): under MSI-X, a masked vector's message stays pending in the pending bit
array; under MSI, every event uses vector 0; with neither enabled none is sent (the configuration layout is assumption
log 8's). -/
def Dev.fnMsg (d : Dev) (n f vec : Nat) : Dev :=
  if d.rdB (pgCfg n f) Reg.CFG_MSIX 31 then
    if d.rdB (pgCfg n f) Reg.CFG_MSIX 30 || d.rdB (pgFn n f) (Reg.MSIX_TABLE + 16 * vec + 12) 0 then
      d.wrB (pgFn n f) Reg.MSIX_PBA vec true
    else d.out (.msi n (fnOf f) vec)
  else if d.rdB (pgCfg n f) Reg.CFG_MSI 16 then d.out (.msi n (fnOf f) 0)
  else d

/-- HF_EVT_VEC[i] (R70). -/
def Dev.fnVec (d : Dev) (n f i : Nat) : Nat := d.rdF (pgFn n f) Reg.HF_EVT_VEC (2 * i + 1) (2 * i)

/-- Bit i of HF_EVT_STAT becomes 1 (R72): a message is sent when it becomes 1 while its enable is 1. -/
def Dev.fnEvent (d : Dev) (n f i : Nat) : Dev :=
  let was := d.rdB (pgFn n f) Reg.HF_EVT_STAT i
  let d := d.wrB (pgFn n f) Reg.HF_EVT_STAT i true
  if !was && d.rdB (pgFn n f) Reg.HF_EVT_EN i then d.fnMsg n f (d.fnVec n f i) else d

/-- HF_EVT_EN written (R72): a message is sent for each enable set while its bit is already 1. -/
def Dev.fnEnables (d : Dev) (n f : Nat) (v : Word) : Dev :=
  let was := d.rd (pgFn n f) Reg.HF_EVT_EN
  forN 16 (fun i d =>
    if bit v i && !bit was i && d.rdB (pgFn n f) Reg.HF_EVT_STAT i then d.fnMsg n f (d.fnVec n f i) else d)
    (d.wr (pgFn n f) Reg.HF_EVT_EN (v &&& 0xFFFF))

/-- MSI-X messages that were pending and are no longer masked are sent. -/
def Dev.fnUnmask (d : Dev) (n f : Nat) : Dev :=
  forN 4 (fun v d =>
    if d.rdB (pgFn n f) Reg.MSIX_PBA v && d.rdB (pgCfg n f) Reg.CFG_MSIX 31 && !d.rdB (pgCfg n f) Reg.CFG_MSIX 30
        && !d.rdB (pgFn n f) (Reg.MSIX_TABLE + 16 * v + 12) 0 then
      (d.wrB (pgFn n f) Reg.MSIX_PBA v false).out (.msi n (fnOf f) v)
    else d) d

/-- A feature bit negotiated by a function (R52, R73). -/
def Dev.fnHas (d : Dev) (n f b : Nat) : Bool := d.rdB (pgFn n f) Reg.HF_NEG_LO b

/-- A host write refused and counted (R59, R66, R68, R75): ING_DISCARDS, and DISCARD in the lane page. -/
def Dev.discard (d : Dev) (n : Nat) : Dev := (d.add64 (pgHP n) Reg.ING_DISCARDS 1).irq (pgHP n) 8

end Sys2Proof.Machine
end

