-- ==== Sys2Proof/Machine/Operands.lean ====
section
/-! DEFINITION. What a value written to a register does to its stored bits by their access codes (R6, R7, R10, R11, R27),
and the widths and alignments that requesters may use (R12). -/
namespace Sys2Proof.Machine

/-- The page's lockable fields are frozen (R27). -/
def Dev.isLocked (d : Dev) (p : Nat) : Bool := d.locked.contains p

/-- The bits of a word that a write changes: RW, and RWL unless the page is locked (R6, R27). -/
def Dev.wmask (d : Dev) (p off : Nat) : Word :=
  match rowAt p off with
  | none => 0
  | some r => word (if d.isLocked p then r.rw else r.rw ||| r.rwl)

/-- The bits of a word that a write of 1 clears (R6). -/
def w1cMask (p off : Nat) : Word :=
  match rowAt p off with
  | none => 0
  | some r => word r.w1c

/-- A word after a write of v: RW and RWL bits take it, W1C bits that it holds are cleared, others stay (R6, R7). -/
def codeWrite (old v rw w1c : Word) : Word := ((old &&& ~~~ rw) ||| (v &&& rw)) &&& ~~~ (v &&& w1c)

/-- A word written by its access codes alone. Bits that no row defines are ignored (R14); a W1C bit that hardware sets in
the same cycle ends it as 1 (R23, R117). -/
def Dev.regStore (d : Dev) (p off : Nat) (v : Word) : Dev :=
  d.wr p off (codeWrite (d.rd p off) v (d.wmask p off) (w1cMask p off &&& ~~~ (d.heldSet p off)))

/-- The value that a write of v through the set alias (set) or the clear alias to a word that holds now amounts to in the
direct view (R10, R11); none where it has no effect: FENCE, LOCK, IRQ_SET, and words without RW or RWL bits. -/
def Dev.aliasWord (d : Dev) (set : Bool) (p off : Nat) (now v : Word) : Option Word :=
  let m := d.wmask p off
  if m = 0 ∨ off = Reg.FENCE ∨ off = Reg.LOCK ∨ off = Reg.IRQ_SET then none
  else some ((if set then now ||| v else now &&& ~~~ v) &&& m)

/-- The block's page index and the offset in its page of an address (R8, R9); none outside the register region. -/
def pageAddr (a : Nat) : Option (Nat × Nat) :=
  if 0x40000000 ≤ a ∧ a < 0x41000000 then some ((a - 0x40000000) / 0x4000, a % 0x4000) else none

/-- R12: 32 bits and 64 bits, naturally aligned. -/
def regAccessOk (a size : Nat) : Bool := (size == 4 && a % 4 == 0) || (size == 8 && a % 8 == 0)

/-- A natural power-of-two access of 1 to 8 bytes. -/
def naturalAccess (a size : Nat) : Bool := (size == 1 || size == 2 || size == 4 || size == 8) && a % size == 0

/-- Sizes that an access may have: 1, 2, 4 and 8 bytes; atomic ones 4 and 8; an instruction fetch 2 and 4 too. -/
def accSize (n : Nat) : CoreAcc → Bool
  | .amo _ _ => n == 4 || n == 8
  | .lr => n == 4 || n == 8
  | .sc _ => n == 4 || n == 8
  | _ => n == 1 || n == 2 || n == 4 || n == 8

/-- The low words of a page whose reads latch their high words (R70, R100, R147, R174, R417, R574 to R575, LE_ISSUED,
TIME_FT, AUD_TICK, DDR_ERR, MRAM_WRITES, BLT_ERR, DMA_ERR, CHn_COUNT). -/
def latching (p off : Nat) : Bool :=
  match pageKind p with
  | .fnd | .fni | .fna => off == 0x08 || off == 0x10 || off == 0x30 || off == 0x38
  | .hp => off % 8 == 0 && ((decide (0x070 ≤ off) && decide (off ≤ 0x0D8)) || off == 0x0E8)
  | .vhead | .phead => off == 0x50 || off == 0x60 || (off % 8 == 0 && decide (0x140 ≤ off) && decide (off ≤ 0x170))
  | .aud => off == Reg.AUD_TICK_LO
  | .time => off == Reg.TIME_FT_LO
  | .ddr | .ddr0 => off == Reg.DDR_ERR_LO
  | .mram => off == Reg.MRAM_WRITES
  | .blt => off == Reg.BLT_ERR_LO
  | .dma => off == Reg.DMA_ERR_LO || (decide (0x900 ≤ off) && off % 8 == 0)
  | .pwr => off == Reg.AON_CNT_LO
  | .sec => off == Reg.SEC_TAMP_TIME_LO
  | .al => off == Reg.AL_FLITS_TX || off == Reg.AL_FLITS_RX
  | .le => off == Reg.LE_ISSUED
  | _ => false

/-- A word read whose present value is now, with hi the present value of the word above it: a low word latches its high
word, and the next read of that returns what was latched. -/
def Dev.readLatch (d : Dev) (p off : Nat) (now hi : Word) : Dev × Word :=
  if latching p off then
    ({ d with latches := spPut (fun _ => none) d.latches (regKey p (off + 4)) (some hi) }, now)
  else match spGet (fun _ => (none : Option Word)) d.latches (regKey p off) with
    | some v => ({ d with latches := spPut (fun _ => none) d.latches (regKey p off) none }, v)
    | none => (d, now)

/-- BLK_CTL.FREEZE applies to the page: it is 1 and a hart is halted by the debugger (R17), or ENABLE is 0 in TMR, DMA
and BLT (R19). -/
def Dev.frozen (d : Dev) (p : Nat) : Bool :=
  (d.rdB p Reg.BLK_CTL 2 && decide (d.sys.haltedHarts ≠ 0))
  || ((p == pgTMR || p == pgDMA || p == pgBLT) && !d.rdB p Reg.BLK_CTL 0)

/-- A block's own work, which stops while its page is frozen (R17): the command waits. -/
def Dev.thawed (d : Dev) (p : Nat) (f : Dev → Dev) : Dev := if d.frozen p then d.reply .waits else f d

/-- Who reaches register pages: harts, the debug module's bus access and DMA (R12, R481, R502). Host lanes reach their
head page through BAR0 (R65), line engines through their head-register unit (R221). -/
def reqReaches : Req → Bool
  | .hart _ => true
  | .debug => true
  | .dma => true
  | .lane _ => false
  | .engine _ => false

/-- Debug access is open (R503, R561): SEC_STAT.DBG_OPEN. -/
def Dev.dbgOpen (d : Dev) : Bool := d.rdB pgSEC Reg.SEC_STAT 1

/-- A write to a page, before what it does: it disarms the page's lock (R26), and on GPIO the pin locks too (R529). -/
def Dev.disarm (d : Dev) (p : Nat) : Dev :=
  let d := { d with armed := spPut (fun _ => none) d.armed p none }
  if p = pgGPIO then { d with gpio := { d.gpio with armed := [] } } else d

/-- A requester's access: while debug access is closed the debug module makes none (R503); one of a requester without a path
to register pages is not performed and is answered as R12 answers an access of the wrong shape (assumption log 7). -/
def Dev.asReq (d : Dev) (r : Req) (f : Dev → Dev) : Dev :=
  if reqReaches r = false then d.reply .accessFault
  else if r = .debug ∧ d.dbgOpen = false then d.reply .dmiFailed else f d

/-- A command that is a requester's write of one register of page p. -/
def State.onPage (s : State) (r : Req) (p : Nat) (f : Dev → Dev) : Host.Outcome State Fault Refusal :=
  s.run (fun d => d.asReq r (fun d => f (d.disarm p)))

/-- A command that is a requester's read of a register of a page. -/
def State.onRead (s : State) (r : Req) (f : Dev → Dev) : Host.Outcome State Fault Refusal :=
  s.run (fun d => d.asReq r f)

end Sys2Proof.Machine
end

