-- ==== Sys2Proof/Machine/Flags.lean ====
section
/-! DEFINITION. Status and event flags: the accounting control and status words (R48 to R51), IRQ_SET (R14), and the
event outputs of pages (R22). -/
namespace Sys2Proof.Machine

/-- The offsets of ACCT_CTL and ACCT_STAT of a page that owns identities (R48). -/
def acctAt : PK → Option (Nat × Nat)
  | .sys => some (Reg.SYS_ACCT_CTL, Reg.SYS_ACCT_STAT)
  | .hp => some (Reg.HP_ACCT_CTL, Reg.HP_ACCT_STAT)
  | .compose => some (Reg.COMPOSE_ACCT_CTL, Reg.COMPOSE_ACCT_STAT)
  | .lead => some (Reg.LEAD_ACCT_CTL, Reg.LEAD_ACCT_STAT)
  | .vhead => some (Reg.V_ACCT_CTL, Reg.V_ACCT_STAT)
  | .aud => some (Reg.AUD_ACCT_CTL, Reg.AUD_ACCT_STAT)
  | .log => some (Reg.LOG_ACCT_CTL, Reg.LOG_ACCT_STAT)
  | .al => some (Reg.AL_ACCT_CTL, Reg.AL_ACCT_STAT)
  | .dma => some (Reg.DMA_ACCT_CTL, Reg.DMA_ACCT_STAT)
  | _ => none

/-- The identity indexes that a page has (R101, R103, R177, R178, R311, R370, R383, R416, R495). -/
def hasIdentity : PK → Nat → Bool
  | .hp, i => decide (i < 2)
  | .aud, i => decide (i < 16)
  | .log, i => decide (i < 16)
  | .dma, i => decide (i < 16)
  | .al, i => decide (i % 8 < 6)
  | .sys, i => i == 0
  | .compose, i => i == 0
  | .lead, i => i == 0
  | .vhead, i => i == 0
  | _, _ => false

/-- ACCT_CTL.INJECT (R49, R51): the check of identity INJ_SEL sees a mismatch, if CHK_EN is 1. -/
def Dev.inject (d : Dev) (p : Nat) : Dev :=
  match acctAt (pageKind p) with
  | none => d
  | some (ctl, stat) =>
    let i := d.rdF p ctl 11 8
    if d.rdB p ctl 1 && hasIdentity (pageKind p) i then d.acctErr p stat i true else d

/-- A page's count of snapshots taken (R50). -/
def Dev.snapCount (d : Dev) (p stat : Nat) : Dev := d.wrF p stat 31 16 (d.rdF p stat 31 16 + 1)

/-- IRQ_SET (R14): a 1 sets the matching IRQ_STAT bit. -/
def Dev.irqSet (d : Dev) (p : Nat) (v : Word) : Dev :=
  d.wr p Reg.IRQ_STAT (d.rd p Reg.IRQ_STAT ||| (v &&& word (irqBits (pageKind p))))

/-- Copy n words of a page. -/
def Dev.copyWords (d : Dev) (p src dst n : Nat) : Dev :=
  forN n (fun i d => d.wr p (dst + 4 * i) (d.rd p (src + 4 * i))) d

end Sys2Proof.Machine
end

