-- ==== Sys2Proof/Machine/Layers.lean ====
section
/-! DEFINITION. What a composed line shows: the translation of R111, the layers, cursor and badges of R118 to R137, and
the line table of R138 to R141. Lines are composed from a head's effective words, held as a sparse map by offset. -/
namespace Sys2Proof.Machine

/-- Is a head virtual? -/
def isV (h : Nat) : Bool := decide (h < 128)

/-- A head's allocations (R67, R107, R116, R146): DRAM base and bytes, glyph-store offset and bytes (assumption log 65). -/
def Dev.alloc (d : Dev) (h : Nat) : Nat × Nat × Nat × Nat :=
  let p := pgHD h
  if isV h then
    (d.rdF p Reg.HB_DRAM_LO 31 21 * blockBytes + d.rdF p Reg.HB_DRAM_HI 15 0 * 2 ^ 32,
     d.rdF p Reg.HB_DRAM_SIZE 7 0 * blockBytes,
     d.rdF p Reg.HB_GLYPH 9 0 * 65536, d.rdF p Reg.HB_GLYPH 25 16 * 65536)
  else
    (d.rdF p Reg.PH_DRAM 26 0 * blockBytes, d.rdF p Reg.PH_ALLOC 7 0 * blockBytes,
     d.rdF p Reg.PH_ALLOC 17 8 * 65536, d.rdF p Reg.PH_ALLOC 26 18 * 65536)

/-- The physical address of a BAR2 offset (R67, R68, R111); none beyond the head's allocation or in the reserved range
(assumption log 65). -/
def Dev.bar2 (d : Dev) (h a : Nat) : Option Nat :=
  let (db, ds, gb, gs) := d.alloc h
  if a < 0x10000000 then if a < ds then some (db + a) else none
  else if a < 0x11000000 then
    let o := a - 0x10000000
    if o < gs ∧ gb + o < 0x3000000 then some (glyphBase + gb + o) else none
  else none

/-- A composer's read (R113, R433): its value, whether any byte failed, and the poisoned bursts it met. -/
structure CRead where
  v : Nat
  bad : Bool
  hits : List Nat
  deriving DecidableEq, Repr

/-- One byte of a BAR2 offset read by a composer; glyph says which window the item must lie in (R112, R113). -/
def Dev.cbyte (d : Dev) (h : Nat) (glyph : Bool) (a : Nat) : CRead :=
  if glyph ≠ decide (0x10000000 ≤ a) then ⟨0, true, []⟩
  else match d.bar2 h a with
    | none => ⟨0, true, []⟩
    | some p => if d.poisoned p 1 then ⟨0, true, [p / 64]⟩ else ⟨(d.byte p).toNat, false, []⟩

/-- n bytes, little-endian. -/
def Dev.cread (d : Dev) (h : Nat) (glyph : Bool) (a : Nat) : Nat → CRead
  | 0 => ⟨0, false, []⟩
  | n + 1 =>
    let x := d.cbyte h glyph a
    let y := d.cread h glyph (a + 1) n
    ⟨x.v + 256 * y.v, x.bad || y.bad, x.hits ++ y.hits⟩

/-- A head's own words that differ from reset, by offset. -/
def Dev.ownRegs (d : Dev) (h : Nat) : Sparse Word :=
  (d.regs.filter (fun e => e.1 / 4096 == pgHD h)).map (fun e => (e.1 % 4096, e.2))

/-- What an unlisted word of a head reads as. -/
def headDflt (h off : Nat) : Word := resetWord (regKey (pgHD h) off)

/-- A word among effective values. -/
def eff (h : Nat) (r : Sparse Word) (off : Nat) : Word := spGet (headDflt h) r off
/-- A field among effective values. -/
def effF (h : Nat) (r : Sparse Word) (off hi lo : Nat) : Nat := field (eff h r off) hi lo

/-- The features negotiated on a head's display function; a physical head has all (R146). -/
def Dev.feats (d : Dev) (h : Nat) : Word := if isV h then d.rd (pgFn h 0) Reg.HF_NEG_LO else 0xFFFFFFFF

/-- The features that the picture of a head shows: after a function reset, those it had until the next frame starts (R106). -/
def Dev.picFeats (d : Dev) (h : Nat) : Word := (d.head h).held.getD (d.feats h)

/-- R145: the bits of a head word that features not negotiated silence. -/
def silenced (neg : Word) (off : Nat) : Word :=
  let tile := !bit neg 0
  let spr := !bit neg 2
  if 0x080 ≤ off ∧ off ≤ 0x0A4 then if tile then 0xFFFFFFFF else 0
  else if off = Reg.HD_LAYER_CTL then (if tile then 0x33 else 0) ||| (if spr then 0x8 else 0)
  else if off = Reg.SPR_TABLE then if spr then 0xFFFFFFFF else 0
  else if 0x0D0 ≤ off ∧ off ≤ 0x0D8 then if bit neg 8 then 0 else 0xFFFFFFFF
  else if 0x0DC ≤ off ∧ off ≤ 0x0E0 then if bit neg 3 then 0 else 0xFFFFFFFF
  else if off = Reg.BM_FMT then if bit neg 9 then 0 else 0x10
  else 0

/-- The bits of a word that a head page's fields hold. -/
def headMask (h off : Nat) : Word :=
  match rowAt (pgHD h) off with
  | some r => word (r.rw ||| r.rwl)
  | none => 0

/-- The offsets that a line-table entry may override (R139). -/
def ltAllowed (off : Nat) : Bool :=
  decide (off % 4 = 0) && (decide (0x070 ≤ off ∧ off ≤ 0x0D8) || decide (0x800 ≤ off ∧ off ≤ 0xFFC))

/-- R140, R145: a line-table entry's value placed into the effective values. -/
def ltApply (h : Nat) (neg : Word) (r : Sparse Word) (off : Nat) (v : Word) : Sparse Word :=
  let m := headMask h off
  let v := v &&& m &&& ~~~ (silenced neg off)
  let v := if off = Reg.BM_FMT ∧ bit neg 9 = false ∧ field v 2 0 = 0
    then putField v 2 0 (effF h r Reg.BM_FMT 2 0) else v
  spPut (headDflt h) r off v

/-- What a walk of the line table finds: effective values and HD_LSTAT flags. -/
structure LtWalk where
  regs : Sparse Word
  bad : Bool := false
  order : Bool := false
  ovf : Bool := false
  fault : Bool := false
  hits : List Nat := []
  deriving DecidableEq, Repr

/-- R140: the entries from index i on, n still to come; prev: the LINE of the entry before, seen: how many entries have had it. -/
def Dev.ltWalk (d : Dev) (h : Nat) (neg : Word) (base line : Nat) : Nat → Nat → Option Nat → Nat → LtWalk → LtWalk
  | 0, _, _, _, w => w
  | n + 1, i, prev, seen, w =>
    let e := d.cread h true (base + 8 * i) 8
    let w := { w with fault := w.fault || e.bad, hits := w.hits ++ e.hits }
    let l := e.v % 65536
    let off := e.v / 65536 % 65536
    if line < l then w
    else if prev.any (fun p => decide (l < p)) then { w with order := true }
    else
      let seen := if prev = some l then seen + 1 else 1
      let w :=
        if 64 < seen then { w with ovf := true }
        else if ltAllowed off then { w with regs := ltApply h neg w.regs off (word (e.v / 2 ^ 32)) }
        else { w with bad := true }
      d.ltWalk h neg base line n (i + 1) (some l) seen w

/-- R145: a head's words with the silenced bits 0. -/
def silence (h : Nat) (neg : Word) (r : Sparse Word) : Sparse Word :=
  forL ([0x070, 0x0B0, 0x0CC, 0x0D0, 0x0D4, 0x0D8, 0x0DC, 0x0E0] ++ (List.range 10).map (fun i => 0x080 + 4 * i))
    (fun off r => if silenced neg off = 0 then r else spPut (headDflt h) r off (eff h r off &&& ~~~ (silenced neg off))) r

/-- R140: the effective values for a line, from the head's own (or latched) words. -/
def Dev.effective (d : Dev) (h : Nat) (own : Sparse Word) (line : Nat) : LtWalk :=
  let neg := d.picFeats h
  let r := silence h neg own
  let ctl := eff h r Reg.LT_CTL
  if bit ctl 0 then
    d.ltWalk h neg (eff h r Reg.LT_BASE).toNat line (min (field ctl 28 16) 4096) 0 none 0 { regs := r }
  else { regs := r }

/-- Blending functions (R136). -/
def mul8 (a b : Nat) : Nat := (a * b + 127) / 255
def blend8 (r c a : Nat) : Nat := (c * a + r * (255 - a) + 127) / 255

/-- A colour: red, green, blue. -/
abbrev Rgb := Nat × Nat × Nat

/-- The colour in bits [23:0] of a word. -/
def rgbOf (w : Nat) : Rgb := (w / 65536 % 256, w / 256 % 256, w % 256)

/-- blend, per channel (R136). -/
def blend (r c : Rgb) (a : Nat) : Rgb := (blend8 r.1 c.1 a, blend8 r.2.1 c.2.1 a, blend8 r.2.2 c.2.2 a)

/-- A layer's pixel: colour, alpha, and what its reads met. -/
structure Px where
  c : Rgb
  a : Nat
  bad : Bool := false
  hits : List Nat := []
  deriving DecidableEq, Repr

/-- A palette entry as colour and alpha (R125). -/
def palPx (h : Nat) (r : Sparse Word) (k i : Nat) : Rgb × Nat :=
  let w := (eff h r (0x800 + k * 0x400 + i * 4)).toNat
  (rgbOf w, w / 2 ^ 24)

/-- The offset of tile layer t's words from tile A's (t: 0 tile A, 1 tile B). -/
def tOff (t : Nat) : Nat := 0x14 * t

/-- A tile layer's geometry from its effective values (R118, R120). -/
structure TileGeom where
  cw : Nat
  ch : Nat
  w : Nat
  h : Nat
  bpp : Nat
  gcount : Nat
  rb : Nat
  gsz : Nat
  map : Nat
  glyphs : Nat
  deriving DecidableEq, Repr

/-- R118, R120. -/
def tileGeom (hd : Nat) (r : Sparse Word) (t : Nat) : TileGeom :=
  let cell := eff hd r (Reg.TA_CELL + tOff t)
  let geom := eff hd r (Reg.TA_GEOM + tOff t)
  let maps := eff hd r (Reg.TA_MAPS + tOff t)
  let cw := max (field cell 4 0) 3 + 1
  let ch := max (field cell 10 5) 7 + 1
  let bpp := 2 ^ field cell 13 12
  let rb := (cw * bpp + 7) / 8
  { cw := cw, ch := ch, w := field geom 9 0 + 1, h := field geom 18 10 + 1, bpp := bpp, gcount := field geom 31 19 + 1,
    rb := rb, gsz := (rb * ch + 3) / 4 * 4,
    map := 0x10000000 + 256 * (if bit (eff hd r Reg.HD_BUFSEL) t then field maps 31 16 else field maps 15 0),
    glyphs := (eff hd r (Reg.TA_GLYPH + tOff t)).toNat }

/-- The cell column, row and the position in it of an active pixel (R118). -/
def cellAt (hd : Nat) (r : Sparse Word) (t : Nat) (g : TileGeom) (x y : Nat) : Nat × Nat × Nat × Nat :=
  let sc := eff hd r (Reg.TA_SCROLL + tOff t)
  let mx := (x + field sc 15 0) % (g.w * g.cw)
  let my := (y + field sc 31 16) % (g.h * g.ch)
  (mx / g.cw, my / g.ch, mx % g.cw, my % g.ch)

/-- R119 to R121: the palette index of a pixel whose cell, glyph value and row in the cell are known. -/
def tileIndex (tcell : Word) (cell v gy fNum : Nat) : Nat :=
  let c := word cell
  let f0 := field c 20 13
  let b0 := field c 28 21
  let f := if bit c 31 then b0 else f0
  let b := if bit c 31 then f0 else b0
  let ul := field tcell 21 16
  if bit tcell 14 ∧ bit c 30 ∧ fNum.testBit 5 then b
  else if bit c 29 ∧ ul ≤ gy ∧ gy < ul + field tcell 23 22 + 1 then f
  else if v = 0 then b else (f + v - 1) % 256

/-- A tile layer's pixel (R118 to R121). -/
def Dev.tilePx (d : Dev) (hd : Nat) (r : Sparse Word) (t fNum x y : Nat) : Px :=
  let g := tileGeom hd r t
  let (col, row, gx, gy) := cellAt hd r t g x y
  let cell := d.cread hd true (g.map + 4 * (row * g.w + col)) 4
  let idx := cell.v % 8192
  let byte := if idx < g.gcount then d.cread hd true (g.glyphs + idx * g.gsz + gy * g.rb + gx * g.bpp / 8) 1
    else ⟨0, false, []⟩
  let v := (byte.v >>> (8 - g.bpp - gx * g.bpp % 8)) % 2 ^ g.bpp
  let (c, a) := palPx hd r (effF hd r Reg.HD_LAYER_CTL (4 + t) (4 + t))
    (tileIndex (eff hd r (Reg.TA_CELL + tOff t)) cell.v v gy fNum)
  { c := c, a := a, bad := cell.bad || byte.bad, hits := cell.hits ++ byte.hits }

/-- Bytes per pixel of a bitmap format (R122); 0 for a format that is not composed. -/
def fmtBytes : Nat → Nat
  | 0 => 1 | 1 => 2 | 2 => 2 | 3 => 4 | 4 => 4 | _ => 0

/-- 5-bit and 6-bit channels expanded (R122). -/
def exp5 (c : Nat) : Nat := c * 8 ||| c / 4
def exp6 (c : Nat) : Nat := c * 4 ||| c / 16

/-- R122: a raw pixel's colour and alpha. -/
def fmtPx (hd : Nat) (r : Sparse Word) (fmt p : Nat) : Rgb × Nat :=
  match fmt with
  | 0 => palPx hd r (effF hd r Reg.BM_FMT 4 4) (p % 256)
  | 1 => ((exp5 (p / 2048 % 32), exp6 (p / 32 % 64), exp5 (p % 32)), 255)
  | 2 => ((exp5 (p / 1024 % 32), exp5 (p / 32 % 32), exp5 (p % 32)), 255)
  | 3 => (rgbOf p, 255)
  | _ => (rgbOf p, p / 2 ^ 24 % 256)

/-- The bitmap layer is composed at all: FMT 0 to 4 and PITCH not 0 (R116, R122). -/
def bmLive (hd : Nat) (r : Sparse Word) : Bool :=
  decide (fmtBytes (effF hd r Reg.BM_FMT 2 0) ≠ 0) && decide (effF hd r Reg.BM_FMT 31 16 ≠ 0)

/-- The bitmap's pixel (R122 to R124). -/
def Dev.bitmapPx (d : Dev) (hd : Nat) (r : Sparse Word) (x y : Nat) : Px :=
  let fmt := eff hd r Reg.BM_FMT
  let k := fmtBytes (field fmt 2 0)
  let sx := x + effF hd r Reg.BM_SCROLL 15 0
  let sy := y + effF hd r Reg.BM_SCROLL 31 16
  if effF hd r Reg.BM_SIZE 15 0 ≤ sx ∨ effF hd r Reg.BM_SIZE 31 16 ≤ sy ∨ bmLive hd r = false then ⟨(0, 0, 0), 0, false, []⟩
  else
    let base := (eff hd r (if bit (eff hd r Reg.HD_BUFSEL) 2 then Reg.BM_BASE1 else Reg.BM_BASE0)).toNat
    let p := d.cread hd false (base + sy * (64 * field fmt 31 16) + sx * k) k
    if p.bad then ⟨(0, 0, 0), 0, true, p.hits⟩
    else if bit fmt 3 ∧ word p.v &&& eff hd r Reg.BM_KEYMASK = eff hd r Reg.BM_KEY &&& eff hd r Reg.BM_KEYMASK
      then ⟨(0, 0, 0), 0, false, []⟩
    else let (c, a) := fmtPx hd r (field fmt 2 0) p.v; ⟨c, a, false, []⟩

/-- A sprite entry's words (R126). -/
structure Sprite where
  x : Int
  y : Int
  w : Nat
  h : Nat
  bpp : Nat
  psel : Nat
  pbase : Nat
  hflip : Bool
  vflip : Bool
  image : Nat
  alpha : Nat
  en : Bool
  bad : Bool
  hits : List Nat
  deriving DecidableEq, Repr

/-- R126: a sprite entry from its 16 bytes. -/
def spriteOf (e : CRead) : Sprite :=
  let w0 := e.v % 2 ^ 32
  let w1 := word (e.v / 2 ^ 32)
  let w2 := e.v / 2 ^ 64 % 2 ^ 32
  let w3 := word (e.v / 2 ^ 96)
  { x := signed 16 (w0 % 65536), y := signed 16 (w0 / 65536), w := field w1 7 0 + 1, h := field w1 15 8 + 1,
    bpp := field w1 18 16, psel := field w1 19 19, pbase := field w1 27 20, hflip := bit w1 28, vflip := bit w1 29,
    image := w2 / 4 * 4, alpha := field w3 7 0, en := bit w3 8, bad := e.bad, hits := e.hits }

/-- Sprite k of a head's table (R126). -/
def Dev.sprite (d : Dev) (hd : Nat) (r : Sparse Word) (k : Nat) : Sprite :=
  spriteOf (d.cread hd true ((eff hd r Reg.SPR_TABLE).toNat + 16 * k) 16)

/-- Bits per pixel of a sprite (R126). -/
def sprBits (b : Nat) : Nat := if b = 4 then 32 else 2 ^ b

/-- The sprite meets line y (R128): enabled, a valid depth, and its rows. -/
def Sprite.meets (s : Sprite) (y : Nat) : Bool :=
  s.en && decide (s.bpp ≤ 4) && decide (s.y ≤ (y : Int)) && decide ((y : Int) < s.y + s.h)

/-- The image column and row of an active pixel (R127); none where the sprite does not cover it. -/
def Sprite.at (s : Sprite) (x y : Nat) : Option (Nat × Nat) :=
  let c := (x : Int) - s.x
  let l := (y : Int) - s.y
  if 0 ≤ c ∧ c < s.w ∧ 0 ≤ l ∧ l < s.h then
    some ((if s.hflip then s.w - 1 - c.toNat else c.toNat), (if s.vflip then s.h - 1 - l.toNat else l.toNat))
  else none

/-- Bytes per image row (R127). -/
def Sprite.rowBytes (s : Sprite) : Nat := (s.w * sprBits s.bpp + 31) / 32 * 4

/-- A host sprite's pixel at image column c and row l (R127). -/
def Dev.spritePx (d : Dev) (hd : Nat) (r : Sparse Word) (s : Sprite) (c l : Nat) : Px :=
  let row := s.image + l * s.rowBytes
  if s.bpp = 4 then
    let p := d.cread hd true (row + 4 * c) 4
    ⟨rgbOf p.v, p.v / 2 ^ 24, p.bad, p.hits⟩
  else
    let bpp := sprBits s.bpp
    let b := d.cread hd true (row + c * bpp / 8) 1
    let v := (b.v >>> (8 - bpp - c * bpp % 8)) % 2 ^ bpp
    if v = 0 then ⟨(0, 0, 0), 0, b.bad, b.hits⟩
    else let (col, a) := palPx hd r s.psel ((s.pbase + v) % 256); ⟨col, a, b.bad, b.hits⟩

/-- Badge j of a head (R131): its descriptor in the badge area, with the image's glyph-store offset. -/
def Dev.badge (d : Dev) (hd j : Nat) : Sprite :=
  let a := glyphBase + 0x2FF0000 + hd * 64 + 16 * j
  if d.poisoned a 16 then spriteOf ⟨0, true, [a / 64]⟩ else spriteOf ⟨d.num a 16, false, []⟩

/-- A badge is enabled: EN and BPP 4 (R131). -/
def Sprite.badgeOn (s : Sprite) : Bool := s.en && decide (s.bpp = 4)

/-- A badge's pixel (R132): image bytes beyond the glyph store read 0. -/
def Dev.badgePx (d : Dev) (s : Sprite) (c l : Nat) : Px :=
  let a := s.image + l * s.rowBytes + 4 * c
  if 0x3000000 ≤ a then ⟨(0, 0, 0), 0, false, []⟩
  else if d.poisoned (glyphBase + a) 4 then ⟨(0, 0, 0), 0, true, [(glyphBase + a) / 64]⟩
  else let p := d.num (glyphBase + a) 4; ⟨rgbOf p, p / 2 ^ 24, false, []⟩

/-- Is an active pixel inside the window (R134)? -/
def inWindow (hd : Nat) (r : Sparse Word) (x y : Nat) : Bool :=
  decide (effF hd r Reg.WIN_X 15 0 ≤ x) && decide (x < effF hd r Reg.WIN_X 31 16)
    && decide (effF hd r Reg.WIN_Y 15 0 ≤ y) && decide (y < effF hd r Reg.WIN_Y 31 16)

/-- Window mode of layer l (0 tile A, 1 tile B, 2 bitmap, 3 sprite plane). -/
def winMode (hd : Nat) (r : Sparse Word) (l : Nat) : Nat := effF hd r Reg.HD_LAYER_CTL (17 + 2 * l) (16 + 2 * l)

/-- Does the window let layer l be drawn here (R134)? -/
def windowOk (hd : Nat) (r : Sparse Word) (l x y : Nat) : Bool :=
  match winMode hd r l with
  | 0 => true
  | 1 => inWindow hd r x y
  | 2 => !inWindow hd r x y
  | _ => false

/-- The layer that a slot names (R135). -/
def slotOf (hd : Nat) (r : Sparse Word) (s : Nat) : Nat := effF hd r Reg.HD_LAYER_CTL (9 + 2 * s) (8 + 2 * s)

/-- Is layer l, named in slot s, composed there: enabled, and named in no higher slot (R135)? -/
def composedHere (hd : Nat) (r : Sparse Word) (l s : Nat) : Bool :=
  bit (eff hd r Reg.HD_LAYER_CTL) l && ((List.range 4).all (fun s' => !(decide (s < s') && slotOf hd r s' == l)))

/-- Layer alpha (R116). -/
def layerAlpha (hd : Nat) (r : Sparse Word) (l : Nat) : Nat := effF hd r Reg.HD_LAYER_ALPHA (7 + 8 * l) (8 * l)

/-- What composition has gathered at a pixel. -/
structure Mix where
  c : Rgb
  bad : Bool := false
  hits : List Nat := []
  deriving DecidableEq, Repr

/-- A pixel blended on top. -/
def Mix.over (m : Mix) (p : Px) (a : Nat) : Mix := ⟨blend m.c p.c a, m.bad || p.bad, m.hits ++ p.hits⟩

/-- The host sprites kept for a line (R128): the 16 lowest-numbered that meet it, lowest number first, and whether any was dropped. -/
def Dev.keptSprites (d : Dev) (hd : Nat) (r : Sparse Word) (y : Nat) : List Sprite × Bool × List Sprite :=
  if bit (eff hd r Reg.HD_LAYER_CTL) 3 then
    let all := (List.range 32).map (d.sprite hd r)
    let m := all.filter (fun s => s.meets y)
    (m.take 16, decide (16 < m.length), all)
  else ([], false, [])

/-- R137: one slot's layer. -/
def Dev.mixSlot (d : Dev) (hd : Nat) (r : Sparse Word) (kept : List Sprite) (fNum x y s : Nat) (m : Mix) : Mix :=
  let l := slotOf hd r s
  if composedHere hd r l s = false ∨ windowOk hd r l x y = false then m
  else if l = 3 then
    forL kept.reverse (fun sp m =>
      match sp.at x y with
      | some (c, row) =>
        let p := d.spritePx hd r sp c row
        m.over p (mul8 (mul8 p.a sp.alpha) (layerAlpha hd r 3))
      | none => m) m
  else
    let p := if l = 2 then d.bitmapPx hd r x y else d.tilePx hd r l fNum x y
    m.over p (mul8 p.a (layerAlpha hd r l))

/-- The cursor (R130). -/
def Dev.mixCursor (d : Dev) (hd : Nat) (r : Sparse Word) (x y : Nat) (m : Mix) : Mix :=
  let ctl := eff hd r Reg.CUR_CTL
  let c := (x : Int) - (signed 16 (effF hd r Reg.CUR_POS 15 0) - field ctl 13 8)
  let l := (y : Int) - (signed 16 (effF hd r Reg.CUR_POS 31 16) - field ctl 21 16)
  if bit ctl 0 ∧ 0 ≤ c ∧ c < 64 ∧ 0 ≤ l ∧ l < 64 then
    let p := d.cread hd true ((eff hd r Reg.CUR_IMAGE).toNat + l.toNat * 256 + c.toNat * 4) 4
    m.over ⟨rgbOf p.v, 0, p.bad, p.hits⟩ (p.v / 2 ^ 24)
  else m

/-- The badges (R132), badge 3 first. -/
def Dev.mixBadges (d : Dev) (badges : List Sprite) (x y : Nat) (m : Mix) : Mix :=
  forL badges.reverse (fun b m =>
    match (if b.badgeOn then b.at x y else none) with
    | some (c, l) => let p := d.badgePx b c l; m.over p (mul8 p.a b.alpha)
    | none => m) m

/-- R137: one active pixel. -/
def Dev.composePx (d : Dev) (hd : Nat) (r : Sparse Word) (kept badges : List Sprite) (fNum x y : Nat) : Mix :=
  let m : Mix := { c := rgbOf (eff hd r Reg.HD_BGCOLOUR).toNat }
  d.mixBadges badges x y (d.mixCursor hd r x y (forN 4 (d.mixSlot hd r kept fNum x y) m))

/-- An XRGB8888 word (R110). -/
def rgbWord (c : Rgb) : Word := word (c.1 * 65536 + c.2.1 * 256 + c.2.2)

/-- A composed line: pixels, effective words, HD_LSTAT flags to set and poisoned bursts met. -/
structure Composed where
  pixels : List Word
  regs : Sparse Word
  flags : Nat
  hits : List Nat
  deriving DecidableEq, Repr

/-- R110 to R141: line y of frame F of a head, from the words given and from memory as it stands. -/
def Dev.composeLine (d : Dev) (hd : Nat) (own : Sparse Word) (hactive fNum y : Nat) : Composed :=
  let w := d.effective hd own y
  let (kept, ovf, all) := d.keptSprites hd w.regs y
  let badges := (List.range 4).map (d.badge hd)
  let px := (List.range hactive).map (fun x => d.composePx hd w.regs kept badges fNum x y)
  let sprBad := all.any (fun s => s.bad)
  let bad := w.fault || sprBad || badges.any (fun b => b.bad) || px.any (fun m => m.bad)
  { pixels := px.map (fun m => rgbWord m.c), regs := w.regs,
    flags := ovf.toNat + w.bad.toNat * 2 + w.order.toNat * 4 + w.ovf.toNat * 8 + bad.toNat * 16,
    hits := (w.hits ++ all.flatMap (fun s => s.hits) ++ badges.flatMap (fun b => b.hits)
      ++ px.flatMap (fun m => m.hits)).eraseDups }

end Sys2Proof.Machine
end

