-- ==== Sys2Proof/Machine/Heads.lean ====
section
/-! DEFINITION. Beams (R150), the lead window (R161), squash (R164 to R167), FENCE violations (R87, R88), frames withheld
or ended, and the pools that heads draw on. Stores that heads may read go through Dev.storeBy. -/
namespace Sys2Proof.Machine

/-! ### Timing -/

def Dev.hactive (d : Dev) (h : Nat) : Nat := d.rdF (pgHD h) Reg.HD_HTIME 11 0
def Dev.htotal (d : Dev) (h : Nat) : Nat := d.rdF (pgHD h) Reg.HD_HTIME 27 16
def Dev.vactive (d : Dev) (h : Nat) : Nat := d.rdF (pgHD h) Reg.HD_VTIME 11 0
def Dev.vtotal (d : Dev) (h : Nat) : Nat := d.rdF (pgHD h) Reg.HD_VTIME 27 16
def Dev.fperiod (d : Dev) (h : Nat) : Nat := d.rdN (pgHD h) Reg.HD_FPERIOD
def Dev.origin (d : Dev) (h : Nat) : Nat := d.rd64 (pgHD h) Reg.HD_ORIGIN_LO

/-- start(f) of R150, from an origin and a period. -/
def startAt (origin p f : Nat) : Nat := (origin + f * p) % 2 ^ 64
/-- slot_at(f, k) of R150. -/
def slotAt (origin p n f k : Nat) : Nat := (startAt origin p f + k * p / n) % 2 ^ 64
/-- sample(f, l) of R150. -/
def sampleAt (origin p vtotal f l : Nat) : Nat := (startAt origin p f + l * p / vtotal) % 2 ^ 64
/-- The beam at fabric time t (R150): frame, line, slot. -/
def beamAt (origin p htotal vtotal t : Nat) : Nat × Nat × Nat :=
  let n := htotal * vtotal
  let dd := (t + 2 ^ 64 - origin) % 2 ^ 64
  let f := dd / p
  let r := dd - f * p
  let k := ((r + 1) * n - 1) / p
  (f, k / htotal, k % htotal)

def Dev.startFt (d : Dev) (h f : Nat) : Nat := startAt (d.origin h) (d.fperiod h) f
def Dev.sampleFt (d : Dev) (h f l : Nat) : Nat := sampleAt (d.origin h) (d.fperiod h) (d.vtotal h) f l
def Dev.slotFt (d : Dev) (h f l s : Nat) : Nat :=
  slotAt (d.origin h) (d.fperiod h) (d.htotal h * d.vtotal h) f (l * d.htotal h + s)
/-- The beam of a head now. -/
def Dev.beam (d : Dev) (h : Nat) : Nat × Nat × Nat := beamAt (d.origin h) (d.fperiod h) (d.htotal h) (d.vtotal h) d.ft

/-- A head runs: RUNNING or STOPPING (R601). -/
def Dev.runs (d : Dev) (h : Nat) : Bool := (d.head h).adm == .running || (d.head h).adm == .stopping
/-- A head has been admitted and has not stopped. -/
def Dev.live (d : Dev) (h : Nat) : Bool := (d.head h).adm != .off
/-- HD_ADMIT.STATE's code (R148). -/
def Adm.code : Adm → Nat
  | .off => 0
  | .waiting => 1
  | .running => 2
  | .stopping => 3

/-- LEAD_LINES within the limits of R148. -/
def Dev.leadLines (d : Dev) (h : Nat) : Nat := max 2 (min 32 (d.rdF (pgHD h) Reg.HD_MODE 21 16))

/-- The number of the next frame to start (R149): the run's first frame while it waits, else one more than the last. -/
def Dev.nextFrame (d : Dev) (h : Nat) : Nat :=
  if (d.head h).adm = .waiting then (d.head h).first
  else match (d.head h).last with
    | some f => f + 1
    | none => 0

/-! ### Pools (R177 to R179, R279, R280) -/

/-- Scan and line tokens taken by a head. -/
def Dev.takeTokens (d : Dev) (h scan line : Nat) : Dev :=
  let d := d.onHead h (fun x => { x with scan := scan, line := line })
  let d := (d.wrN pgCOMPOSE Reg.TOK_HELD (d.rdN pgCOMPOSE Reg.TOK_HELD + scan)).wrN pgCOMPOSE Reg.TOK_FREE
    (d.rdN pgCOMPOSE Reg.TOK_FREE - scan)
  (d.wrN pgLEAD Reg.LTOK_HELD (d.rdN pgLEAD Reg.LTOK_HELD + line)).wrN pgLEAD Reg.LTOK_FREE
    (d.rdN pgLEAD Reg.LTOK_FREE - line)

/-- A head's tokens returned. -/
def Dev.dropTokens (d : Dev) (h : Nat) : Dev :=
  let x := d.head h
  let d := d.setHead h { x with scan := 0, line := 0 }
  let d := (d.wrN pgCOMPOSE Reg.TOK_HELD (d.rdN pgCOMPOSE Reg.TOK_HELD - x.scan)).wrN pgCOMPOSE Reg.TOK_FREE
    (d.rdN pgCOMPOSE Reg.TOK_FREE + x.scan)
  (d.wrN pgLEAD Reg.LTOK_HELD (d.rdN pgLEAD Reg.LTOK_HELD - x.line)).wrN pgLEAD Reg.LTOK_FREE
    (d.rdN pgLEAD Reg.LTOK_FREE + x.line)

/-- The lowest n pages of the hash store that no region holds (R279), from page k on. -/
def freePages (used : List Nat) : Nat → Nat → Nat → List Nat
  | 0, _, _ => []
  | fuel + 1, k, n =>
    if n = 0 then [] else if used.contains k then freePages used fuel (k + 1) n else k :: freePages used fuel (k + 1) (n - 1)

/-- A hash-store region taken (R280): every hash all ones, the frames until the first commit are grant frames. -/
def Dev.takeRegion (d : Dev) (h pages tiles lines : Nat) : Dev :=
  let used := d.heads.flatMap (fun e => e.2.pages)
  let d := d.onHead h (fun x => { x with pages := freePages used 3072 0 pages, region := pages, granted := true, releasing := false, cell := false
                                         tiles := List.replicate tiles (2 ^ 64 - 1)
                                         hashes := List.replicate lines (2 ^ 32 - 1) })
  (d.wrN pgENC Reg.HS_USED (d.rdN pgENC Reg.HS_USED + pages)).wrN pgENC Reg.HS_FREE (d.rdN pgENC Reg.HS_FREE - pages)

/-- A head's hash-store region returned to the pool (R280). -/
def Dev.dropRegion (d : Dev) (h : Nat) : Dev :=
  let x := d.head h
  let d := d.setHead h { x with region := 0, pages := [], granted := false, releasing := false, tiles := [], hashes := [] }
  (d.wrN pgENC Reg.HS_USED (d.rdN pgENC Reg.HS_USED - x.region)).wrN pgENC Reg.HS_FREE
    (d.rdN pgENC Reg.HS_FREE + x.region)

/-- A pending frame leaves PENDING for a counter: ENC_SENT, ENC_WITHHELD or ENC_SKIPPED (R311). The region of a stopped
head returns when its last pending frame ends (R280). -/
def Dev.endPending (d : Dev) (h f counter : Nat) : Dev :=
  let x := d.head h
  match x.frames.find? (fun e => e.num == f) with
  | none => d
  | some e =>
    let rest := x.frames.filter (fun e => e.num != f)
    let d := d.setHead h { x with frames := rest }
    let d := (d.add64 (pgHD h) counter 1).wrN pgENC Reg.ENC_BACKLOG (d.rdN pgENC Reg.ENC_BACKLOG - e.backlog)
    if rest.isEmpty && x.releasing then d.dropRegion h else d

/-- Every pending frame of a head skipped (R280, at an unbind). -/
def Dev.skipPending (d : Dev) (h : Nat) : Dev :=
  forL ((d.head h).frames.map (fun e => e.num)) (fun f d => (d.endPending h f Reg.ENC_SKIPPED).irq (pgHD h) 8) d

/-! ### Frames withheld or incomplete -/

/-- Active lines of frame f that are not final yet (R168). -/
def Dev.unfinal (d : Dev) (h f : Nat) : Nat :=
  let (g, l) := (d.head h).fin
  if g < f then d.vactive h else if g = f then d.vactive h - l else 0

/-- The unfinished lines of frame f abandoned: the head goes on with frame f + 1 (R168, R171). -/
def Dev.abandon (d : Dev) (h f n : Nat) : Dev :=
  (d.onHead h (fun x =>
    let nx := if x.next.1 ≤ f then (f + 1, 0) else x.next
    { x with lines := x.lines.filter (fun b => decide (b.frame ≠ f) || b.final)
             next := nx, high := if x.high.1 ≤ f then (f + 1, 0) else x.high
             fin := if x.fin.1 ≤ f then (f + 1, 0) else x.fin })).add64 (pgHD h) Reg.ABANDONED_LINES n

/-- A frame of a virtual head withheld (R168, R169): late says whether a line missed its deadline. -/
def Dev.withhold (d : Dev) (h f : Nat) (late : Bool) : Dev :=
  let d := (d.add64 (pgHD h) Reg.WITHHELD_FRAMES 1).irq (pgHD h) 1
  let d := if late then (d.add64 (pgHD h) Reg.LATE_LINES 1).irq (pgHD h) 2 else d
  ((d.abandon h f (d.unfinal h f)).onHead h (fun x => { x with spoiled := some f })).endPending h f Reg.ENC_WITHHELD

/-! ### Squash (R164 to R167) -/

/-- The lead window from a line on discarded, to be composed again (R165): i lines stay (assumption log 66). -/
def Dev.squashAt (d : Dev) (h i : Nat) : Dev :=
  let x := d.head h
  match x.lines.drop i with
  | [] => d
  | b :: rest =>
    let n := rest.length + 1
    let fresh := x.sqCyc != some d.cyc
    let cnt := if fresh then x.sq + 1 else x.sq
    let halve := fresh && decide (cnt % 4 = 0)
    let eff' := if halve then max 2 (x.eff / 2) else x.eff
    let d := d.setHead h { x with lines := x.lines.take i, next := (b.frame, b.line), sq := cnt, sqCyc := some d.cyc
                                  eff := eff' }
    let d := d.add64 (pgHD h) Reg.RECOMPOSED_LINES n
    let d := if fresh then (d.add64 (pgHD h) Reg.SQUASHES 1).add64 pgLEAD Reg.SQUASH_ALL 1 else d
    if eff' < x.eff then
      (d.wrF (pgHD h) Reg.WINDOW_HALVINGS 15 0 (d.rdF (pgHD h) Reg.WINDOW_HALVINGS 15 0 + 1)).irq (pgHD h) 4
    else d

/-- R165: the first composed, non-final line with sample instant after c that p chooses, and every line after it. -/
def Dev.squash (d : Dev) (h c : Nat) (p : LineBuf → Bool) : Dev :=
  match (d.head h).lines.findIdx? (fun b => !b.final && decide (c < d.sampleFt h b.frame b.line) && p b) with
  | some i => d.squashAt h i
  | none => d

/-- The frame at whose start a CONSIST change takes effect (R157): the first that starts after the commit c. -/
def Dev.consistFrame (d : Dev) (h c : Nat) : Nat :=
  let x := d.head h
  match x.cur with
  | none => x.first
  | some f => if c < d.startFt h f then f else f + 1

/-- Frame f follows a CONSIST change that has not taken effect yet (R157). -/
def Dev.afterChange (d : Dev) (h f : Nat) : Bool := (d.head h).consAt.any (fun c => decide (d.consistFrame h c ≤ f))

/-- FENCE consistency holds for the lines of frame f (R40, R157). -/
def Dev.fenceFor (d : Dev) (h f : Nat) : Bool :=
  if d.afterChange h f then decide (d.rdF (pgHD h) Reg.HD_MODE 1 0 = 1) else (d.head h).fence

/-- R165: the head's whole window. -/
def Dev.squashWindow (d : Dev) (h c : Nat) : Dev := d.squash h c (fun _ => true)

/-- Two ranges of addresses meet. -/
def meets (lo hi off len : Nat) : Bool := decide (lo < off + len) && decide (off < hi)

/-- The BAR2 offsets that a range of physical addresses has for a head, by window (R67). -/
def Dev.bar2Ranges (d : Dev) (h a n : Nat) : List (Nat × Nat) :=
  let (db, ds, gb, gs) := d.alloc h
  let clip := fun (base size off : Nat) =>
    let lo := max a base
    let hi := min (a + n) (base + size)
    if lo < hi then [(off + lo - base, off + hi - base)] else []
  clip db (min ds 0x10000000) 0 ++ clip (glyphBase + gb) (min gs 0x1000000) 0x10000000

/-- Layer t's glyph set (R120, R144). -/
def glyphHit (h : Nat) (r : Sparse Word) (t lo hi : Nat) : Bool :=
  let g := tileGeom h r t
  meets lo hi g.glyphs (g.gcount * g.gsz)

/-- R144, R165: the write at BAR2 offsets [lo, hi) is of a kind that squashes the whole window of a head whose line was
composed with the values r: a glyph set, an enabled line table, the sprite table, an enabled sprite's image, the image of an
enabled cursor. -/
def Dev.windowHit (d : Dev) (h : Nat) (r : Sparse Word) (lo hi : Nat) : Bool :=
  let tiles := bit (d.picFeats h) 0
  let lt := eff h r Reg.LT_CTL
  (tiles && (glyphHit h r 0 lo hi || glyphHit h r 1 lo hi))
  || (bit lt 0 && meets lo hi (eff h r Reg.LT_BASE).toNat (8 * min (field lt 28 16) 4096))
  || (bit (eff h r Reg.CUR_CTL) 0 && meets lo hi (eff h r Reg.CUR_IMAGE).toNat 16384)
  || meets lo hi (eff h r Reg.SPR_TABLE).toNat 512
  || (List.range 32).any (fun k =>
        let s := d.sprite h r k
        s.en && decide (s.bpp ≤ 4) && meets lo hi s.image (s.rowBytes * s.h))

/-- R144, R165: the write meets the cell row or the bitmap row that line y reads under the values r. -/
def Dev.rowHit (d : Dev) (h : Nat) (r : Sparse Word) (y lo hi : Nat) : Bool :=
  let tileRow := fun t =>
    let g := tileGeom h r t
    meets lo hi (g.map + 4 * ((cellAt h r t g 0 y).2.1 * g.w)) (4 * g.w)
  let pitch := 64 * effF h r Reg.BM_FMT 31 16
  let sy := y + effF h r Reg.BM_SCROLL 31 16
  let base := (eff h r (if bit (eff h r Reg.HD_BUFSEL) 2 then Reg.BM_BASE1 else Reg.BM_BASE0)).toNat
  (bit (d.picFeats h) 0 && (tileRow 0 || tileRow 1))
  || (decide (sy < effF h r Reg.BM_SIZE 31 16) && meets lo hi (base + sy * pitch) pitch)

/-- Badge bytes of a head (R133, R144): its descriptors, or the image of an enabled badge. -/
def Dev.badgeHit (d : Dev) (h a n : Nat) : Bool :=
  meets a (a + n) (glyphBase + 0x2FF0000 + h * 64) 64
  || (List.range 4).any (fun j =>
      let b := d.badge h j
      b.badgeOn && meets a (a + n) (glyphBase + b.image) (b.rowBytes * b.h))

/-! ### Lines composed after their sample instant (R39, R41) -/

/-- FENCE consistency's words for the next line of a frame (R162, R40): the head's own, or those latched by the PRESENT that
R40 selects for it. -/
def Dev.composeRegs (d : Dev) (h f : Nat) : Sparse Word :=
  let x := d.head h
  if !x.fence || d.afterChange h f then d.ownRegs h
  else
    let later := (x.presents.filter (fun p => decide (x.fenceAt ≤ p.stamp ∧ p.stamp < d.startFt h f))).getLast?
    match (if x.cur = some f then none else later), x.shown with
    | some p, _ => p.regs
    | none, some p => p.regs
    | none, none => d.ownRegs h

/-- Line l of frame f composed now (R162). -/
def Dev.composeBuf (d : Dev) (h f l : Nat) : DueLine :=
  let c := d.composeLine h (d.composeRegs h f) (d.hactive h) f l
  let bs := ((List.range 4).map (d.badge h)).filter (fun b => b.badgeOn)
  { buf := { frame := f, line := l, pixels := c.pixels, regs := c.regs, badges := bs.map (fun b => (b.x, b.y, b.w, b.h))
             final := false }
    flags := c.flags, hits := c.hits }

/-- The lines of the frame in progress that a head has still to compose and whose sample instants have passed. -/
def Dev.overdue (d : Dev) (h : Nat) : List (Nat × Nat) :=
  let x := d.head h
  let (f, l) := x.next
  if x.cur ≠ some f then []
  else (((List.range (d.vactive h - l)).map (fun i => (f, l + i))).takeWhile (fun e => decide (d.sampleFt h e.1 e.2 ≤ d.ft))).filter
    (fun e => !x.due.any (fun b => b.buf.frame == e.1 && b.buf.line == e.2))

/-- Before a write takes effect: what every overdue line shows is what stands now (R39): a line shows no write committed at
or after its sample instant, whenever it is composed. -/
def Dev.keepDue (d : Dev) : Dev :=
  forL (d.heads.map (fun e => e.1)) (fun h d =>
    let new := if d.runs h then (d.overdue h).map (fun e => d.composeBuf h e.1 e.2) else []
    if new.isEmpty then d else d.onHead h (fun x => { x with due := x.due ++ new })) d

/-! ### FENCE violations (R87, R88, R143) -/

/-- A host layer is composed on a line in R143's sense. -/
def layerComposed (h : Nat) (r : Sparse Word) (l : Nat) : Bool :=
  bit (eff h r Reg.HD_LAYER_CTL) l && (List.range 4).any (fun s => slotOf h r s == l) && decide (winMode h r l ≠ 3)

/-- R143: active line y, with effective values r, reads bytes at BAR2 offsets [lo, hi). -/
def Dev.readHit (d : Dev) (h : Nat) (r : Sparse Word) (y lo hi : Nat) : Bool :=
  let tile := fun t =>
    let g := tileGeom h r t
    layerComposed h r t && (meets lo hi g.map (4 * g.w * g.h) || meets lo hi g.glyphs (g.gcount * g.gsz))
  let pitch := 64 * effF h r Reg.BM_FMT 31 16
  let sy := y + effF h r Reg.BM_SCROLL 31 16
  let base := (eff h r (if bit (eff h r Reg.HD_BUFSEL) 2 then Reg.BM_BASE1 else Reg.BM_BASE0)).toNat
  let lt := eff h r Reg.LT_CTL
  tile 0 || tile 1
  || (layerComposed h r 2 && bmLive h r && decide (sy < effF h r Reg.BM_SIZE 31 16) && meets lo hi (base + sy * pitch) pitch)
  || (layerComposed h r 3 &&
      (meets lo hi (eff h r Reg.SPR_TABLE).toNat 512
       || (List.range 32).any (fun k =>
            let s := d.sprite h r k
            s.en && decide (s.bpp ≤ 4) && meets lo hi s.image (s.rowBytes * s.h))))
  || (bit (eff h r Reg.CUR_CTL) 0 && meets lo hi (eff h r Reg.CUR_IMAGE).toNat 16384)
  || (bit lt 0 && meets lo hi (eff h r Reg.LT_BASE).toNat (8 * min (field lt 28 16) 4096))

/-- The BAR2 ranges of a write's parts. -/
def Dev.partRanges (d : Dev) (h : Nat) (parts : List (Nat × Nat)) : List (Nat × Nat) :=
  parts.flatMap (fun (a, n) => d.bar2Ranges h a n)

/-- R143: a write's bytes meet the read set of a frame that shows the given words. -/
def Dev.inReadSet (d : Dev) (h : Nat) (own : Sparse Word) (parts : List (Nat × Nat)) : Bool :=
  (d.partRanges h parts).any (fun (lo, hi) =>
    (List.range (d.vactive h)).any (fun y => d.readHit h (d.effective h own y).regs y lo hi))

/-- The last active line of the frame in progress has not finished composition (R87). The lines that a withheld frame
abandons count as finished from the last one's sample instant on, as in R88's example (assumption log 21). -/
def Dev.unfinished (d : Dev) (h f : Nat) : Bool :=
  decide ((d.head h).next.1 ≤ f)
    || (isV h && (d.head h).spoiled == some f && decide (d.ft < d.sampleFt h f (d.vactive h - 1)))

/-- A violating write counted (R87, R88): FENCE_VIOL of the lane page; of the function too when the host made it. -/
def Dev.countViolation (d : Dev) (h : Nat) (byHost : Bool) : Dev :=
  if isV h then
    let d := (d.add32 (pgHP h) Reg.HP_FENCE_VIOL 1).irq (pgHP h) 9
    if byHost then d.fnEvent h 0 3 else d
  else d

/-- Frame f, in progress, violated (R87, R88): a virtual head's is withheld; a physical head's counts as not complete. -/
def Dev.violate (d : Dev) (h f : Nat) : Dev :=
  if (d.head h).spoiled = some f then d
  else if isV h then d.withhold h f false
  else d.onHead h (fun x => { x with spoiled := some f })

/-- R87: judge a write against the frame in progress. -/
def Dev.judge (d : Dev) (h : Nat) (w : FenceWr) : Dev × Bool :=
  let x := d.head h
  match x.cur, x.shown with
  | some f, some p =>
    if d.runs h && x.fence && d.unfinished h f && decide (p.stamp < w.stamp) && d.inReadSet h p.regs w.parts then
      let d := d.violate h f
      (if w.counted then d else d.countViolation h w.byHost, true)
    else (d, false)
  | _, _ => (d, false)

/-- A write to memory under FENCE consistency remembered and judged (R87, R88). -/
def Dev.fenceWrite (d : Dev) (h : Nat) (parts : List (Nat × Nat)) (c : Nat) (byHost : Bool) : Dev :=
  let w : FenceWr := { stamp := c, parts := parts, byHost := byHost, counted := false }
  let (d, hit) := d.judge h w
  d.onHead h (fun x => { x with writes := x.writes ++ [{ w with counted := hit }] })

/-- R87: at a frame's start the writes since the PRESENT that it shows are judged; older ones can violate no more. -/
def Dev.judgeAll (d : Dev) (h : Nat) : Dev :=
  let x := d.head h
  let s := match x.shown with
    | some p => p.stamp
    | none => 0
  let ws := x.writes.filter (fun w => decide (s < w.stamp))
  let d := d.setHead h { x with writes := [] }
  let vals := ws.map (fun w => match x.shown with
    | some p => d.inReadSet h p.regs w.parts
    | none => false)
  let d := if vals.any id then d.violate h (x.cur.getD 0) else d
  let d := forL (ws.zip vals) (fun (w, v) d => if v && !w.counted then d.countViolation h w.byHost else d) d
  d.onHead h (fun x => { x with writes := (ws.zip vals).map (fun (w, v) => { w with counted := w.counted || v }) })

/-! ### Writes that heads may read -/

/-- What the encoder remembers of a memory write (R286, R290, R302): its bytes; glyph bits are dirty where glyph bytes
change, those of the present words or of those that FENCE consistency shows. -/
def Dev.encNote (d : Dev) (h : Nat) (parts : List (Nat × Nat)) (c : Nat) (changed : Bool) : Dev :=
  let sets := d.ownRegs h :: ((d.head h).shown.toList.map (fun p => p.regs))
  forL (d.partRanges h parts) (fun (lo, hi) d =>
    let d := d.onHead h (fun x => { x with layerWr := x.layerWr ++ [(1, c, lo, hi)] })
    forN 2 (fun t d =>
      if changed && sets.any (fun r => glyphHit h r t lo hi) then
        d.onHead h (fun x => { x with glyphDirty := x.glyphDirty ||| 2 ^ t }) else d) d) d

/-- A memory write reported to a head's run-ahead unit (R144, R164, R165): its ranges of physical addresses. In FENCE
consistency it squashes only lines composed for frames that follow a CONSIST change still to take effect, which latch no
state yet (R41, R157; assumption log 21). -/
def Dev.reportMem (d : Dev) (h : Nat) (parts : List (Nat × Nat)) (c : Nat) (byHost changed : Bool) : Dev :=
  let x := d.head h
  let d := if isV h && !x.frames.isEmpty || isV h && d.live h then d.encNote h parts c changed else d
  if !d.live h && !x.fence then d
  else
    let d := if parts.any (fun (a, n) => d.badgeHit h a n) then d.squashWindow h c else d
    let rs := d.partRanges h parts
    if rs.isEmpty then d
    else
      let open_ := fun (b : LineBuf) => !x.fence || d.afterChange h b.frame
      let whole := x.lines.any (fun b => !b.final && open_ b && rs.any (fun (lo, hi) => d.windowHit h b.regs lo hi))
      let d := if x.fence then d.fenceWrite h parts c byHost else d
      if whole then d.squash h c open_
      else d.squash h c (fun b => open_ b && rs.any (fun (lo, hi) => d.rowHit h b.regs b.line lo hi))

/-- The heads that hold anything. -/
def Dev.someHeads (d : Dev) : List Nat := d.heads.map (fun e => e.1)

/-- A migration's precopy sees every write to the allocations of its head Va (R164, R410): the 4 KiB pages by BAR2 offset. -/
def Dev.noteDirty (d : Dev) (a n : Nat) : Dev :=
  forN 8 (fun k d =>
    let m := spGet (fun _ => ({} : Mig)) d.fab.migs k
    if m.st = .precopy ∨ m.st = .converged then
      let pages := (d.bar2Ranges (m.goSrc.toNat % 128) a n).flatMap (fun (lo, hi) =>
        (List.range (ceilDiv hi 4096 - lo / 4096)).map (fun i => lo / 4096 + i))
      let new := pages.filter (fun x => !m.dirty.contains x)
      if new.isEmpty then d
      else { d with fab := { d.fab with migs := spPut (fun _ => {}) d.fab.migs k { m with dirty := m.dirty ++ new } } }
    else d) d

/-- A memory write stored and reported to every head (R164: any agent but host ingress), stamped now. -/
def Dev.storeBy (d : Dev) (a : Nat) (bs : List Byte) : Dev :=
  let d := d.keepDue
  let changed := decide (d.bytes a bs.length ≠ bs)
  let c := d.ft
  forL d.someHeads (fun h d => d.reportMem h [(a, bs.length)] c false changed) ((d.store a bs).noteDirty a bs.length)

/-- A host's memory write, in parts with their bytes: reported to its own head (R114), and to every head for badge
bytes (R165). -/
def Dev.storeHost (d : Dev) (n : Nat) (l : List (Nat × List Byte)) : Dev :=
  let d := d.keepDue
  let changed := l.any (fun (a, bs) => decide (d.bytes a bs.length ≠ bs))
  let c := d.ft
  let parts := l.map (fun (a, bs) => (a, bs.length))
  let d := forL l (fun (a, bs) d => (d.store a bs).noteDirty a bs.length) d
  let d := d.reportMem n parts c true changed
  forL (d.someHeads.filter (fun h => h != n)) (fun h d =>
    if d.live h && parts.any (fun (a, k) => d.badgeHit h a k) then d.squashWindow h c else d) d

/-- A write to a word of a head page reported (R144, R165): layer and palette words squash the whole window in BEAM
consistency. The encoder remembers it (R286), and that a glyph base or a glyph's shape changed (R302). -/
def Dev.reportReg (d : Dev) (h off : Nat) (old : Word) : Dev :=
  let layer := decide (0x070 ≤ off ∧ off ≤ 0x0E0) || decide (0x800 ≤ off ∧ off ≤ 0xFFC)
  if !layer then d
  else
    let c := d.ft
    let x := d.head h
    let d := if isV h then d.onHead h (fun x => { x with layerWr := x.layerWr ++ [(if off < 0x800 then 0 else if off < 0xC00 then 3 else 4, c, 0, 0)] }) else d
    let diff := old ^^^ d.rd (pgHD h) off
    let dirty := fun t => (off = Reg.TA_GEOM + tOff t ∧ field diff 31 19 ≠ 0) ∨
      (off = Reg.TA_CELL + tOff t ∧ diff &&& 0x37FF ≠ 0) ∨ (off = Reg.TA_GLYPH + tOff t ∧ diff ≠ 0)
    let d := if dirty 0 then d.onHead h (fun x => { x with glyphDirty := x.glyphDirty ||| 1 }) else d
    let d := if dirty 1 then d.onHead h (fun x => { x with glyphDirty := x.glyphDirty ||| 2 }) else d
    if d.live h then d.squash h c (fun b => !x.fence || d.afterChange h b.frame) else d

end Sys2Proof.Machine
end

