-- ==== Sys2Proof/Machine/Acct.lean ====
section
/-! DEFINITION. Accounting: snapshots of every term of a page's identities (R49 to R51), and writes to ACCT_CTL. -/
namespace Sys2Proof.Machine

/-- Two 16-bit terms in one snapshot word. -/
def Dev.snapPair (d : Dev) (p dst a b : Nat) : Dev := d.wrN p dst (d.rdF p a 15 0 + d.rdF p b 15 0 * 65536)

/-- The copy of the audio counters (R370): 512 entries of 32 bytes. -/
def Dev.snapAudio (d : Dev) : Dev := d.puts (audioBase + 0xF4000) (d.bytes (audioBase + 0xF0000) 16384)

/-- The copy of the log counters (R416): 1,088 entries of 64 bytes, to LOG_AREA + 128 KiB. -/
def Dev.snapLog (d : Dev) : Dev := d.storeArea (d.logArea + 0x20000) (d.bytes d.logArea (1088 * 64))

/-- Every term copied into its snapshot register (R49, R51). -/
def Dev.snapTerms (d : Dev) (p : Nat) : Dev :=
  match pageKind p with
  | .sys => d.snapPair p Reg.ING_SH_SNAP Reg.ING_SH_USED Reg.ING_SH_FREE
  | .hp => (d.snapPair p Reg.HP_SNAP_FLOOR Reg.HP_FLOOR_USED Reg.HP_FLOOR_FREE).copyWords p Reg.IN_ACCEPTED Reg.IN_SNAP 10
  | .compose => d.snapPair p Reg.TOK_SNAP Reg.TOK_HELD Reg.TOK_FREE
  | .lead => d.snapPair p Reg.LTOK_SNAP Reg.LTOK_HELD Reg.LTOK_FREE
  | .vhead =>
    let d := d.wrF p Reg.ENC_PEND 9 8 (d.head (p - 0x100)).frames.length
    forN 4 (fun i d => d.wr p (Reg.ENC_SNAPS + 4 * i) (d.rd p (Reg.ENC_COMPOSED + 8 * i))) d
  | .aud => d.snapAudio
  | .log => d.snapLog
  | .al => d.copyWords p Reg.AL_CRED Reg.AL_CSNAP 24
  | .dma => forN 16 (fun c d => d.copyWords p (Reg.CH_COUNT + 64 * c) (Reg.CH_COUNT + 64 * c + 0x20) 8) d
  | _ => d

/-- ACCT_CTL.SNAP (R49, R50). -/
def Dev.snap (d : Dev) (p : Nat) : Dev :=
  match acctAt (pageKind p) with
  | none => d
  | some (_, stat) => (d.snapTerms p).snapCount p stat

/-! ### The checks (R47) -/

/-- The sum of a word over the pages lo to hi − 1; a word that is not listed reads 0 there. -/
def Dev.sumWords (d : Dev) (lo hi off : Nat) : Nat :=
  ((d.regs.filter (fun e => decide (lo ≤ e.1 / 4096 ∧ e.1 / 4096 < hi ∧ e.1 % 4096 = off))).map (fun e => e.2.toNat)).sum

/-- The first 64-bit counter of an entry equals the sum of the k that follow, modulo 2^64 (R46). -/
def Dev.entryHolds (d : Dev) (a k : Nat) : Bool :=
  decide (d.num a 8 = ((List.range k).map (fun j => d.num (a + 8 + 8 * j) 8)).sum % 2 ^ 64)

/-- The entries of a counter table that hold anything each keep their identity; the others are zero. -/
def Dev.tableHolds (d : Dev) (base lo n size k : Nat) : Bool :=
  (((d.mem.map (fun c => c.1)).filter (fun a => decide (base + lo * size ≤ a ∧ a < base + (lo + n) * size))).map
    (fun a => (a - base) / size)).eraseDups.all (fun e => d.entryHolds (base + e * size) k)

/-- Identity i of a page holds (R45, R101, R103, R177, R178, R311, R370, R383, R416, R495). -/
def Dev.identityHolds (d : Dev) (p i : Nat) : Bool :=
  let c64 := fun (off k : Nat) => decide (d.rd64 p off = ((List.range k).map (fun j => d.rd64 p (off + 8 + 8 * j))).sum % 2 ^ 64)
  match pageKind p with
  | .sys => decide (d.rdN p Reg.ING_SH_TOTAL = d.sumWords 0x080 0x100 Reg.HP_SHARE_USED + d.rdN p Reg.ING_SH_FREE)
  | .hp => if i = 0 then decide (d.rdN p Reg.HP_FLOOR_TOTAL = d.rdN p Reg.HP_FLOOR_USED + d.rdN p Reg.HP_FLOOR_FREE)
    else c64 Reg.IN_ACCEPTED 4
  | .compose => decide (d.rdN p Reg.TOK_TOTAL = (d.heads.map (fun e => e.2.scan)).sum + d.rdN p Reg.TOK_FREE)
  | .lead => decide (d.rdN p Reg.LTOK_TOTAL = (d.heads.map (fun e => e.2.line)).sum + d.rdN p Reg.LTOK_FREE)
  | .vhead => decide (d.rd64 p Reg.ENC_COMPOSED = (d.rd64 p Reg.ENC_SENT + d.rd64 p Reg.ENC_WITHHELD + d.rd64 p Reg.ENC_SKIPPED
      + (d.head (p - 0x100)).frames.length) % 2 ^ 64)
  | .aud => d.tableHolds (audioBase + 0xF0000) (32 * i) 32 32 3
  | .log => d.tableHolds d.logArea (68 * i) 68 64 4
  | .al =>
    let w := fun k => d.rd p (Reg.AL_CRED + 16 * (i % 8) + 4 * k)
    if i < 8 then decide (field (w 0) 15 0 = field (w 1) 15 0 + field (w 1) 31 16)
    else decide (field (w 0) 31 16 = field (w 2) 15 0 + field (w 2) 31 16 + field (w 3) 15 0)
  | .dma => c64 (Reg.CH_COUNT + 64 * i) 3
  | _ => true

/-- The identity checks of one cycle (R47): every page that owns identities evaluates them while CHK_EN is 1. A page of which
no word differs from its reset value holds them all. -/
def Dev.acctCheck (d : Dev) : Dev :=
  let pages := ((pgAUD :: pgLOG :: d.regs.map (fun e => e.1 / 4096)).filter (fun p => (acctAt (pageKind p)).isSome)).eraseDups
  forL pages (fun p d =>
    match acctAt (pageKind p) with
    | none => d
    | some (ctl, stat) =>
      if d.rdB p ctl 1 then
        forN 16 (fun i d => if hasIdentity (pageKind p) i && !d.identityHolds p i then d.acctErr p stat i false else d) d
      else d) d

/-- A write to ACCT_CTL (R49): CHK_EN and INJ_SEL are stored; SNAP and INJECT act once. -/
def Dev.acctWrite (d : Dev) (p off : Nat) (v : Word) : Dev :=
  let d := d.regStore p off v
  let d := if bit v 0 then d.snap p else d
  if bit v 2 then d.inject p else d

end Sys2Proof.Machine
end

