-- ==== Sys2Proof/Machine/Prof.lean ====
section
/-! DEFINITION. Profiles (R552, R553): blobs in MRAM, their check, their items, and what applying one writes. Values of items
are read as 32-bit words in the order in which R553 lists them (assumption log 35). -/
namespace Sys2Proof.Machine

/-- n bytes of MRAM from an offset. -/
def Dev.mramBytes (d : Dev) (off n : Nat) : List Byte := (List.range n).map (fun i => d.mramByte (off + i))

/-- Where profile k lies in MRAM (R552). -/
def profOff (k : Nat) : Nat := 0x100000 + k * 0x100000

/-- LEN within R552's limits. -/
def profLenOk (n : Nat) : Bool := decide (n % 4 = 0) && decide (256 ≤ n) && decide (n ≤ 1048576)

/-- Slot k's blob, as long as its LEN says; empty where LEN is not allowed. -/
def Dev.profBlob (d : Dev) (k : Nat) : List Byte :=
  let n := ofLe (d.mramBytes (profOff k + 4) 4)
  if profLenOk n then d.mramBytes (profOff k) n else []

/-- The items in an area (R553); none where one runs past its end. fuel: at least the area's length. -/
def profItems : Nat → List Byte → Option (List (Nat × List Byte))
  | _, [] => some []
  | 0, _ => none
  | n + 1, bs =>
    let len := ofLe ((bs.drop 2).take 2)
    let pad := ceilDiv len 4 * 4
    if bs.length < 4 + pad then none
    else (profItems n (bs.drop (4 + pad))).map (fun l => (ofLe (bs.take 2), (bs.drop 4).take len) :: l)

/-- The items of a blob. -/
def blobItems (b : List Byte) : Option (List (Nat × List Byte)) :=
  let area := (b.drop 64).take (b.length - 192)
  profItems area.length area

/-- A blob is valid (R552). -/
def blobOk (b : List Byte) : Bool :=
  let n := b.length
  let key := (b.drop (n - 128)).take 64
  profLenOk n && ofLe (b.take 2) == 1 && ofLe ((b.drop 4).take 4) == n && (blobItems b).isSome
    && Config.sm2Verify key (b.take (n - 64)) (b.drop (n - 64))
    && (Config.sm3 key).take 32 == Config.otpOwnerHash.take 32

/-- Word i of an item's value. -/
def itemWord (v : List Byte) (i : Nat) : Nat := ofLe ((v.drop (4 * i)).take 4)

/-- The value of the last item of a type (R553); LANE items (3) are told apart by lane. -/
def blobItem (b : List Byte) (type : Nat) (lane : Option Nat) : Option (List Byte) :=
  (((blobItems b).getD []).reverse.find? (fun e => e.1 == type &&
    match lane with
    | none => true
    | some n => (e.2.headD 0).toNat == n)).map (fun e => e.2)

/-- What a profile says at chip scope (R552, R553): FAB_CTL, FAB_OFFER_LO, address, ROOT, TIME_ACQ_WAIT, features of
management taken away, tamper bits, fabric ID, anchor. -/
structure ProfChip where
  fabCtl : Nat := 0
  offer : Nat := 0
  addr : Option Nat := none
  root : Bool := false
  acqWait : Nat := 300
  mgmtMask : Nat := 0
  tamper : Nat := 0
  fabricId : Nat := 0
  anchor : List Byte := []
  deriving DecidableEq, Repr

/-- A blob's chip-scope items; of no profile (an empty blob), the reset values. -/
def profChip (b : List Byte) : ProfChip :=
  let c : ProfChip := match blobItem b 1 none with
    | some v => { fabCtl := itemWord v 0 % 4, offer := itemWord v 1, addr := some (itemWord v 2 % 4096)
                  root := itemWord v 3 % 2 == 1, acqWait := itemWord v 4 % 65536 }
    | none => {}
  { c with mgmtMask := ((blobItem b 6 none).map (fun v => itemWord v 0)).getD 0
           tamper := ((blobItem b 7 none).map (fun v => itemWord v 0 % 16)).getD 0
           fabricId := ofLe ((b.drop 16).take 8), anchor := (b.drop 24).take 32 }

/-- What a profile says of every virtual head: HOST_FEAT masks, ROM_IMAGE, GOP_MODES. -/
def profHeads (b : List Byte) : List (Option (List Byte)) := [blobItem b 2 none, blobItem b 4 none, blobItem b 5 none]

/-- What a profile says of lane n: HP_CTL's LINK_EN and MAX_SPEED, HB_SUBSYS (R60, R553). -/
def profLane (b : List Byte) (n : Nat) : Nat × Nat :=
  match blobItem b 3 (some n) with
  | some v => (itemWord v 1 % 8, itemWord v 2)
  | none => (7, 0x01281E4C)

/-- Features that the blob takes from function f's offer (R553). -/
def profMask (b : List Byte) (f : Nat) : Nat := ((blobItem b 2 none).map (fun v => itemWord v f)).getD 0

/-- The expansion ROM's flash offset and length. -/
def profRom (b : List Byte) : Nat × Nat := ((blobItem b 4 none).map (fun v => (itemWord v 0, itemWord v 1))).getD (0, 0)

/-- A field that LOCK has frozen (R27). -/
def Dev.frozenField (d : Dev) (p off : Nat) : Bool :=
  d.isLocked p && (match rowAt p off with | some r => decide (r.rwl ≠ 0) | none => false)

/-- A field of a profile written where it changes; a locked one stays (R27). -/
def Dev.wrItem (d : Dev) (change : Bool) (p off v : Nat) : Dev := if change && !d.frozenField p off then d.wrN p off v else d

/-- Chip-scope fields written: those that differ from a profile before (R555), or all of them (R552). -/
def Dev.applyChip (d : Dev) (old : Option ProfChip) (c : ProfChip) : Dev :=
  let new := fun (q : ProfChip → Bool) => match old with
    | some o => q o
    | none => true
  let d := d.wrItem (new (fun o => o.fabCtl != c.fabCtl)) pgFAB Reg.FAB_CTL c.fabCtl
  let d := d.wrItem (new (fun o => o.offer != c.offer)) pgFAB Reg.FAB_OFFER_LO (c.offer % 32)
  let d := d.wrItem (new (fun o => o.root != c.root)) pgTIME Reg.TIME_CTL c.root.toNat
  let d := d.wrItem (new (fun o => o.acqWait != c.acqWait)) pgTIME Reg.TIME_ACQ_WAIT c.acqWait
  let d := (d.wr64 pgFAB Reg.FAB_ID_LO c.fabricId).wr pgSYS Reg.MF_OFFER_LO (word 0xF &&& ~~~ (word c.mgmtMask))
  let d := d.wr pgSEC Reg.SEC_TAMP_EN (d.rd pgSEC Reg.SEC_TAMP_EN ||| word c.tamper)
  { d with sys := { d.sys with anchor := c.anchor, profAddr := c.addr } }

/-- Fields of lane n and head Vn written, likewise. -/
def Dev.applyLane (d : Dev) (old : Option (List Byte)) (b : List Byte) (n : Nat) : Dev :=
  let (ctl, sub) := profLane b n
  let new := fun (q : Nat × Nat → Bool) => match old with
    | some a => q (profLane a n)
    | none => true
  let d := d.wrItem (new (fun o => o.1 != ctl)) (pgHP n) Reg.HP_CTL (putField (d.rd (pgHP n) Reg.HP_CTL) 2 0 ctl).toNat
  let d := d.wrItem (new (fun o => o.2 != sub)) (pgHD n) Reg.HB_SUBSYS sub
  forN 3 (fun f d => d.wr (pgFn n f) Reg.HF_DEV_FEAT_LO (word (devFeat f) &&& ~~~ (word (profMask b f)))) d

/-- A whole profile applied, as the boot ROM does (R552): fields of no profile are at their reset values. -/
def Dev.applyProfile (d : Dev) (b : List Byte) : Dev :=
  let d := d.applyChip none (profChip b)
  forN 128 (fun n d => d.applyLane none b n) { d with sys := { d.sys with rom := profRom b } }

/-- The active profile's blob; empty with none (R576). -/
def Dev.activeBlob (d : Dev) : List Byte :=
  if d.rdB pgPROF Reg.PROF_ACTIVE 3 then [] else d.profBlob (d.rdF pgPROF Reg.PROF_ACTIVE 1 0)

end Sys2Proof.Machine
end

