-- ==== Sys2Proof/Machine/Frames.lean ====
section
/-! DEFINITION. The life of a head: admission and stop (R151 to R157), frame starts, composition, finality, the taking of
lines, late and incomplete frames (R161 to R171), and the frame's place in the encoder (R280, R311, R317). -/
namespace Sys2Proof.Machine

/-- The console name of a virtual head (R31, R107). -/
def Dev.nameOf (d : Dev) (h : Nat) : Nat := d.rd64 (pgHD h) Reg.HB_NAME_LO
/-- HB_STAT.NAME_STATE (R107). -/
def Dev.nameState (d : Dev) (h : Nat) : Nat := d.rdF (pgHD h) Reg.HB_STAT 1 0
/-- The name of the console that a head serves: 0 for none (R31). A name serves once it is bound (R108). -/
def Dev.console (d : Dev) (h : Nat) : Nat := if isV h && d.nameState h = 2 then d.nameOf h else 0

/-- The mirror slots of a head's console, in ascending order (R302, R314). -/
def Dev.slotsOf (d : Dev) (h : Nat) : List (Nat × Mirror) :=
  d.enc.mirrors.filterMap (fun e => match e.2 with
    | some m => if m.head = h then some (e.1, m) else none
    | none => none)

/-- HD_MODE.ENABLE as it reads. -/
def Dev.setEnable (d : Dev) (h : Nat) (b : Bool) : Dev := d.wrB (pgHD h) Reg.HD_MODE 2 b

/-! ### Admission (R151 to R154) -/

/-- R151: the timing lies within the limits. -/
def Dev.timingOk (d : Dev) (h : Nat) : Bool :=
  let ha := d.hactive h
  let va := d.vactive h
  let ht := d.htotal h
  let vt := d.vtotal h
  let p := d.fperiod h
  let (hm, vm, rate) := if isV h then (2560, 1600, 270) else (3840, 2160, 540)
  decide (640 ≤ ha ∧ ha ≤ hm ∧ 400 ≤ va ∧ va ≤ vm ∧ ha + 80 ≤ ht ∧ ht ≤ 4095 ∧ va + 6 ≤ vt ∧ vt ≤ 4095
    ∧ 35791394 ≤ p ∧ p ≤ 178956971 ∧ ht * vt * 2 ^ 32 ≤ rate * 1000000 * p)

/-- R153: the scan tokens a head's timing needs; none when it cannot be computed. -/
def Dev.scanNeed (d : Dev) (h : Nat) : Option Nat :=
  if d.fperiod h = 0 then none else some (ceilDiv (d.htotal h * d.vtotal h * 2 ^ 32) (d.fperiod h * 1000000))

/-- R153, R160: line tokens. -/
def Dev.lineNeed (d : Dev) (h : Nat) : Nat := d.leadLines h * (if 2048 < d.hactive h then 2 else 1)

/-- R170: bytes of one output frame. -/
def Dev.outSize (d : Dev) (h : Nat) : Nat := ceilDiv (d.hactive h * d.vactive h * 4) blockBytes * blockBytes

/-- R152's answer to a request. -/
def Dev.admitCode (d : Dev) (h : Nat) (wasStopping : Bool) : Nat :=
  if wasStopping then 6
  else if !d.timingOk h then 2
  else if d.rdN pgCOMPOSE Reg.TOK_FREE < (d.scanNeed h).getD (2 ^ 32) then 3
  else if d.rdN pgLEAD Reg.LTOK_FREE < d.lineNeed h then 4
  else if !isV h && decide ((d.alloc h).2.1 < 2 * d.outSize h) then 5
  else 1

/-- R154: the run's origin and first frame for an admission at commit c. -/
def Dev.runOrigin (d : Dev) (h c : Nat) : Nat × Nat :=
  let a := c + 0x400000
  let p := d.fperiod h
  let o := d.origin h
  let fn := match (d.head h).last with
    | some f => f + 1
    | none => 0
  let keep := ceilDiv (a - o) p
  if o ≠ 0 ∧ o ≤ a ∧ fn ≤ keep then (o, keep) else ((a + 2 ^ 64 - fn * p % 2 ^ 64) % 2 ^ 64, fn)

/-- A head enters a run whose first frame is given: tokens taken, EFF at LEAD_LINES, STATE WAITING (R152, R179). FENCE
consistency that has taken effect stays in effect from run to run (R40; assumption log 21). -/
def Dev.enterRun (d : Dev) (h origin first : Nat) : Dev :=
  let d := d.takeTokens h ((d.scanNeed h).getD 0) (d.lineNeed h)
  let d := d.wr64 (pgHD h) Reg.HD_ORIGIN_LO origin
  let d := (d.setEnable h true).wrB (pgHD h) Reg.HD_MODE 4 (!d.clock.locked)
  let e := d.leadLines h
  let fence := decide (d.rdF (pgHD h) Reg.HD_MODE 1 0 = 1)
  d.onHead h (fun x => { x with
    adm := .waiting, eff := e, first := first, cur := none, stopAt := none, lines := [], next := (first, 0)
    high := (first, 0), fin := (first, 0), due := [], sq := 0
    consAt := if x.consAt.isNone && fence != x.fence then some d.ft else x.consAt
    shownOut := false, written := 0, spoiled := none })

/-- R152: the answer to an admission request that committed at c. -/
def Dev.admitAnswer (d : Dev) (h : Nat) (stopping : Bool) (c : Nat) : Dev :=
    let code := d.admitCode h stopping
    let need := match d.scanNeed h with
      | some n => min n 0xFFFF
      | none => 0xFFFF
    let (o, f) := d.runOrigin h c
    let d := d.onHead h (fun x => { x with code := code, need := need })
    let d := d.irq (pgHD h) 0
    let d := if isV h then d.fnEvent h 0 4 else d
    if code = 1 then d.enterRun h o f
    else (d.setEnable h (decide ((d.head h).reqAt ≠ []))).irq pgCOMPOSE 0

/-- R152: a write of 1 to ENABLE. -/
def Dev.requestAdmit (d : Dev) (h : Nat) : Dev :=
  let x := d.head h
  let d := d.setEnable h true
  if x.adm = .off ∨ x.adm = .stopping then
    d.setHead h { x with reqAt := x.reqAt ++ [(x.adm == .stopping, d.ft, d.cyc)] }
  else d

/-- A head of a lower page index has an unanswered request that committed in the same PCLK cycle (R152). -/
def Dev.earlierAsk (d : Dev) (h cyc : Nat) : Bool :=
  d.heads.any (fun e => decide (e.1 < h) && (match e.2.reqAt with
    | r :: _ => r.2.2 == cyc
    | [] => false))

/-- ADMIT (R152): the head's oldest request answered. Requests of one PCLK cycle are answered in ascending page index, so a
lower head's comes first. A request that finds the head no longer OFF acts as a write while it is WAITING or RUNNING does:
it has no effect (assumption log 61). -/
def Dev.answerAdmit (d : Dev) (h : Nat) : Dev :=
  match (d.head h).reqAt with
  | [] => d
  | (stopping, c, cyc) :: rest =>
    if d.earlierAsk h cyc then d.reply .waits
    else
      let d := d.onHead h (fun x => { x with reqAt := rest })
      if stopping || !d.live h then d.admitAnswer h stopping c else d

/-! ### The end of a run (R155, R280) -/

/-- The surface row of a line of a pending frame (R282). -/
def Dev.surfaceRow (d : Dev) (h : Nat) (e : EncFrame) (l : Nat) : Nat :=
  d.rdF pgENC Reg.ENC_AREA 17 0 * 2 ^ 30 + h * 0x4000000 + e.surf * 0x1000000 + l * (e.wd * 4)

/-- A line that the encoder takes (R161, R282): kept for its pending frame and written to the frame's surface, or discarded
(R311). -/
def Dev.encTake (d : Dev) (h : Nat) (b : LineBuf) : Dev :=
  match (d.head h).frames.find? (fun e => e.num == b.frame) with
  | none => d
  | some e =>
    (d.onHead h (fun x => { x with frames := x.frames.map (fun y =>
      if y.num = b.frame then { y with lines := y.lines ++ [b] } else y) })).storeArea (d.surfaceRow h e b.line)
        (b.pixels.flatMap (fun w => leBytes 4 w.toNat))

/-- What a virtual head's run leaves to the encoder (R161, R168, R280): its final lines are taken; a frame whose lines are
not all final has missed a deadline. -/
def Dev.closeRun (d : Dev) (h : Nat) : Dev :=
  if !isV h then d
  else
    let d := forL ((d.head h).lines.takeWhile (fun b => b.final)) (fun b d => d.encTake h b) d
    let x := d.head h
    match x.cur with
    | some f => if x.spoiled ≠ some f ∧ 0 < d.unfinal h f then d.withhold h f true else d
    | none => d

/-- A head leaves its run: tokens back, the window empty; frames pending in the encoder go on, and the region returns with
the last of them (R155, R179, R280). -/
def Dev.leaveRun (d : Dev) (h : Nat) : Dev :=
  let d := (d.closeRun h).dropTokens h
  let d := d.onHead h (fun x => { x with
    adm := .off, eff := 0, cur := none, stopAt := none, lines := [], due := [], sq := 0, written := 0, spoiled := none })
  let d := d.setEnable h false
  if (d.head h).region = 0 then d
  else if (d.head h).frames.isEmpty then d.dropRegion h
  else d.onHead h (fun x => { x with releasing := true })

/-- R155: a write of 0 to ENABLE (assumption log 61). -/
def Dev.disable (d : Dev) (h : Nat) : Dev :=
  let d := d.setEnable h false
  match (d.head h).adm with
  | .waiting => d.leaveRun h
  | .running => d.onHead h (fun x => { x with adm := .stopping, stopAt := some d.ft })
  | _ => d

/-! ### Physical output (R156, R170, R171) -/

/-- Address of output frame k of a physical head (R170). -/
def Dev.outFrame (d : Dev) (h k : Nat) : Nat :=
  let (b, s, _, _) := d.alloc h
  b + s - (2 - k) * d.outSize h

/-- At the start of the next frame: the frame in progress flips if it is complete, else it is repeated (R171). -/
def Dev.endPhysical (d : Dev) (h : Nat) : Dev :=
  let x := d.head h
  match x.cur with
  | none => d
  | some f =>
    let v := d.vactive h
    if x.written = v ∧ x.spoiled ≠ some f then
      (d.setHead h { x with front := 1 - x.front, shownOut := true, written := 0 }).add64 (pgHD h) Reg.FRAMES_COMPLETE 1
    else
      let d := d.setHead h { x with written := 0, spoiled := none, lines := x.lines.filter (fun b => decide (f < b.frame))
                                    next := if x.next.1 ≤ f then (f + 1, 0) else x.next
                                    high := if x.high.1 ≤ f then (f + 1, 0) else x.high
                                    fin := if x.fin.1 ≤ f then (f + 1, 0) else x.fin }
      let d := d.add32 (pgHD h) Reg.REPEATED_FRAMES 1
      ((d.add64 (pgHD h) Reg.LATE_LINES (v - x.written)).add64 (pgHD h) Reg.ABANDONED_LINES (v - x.written)).irq (pgHD h) 3

/-! ### Frame starts -/

/-- R167: at a frame start the count returns to 0; a frame without a squash event lets the window grow by 1. -/
def Dev.growWindow (d : Dev) (h : Nat) : Dev :=
  let lead := d.leadLines h
  d.onHead h (fun x => { x with sq := 0
                                eff := if x.cur.isSome && x.sq = 0 then min lead (x.eff + 1) else x.eff })

/-- R40, R86: the PRESENTs committed before the start instant s of frame f are shown: the last gives PRESENT_DONE; under
FENCE consistency it selects the state, if it committed at or after the instant FENCE took effect. -/
def Dev.showPresent (d : Dev) (h f s : Nat) : Dev :=
  let x := d.head h
  let due := x.presents.filter (fun p => decide (p.stamp < s))
  match due.getLast? with
  | none => d
  | some p =>
    let sel := (due.filter (fun p => decide (x.fenceAt ≤ p.stamp))).getLast?
    let d := d.setHead h { x with presents := x.presents.filter (fun p => decide (s ≤ p.stamp))
                                  shown := if x.fence then (match sel with | some q => some q | none => x.shown) else x.shown }
    if isV h then
      let d := (d.wr (pgFn h 0) Reg.HF_PRESENT_DONE p.tag).wrN (pgFn h 0) Reg.HF_PRESENT_FRAME f
      if d.fnHas h 0 10 then d.fnEvent h 0 1 else d
    else d

/-- R173: UNSYNCED ends at the first frame start after lock; UNSYNC_FRAMES counts the frames that start with it. -/
def Dev.syncFrame (d : Dev) (h : Nat) : Dev :=
  let p := pgHD h
  if !d.rdB p Reg.HD_MODE 4 then d
  else if d.clock.locked ∧ d.rdF pgTIME Reg.TIME_STAT 2 0 ≠ 4 then (d.wrB p Reg.HD_MODE 4 false).irq p 5
  else d.wrF p Reg.WINDOW_HALVINGS 31 16 (d.rdF p Reg.WINDOW_HALVINGS 31 16 + 1)

/-- Hash-store pages that a head's mode needs (R279). -/
def Dev.hashPages (d : Dev) (h : Nat) : Nat :=
  ceilDiv (ceilDiv (d.hactive h) 16 * ceilDiv (d.vactive h) 16 * 8 + d.vactive h * 4) 4096

/-- Frame f skipped at its start: ENC_SKIPPED and ENC_SKIP (R311). -/
def Dev.skipStart (d : Dev) (h : Nat) : Dev := (d.add64 (pgHD h) Reg.ENC_SKIPPED 1).irq (pgHD h) 8

/-- Frame f accepted by the encoder: it is pending, pinned to the active bank (R295, R311, R313). -/
def Dev.pendFrame (d : Dev) (h f s : Nat) : Dev :=
  let stat := d.rd pgDICT Reg.DICT_STAT
  let need := (d.slotsOf h).any (fun e => e.2.needKey)
  d.onHead h (fun x => { x with
    surf := 1 - x.surf
    frames := x.frames ++ [{ num := f, start := s, bank := field stat 2 2, epoch := d.rdN pgDICT Reg.DICT_EPOCH
                             key := need, fence := d.fenceFor h f, wd := d.hactive h, ht := d.vactive h
                             s0 := d.sampleFt h f 0, s1 := d.sampleFt h f (d.vactive h - 1), surf := 1 - x.surf
                             lines := [], coded := none, backlog := 0 }] })

/-- R280, R311, R317: a frame of an encoded head starts. -/
def Dev.encStart (d : Dev) (h f s : Nat) : Dev :=
  let d := d.onHead h (fun x => { x with hctl := d.rd (pgHD h) Reg.ENC_HCTL })
  if d.console h = 0 then d
  else
    let d := d.add64 (pgHD h) Reg.ENC_COMPOSED 1
    let x := d.head h
    if 2 ≤ x.frames.length then d.skipStart h
    else if x.releasing then d.skipStart h
    else
      let pages := d.hashPages h
      if x.region = 0 ∧ d.rdN pgENC Reg.HS_FREE < pages then ((d.skipStart h).irq (pgHD h) 9).irq pgENC 0
      else
        let tw := ceilDiv (d.hactive h) 16
        let th := ceilDiv (d.vactive h) 16
        let d := if x.region = 0 then d.takeRegion h pages (tw * th) (d.vactive h) else d
        let prio := d.rdF (pgHD h) Reg.HD_MODE 11 8
        if prio ≤ 7 ∧ d.rdN pgENC Reg.ENC_SKIP_LVL * (prio + 1) ≤ d.rdN pgENC Reg.ENC_BACKLOG then
          (d.skipStart h).irq pgENC 1
        else d.pendFrame h f s

/-- R155: a stopping head's next frame started at or before the commit that stopped it: that frame is the one completed. -/
def Dev.stopLate (d : Dev) (h : Nat) : Bool :=
  let x := d.head h
  x.adm == .stopping && x.stopAt.any (fun c => decide (d.startFt h (d.nextFrame h) ≤ c))

/-- The frame that a physical head's DisplayPort output scans from now on, line L at the beam's line L (R156, R171): the front
output frame, by its address, or black while none has been shown. -/
def Dev.scanFrame (d : Dev) (h : Nat) : Option Nat :=
  if (d.head h).shownOut then some (d.outFrame h (d.head h).front) else none

/-- The pixel words of line l that the DisplayPort output sends (R110, R171). -/
def Dev.scanLine (d : Dev) (h l : Nat) : List Nat :=
  (List.range (d.hactive h)).map (fun x => match d.scanFrame h with
    | some a => d.num (a + (l * d.hactive h + x) * 4) 4 % 2 ^ 24
    | none => 0)

/-- An acknowledged cut-over stops the head before this frame (R34, R410). -/
def Dev.cutBefore (d : Dev) (h f : Nat) : Bool :=
  d.fab.migs.any (fun e => decide (e.1 < 8) && e.2.st == .cutover && e.2.acked && e.2.goSrc.toNat % 128 == h && decide (e.2.frame ≤ f))

/-- The start instant of a head's next frame passes (R150, R149, R174, R175). No head runs before fabric time does. -/
def Dev.frameStart (d : Dev) (h : Nat) : Dev :=
  let x := d.head h
  if ¬(x.adm = .waiting ∨ x.adm = .running ∨ d.stopLate h) ∨ x.reserved ≠ 0 ∨ !d.clock.started ∨ (isV h && d.cutBefore h (d.nextFrame h)) then d
  else
    let f := d.nextFrame h
    let s := d.startFt h f
    let d := d.toFt s
    let d := if isV h then d else d.endPhysical h
    let d := if isV h then d else d.out (.video h (d.scanFrame h))
    let d := d.growWindow h
    let d := d.onHead h (fun x => { x with
        adm := if x.adm = .stopping then .stopping else .running, cur := some f, last := some f, spoiled := none })
    let d := (d.add64 (pgHD h) Reg.FRAMES_STARTED 1).irq (pgHD h) 6
    let d := ((d.syncFrame h).showPresent h f s).judgeAll h
    let d := if (d.head h).frames.isEmpty then
        d.onHead h (fun x => { x with layerWr := x.layerWr.filter (fun w => decide (s ≤ w.2.1)) }) else d
    if isV h then d.encStart h f s else d

/-- A stopping head stops at the start instant of the frame after the one in progress (R155). -/
def Dev.headStop (d : Dev) (h : Nat) : Dev :=
  let x := d.head h
  if x.adm ≠ .stopping ∨ d.stopLate h then d
  else
    let d := d.toFt (d.startFt h (d.nextFrame h))
    let d := if isV h then d else d.endPhysical h
    d.leaveRun h

/-! ### Consistency (R40, R157, R165) -/

/-- HD_MODE.CONSIST written (R148, R157, R165): 2 and 3 leave it unchanged. -/
def Dev.consistWrite (d : Dev) (h v : Nat) : Dev :=
  let old := d.rdF (pgHD h) Reg.HD_MODE 1 0
  if 2 ≤ v ∨ v = old then d
  else
    let d := d.wrF (pgHD h) Reg.HD_MODE 1 0 v
    (d.onHead h (fun x => { x with consAt := some d.ft })).squashWindow h d.ft

/-- A new consistency mode takes effect at a frame start instant (R40, R157). -/
def Dev.consistEffect (d : Dev) (h : Nat) : Dev :=
  let x := d.head h
  match x.consAt with
  | none => d
  | some c =>
    if ¬(x.adm = .waiting ∨ x.adm = .running ∨ d.stopLate h) then d
    else
      let f := d.consistFrame h c
      let s := d.startFt h f
      let d := d.toFt s
      let fence := d.rdF (pgHD h) Reg.HD_MODE 1 0 = 1
      let own := d.ownRegs h
      d.onHead h (fun x => { x with
        consAt := none, fence := fence, fenceAt := s, writes := []
        shown := if fence then some { tag := 0, stamp := s, regs := own } else none })

/-! ### Composition, finality, taking (R161 to R163) -/

/-- HD_LSTAT flags set by a composed line (R117, R128, R175). -/
def Dev.lstat (d : Dev) (h flags line : Nat) : Dev :=
  let old := d.rd (pgHD h) Reg.HD_LSTAT
  let d := if flags = 0 then d else d.setBits (pgHD h) Reg.HD_LSTAT (word flags)
  let d := if flags.testBit 0 then d.wrF (pgHD h) Reg.HD_LSTAT 31 16 line else d
  if word flags &&& ~~~ old = 0 then d else d.irq (pgHD h) 7

/-- A head's next line is a recomposition that waits for a composer (R159, R166). -/
def HeadSt.again (x : HeadSt) : Bool :=
  x.adm != .off && decide (x.reserved ≠ 1) && decide (x.lines.length < x.eff)
    && decide (x.next.1 < x.high.1 ∨ x.next.1 = x.high.1 ∧ x.next.2 < x.high.2)

/-- The instant by which the next line of a head must be final: R168's deadline, or the last sample instant of a physical
head's frame (R171). -/
def Dev.lineDeadline (d : Dev) (h : Nat) : Nat :=
  let (f, l) := (d.head h).next
  if isV h then d.sampleFt h f (l + 1) else d.sampleFt h f (d.vtotal h - 1)

/-- Recomposition is served earliest deadline first, ties to physical heads and then to the lower head number, by eight
composers (R159): eight others come before head h. -/
def Dev.composersBusy (d : Dev) (h : Nat) : Bool :=
  let key := fun g => (d.lineDeadline g, (isV g).toNat, g)
  let before := fun (a b : Nat × Nat × Nat) => decide (a.1 < b.1 ∨ a.1 = b.1 ∧ (a.2.1 < b.2.1 ∨ a.2.1 = b.2.1 ∧ a.2.2 < b.2.2))
  decide (8 ≤ (d.heads.filter (fun e => e.1 != h && e.2.again && before (key e.1) (key h))).length)

/-- A head's next line composed (R161, R162). A line that comes after its sample instant shows what stood then (R39). -/
def Dev.composeNext (d : Dev) (h : Nat) : Dev :=
  let x := d.head h
  if !d.live h ∨ x.reserved = 1 ∨ x.eff ≤ x.lines.length then d
  else if x.again ∧ d.composersBusy h then d.reply .waits
  else
    let (f, l) := x.next
    let c := (x.due.find? (fun b => b.buf.frame == f && b.buf.line == l)).getD (d.composeBuf h f l)
    let nx := if l + 1 < d.vactive h then (f, l + 1) else (f + 1, 0)
    let again := decide (f < x.high.1 ∨ f = x.high.1 ∧ l < x.high.2)
    let d := d.setHead h { x with
      lines := x.lines ++ [c.buf], next := nx, high := if again then x.high else nx
      due := x.due.filter (fun b => !(b.buf.frame == f && b.buf.line == l)) }
    let d := if again then d.add64 pgCOMPOSE Reg.RECOMP_PIX (d.hactive h) else d
    let d := forL c.hits (fun b d => d.poisonRead (b * 64)) d
    d.lstat h c.flags l

/-- The cycle after the first whose FT is at or after x (R163), unless that has passed. -/
def Dev.pastFt (d : Dev) (x : Nat) : Dev :=
  let d := d.toFt x
  if d.ft * ftDen + d.clock.ftAcc < x * ftDen + d.ftRate * d.stretch then d.pass 1 else d

/-- Mark the line final in the window. -/
def markFinal (f l : Nat) (ls : List LineBuf) : List LineBuf :=
  ls.map (fun b => if b.frame = f ∧ b.line = l then { b with final := true } else b)

/-- A composed line becomes final (R163). -/
def Dev.lineFinal (d : Dev) (h : Nat) : Dev :=
  let x := d.head h
  let (f, l) := x.fin
  if x.cur ≠ some f ∨ !(x.lines.any (fun b => decide (b.frame = f ∧ b.line = l))) then d
  else
    let d := d.pastFt (d.sampleFt h f l)
    let last := decide (d.vactive h ≤ l + 1)
    let d := d.onHead h (fun x => { x with lines := markFinal f l x.lines, fin := if last then (f + 1, 0) else (f, l + 1) })
    if last && isV h then d.add64 (pgHD h) Reg.FRAMES_COMPLETE 1 else d

/-- A final line taken (R161): by the encoder, or written into the back output frame (R171). -/
def Dev.lineTake (d : Dev) (h : Nat) : Dev :=
  let x := d.head h
  match x.lines with
  | [] => d
  | b :: rest =>
    if !b.final then d
    else
      let d := d.setHead h { x with lines := rest }
      if isV h then d.encTake h b
      else
        (d.onHead h (fun x => { x with written := x.written + 1 })).storeArea
          (d.outFrame h (1 - x.front) + b.line * (d.hactive h * 4)) (b.pixels.flatMap (fun w => leBytes 4 w.toNat))

/-- A virtual head's line misses its deadline (R168). -/
def Dev.late (d : Dev) (h : Nat) : Dev :=
  let x := d.head h
  let (f, l) := x.fin
  if x.cur ≠ some f ∨ d.vactive h ≤ l ∨ x.lines.any (fun b => decide (b.frame = f ∧ b.line = l)) then d
  else (d.toFt (d.sampleFt h f (l + 1))).withhold h f true

/-- A physical head's frame is not complete at its last sample instant (R171): its unwritten lines are abandoned. -/
def Dev.incomplete (d : Dev) (h : Nat) : Dev :=
  let x := d.head h
  match x.cur with
  | none => d
  | some f =>
    let d := d.toFt (d.sampleFt h f (d.vtotal h - 1))
    if x.written = d.vactive h then d
    else d.onHead h (fun x => { x with
      spoiled := some f, lines := x.lines.filter (fun b => decide (f < b.frame))
      next := if x.next.1 ≤ f then (f + 1, 0) else x.next, high := if x.high.1 ≤ f then (f + 1, 0) else x.high
      fin := if x.fin.1 ≤ f then (f + 1, 0) else x.fin })

/-! ### PRESENT (R85, R86) -/

/-- A PRESENT committed (R86, R142, R165): the head's words are latched with its tag and stamp. -/
def Dev.present (d : Dev) (h : Nat) (tag : Word) : Dev :=
  let c := d.ft
  let own := d.ownRegs h
  let d := d.onHead h (fun x => { x with presents := x.presents ++ [{ tag := tag, stamp := c, regs := own }] })
  if (d.head h).fence then d.squash h c (fun b => decide (c < d.startFt h b.frame)) else d

end Sys2Proof.Machine
end

