-- ==== Sys2Proof/Machine/Hash.lean ====
section
/-! DEFINITION. The hashes of R275 over bytes. -/
namespace Sys2Proof.Machine

/-- One bit of a reflected CRC-32C: the polynomial 0x1EDC6F41 bit-reversed. -/
def crc32cStep (c : Nat) : Nat := if c % 2 = 1 then (c / 2) ^^^ 0x82F63B78 else c / 2

/-- k steps. -/
def crc32cSteps : Nat → Nat → Nat
  | 0, c => c
  | k + 1, c => crc32cSteps k (crc32cStep c)

/-- CRC-32C of bytes from a register value, without the final XOR. -/
def crc32cGo : Nat → List Byte → Nat
  | c, [] => c
  | c, b :: bs => crc32cGo (crc32cSteps 8 (c ^^^ b.toNat)) bs

/-- CRC-32C (R275). -/
def crc32c (bs : List Byte) : Nat := crc32cGo 0xFFFFFFFF bs ^^^ 0xFFFFFFFF

/-- One bit of CRC-64/ECMA-182. -/
def crc64Step (c : Nat) : Nat :=
  if 2 ^ 63 ≤ c then (c * 2 % 2 ^ 64) ^^^ 0x42F0E1EBA9EA3693 else c * 2

def crc64Steps : Nat → Nat → Nat
  | 0, c => c
  | k + 1, c => crc64Steps k (crc64Step c)

def crc64Go : Nat → List Byte → Nat
  | c, [] => c
  | c, b :: bs => crc64Go (crc64Steps 8 (c ^^^ (b.toNat * 2 ^ 56))) bs

/-- CRC-64/ECMA-182 (R275). -/
def crc64 (bs : List Byte) : Nat := crc64Go 0 bs

end Sys2Proof.Machine
end

