-- ==== Sys2Proof/Machine/Net.lean ====
section
/-! DEFINITION. Packets and their routes (R377 to R379, R386, R391 to R395): what every unit uses to send to another chip.
A message whose layout the spec does not give has the bytes Config.fabricMsg (assumption log 23). -/
namespace Sys2Proof.Machine

def Dev.onFab (d : Dev) (f : FabricSt → FabricSt) : Dev := { d with fab := f d.fab }
def Dev.link (d : Dev) (l : Nat) : Link := spGet (fun _ => {}) d.fab.links l
def Dev.setLink (d : Dev) (l : Nat) (x : Link) : Dev := d.onFab (fun f => { f with links := spPut (fun _ => {}) f.links l x })
def Dev.onLink (d : Dev) (l : Nat) (f : Link → Link) : Dev := d.setLink l (f (d.link l))

/-- FAB_STAT.ADDR_VALID (R389). -/
def Dev.addrValid (d : Dev) : Bool := d.rdB pgFAB Reg.FAB_STAT 12
/-- RT_CTL.ACTIVE (R393). -/
def Dev.rtActive (d : Dev) : Bool := d.rdB pgFAB Reg.RT_CTL 2
/-- RT_CTL.SWAP_STATE (R394). -/
def Dev.swapState (d : Dev) : Nat := d.rdF pgFAB Reg.RT_CTL 4 3

/-- The table of an epoch bit (R392): words of eight entries. -/
def Dev.rtTable (d : Dev) (e : Bool) : Sparse Nat := if e then d.fab.table1 else d.fab.table0
/-- The entry of a destination address in the table of an epoch bit (R392). -/
def Dev.rtEntry (d : Dev) (e : Bool) (dst : Nat) : Nat :=
  spGet (fun _ => 0xFFFFFFFF) (d.rtTable e) (dst / 8) / 2 ^ (4 * (dst % 8)) % 16

/-- The feature bit that a packet needs (R386). -/
def packetFeat (cls : Nat) (bytes : List Byte) : Option Nat :=
  match cls with
  | 2 => some 2
  | 3 => some 3
  | 4 => if bytes.head? = some 0x10 then some 0 else if bytes.head? = some 0x11 then some 1 else none
  | 5 => some 4
  | _ => none

/-- The flits of a packet (R379): at least 1, and at most 1,366, or 32 of a LINK packet. -/
def flitCount (p : Packet) : Nat := min (if p.cls = 7 then 32 else 1366) (max 1 (ceilDiv p.bytes.length 48))

/-- A packet's flits without LSEQ, LACK, CRET and CRC, which the link fills in (R377, R379). -/
def flitsOf (p : Packet) : List (List Byte) :=
  let n := flitCount p
  (List.range n).map (fun i =>
    let part := (p.bytes.drop (48 * i)).take 48
    let ctl := p.cls % 8 + p.epoch.toNat * 8 + (decide (i = 0)).toNat * 16 + (decide (i + 1 = n)).toNat * 32
    [0, 0, byteOf ctl 0, 0] ++ leBytes 2 (p.dst % 4096) ++ leBytes 2 (p.src % 4096)
      ++ [byteOf part.length 0, byteOf p.hops 0, 0, 0] ++ part ++ List.replicate (48 - part.length) 0)

/-- n flits of a class leave the receive buffers of the link they came in on (R382): their credits are to be returned. -/
def Dev.freeBufs (d : Dev) (via : Option Nat) (cls n : Nat) : Dev :=
  match via with
  | none => d
  | some l =>
    if 6 ≤ cls then d
    else
      let o := Reg.AL_CRED + 16 * cls + 8
      d.wrN (pgAL l) o ((d.rdF (pgAL l) o 15 0 - n) + (d.rdF (pgAL l) o 31 16 + n) * 65536)

/-- A packet's flits leave the receive buffers. -/
def Dev.freePkt (d : Dev) (p : Packet) : Dev := d.freeBufs p.via p.cls (flitCount p)

/-- A packet's journey ends at this chip (R394). -/
def Dev.epEnd (d : Dev) (p : Packet) : Dev := (d.freePkt p).add64 pgFAB (Reg.EP_END + 8 * p.epoch.toNat) 1

/-- A packet discarded for want of a route (R392). -/
def Dev.noRoute (d : Dev) (p : Packet) : Dev := ((d.add64 pgFAB Reg.NOROUTE 1).irq pgFAB 9).epEnd p

/-- A packet put into an output link's queue; its flits keep the buffers they came in. -/
def Dev.toLink (d : Dev) (l : Nat) (p : Packet) : Dev :=
  d.onLink l (fun x => { x with queue := x.queue ++ (flitsOf p).map (fun f => (p.via, f)) })

/-- KiB that a packet takes in the epoch hold, as whole flits. -/
def holdBytes (p : Packet) : Nat := 64 * flitCount p

/-- HOLD_USED (R418). -/
def Dev.setHoldUsed (d : Dev) : Dev :=
  d.wrN pgFAB Reg.HOLD_USED (ceilDiv ((d.fab.hold.map holdBytes).sum) 1024)

/-- A packet at its destination (R391, R395): it is delivered to its unit, or parked while the old bit drains. True where
its unit acts now. -/
def Dev.atHome (d : Dev) (p : Packet) : Dev × Bool :=
  if d.swapState = 3 ∧ p.epoch = d.rtActive then
    let used := ((d.fab.hold.filter (fun q => q.cls == 4)).map holdBytes).sum
    if p.cls = 4 ∧ 48 * 2 ^ 20 < used + holdBytes p then
      (((d.add32 pgFAB Reg.HOLD_DROPS 1).irq pgFAB 8).epEnd p, false)
    else (((d.freePkt p).onFab (fun f => { f with hold := f.hold ++ [{ p with via := none }] })).setHoldUsed, false)
  else (d.epEnd p, true)

/-- A packet routed by the table of its epoch bit (R391 to R393). True where it is at its destination and its unit acts. -/
def Dev.routePkt (d : Dev) (p : Packet) : Dev × Bool :=
  if d.addrValid && decide (p.dst = d.myAddr) then d.atHome p
  else
    let c := d.rtEntry p.epoch p.dst
    if c = 8 then d.atHome p
    else if 8 < c then (d.noRoute p, false)
    else if (d.link c).st ≠ .up then (d.noRoute p, false)
    else if (packetFeat p.cls p.bytes).any (fun f => !d.rdB (pgAL c) Reg.AL_NEG_LO f) then
      ((d.add32 pgFAB Reg.FEAT_DROPS 1).epEnd p, false)
    else (d.toLink c p, false)

/-- A packet forwarded (R379): HOPS advances, at most 31. -/
def Dev.forward (d : Dev) (p : Packet) : Dev × Bool :=
  if d.addrValid && decide (p.dst = d.myAddr) then d.atHome p
  else if 31 ≤ p.hops then ((d.add32 pgFAB Reg.HOP_DROPS 1).epEnd p, false)
  else d.routePkt { p with hops := p.hops + 1 }

/-- The resend time of a class in full-rate PCLK periods (R378): 0 for a class that is not resent. -/
def classResend : Nat → Nat
  | 1 => 12000000
  | 2 => 300000
  | 3 => 1200000
  | 5 => 12000000
  | 7 => 1200000
  | _ => 0

/-- An item finds room in its window (R378): 2 packets or 16 events towards a chip, 1 MiB of a migration, 64 records of this
chip, one LINK packet of its kind. -/
def roomFor (u : Unacked) (l : List Unacked) : Bool :=
  let same := l.filter (fun x => x.cls == u.cls && x.dst == u.dst)
  match u.cls with
  | 1 => decide (same.length < 2)
  | 2 => decide (same.length < 16)
  | 3 =>
    let mine := same.filter (fun x => x.key == u.key)
    mine.isEmpty || decide ((mine.map (fun x => x.packet.bytes.length)).sum + u.packet.bytes.length ≤ 2 ^ 20)
  | 5 => decide ((l.filter (fun x => x.cls == 5)).length < 64)
  | _ => !(same.any (fun x => x.key == u.key))

/-- A LINK packet (R379): it never leaves the link. -/
def linkPkt (bytes : List Byte) : Packet :=
  { cls := 7, epoch := false, dst := 0, src := 0, hops := 0, bytes := bytes }

/-- A packet injected (R393, R394): it takes the active bit. -/
def Dev.inject1 (d : Dev) (p : Packet) : Dev :=
  let e := d.rtActive
  ((d.add64 pgFAB (Reg.EP_INJ + 8 * e.toNat) 1).routePkt { p with epoch := e }).1

/-- An item leaves: a LINK packet on its link, any other packet injected. -/
def Dev.depart (d : Dev) (u : Unacked) : Dev := if u.cls = 7 then d.toLink u.dst u.packet else d.inject1 u.packet

/-- An item sent, or queued until its window has room and those before it have left; it is remembered until it is acknowledged
(R378). What stays on the chip needs no acknowledgement. -/
def Dev.sendItem (d : Dev) (u : Unacked) : Dev :=
  if u.cls ≠ 7 ∧ u.dst = d.myAddr then d.depart u
  else if d.fab.waiting.any (fun x => x.cls == u.cls && x.dst == u.dst && x.key == u.key) || !roomFor u d.fab.unacked then
    d.onFab (fun f => { f with waiting := f.waiting ++ [u] })
  else
    (d.onFab (fun f => { f with unacked := f.unacked ++ [{ u with due := d.clock.base + classResend u.cls }] })).depart u

/-- Items that wait leave as far as their windows have room. -/
def Dev.sendWaiting (d : Dev) : Dev :=
  forL d.fab.waiting (fun u d => d.sendItem u) (d.onFab (fun f => { f with waiting := [] }))

/-- The first item that a test picks is acknowledged (R378). -/
def Dev.acked (d : Dev) (test : Unacked → Bool) : Dev :=
  match d.fab.unacked.find? test with
  | none => d
  | some u => (d.onFab (fun f => { f with unacked := f.unacked.erase u })).sendWaiting

/-- A LINK packet of a kind (R378, R379). -/
def Dev.linkMsg (d : Dev) (l kind : Nat) (bytes : List Byte) : Dev :=
  d.sendItem { cls := 7, dst := l, key := kind, seq := 0, due := 0, packet := linkPkt bytes }

/-- A LINK message of a kind whose layout is not given. -/
def Dev.linkSend (d : Dev) (l kind : Nat) (args : List Nat) : Dev := d.linkMsg l kind (Config.fabricMsg kind args)

/-- A packet injected outside any window. A chip without an address is in no fabric and sends none. -/
def Dev.injectPkt (d : Dev) (cls dst : Nat) (bytes : List Byte) : Dev :=
  if !d.addrValid then d
  else d.inject1 { cls := cls, epoch := d.rtActive, dst := dst, src := d.myAddr, hops := 0, bytes := bytes }

/-- A message of a kind whose layout is not given, as an item of its class; key and seq are those of the class (R378). -/
def Dev.msgItem (d : Dev) (cls dst kind key seq : Nat) (args : List Nat) : Dev :=
  if !d.addrValid then d
  else d.sendItem { cls := cls, dst := dst, key := key, seq := seq, due := 0, packet :=
    { cls := cls, epoch := d.rtActive, dst := dst, src := d.myAddr, hops := 0, bytes := Config.fabricMsg kind args } }

/-- A message that carries the next sequence number of its class towards a chip, before its contents; on MIGRATE, its first
argument is the slot of the migration. -/
def Dev.msg (d : Dev) (cls dst kind : Nat) (args : List Nat) : Dev :=
  if !d.addrValid then d
  else
    let i := 4096 * cls + dst
    let n := spGet (fun _ => 0) d.fab.seqs i
    (d.onFab (fun f => { f with seqs := spPut (fun _ => 0) f.seqs i (n + 1) })).msgItem cls dst kind
      (if cls = 3 then args.headD 0 else 0) n (n :: args)

/-- The kind of an acknowledgement, which travels on the class that it acknowledges. -/
abbrev msgDone : Nat := 27

/-- A sequence number of a class heard from a chip is acknowledged; whether it is new (R378). -/
def Dev.hearSeq (d : Dev) (cls src n : Nat) : Dev × Bool :=
  let d := d.injectPkt cls src (Config.fabricMsg msgDone [n])
  let i := 4096 * cls + src
  let h := spGet (fun _ => ({} : Heard)) d.fab.heard i
  if n < h.next ∨ h.beyond.contains n then (d, false)
  else
    let all := n :: h.beyond
    let next := all.foldl (fun k _ => if all.contains k then k + 1 else k) h.next
    (d.onFab (fun f => { f with
      heard := spPut (fun _ => {}) f.heard i { next := next, beyond := all.filter (fun k => decide (next ≤ k)) } }), true)

/-- The home of a console name among some members (R402): the first address at or above its hash, wrapping. -/
def homeAmong (members : List Nat) (name : Nat) : Option Nat :=
  let x := crc32c (leBytes 8 name) % 4096
  match (members.filter (fun a => decide (x ≤ a))).min? with
  | some a => some a
  | none => members.min?

/-- The home of a console name (R402); none in no fabric. -/
def Dev.homeOf (d : Dev) (name : Nat) : Option Nat := if d.addrValid then homeAmong d.fab.members name else none

/-- The entry of a name (R402). -/
def Dev.loc (d : Dev) (name : Nat) : Option Loc := spGet (fun _ => none) d.fab.locs name
def Dev.setLoc (d : Dev) (name : Nat) (e : Option Loc) : Dev :=
  d.onFab (fun f => { f with locs := spPut (fun _ => none) f.locs name e })

/-- This chip is the new home of a name whose entry may still come from its old home: requests wait (R404). -/
def Dev.unsettled (d : Dev) (name : Nat) : Bool :=
  decide (d.clock.base < d.fab.locUntil) && (d.loc name).isNone && d.homeOf name == some d.myAddr
    && (homeAmong d.fab.locFrom name).any (fun a => a != d.myAddr)

end Sys2Proof.Machine
end

