-- ==== Sys2Proof/Machine/Input.lean ====
section
/-! DEFINITION. The input delivery unit (R89 to R96, R101, R407): numbering, the pending queue, delivery to the host ring. -/
namespace Sys2Proof.Machine

/-- The virtual head of this chip that serves a console name (R32). -/
def Dev.headOf (d : Dev) (name : Nat) : Option Nat :=
  if name = 0 then none else (List.range 128).find? (fun h => decide (d.console h = name))

/-- The last sequence number accepted for a console (R92). -/
def Dev.lastSeq (d : Dev) (name : Nat) : Nat := spGet (fun _ => 0) d.seqs name
def Dev.setSeq (d : Dev) (name s : Nat) : Dev := { d with seqs := spPut (fun _ => 0) d.seqs name s }
/-- Numbers below the last accepted that have not arrived. -/
def Dev.gapsOf (d : Dev) (name : Nat) : List Nat := spGet (fun _ => []) d.gaps name
def Dev.setGaps (d : Dev) (name : Nat) (l : List Nat) : Dev := { d with gaps := spPut (fun _ => []) d.gaps name l }

/-- This chip holds the console's input counter (R407). -/
def Dev.counterHere (d : Dev) (name : Nat) : Bool :=
  (d.headOf name).isSome != spGet (fun _ => false) d.fab.counterMoved name
def Dev.setCounterMoved (d : Dev) (name : Nat) (b : Bool) : Dev :=
  d.onFab (fun f => { f with counterMoved := spPut (fun _ => false) f.counterMoved name b })

/-- A pending event put in its place by sequence number (R93). -/
def insertEvent (e : InputMsg) : List InputMsg → List InputMsg
  | [] => [e]
  | x :: l => if e.seq < x.seq then e :: x :: l else x :: insertEvent e l

/-- An accepted event enters the lane's pending queue, or is refused when 256 wait (R94). -/
def Dev.enqueueEvent (d : Dev) (n : Nat) (e : InputMsg) : Dev :=
  let d := d.add64 (pgHP n) Reg.IN_ACCEPTED 1
  if 256 ≤ (d.lane n).pendingIn.length then (d.add64 (pgHP n) Reg.IN_REFUSED 1).irq (pgHP n) 7
  else (d.add64 (pgHP n) Reg.IN_PENDING 1).onLane n (fun x => { x with pendingIn := insertEvent e x.pendingIn })

/-- The kind of an INPUT message among those whose layout is not given (assumption log 23). -/
abbrev msgInput : Nat := 1

/-- Contents of an INPUT message. -/
def inputArgs (name : Nat) (e : InputMsg) : List Nat :=
  [name, e.seq, e.arrival, e.kind, e.origin] ++ e.payload.map (fun b => b.toNat)

/-- One INPUT packet (R407): its event has the sequence number. -/
def Dev.sendInput (d : Dev) (c name : Nat) (e : InputMsg) : Dev := d.msgItem 2 c msgInput name e.seq (inputArgs name e)

/-- An event accepted here (R92, R335): it takes the console's next sequence number, and goes to the lane of the console's
head, or to the chip that holds the console. -/
def Dev.acceptEvent (d : Dev) (name kind origin : Nat) (payload : List Byte) (chip : Option Nat) : Dev × Nat :=
  let s := d.lastSeq name + 1
  let e : InputMsg := { seq := s, arrival := d.ft, kind := kind, origin := origin, payload := payload }
  let d := d.setSeq name s
  match d.headOf name, chip with
  | some h, _ => (d.enqueueEvent h e, s)
  | none, some c => (d.sendInput c name e, s)
  | none, none => (d, s)

/-- RELEASE_ALL (R92), accepted with ORIGIN 0. -/
def Dev.releaseAll (d : Dev) (name : Nat) (chip : Option Nat) : Dev :=
  (d.acceptEvent name 4 0 (List.replicate 12 0) chip).1

/-- An event that arrives with its sequence number at the console's head (R95, R407). -/
def Dev.arriveEvent (d : Dev) (n name : Nat) (e : InputMsg) : Dev :=
  let last := d.lastSeq name
  let gaps := d.gapsOf name
  if e.seq ≤ last ∧ ¬ e.seq ∈ gaps then d.add64 (pgHP n) Reg.IN_DUPLICATE 1
  else if e.seq ≤ last then (d.setGaps name (gaps.erase e.seq)).enqueueEvent n e
  else
    let lo := max (last + 1) (e.seq - 256)
    let fresh := (List.range (e.seq - lo)).map (fun i => lo + i)
    ((d.setSeq name e.seq).setGaps name (gaps ++ fresh)).enqueueEvent n e

/-- Every pending event refused (R94, R106). -/
def Dev.refusePending (d : Dev) (n : Nat) : Dev :=
  let k := (d.lane n).pendingIn.length
  if k = 0 then d
  else (((d.add64 (pgHP n) Reg.IN_REFUSED k).wr64 (pgHP n) Reg.IN_PENDING (d.rd64 (pgHP n) Reg.IN_PENDING - k)).irq (pgHP n) 7).onLane
    n (fun x => { x with pendingIn := [] })

/-- Pending events handed on to another head at a migration (R101, R410): they count as forwarded. -/
def Dev.takePending (d : Dev) (n : Nat) : Dev × List InputMsg :=
  let l := (d.lane n).pendingIn
  (((d.add64 (pgHP n) Reg.IN_FORWARDED l.length).wr64 (pgHP n) Reg.IN_PENDING (d.rd64 (pgHP n) Reg.IN_PENDING - l.length)).onLane
    n (fun x => { x with pendingIn := [] }), l)

/-- The 32 bytes of a ring entry (R91). -/
def eventBytes (e : InputMsg) (gap : Bool) : List Byte :=
  leBytes 8 e.seq ++ leBytes 8 e.arrival ++ [byteOf e.kind 0, byteOf e.origin 0] ++ leBytes 2 gap.toNat
    ++ (e.payload ++ List.replicate 12 0).take 12

/-- IR_SIZE in force, 4 to 12 (R89). -/
def Dev.irLog (d : Dev) (n : Nat) : Nat := d.rdF (pgFn n 1) Reg.IR_SIZE 3 0

/-- HP_STAT.LINK_UP: the link is in L0 or L1. -/
def Dev.linkLive (d : Dev) (n : Nat) : Bool := d.rdB (pgHP n) Reg.HP_STAT 1

/-- R94: what delivery asks for, but a pending event. -/
def Dev.canDeliver (d : Dev) (n : Nat) : Bool :=
  let p := pgFn n 1
  d.rdB p Reg.IR_CTL 0 && decide ((d.rdN p Reg.IR_PROD + 2 ^ 32 - d.rdN p Reg.IR_CONS) % 2 ^ 32 < 2 ^ d.irLog n)
    && !d.rdB (pgHD n) Reg.HD_MODE 3 && d.linkLive n && d.fnHas n 1 6

/-- The bound of R94, 2 ms, in units of fabric time. -/
abbrev deliverBound : Nat := 8589934

/-- R93: a lower number of the console may still arrive, and the event's bound of R94 leaves time to wait for it. -/
def Dev.lowerMissing (d : Dev) (n : Nat) (e : InputMsg) : Bool :=
  (d.gapsOf (d.console n)).any (fun g => decide (g < e.seq)) && decide (d.ft < e.arrival + deliverBound)

/-- The next pending event delivered in sequence order (R91, R93): one beyond a number that has not arrived waits for it as
long as R94 allows; a number that comes later still is no longer accepted (assumption log 62). -/
def Dev.deliverInput (d : Dev) (n : Nat) : Dev :=
  match (d.lane n).pendingIn with
  | [] => d
  | e :: rest =>
    if !d.canDeliver n then d
    else if d.lowerMissing n e then d.reply .waits
    else
      let name := d.console n
      let d := if d.gapsOf name = [] then d else d.setGaps name ((d.gapsOf name).filter (fun g => decide (e.seq < g)))
      let p := pgFn n 1
      let prod := d.rdN p Reg.IR_PROD
      let gap := decide (e.seq ≠ (d.lane n).lastSeq + 1)
      let d := d.out (.hostWrite n (d.rd64 p Reg.IR_BASE_LO + prod % 2 ^ d.irLog n * 32) (eventBytes e gap))
      let prod' := (prod + 1) % 2 ^ 32
      let d := (d.wrN p Reg.IR_PROD prod').out (.hostWrite n (d.rd64 p Reg.IR_WB_LO) (leBytes 8 prod'))
      let d := (d.wr64 p Reg.IR_LAST_SEQ e.seq).onLane n (fun x => { x with pendingIn := rest, lastSeq := e.seq })
      let d := (d.add64 (pgHP n) Reg.IN_DELIVERED 1).wr64 (pgHP n) Reg.IN_PENDING (d.rd64 (pgHP n) Reg.IN_PENDING - 1)
      d.fnEvent n 1 1

/-- INPUT_DELIVER (R93). -/
def execInputDeliver (n : Lane) (s : State) : Host.Outcome State Fault Refusal := s.run (fun d => d.deliverInput n)

end Sys2Proof.Machine
end

