-- ==== Sys2Proof/Machine/Sess.lean ====
section
/-! DEFINITION. The session engine's framing (R303 to R305, R325 to R327, R316): KCS records, TLS records, the transmit ring and
the descriptor in DRAM. -/
namespace Sys2Proof.Machine

/-! ### KCS records (R303) -/

/-- A record: header, body, zeros up to a multiple of 4. -/
def kcs (type flags frame : Nat) (body : List Byte) : List Byte :=
  let n := 8 + (body.length + 3) / 4 * 4
  leBytes 1 type ++ leBytes 1 flags ++ leBytes 2 n ++ leBytes 4 frame ++ body ++ List.replicate (n - 8 - body.length) 0

/-- A record's TYPE. -/
def recType (r : List Byte) : Nat := (r.getD 0 0).toNat
/-- A record's FLAGS. -/
def recFlags (r : List Byte) : Nat := (r.getD 1 0).toNat

/-! ### Descriptors (R326) -/

abbrev dSTATE : Nat := 0
abbrev dROLE : Nat := 1
abbrev dSUITE : Nat := 2
abbrev dFLAGS : Nat := 3
abbrev dMIRROR : Nat := 4
abbrev dCONSOLE : Nat := 8
abbrev dTXBASE : Nat := 16
abbrev dTXLOG2 : Nat := 24
abbrev dRXCLOG2 : Nat := 25
abbrev dRXPLOG2 : Nat := 26
abbrev dTXPROD : Nat := 28
abbrev dTXCONS : Nat := 32
abbrev dRXCPROD : Nat := 36
abbrev dRXCCONS : Nat := 40
abbrev dRXPPROD : Nat := 44
abbrev dRXCBASE : Nat := 48
abbrev dRXPBASE : Nat := 56
abbrev dRXPCONS : Nat := 64
abbrev dTXSEQ : Nat := 72
abbrev dRXSEQ : Nat := 80
abbrev dSENT : Nat := 88
abbrev dDROPPED : Nat := 96
abbrev dINJADDR : Nat := 104
abbrev dINJLEN : Nat := 112
abbrev dINJTYPE : Nat := 114
abbrev dINJFLAGS : Nat := 115
abbrev dREASON : Nat := 116

/-- The address of session s's descriptor. -/
def Dev.sessAddr (d : Dev) (s : Nat) : Nat :=
  d.rdN pgSESS Reg.SESS_TABLE_LO + d.rdF pgSESS Reg.SESS_TABLE_HI 15 0 * 2 ^ 32 + s * 128
/-- A descriptor field of n bytes. -/
def Dev.sd (d : Dev) (s off n : Nat) : Nat := d.num (d.sessAddr s + off) n
/-- A descriptor field written by the engine. -/
def Dev.setSd (d : Dev) (s off n v : Nat) : Dev := d.storeArea (d.sessAddr s + off) (leBytes n v)
/-- STATE: 0 CLOSED, 1 OPEN, 2 ENDING. -/
def Dev.sessState (d : Dev) (s : Nat) : Nat := d.sd s dSTATE 1
/-- The console that a session views. -/
def Dev.sessName (d : Dev) (s : Nat) : Nat := d.sd s dCONSOLE 8

def Dev.onEnc (d : Dev) (f : EncSt → EncSt) : Dev := { d with enc := f d.enc }
def Dev.sess (d : Dev) (s : Nat) : SessSt := spGet (fun _ => {}) d.enc.sessions s
def Dev.onSess (d : Dev) (s : Nat) (f : SessSt → SessSt) : Dev :=
  d.onEnc (fun e => { e with sessions := spPut (fun _ => {}) e.sessions s (f (d.sess s)) })
def Dev.mirror (d : Dev) (k : Nat) : Option Mirror := spGet (fun _ => none) d.enc.mirrors k
def Dev.setMirror (d : Dev) (k : Nat) (m : Option Mirror) : Dev :=
  d.onEnc (fun e => { e with mirrors := spPut (fun _ => none) e.mirrors k m })
def Dev.onMirror (d : Dev) (k : Nat) (f : Mirror → Mirror) : Dev := d.setMirror k ((d.mirror k).map f)

/-- Kinds of messages whose layout is not given (assumption log 23). -/
abbrev msgNeedKey : Nat := 2
abbrev msgAck : Nat := 3
abbrev msgOpenSlot : Nat := 4
abbrev msgReleaseSlot : Nat := 5
abbrev msgControl : Nat := 6
abbrev msgRevoke : Nat := 7
abbrev msgCounter : Nat := 8

/-- NEED_KEY of a mirror slot set or cleared (R43, R326): a slot of a session of this chip has it in its descriptor too. -/
def Dev.needSlot (d : Dev) (k : Nat) (b : Bool) : Dev :=
  match d.mirror k with
  | none => d
  | some m =>
    let d := d.setMirror k (some { m with needKey := b, needAt := if b then d.ft else m.needAt })
    if m.chip.isNone then d.setSd k dFLAGS 1 b.toNat else d

/-- NEED_KEY of a session of this chip set: in its descriptor's FLAGS, and in its mirror slot where that is here. -/
def Dev.setNeedKey (d : Dev) (s : Nat) : Dev := (d.needSlot s true).setSd s dFLAGS 1 1

/-- A keyframe asked for (R328, R329, R405, R406): of the slot here, or of the chip that encodes the console. -/
def Dev.needKey (d : Dev) (s : Nat) : Dev :=
  let d := d.setNeedKey s
  match (d.sess s).remoteSlot with
  | some (chip, slot) => d.msg 1 chip msgNeedKey [slot]
  | none => d

/-! ### TLS records and the transmit ring (R316, R325 to R327) -/

/-- Ring sizes are log2 bytes, 16 to 24 (R326). -/
def ringLog (n : Nat) : Nat := max 16 (min 24 n)

/-- Bytes written into a ring at a running index. -/
def Dev.ringStore (d : Dev) (base size idx : Nat) (bs : List Byte) : Dev :=
  let o := idx % size
  let k := size - o
  let d := d.storeArea (base + o) (bs.take k)
  if bs.length ≤ k then d else d.storeArea base (bs.drop k)

/-- Bytes read from a ring at a running index. -/
def Dev.ringLoad (d : Dev) (base size idx n : Nat) : List Byte :=
  let o := idx % size
  let k := min n (size - o)
  d.bytes (base + o) k ++ d.bytes base (n - k)

/-- Plaintext cut at 16,384 bytes (R327). -/
def tlsChunks (bs : List Byte) : List (List Byte) :=
  (List.range (max 1 (ceilDiv bs.length 16384))).map (fun i => (bs.drop (16384 * i)).take 16384)

/-- The nonce of a record (RFC 8446 section 5.3, R325): the sequence number, big-endian and padded to 12 bytes, XOR the IV,
which SESS_KEY4 to SESS_KEY6 hold. -/
def tlsNonce (key : List Byte) (seq : Nat) : List Byte :=
  (List.range 12).map (fun i => key.getD (16 + i) 0 ^^^ byteOf (seq % 2 ^ 64) (11 - i))

/-- The header of a TLS record with n bytes of ciphertext and tag, which is its additional data (RFC 8446 section 5.2). -/
def tlsHeader (n : Nat) : List Byte := [0x17, 3, 3, byteOf n 1, byteOf n 0]

/-- One TLS record (RFC 8446, R325, R327): outer header, then n + 1 + 16 bytes of ciphertext and tag. -/
def tlsRecord (suite : Nat) (key : List Byte) (seq : Nat) (plain : List Byte) (type : Nat) : List Byte :=
  let n := plain.length + 17
  tlsHeader n ++ (Config.aeadSeal suite (key.take 16) (tlsNonce key seq) (tlsHeader n) (plain ++ [byteOf type 0])
    ++ List.replicate n 0).take n

/-- A received TLS record opened (R325, R328). -/
def tlsOpen (suite : Nat) (key : List Byte) (seq : Nat) (rec_ : List Byte) : Option (List Byte) :=
  Config.aeadOpen suite (key.take 16) (tlsNonce key seq) (rec_.take 5) (rec_.drop 5)

/-- Free bytes of the transmit ring. -/
def Dev.txFree (d : Dev) (s : Nat) : Nat :=
  2 ^ ringLog (d.sd s dTXLOG2 1) - (d.sd s dTXPROD 4 + 2 ^ 32 - (d.sess s).txCons) % 2 ^ 32

/-- One TLS record written to the transmit ring (R327). -/
def Dev.txRecord (d : Dev) (s : Nat) (plain : List Byte) (type : Nat) : Dev :=
  let seq := d.sd s dTXSEQ 8
  let prod := d.sd s dTXPROD 4
  let bs := tlsRecord (d.sd s dSUITE 1) (d.sess s).txKey seq plain type
  let d := d.ringStore (d.sd s dTXBASE 8) (2 ^ ringLog (d.sd s dTXLOG2 1)) prod bs
  (d.setSd s dTXPROD 4 (prod + bs.length)).setSd s dTXSEQ 8 (seq + 1)

/-- Injected records that fit go out, in order, each with its key swap (R329): one waits until the ring has room. -/
def Dev.flushInjects (d : Dev) (s : Nat) : Dev :=
  (d.sess s).injects.foldl (fun (acc : Dev × Bool) (type, plain, swap) =>
    let (d, open_) := acc
    if !open_ || d.txFree s < plain.length + 22 then (d, false)
    else
      let d := (d.txRecord s plain type).onSess s (fun x => { x with injects := x.injects.drop 1 })
      match swap, (d.sess s).txStaged with
      | true, some k => ((d.onSess s (fun x => { x with txKey := k, txStaged := none })).setSd s dTXSEQ 8 0, true)
      | _, _ => (d, true)) (d, true) |>.1

/-- The indexes that software owns, read anew (R327). -/
def Dev.doorbell (d : Dev) (s : Nat) : Dev :=
  (d.onSess s (fun x => { x with
    txCons := d.sd s dTXCONS 4, rxcProd := d.sd s dRXCPROD 4, rxpCons := d.sd s dRXPCONS 4 })).flushInjects s

/-- Bytes that plaintext needs in the ring: 22 for each TLS record (R316). -/
def tlsSize (bs : List Byte) : Nat := bs.length + 22 * (tlsChunks bs).length

/-- A stream record written to a session's ring (R305, R327): one that does not fit is not written, and TX_FULL is raised
(assumption log 25). A record for a session whose STREAM_START another chip has still to send waits behind it (R310). -/
def Dev.sessRecord (d : Dev) (s : Nat) (r : List Byte) : Dev :=
  if (d.sess s).awaitStart && recType r != 1 then d.onSess s (fun x => { x with early := x.early ++ [r] })
  else if d.txFree s < tlsSize r then d.irq pgSESS 3
  else forL (tlsChunks r) (fun c d => d.txRecord s c 0x17) d

/-- A stream record to an OPEN session. -/
def Dev.sessStream (d : Dev) (s : Nat) (r : List Byte) : Dev := if d.sessState s ≠ 1 then d else d.sessRecord s r

/-- A frame to an OPEN session (R316). -/
def Dev.sessFrame (d : Dev) (s : Nat) (records : List (List Byte)) : Dev :=
  if d.sessState s ≠ 1 then d
  else
    let bs := records.flatten
    if d.txFree s < tlsSize bs then
      ((d.setSd s dDROPPED 8 (d.sd s dDROPPED 8 + 1)).irq pgSESS 3).needKey s
    else (forL (tlsChunks bs) (fun c d => d.txRecord s c 0x17) d).setSd s dSENT 8 (d.sd s dSENT 8 + 1)

/-- A STREAM packet with a relayed record (R406). -/
def relayPacket (slot sess : Nat) (r : List Byte) : List Byte :=
  [0x10, 0, 0, 0] ++ leBytes 2 slot ++ leBytes 2 sess ++ List.replicate 8 0 ++ r

/-- A stream record to the session of a mirror slot, here or on another chip (R315, R406). -/
def Dev.slotStream (d : Dev) (k : Nat) (m : Mirror) (r : List Byte) : Dev :=
  match m.chip with
  | none => d.sessStream k r
  | some c => d.injectPkt 4 c (relayPacket k m.sess r)

/-- A frame to the session of a mirror slot (R315, R406). -/
def Dev.slotFrame (d : Dev) (k : Nat) (m : Mirror) (records : List (List Byte)) : Dev :=
  match m.chip with
  | none => d.sessFrame k records
  | some c => forL records (fun r d => d.injectPkt 4 c (relayPacket k m.sess r)) d

/-! ### Control of consoles (R330) -/

/-- The session of this chip that controls a console, by name. -/
def Dev.controller (d : Dev) (name : Nat) : Option Nat :=
  let v := spGet (fun _ => 0) d.enc.control name
  if v = 0 then none else some (v - 1)

def Dev.setControl (d : Dev) (name v : Nat) : Dev :=
  d.onEnc (fun e => { e with control := spPut (fun _ => 0) e.control name v })

/-- ROLE sent to a session, and its descriptor's ROLE (R330). -/
def Dev.sendRole (d : Dev) (s : Nat) (ctl : Bool) : Dev :=
  (d.setSd s dROLE 1 ctl.toNat).sessStream s (kcs 0x05 ctl.toNat 0 [])

/-- The chip that holds a console that a session of this chip views; none where it is this one. -/
def Dev.sessChip (d : Dev) (s : Nat) : Option Nat := (d.sess s).remoteSlot.map (fun e => e.1)

/-- The session of another chip that controls a console of this one (R330): chip and index. -/
def Dev.holder (d : Dev) (name : Nat) : Option (Nat × Nat) := spGet (fun _ => none) d.enc.holders name

def Dev.setHolder (d : Dev) (name : Nat) (v : Option (Nat × Nat)) : Dev :=
  d.onEnc (fun e => { e with holders := spPut (fun _ => none) e.holders name v })

/-- The holder on another chip loses control to a session of the given chip (R330): its chip is told. -/
def Dev.revokeHolder (d : Dev) (name chip : Nat) : Dev :=
  match d.holder name with
  | some (c, t) => (d.setHolder name none).msg 1 c msgRevoke [name, t, chip]
  | none => d

/-- A console's control changes hands among this chip's sessions, or from another chip's (R330, R92, R407): ROLE to both,
RELEASE_ALL; the input counter of a console of another chip goes back to it when no session here controls it. -/
def Dev.takeControl (d : Dev) (name : Nat) (new : Option Nat) : Dev :=
  let old := d.controller name
  if old = new then d
  else
    let d := if new.isSome then d.revokeHolder name d.myAddr else d
    let chip := match old, new with
      | some s, _ => d.sessChip s
      | none, some s => d.sessChip s
      | none, none => none
    let d := d.setControl name (match new with
      | some s => s + 1
      | none => 0)
    let d := match old with
      | some s => d.sendRole s false
      | none => d
    let d := match new with
      | some s => d.sendRole s true
      | none => d
    let d := if d.counterHere name then d.releaseAll name chip else d
    match chip with
    | none => d
    | some c =>
      let d := d.msg 1 c msgControl [name, d.myAddr, (match new with
        | some s => s + 1
        | none => 0), d.lastSeq name + 1]
      if new.isNone then d.setCounterMoved name false else d

/-- Control of a console of this chip goes to session t of chip c (R330, R407): the holder before it loses control, and the
input counter goes there. -/
def Dev.remoteGrant (d : Dev) (name c t : Nat) : Dev :=
  if c = d.myAddr ∨ d.holder name = some (c, t) then d
  else
    let d := match d.controller name with
      | some s => (d.setControl name 0).sendRole s false
      | none => d
    let d := if (d.holder name).any (fun x => x.1 != c) then d.revokeHolder name c else d
    let d := d.setHolder name (some (c, t))
    if d.counterHere name then (d.msg 1 c msgCounter [name, d.lastSeq name + 1]).setCounterMoved name true else d

/-- The session of chip c that holds control of a console of this chip gives it up (R330, R407): the counter comes back. -/
def Dev.remoteRelease (d : Dev) (name c next : Nat) : Dev :=
  if (d.holder name).any (fun x => x.1 == c) then ((d.setHolder name none).setSeq name (next - 1)).setCounterMoved name false else d

/-- The chip of a console took control from session t of this chip for a session of chip c (R330, R407): its ROLE, and the
input counter goes to the new holder. -/
def Dev.revoked (d : Dev) (name t c : Nat) : Dev :=
  if d.controller name ≠ some t then d
  else
    let d := (d.setControl name 0).sendRole t false
    if d.counterHere name then (d.msg 1 c msgCounter [name, d.lastSeq name + 1]).setCounterMoved name false else d

end Sys2Proof.Machine
end

