-- ==== Sys2Proof/Machine/Dict.lean ====
section
/-! DEFINITION. The cell dictionary (R293 to R301) and the mirror slots' bits (R302). -/
namespace Sys2Proof.Machine

/-- DICT_AREA's address (R324). -/
def Dev.dictArea (d : Dev) : Nat := d.rdF pgDICT Reg.DICT_AREA 26 0 * blockBytes
/-- DICT_EPOCH. -/
def Dev.dictEpoch (d : Dev) : Nat := d.rdN pgDICT Reg.DICT_EPOCH
/-- DICT_STAT.REB_STATE: 0 IDLE, 1 CLEAR, 2 COMPACT, 3 READY. -/
def Dev.rebState (d : Dev) : Nat := d.rdF pgDICT Reg.DICT_STAT 1 0
def Dev.setReb (d : Dev) (v : Nat) : Dev := d.wrF pgDICT Reg.DICT_STAT 1 0 v
/-- The active bank. -/
def Dev.dictBank (d : Dev) : Nat := d.rdF pgDICT Reg.DICT_STAT 2 2

/-- The state word of an index (R293). -/
def Dev.idxState (d : Dev) (i : Nat) : Nat := spGet (fun _ => 0) d.enc.states i

/-- The counter of indexes in a state (R293). -/
def idxCounter : Nat → Nat
  | 0 => Reg.DICT_FREE
  | 1 => Reg.DICT_LIVE
  | _ => Reg.DICT_DRAIN

/-- An index's state word set, in the device and in DICT_AREA (R293). -/
def Dev.setIdx (d : Dev) (i w : Nat) : Dev :=
  let old := d.idxState i % 4
  let d := d.onEnc (fun e => { e with states := spPut (fun _ => 0) e.states i w })
  let d := d.storeArea (d.dictArea + 0x20000000 + i * 4) (leBytes 4 w)
  let d := d.wrN pgDICT (idxCounter old) (d.rdN pgDICT (idxCounter old) - 1)
  d.wrN pgDICT (idxCounter (w % 4)) (d.rdN pgDICT (idxCounter (w % 4)) + 1)

/-- R297: an automatic rebuild that DICT_FREE below DICT_LOW or a period that fell due asks for, whatever made it so. -/
def Dev.rebuildLevel (d : Dev) : Dev :=
  if d.rdB pgDICT Reg.DICT_CTL 1 ∧ d.rebState = 0 ∧ (d.enc.periodDue ∨ d.rdN pgDICT Reg.DICT_FREE < d.rdN pgDICT Reg.DICT_LOW) then
    (d.onEnc (fun e => { e with periodDue := false })).setReb 1
  else d

/-- The lowest FREE index (R296): the first number below 524,288 that the map of states does not list. -/
def firstFree : Nat → Sparse Nat → Option Nat
  | n, [] => if n < 524288 then some n else none
  | n, e :: l => if n < e.1 then some n else firstFree (e.1 + 1) l

/-! ### Banks (R294) -/

/-- The address of a key's bucket in a bank. -/
def bucketAddr (bank key : Nat) : Nat := dictBase + bank * 0x400000 + key / 2 ^ 32 % 65536 * 64

/-- A slot is valid. -/
def Dev.slotValid (d : Dev) (a : Nat) : Bool := (d.byte (a + 14)).getLsbD 7
/-- A slot's key. -/
def Dev.slotKey (d : Dev) (a : Nat) : Nat := d.num a 8 * 2 ^ 32 + d.num (a + 8) 4
/-- A slot's index. -/
def Dev.slotIdx (d : Dev) (a : Nat) : Nat := d.num (a + 12) 3 % 524288

/-- The valid slot that holds a key. -/
def Dev.slotOfKey (d : Dev) (bank key : Nat) : Option Nat :=
  ((List.range 4).map (fun j => bucketAddr bank key + 16 * j)).find? (fun a => d.slotValid a && decide (d.slotKey a = key))

/-- The first invalid slot of a key's bucket. -/
def Dev.emptySlot (d : Dev) (bank key : Nat) : Option Nat :=
  ((List.range 4).map (fun j => bucketAddr bank key + 16 * j)).find? (fun a => !d.slotValid a)

/-- The 16 bytes of a slot. -/
def slotBytes (key idx age : Nat) : List Byte :=
  leBytes 8 (key / 2 ^ 32) ++ leBytes 4 key ++ leBytes 3 (idx + 2 ^ 23) ++ leBytes 1 age

/-- A lookup (R295). -/
def Dev.dictLookup (d : Dev) (bank key : Nat) : Dev × Option Nat :=
  let d := d.add64 pgDICT Reg.DICT_LOOKUPS 1
  match d.slotOfKey bank key with
  | none => (d, none)
  | some a => ((d.add64 pgDICT Reg.DICT_HITS 1).store (a + 15) [byteOf d.dictEpoch 0], some (d.slotIdx a))

/-- An insert (R296). -/
def Dev.dictInsert (d : Dev) (bank key : Nat) (tile : List Byte) : Dev × Option Nat :=
  match firstFree 0 d.enc.states, d.emptySlot bank key with
  | some i, some a =>
    let d := (d.storeArea (d.dictArea + i * 1024) tile).setIdx i 1
    let bs := slotBytes key i d.dictEpoch
    let d := d.store a bs
    let d := if d.rebState = 2 ∨ d.rebState = 3 then
        match d.emptySlot (1 - bank) key with
        | some b => d.store b bs
        | none => d
      else d
    ((d.add64 pgDICT Reg.DICT_INSERTS 1).rebuildLevel, some i)
  | _, _ => ((d.add64 pgDICT Reg.DICT_INS_FAIL 1).irq pgDICT 1, none)

/-! ### Mirror slots (R302) -/

/-- The address of mirror slot k. -/
def Dev.mirrorAddr (d : Dev) (k : Nat) : Nat := d.rdF pgENC Reg.ENC_MIRROR 26 0 * blockBytes + k * 67584

/-- A bit of a slot's map at an offset (R302: least significant first). -/
def Dev.mirrorBit (d : Dev) (k off i : Nat) : Bool := (d.byte (d.mirrorAddr k + off + i / 8)).getLsbD (i % 8)

def Dev.setMirrorBit (d : Dev) (k off i : Nat) (b : Bool) : Dev :=
  let a := d.mirrorAddr k + off + i / 8
  let old := (d.byte a).toNat
  let was := old.testBit (i % 8)
  d.storeArea a [BitVec.ofNat 8 (if b && !was then old + 2 ^ (i % 8) else if !b && was then old - 2 ^ (i % 8) else old)]

/-- Zeros over part of a mirror slot. -/
def Dev.clearMirror (d : Dev) (k off n : Nat) : Dev :=
  if d.inDram (d.mirrorAddr k + off) n then
    let a := d.mirrorAddr k + off
    (d.markInit ((a - dramBase) / blockBytes) ((a + n - 1 - dramBase) / blockBytes + 1)).clear a (a + n)
  else d

/-- Dictionary bits at 0, glyph bits of tile A and B after them. -/
abbrev glyphOff (layer : Nat) : Nat := 65536 + 1024 * layer

/-- The epoch in which a DRAINING index began draining, from the 24 bits that its state word keeps (R293): the latest one up to
DICT_EPOCH. -/
def Dev.drainEpoch (d : Dev) (w : Nat) : Nat := d.dictEpoch - (d.dictEpoch + 2 ^ 24 - w / 256 % 2 ^ 24) % 2 ^ 24

/-- R299: DRAINING indexes whose epoch every mirror slot has acknowledged become FREE. -/
def Dev.freeIndexes (d : Dev) : Dev :=
  let acks := d.enc.mirrors.filterMap (fun e => e.2.map (fun m => m.ack))
  forL d.enc.states (fun e d =>
    if e.2 % 4 = 2 ∧ acks.all (fun a => decide (d.drainEpoch e.2 ≤ a)) then d.setIdx e.1 0 else d) d

/-- A slot acknowledges an eviction epoch (R328). -/
def Dev.ackSlot (d : Dev) (k ep : Nat) : Dev := (d.onMirror k (fun m => { m with ack := max m.ack ep })).freeIndexes

/-- The draining indexes of epoch E that a slot holds (R299). -/
def Dev.evictList (d : Dev) (k ep : Nat) : List Nat :=
  (d.enc.states.filter (fun e => decide (e.2 % 4 = 2 ∧ e.2 / 256 = ep % 2 ^ 24) && d.mirrorBit k 0 e.1)).map (fun e => e.1)

/-- DICT_EVICT records (R305): 16,379 indexes each, LAST on the last. -/
def evictRecords (ep : Nat) (l : List Nat) : List (List Byte) :=
  let n := ceilDiv l.length 16379
  (List.range n).map (fun i =>
    let part := (l.drop (16379 * i)).take 16379
    kcs 0x07 (decide (i + 1 = n)).toNat 0 (leBytes 4 ep ++ leBytes 4 part.length ++ part.flatMap (leBytes 4)))

/-- R299: the DICT_EVICT of an epoch for a slot; a slot that holds none of its indexes has acknowledged it. -/
def Dev.evictSlot (d : Dev) (k ep : Nat) : Dev :=
  match d.mirror k with
  | none => d
  | some m =>
    let l := d.evictList k ep
    let d := d.onMirror k (fun m => { m with evict := m.evict.filter (fun e => e != ep) })
    if l.isEmpty then d.ackSlot k ep
    else
      let d := forL l (fun i d => d.setMirrorBit k 0 i false) d
      forL (evictRecords ep l) (fun r d => d.slotStream k m r) d

/-- R299: evictions whose last frame pinned to the old bank has been distributed or has ended, for a head's slots. -/
def Dev.evictDue (d : Dev) (h : Nat) : Dev :=
  let fs := (d.head h).frames
  forL (d.slotsOf h) (fun (k, m) d =>
    forL (m.evict.filter (fun ep => fs.all (fun e => decide (ep ≤ e.epoch)))) (fun ep d => d.evictSlot k ep) d) d

/-- R300: a slot too many epochs behind is reset. Evictions that wait for a frame of the old bank still wait: the frame may give
the slot such an index anew (R299). -/
def Dev.resetLag (d : Dev) (k : Nat) (m : Mirror) : Dev :=
  if d.rdF pgDICT Reg.DICT_CTL 23 16 < d.dictEpoch - m.ack then
    (((d.clearMirror k 0 67584).onMirror k (fun m => { m with ack := d.dictEpoch, reset := true })).needSlot k true).irq pgDICT 2
  else d

/-- Every slot held to ACK_LIMIT (R300). -/
def Dev.lagAll (d : Dev) : Dev :=
  (forL d.enc.mirrors (fun e d => match e.2 with
    | some m => d.resetLag e.1 m
    | none => d) d).freeIndexes

/-- Does a slot of a bank hold an index? -/
def Dev.bankIdxs (d : Dev) (bank : Nat) : List Nat :=
  (List.range 262144).filterMap (fun j =>
    let a := dictBase + bank * 0x400000 + 16 * j
    if d.slotValid a then some (d.slotIdx a) else none)

/-! ### Rebuild (R297, R298) -/

/-- DICT_CTL.REBUILD (R297, R324). -/
def Dev.rebuildStart (d : Dev) : Dev := if d.rebState = 0 then d.setReb 1 else d

/-- The period of R297 elapses: it starts a rebuild now, or as soon as one can start. -/
def Dev.rebuildPeriod (d : Dev) : Dev :=
  let p := d.rdN pgDICT Reg.DICT_PERIOD
  if p = 0 then d
  else ((d.toBase (d.enc.swapAt + p * 1200000)).onEnc (fun e => { e with periodDue := true })).rebuildLevel

/-- CLEAR: once no frame is pinned to the inactive bank, every slot of it is invalid (R297). -/
def Dev.bankClear (d : Dev) : Dev :=
  if d.rebState ≠ 1 then d
  else
    let b := 1 - d.dictBank
    if d.heads.any (fun e => e.2.frames.any (fun f => f.bank == b)) then d
    else (d.clear (dictBase + b * 0x400000) (dictBase + (b + 1) * 0x400000)).setReb 2

/-- COMPACT: recent slots of the active bank are copied into the same buckets of the inactive one (R297). -/
def Dev.compact (d : Dev) : Dev :=
  if d.rebState ≠ 2 then d
  else
    let b := d.dictBank
    let keep := d.rdF pgDICT Reg.DICT_CTL 15 8
    let ep := d.dictEpoch
    let d := forN 262144 (fun j d =>
      let a := dictBase + b * 0x400000 + 16 * j
      if d.slotValid a ∧ (ep + 256 - (d.byte (a + 15)).toNat) % 256 ≤ keep then
        match d.emptySlot (1 - b) (d.slotKey a) with
        | some x => d.store x (d.bytes a 16)
        | none => d
      else d) d
    d.setReb 3

/-- PWR_WARN is in force (R571): swaps are deferred. -/
def Dev.swapDeferred (d : Dev) : Bool := d.rdB pgPWR Reg.PWR_STAT 0

/-- DICT_STAT as read: SWAP_DEFERRED while PWR_WARN is in force (R298). -/
def Dev.dictStat (d : Dev) : Word := putBit (d.rd pgDICT Reg.DICT_STAT) 3 d.swapDeferred

/-- The swap (R298): deferred while PWR_WARN is in force. -/
def Dev.dictSwap (d : Dev) : Dev :=
  if d.rebState ≠ 3 then d
  else if d.swapDeferred then d.reply .waits
  else
    let b := 1 - d.dictBank
    let ep := (d.dictEpoch + 1) % 2 ^ 32
    let d := ((d.wrN pgDICT Reg.DICT_STAT (b * 4)).wrN pgDICT Reg.DICT_EPOCH ep).irq pgDICT 0
    let d := d.onEnc (fun e => { e with swapAt := d.clock.base, periodDue := false })
    let held := d.bankIdxs b
    let gone := (d.enc.states.filter (fun e => decide (e.2 % 4 = 1) && !held.contains e.1)).map (fun e => e.1)
    let d := (forL gone (fun i d => d.setIdx i (2 + ep % 2 ^ 24 * 256)) d).add64 pgDICT Reg.DICT_EVICTED gone.length
    let d := d.onEnc (fun e => { e with mirrors := e.mirrors.map (fun x =>
      (x.1, x.2.map (fun m => { m with evict := m.evict ++ [ep] }))) })
    let d := d.lagAll
    let d := forL d.someHeads (fun h d => d.evictDue h) d
    d.freeIndexes.rebuildLevel

/-- DICT registers written. -/
def Dev.dictWrite (d : Dev) (off : Nat) (v : Word) : Dev :=
  let d := d.regStore pgDICT off v
  let d := if off = Reg.DICT_CTL ∧ bit v 0 then d.rebuildStart else d
  (if off = Reg.DICT_CTL then d.lagAll else d).rebuildLevel

/-- R301: every state word reads FREE, in DICT_AREA too (R293). -/
def Dev.dictReset (d : Dev) : Dev :=
  let d := d.clear dictBase (dictBase + 0x800000)
  let d := forL d.enc.states (fun e d => d.storeArea (d.dictArea + 0x20000000 + e.1 * 4) (leBytes 4 0)) d
  let d := d.onEnc (fun e => { e with states := [], swapAt := d.clock.base, periodDue := false })
  forL [Reg.DICT_EPOCH, Reg.DICT_STAT, Reg.DICT_FREE, Reg.DICT_LIVE, Reg.DICT_DRAIN] (fun o d => d.wrReset pgDICT o) d

/-! ### Commands -/

/-- REBUILD (R297). -/
def execRebuild (r : Req) (s : State) : Host.Outcome State Fault Refusal := s.onPage r pgDICT Dev.rebuildStart

/-- REBUILD_PERIOD (R297). -/
def execRebuildPeriod (s : State) : Host.Outcome State Fault Refusal := s.run Dev.rebuildPeriod

/-- BANK_CLEAR (R297). -/
def execBankClear (s : State) : Host.Outcome State Fault Refusal := s.run Dev.bankClear

/-- COMPACT (R297). -/
def execCompact (s : State) : Host.Outcome State Fault Refusal := s.run Dev.compact

/-- DICT_SWAP (R298). -/
def execDictSwap (s : State) : Host.Outcome State Fault Refusal := s.run Dev.dictSwap

end Sys2Proof.Machine
end

