-- ==== Sys2Proof/Machine/Jpeg.lean ====
section
/-! DEFINITION. A tile's JPEG data (R291): the abbreviated format of ISO/IEC 10918-1 Annex B.4 with the quantisation of
Annex K.1 and the Huffman tables of Annex K.3, 16 × 16 pixels in one MCU of 4:2:0 sampling. -/
namespace Sys2Proof.Machine

/-- k numbers of 8 bits from a numeral, most significant first. -/
def beNums (k n : Nat) : List Nat := (List.range k).map (fun i => n / 256 ^ (k - 1 - i) % 256)

/-- Annex K.1: luminance. -/
def jpegLuma : List Nat :=
    beNums 54 0x100B0A101828333D0C0C0E131A3A3C370E0D1018283945380E11161D3357503E12162538446D674D182337405168715C31404E576779
    ++ beNums 10 0x7865485C5F6270646763
/-- Annex K.1: chrominance. -/
def jpegChroma : List Nat :=
    beNums 54 0x1112182F6363636312151A4263636363181A3863636363632F4263636363636363636363636363636363636363636363636363636363
    ++ beNums 10 0x63636363636363636363

/-- R291: a quantisation entry at quality q, clamped to 1 to 255. -/
def jpegQuant (q b : Nat) : Nat :=
  let s := if q < 50 then 5000 / q else 200 - 2 * q
  max 1 (min 255 ((b * s + 50) / 100))

/-- A Huffman table: the number of codes of each length from 1, and the symbols in order (Annex K.3). -/
structure Huff where
  bits : List Nat
  vals : List Nat

def huffDcL : Huff := ⟨[0, 1, 5, 1, 1, 1, 1, 1, 1], List.range 12⟩
def huffDcC : Huff := ⟨[0, 3, 1, 1, 1, 1, 1, 1, 1, 1, 1], List.range 12⟩
def huffAcL : Huff := ⟨[0, 2, 1, 3, 3, 2, 4, 3, 5, 5, 4, 4, 0, 0, 1, 125],
    beNums 54 0x01020300041105122131410613516107227114328191A1082342B1C11552D1F02433627282090A161718191A25262728292A34353637
    ++ beNums 54 0x38393A434445464748494A535455565758595A636465666768696A737475767778797A838485868788898A92939495969798999AA2A3
    ++ beNums 54 0xA4A5A6A7A8A9AAB2B3B4B5B6B7B8B9BAC2C3C4C5C6C7C8C9CAD2D3D4D5D6D7D8D9DAE1E2E3E4E5E6E7E8E9EAF1F2F3F4F5F6F7F8F9FA⟩
def huffAcC : Huff := ⟨[0, 2, 1, 2, 4, 4, 3, 4, 7, 5, 4, 4, 0, 1, 2, 119],
    beNums 54 0x000102031104052131061241510761711322328108144291A1B1C109233352F0156272D10A162434E125F11718191A262728292A3536
    ++ beNums 54 0x3738393A434445464748494A535455565758595A636465666768696A737475767778797A82838485868788898A92939495969798999A
    ++ beNums 54 0xA2A3A4A5A6A7A8A9AAB2B3B4B5B6B7B8B9BAC2C3C4C5C6C7C8C9CAD2D3D4D5D6D7D8D9DAE2E3E4E5E6E7E8E9EAF2F3F4F5F6F7F8F9FA⟩

/-- n in k bits, most significant first. -/
def bitsOf (k n : Nat) : List Bool := (List.range k).map (fun i => n.testBit (k - 1 - i))

/-- The codes of a table (Annex C), from a code length, the next code and the symbols left. -/
def huffCodes : Nat → Nat → List Nat → List Nat → List (Nat × List Bool)
  | _, _, [], _ => []
  | len, code, c :: bits, vals =>
    ((vals.take c).zipIdx.map (fun e => (e.1, bitsOf len (code + e.2)))) ++ huffCodes (len + 1) ((code + c) * 2) bits (vals.drop c)

/-- A symbol's code. -/
def Huff.code (t : Huff) (sym : Nat) : List Bool :=
  match (huffCodes 1 0 t.bits t.vals).find? (fun e => e.1 == sym) with
  | some e => e.2
  | none => []

/-- The magnitude category of a coefficient (Annex F), at most m. -/
def magnitude (m : Nat) (v : Int) : Nat := if v = 0 then 0 else min m (Nat.log2 v.natAbs + 1)

/-- The extra bits of a coefficient of category s. -/
def extraBits (s : Nat) (v : Int) : List Bool :=
  let a := min v.natAbs (2 ^ s - 1)
  bitsOf s (if 0 ≤ v then a else 2 ^ s - 1 - a)

/-- AC coefficients (Annex F.1.2.2), from a run of zeros. -/
def acBits (t : Huff) : Nat → List Int → List Bool
  | run, [] => if run = 0 then [] else t.code 0
  | run, v :: l =>
    if v = 0 then acBits t (run + 1) l
    else
      let s := magnitude 10 v
      (List.replicate (run / 16) (t.code 0xF0)).flatten ++ t.code (run % 16 * 16 + s) ++ extraBits s v ++ acBits t 0 l

/-- One block of coefficients in zig-zag order, against the DC value before it. -/
def blockBits (dc ac : Huff) (pred : Int) (b : List Int) : List Bool :=
  let diff := b.getD 0 0 - pred
  let s := magnitude 11 diff
  dc.code s ++ extraBits s diff ++ acBits ac 0 ((b.drop 1).take 63)

/-- Bits as bytes, padded with ones, each 0xFF followed by 0x00 (Annex B.1.1.5). -/
def scanBytes (l : List Bool) : List Byte :=
  (List.range ((l.length + 7) / 8)).flatMap (fun i =>
    let v := (List.range 8).foldl (fun a j => 2 * a + (l.getD (8 * i + j) true).toNat) 0
    if v = 255 then [0xFF, 0x00] else [BitVec.ofNat 8 v])

/-- Y, Cb and Cr of an XRGB8888 word, full range, as ITU-T T.871 rounds and clamps them (R291). -/
def ycbcr (w : Nat) : Nat × Nat × Nat :=
  let r := w / 65536 % 256
  let g := w / 256 % 256
  let b := w % 256
  (min 255 ((299 * r + 587 * g + 114 * b + 500) / 1000),
   min 255 ((886 * b + 128 * 1772 + 886 - (299 * r + 587 * g)) / 1772),
   min 255 ((701 * r + 128 * 1402 + 701 - (587 * g + 114 * b)) / 1402))

/-- Zig-zag order (Annex A.3.6): the row-order position of each coefficient. -/
def zigZag : List Nat :=
    beNums 32 0x000108100902030A11182019120B04050C131A21283029221B140D06070E151C ++ beNums 32 0x232A313839322B241D160F171E252C333A3B342D261F272E353C3D362F373E3F

/-- A coefficient in units of 2^-16 divided by its quantisation entry and rounded to the nearest integer (Annex A.3.4). -/
def quantise (s : Int) (q : Nat) : Int :=
  let m : Nat := (s.natAbs + q * 2 ^ 15) / (q * 2 ^ 16)
  if s < 0 then -(m : Int) else m

/-- One block of samples coded as quantised coefficients in zig-zag order. -/
def jpegBlock (quant samples : List Nat) : List Int :=
  let co := Config.forwardDct (samples.map (fun (v : Nat) => (v : Int) - 128))
  zigZag.map (fun i => quantise (co.getD i 0) (quant.getD i 1))

/-- The six blocks of a tile: four of luminance, then Cb and Cr (4:2:0 in one MCU). -/
def jpegBlocks (q : Nat) (pixels : List Nat) : List (List Int) :=
  let c := pixels.map ycbcr
  let lq := jpegLuma.map (jpegQuant q)
  let cq := jpegChroma.map (jpegQuant q)
  let luma := fun k => (List.range 64).map (fun i => (c.getD (128 * (k / 2) + 8 * (k % 2) + 16 * (i / 8) + i % 8) (0, 128, 128)).1)
  (List.range 4).map (fun k => jpegBlock lq (luma k))
    ++ [jpegBlock cq (Config.chromaHalf (c.map (fun p => p.2.1))), jpegBlock cq (Config.chromaHalf (c.map (fun p => p.2.2)))]

/-- SOI to EOI (R291). -/
def jpegData (q : Nat) (pixels : List Nat) : List Byte :=
  let co := jpegBlocks q pixels
  let b := fun k => co.getD k []
  let y := fun k => blockBits huffDcL huffAcL (if k = 0 then 0 else (b (k - 1)).getD 0 0) (b k)
  let bits := y 0 ++ y 1 ++ y 2 ++ y 3 ++ blockBits huffDcC huffAcC 0 (b 4) ++ blockBits huffDcC huffAcC 0 (b 5)
  ((beNums 21 0xFFD8FFC00011080010001003012200021101031101
    ++ beNums 14 0xFFDA000C03010002110311003F00).map (BitVec.ofNat 8)) ++ scanBytes bits ++ [0xFF, 0xD9]

end Sys2Proof.Machine
end

