-- ==== Sys2Proof/Machine/Encoder.lean ====
section
/-! DEFINITION. Change detection and coding (R275 to R292, R310 to R317): a frame's hashes, scroll bands, cells and tiles, its
commit and its distribution to mirror slots. -/
namespace Sys2Proof.Machine

/-! ### Hashes of a frame (R276, R277) -/

/-- A frame ready to be coded: head, number, timing, its pixels by line, ENC_HCTL in effect and its pinned bank. -/
structure Job where
  h : Nat
  f : Nat
  start : Nat
  ha : Nat
  va : Nat
  tw : Nat
  th : Nat
  px : Array (Array Nat)
  hctl : Word
  bank : Nat
  epoch : Nat
  grant : Bool

def Dev.job (d : Dev) (h : Nat) (e : EncFrame) : Job :=
  let ha := e.wd
  let va := e.ht
  { h := h, f := e.num, start := e.start, ha := ha, va := va, tw := ceilDiv ha 16, th := ceilDiv va 16
    px := (e.lines.map (fun l => (l.pixels.map (fun w => w.toNat)).toArray)).toArray
    hctl := (d.head h).hctl, bank := e.bank, epoch := e.epoch, grant := (d.head h).granted }

/-- The 256 pixel words of tile i, zero outside the active area (R276). -/
def Job.tile (j : Job) (i : Nat) : List Nat :=
  (List.range 256).map (fun k =>
    let x := 16 * (i % j.tw) + k % 16
    let y := 16 * (i / j.tw) + k / 16
    if x < j.ha then (j.px.getD y #[]).getD x 0 else 0)

/-- The bytes of pixel words (R276). -/
def pixelBytes (l : List Nat) : List Byte := l.flatMap (leBytes 4)

/-- A tile's key (R277). -/
def tileKey (words : List Nat) : Nat := crc64 (pixelBytes words) * 2 ^ 32 + crc32c (pixelBytes words)

/-- The line hashes (R276). -/
def Job.lineHashes (j : Job) : List Nat :=
  (List.range j.va).map (fun y => crc32c (pixelBytes ((j.px.getD y #[]).toList.take j.ha)))

abbrev ones64 : Nat := 0xFFFFFFFFFFFFFFFF
abbrev ones32 : Nat := 0xFFFFFFFF

/-- R278: a stored value matches a computed hash. -/
def hashMatch (ones stored computed : Nat) : Bool := decide (stored ≠ ones ∧ computed ≠ ones ∧ stored = computed)

/-- R278: a stored tile value marks the tile as lossy. -/
def lossyMark (stored computed : Nat) : Bool := decide (stored ≠ ones64 ∧ stored = computed ^^^ 1)

/-! ### Scroll detection (R284, R285) -/

/-- Offsets in order of increasing |d|, positive first. -/
def scrollOffsets : List Int := (List.range 1023).flatMap (fun (i : Nat) => [((i + 1 : Nat) : Int), -((i + 1 : Nat) : Int)])

/-- O[l + d] = N[l] in R284's sense. -/
def lineVotes (old new : Array Nat) (l : Nat) (dd : Int) : Bool :=
  let k := (l : Int) + dd
  decide (0 ≤ k) && decide (k < old.size) && hashMatch ones32 (old.getD k.toNat ones32) (new.getD l ones32)

/-- N[l] ≠ O[l] in R284's sense. -/
def lineChanged (old new : Array Nat) (l : Nat) : Bool := !hashMatch ones32 (old.getD l ones32) (new.getD l ones32)

/-- The votes of every line. -/
def scrollVotes (old new : Array Nat) : List Int :=
  (List.range new.size).flatMap (fun l =>
    if lineChanged old new l then (scrollOffsets.filter (lineVotes old new l)).take 4 else [])

/-- The chosen offset (R284 step 2). -/
def scrollOffset (votes : List Int) : Option Int :=
  let best := scrollOffsets.foldl (fun (b : Int × Nat) dd =>
    let n := votes.count dd
    if b.2 < n then (dd, n) else b) (0, 0)
  if 16 ≤ best.2 then some best.1 else none

/-- Maximal runs of lines that meet p, from line l on: first line and length. -/
def runsOf (p : Nat → Bool) : Nat → Nat → Option (Nat × Nat) → List (Nat × Nat)
  | 0, _, cur => cur.toList
  | n + 1, l, cur =>
    if p l then runsOf p n (l + 1) (match cur with
      | some (a, k) => some (a, k + 1)
      | none => some (l, 1))
    else cur.toList ++ runsOf p n (l + 1) none

/-- The bands (R284 step 3): line and height. -/
def scrollBands (old new : Array Nat) (dd : Int) : List (Nat × Nat) :=
  ((runsOf (fun l => lineVotes old new l dd) new.size 0 none).filter (fun (l0, n) =>
    decide (16 ≤ n) && (List.range n).any (fun k => lineChanged old new (l0 + k)))).take 8

/-- A tile row lies wholly inside a band (R285). -/
def rowInside (va : Nat) (bands : List (Nat × Nat)) (ty : Nat) : Bool :=
  bands.any (fun (l0, n) => decide (l0 ≤ 16 * ty ∧ min (16 * ty + 16) va ≤ l0 + n))
/-- A band covers a tile row only in part (R285). -/
def rowPart (va : Nat) (bands : List (Nat × Nat)) (ty : Nat) : Bool :=
  !rowInside va bands ty && bands.any (fun (l0, n) => decide (l0 < min (16 * ty + 16) va ∧ 16 * ty < l0 + n))

/-! ### Cells (R286, R287, R289) -/

/-- A layer of a line's effective words is composed on it (R143, R286). -/
def isComposed (h : Nat) (r : Sparse Word) (l : Nat) : Bool := layerComposed h r l && (l != 2 || bmLive h r)

/-- The words that must be the same on every line (R286): offsets 0x070 to 0x0E0 and the palettes' page half that the layer
selects. -/
def sameWords (h : Nat) (r : Sparse Word) (t : Nat) : List Word :=
  (List.range 29).map (fun i => eff h r (0x70 + 4 * i))
    ++ (List.range 256).map (fun i => eff h r (0x800 + 0x400 * effF h r Reg.HD_LAYER_CTL (4 + t) (4 + t) + 4 * i))

/-- The one tile layer of a line that R286 allows. -/
def cellLine (h : Nat) (r : Sparse Word) : Option Nat :=
  match [0, 1].filter (isComposed h r) with
  | [t] =>
    if winMode h r t = 0 ∧ layerAlpha h r t = 0xFF ∧ !isComposed h r 2 ∧ !isComposed h r 3 ∧ !bit (eff h r Reg.LT_CTL) 0 then some t
    else none
  | _ => none

/-- A write is of a kind that R286's last condition and R290 name, for a layer of a frame with the given words: to the
selected map, to the glyph set, to the registers or to the layer's palette. -/
def cellWrite (h : Nat) (r : Sparse Word) (t : Nat) (w : Nat × Nat × Nat × Nat) : Bool :=
  if w.1 = 1 then
    let g := tileGeom h r t
    meets w.2.2.1 w.2.2.2 g.map (4 * g.w * g.h) || glyphHit h r t w.2.2.1 w.2.2.2
  else w.1 == 0 || w.1 == 3 + effF h r Reg.HD_LAYER_CTL (4 + t) (4 + t)

/-- R286: the tile layer and the words of a cell-eligible frame. -/
def Dev.cellFrame (d : Dev) (h : Nat) (e : EncFrame) (hctl : Word) : Option (Nat × Sparse Word) :=
  match e.lines with
  | [] => none
  | b :: rest =>
    if !bit hctl 0 || !bit (d.picFeats h) 0 then none
    else match cellLine h b.regs with
      | none => none
      | some t =>
        let w := sameWords h b.regs t
        let same := rest.all (fun l => l.regs == b.regs || (cellLine h l.regs == some t && sameWords h l.regs t == w))
        let wrote := !e.fence && (d.head h).layerWr.any (fun x =>
          cellWrite h b.regs t x && decide (e.s0 ≤ x.2.1 ∧ x.2.1 ≤ e.s1))
        if same && !wrote then some (t, b.regs) else none

/-- A rectangle touches a pixel of tile i in the active area. -/
def Job.touches (j : Job) (i : Nat) (x y : Int) (w h : Nat) : Bool :=
  let tx : Int := (16 * (i % j.tw) : Nat)
  let ty : Int := (16 * (i / j.tw) : Nat)
  decide (max tx (max 0 x) < min (min (tx + 16) j.ha) (x + w)) && decide (max ty (max 0 y) < min (min (ty + 16) j.va) (y + h))

/-- R287: tile i of frame e is pure: neither the cursor nor a badge that one of the tile's lines was composed with touches it. -/
def pureTile (j : Job) (e : EncFrame) (r : Sparse Word) (i : Nat) : Bool :=
  let cc := eff j.h r Reg.CUR_CTL
  let pos := eff j.h r Reg.CUR_POS
  let x := signed 16 (field pos 15 0) - field cc 13 8
  let y := signed 16 (field pos 31 16) - field cc 21 16
  !(bit cc 0 && j.touches i x y 64 64)
    && ((e.lines.drop (16 * (i / j.tw))).take 16).all (fun l => l.badges.all (fun (bx, by_, bw, bh) =>
      !(decide (by_ ≤ l.line ∧ (l.line : Int) < by_ + bh) && j.touches i bx l.line bw 1)))

/-- The map cells that supply a pixel to tile i, as map indexes (R118, R289). -/
def Job.supply (j : Job) (r : Sparse Word) (t i : Nat) : List Nat :=
  let g := tileGeom j.h r t
  let xs := (List.range 16).map (fun k => 16 * (i % j.tw) + k)
  let ys := (List.range 16).map (fun k => 16 * (i / j.tw) + k)
  let cols := ((xs.filter (fun x => decide (x < j.ha))).map (fun x => (cellAt j.h r t g x 0).1)).eraseDups
  let rows := ((ys.filter (fun y => decide (y < j.va))).map (fun y => (cellAt j.h r t g 0 y).2.1)).eraseDups
  rows.flatMap (fun row => cols.map (fun c => row * g.w + c))

/-- The listed cells of a set of tiles, as a table of the map. -/
def Job.listed (j : Job) (r : Sparse Word) (t : Nat) (tiles : List Nat) : Array Bool :=
  let g := tileGeom j.h r t
  forL tiles (fun i a => forL (j.supply r t i) (fun c a => a.setIfInBounds c true) a) (Array.replicate (g.w * g.h) false)

/-- Maximal runs of listed cells, at most n long: first and length. -/
def cellRuns (n : Nat) (a : Array Bool) : List (Nat × Nat) :=
  (runsOf (fun c => a.getD c false) a.size 0 none).flatMap (fun (c0, k) =>
    (List.range (ceilDiv k n)).map (fun q => (c0 + n * q, min n (k - n * q))))

/-- The values behind CELL_LAYER, then the glyph base. -/
def layerWords (h : Nat) (r : Sparse Word) (t : Nat) : List Word :=
  [word t, eff h r (Reg.TA_GEOM + tOff t), eff h r (Reg.TA_CELL + tOff t), eff h r (Reg.TA_SCROLL + tOff t),
   eff h r Reg.HD_BGCOLOUR, eff h r (Reg.TA_GLYPH + tOff t)]

/-- The layer's palette. -/
def layerPalette (h : Nat) (r : Sparse Word) (t : Nat) : List Word :=
  (List.range 256).map (fun i => eff h r (0x800 + 0x400 * effF h r Reg.HD_LAYER_CTL (4 + t) (4 + t) + 4 * i))

/-- CELL_LAYER (R307). -/
def cellLayerRec (f : Nat) (l : List Word) : List Byte := kcs 0x20 0 f ((l.take 5).flatMap (fun w => leBytes 4 w.toNat))

/-- PALETTE (R307) over entries lo to lo + n - 1. -/
def paletteRec (f lo n : Nat) (p : List Word) : List Byte :=
  kcs 0x21 0 f (leBytes 1 lo ++ leBytes 1 0 ++ leBytes 2 n ++ ((p.drop lo).take n).flatMap (fun w => leBytes 4 w.toNat))

/-- R289: CELL_LAYER and PALETTE where they differ from the last committed frame's (none: it was not cell-eligible). -/
def layerRecs (f : Nat) (l p : List Word) (prev : Option (List Word × List Word)) : List (List Byte) :=
  match prev with
  | none => [cellLayerRec f l, paletteRec f 0 256 p]
  | some (l', p') =>
    let diff := (List.range 256).filter (fun i => p.getD i 0 != p'.getD i 0)
    (if l.take 5 = l'.take 5 then [] else [cellLayerRec f l]) ++
      (match diff.head?, diff.getLast? with
       | some a, some b => [paletteRec f a (b + 1 - a) p]
       | _, _ => [])

/-- CELL_UPDATE records of listed cells with their current values (R289, R307). -/
def Dev.cellRecs (d : Dev) (j : Job) (r : Sparse Word) (t : Nat) (a : Array Bool) : List (List Byte) :=
  let g := tileGeom j.h r t
  (cellRuns 16379 a).map (fun (c0, n) =>
    kcs 0x22 0 j.f (leBytes 2 (c0 / g.w) ++ leBytes 2 (c0 % g.w) ++ leBytes 2 n ++ leBytes 2 0
      ++ (List.range n).flatMap (fun k => leBytes 4 (d.cread j.h true (g.map + 4 * (c0 + k)) 4).v)))

/-! ### Tiles by pixels (R288 steps 4 to 8) -/

/-- TX and TY of a tile record (R306). -/
def Job.xy (j : Job) (i : Nat) : List Byte := leBytes 2 (i % j.tw) ++ leBytes 2 (i / j.tw)

/-- Runs of R292: entry and length minus 1. -/
def prunRuns (ents : List Nat) : List Nat → Option (Nat × Nat) → List Byte
  | [], cur => (cur.map (fun (w, k) => byteOf (ents.idxOf w * 16 + (k - 1)) 0)).toList
  | w :: l, cur =>
    match cur with
    | some (v, k) =>
      if v = w ∧ k < 16 then prunRuns ents l (some (v, k + 1))
      else byteOf (ents.idxOf v * 16 + (k - 1)) 0 :: prunRuns ents l (some (w, 1))
    | none => prunRuns ents l (some (w, 1))

/-- A PRUN record (R292, R306). -/
def Job.prun (j : Job) (i : Nat) (words : List Nat) : List Byte :=
  let ents := words.eraseDups
  kcs 0x14 0 j.f (j.xy i ++ [byteOf ents.length 0, 0, 0, 0] ++ ents.flatMap (leBytes 4) ++ prunRuns ents words none)

/-- JPEG_Q in effect (R321). -/
def jpegQ (hctl : Word) : Nat := max 1 (min 100 (field hctl 14 8))

/-- DICT_REF (R306). -/
def Job.dictRef (j : Job) (i idx : Nat) : List Byte := kcs 0x11 0 j.f (j.xy i ++ leBytes 4 idx)

/-- A block-coded tile counted (R323). -/
def Dev.blockPix (d : Dev) (counter : Nat) : Dev := (d.add64 pgENC counter 1).add64 pgENC Reg.ENC_BLOCK_PIX 256

/-- Steps 4 to 8 (R288): the record, and whether it was block-coded. -/
def Dev.codeTile (d : Dev) (j : Job) (i : Nat) (jpegOk : Bool) : Dev × List Byte × Bool :=
  let words := j.tile i
  let key := tileKey words
  let dict := bit j.hctl 2
  let (d, hit) := if dict then d.dictLookup j.bank key else (d, none)
  match hit with
  | some idx => (d.add64 pgENC Reg.ENC_REFS 1, j.dictRef i idx, false)
  | none =>
    if words.eraseDups.length ≤ 16 then (d.blockPix Reg.ENC_PRUNS, j.prun i words, true)
    else if jpegOk && bit j.hctl 3 then
      let q := jpegQ j.hctl
      (d.blockPix Reg.ENC_JPEGS, kcs 0x15 0 j.f (j.xy i ++ [byteOf q 0, 0, 0, 0] ++ jpegData q words), true)
    else
      let (d, ins) := if dict then d.dictInsert j.bank key (pixelBytes words) else (d, none)
      match ins with
      | some idx => (d.blockPix Reg.ENC_INSERTS, j.dictRef i idx, true)
      | none => (d.blockPix Reg.ENC_RAWS, kcs 0x13 0 j.f (j.xy i ++ pixelBytes words), true)

/-- FRAME_BEGIN to FRAME_END (R306, R310). -/
def frameRecords (j : Job) (flags : Nat) (cells copies tiles : List (List Byte)) : List (List Byte) :=
  let layer := cells.filter (fun r => recType r != 0x22)
  let updates := cells.filter (fun r => recType r == 0x22)
  let begin_ := kcs 0x02 flags j.f (leBytes 8 j.f ++ leBytes 8 j.start ++ leBytes 2 j.ha ++ leBytes 2 j.va ++ leBytes 4 j.epoch)
  let body := begin_ :: (layer ++ copies ++ updates ++ tiles)
  body ++ [kcs 0x03 0 j.f (leBytes 8 j.f ++ leBytes 4 (body.length + 1) ++ leBytes 4 ((body.map List.length).sum + 24))]

/-! ### A frame (R283, R288, R313) -/

/-- Tiles coded one after another. -/
def Dev.codeTiles (d : Dev) (j : Job) (lossy : Array Bool) (jpeg : Bool) (l : List (Nat × Option (Option (List Byte)))) :
    Dev × List (Nat × Option (List Byte)) × Nat :=
  l.foldl (fun (acc : Dev × List (Nat × Option (List Byte)) × Nat) e =>
    match e.2 with
    | some given => (acc.1, acc.2.1 ++ [(e.1, given)], acc.2.2)
    | none =>
      let (d, r, b) := acc.1.codeTile j e.1 (jpeg && !lossy.getD e.1 false)
      (d, acc.2.1 ++ [(e.1, some r)], acc.2.2 + b.toNat)) (d, [], 0)

/-- Cells named in CELL_UPDATE records. -/
def cellCount (l : List (List Byte)) : Nat :=
  ((l.filter (fun r => recType r == 0x22)).map (fun r => ofLe ((r.drop 12).take 2))).sum

/-- A frame coded (R283 to R292, R313): its records and journal, and the tiles that were block-coded. -/
def Dev.codeFrame (d : Dev) (j : Job) (e : EncFrame) : Dev × Coded × Nat :=
  let x := d.head j.h
  let n := j.tw * j.th
  let keys := ((List.range n).map (fun i => crc64 (pixelBytes (j.tile i)))).toArray
  let stored := x.tiles.toArray
  let lines := j.lineHashes
  let old := x.hashes.toArray
  let new := lines.toArray
  let dd := if bit j.hctl 1 && !j.grant then scrollOffset (scrollVotes old new) else none
  let bands := match dd with
    | some v => scrollBands old new v
    | none => []
  let tileIdx := List.range n
  let st := fun i => stored.getD i ones64
  let ha := fun i => keys.getD i 0
  let lossy := (tileIdx.map (fun i => !j.grant && lossyMark (st i) (ha i))).toArray
  let inside := fun i => rowInside j.va bands (i / j.tw)
  let same := fun i => !j.grant && !rowPart j.va bands (i / j.tw) && hashMatch ones64 (st i) (ha i)
  let cf := d.cellFrame j.h e j.hctl
  let r := match cf with
    | some (_, r) => r
    | none => []
  let t := match cf with
    | some (t, _) => t
    | none => 0
  let pure_ := (tileIdx.map (fun i => cf.isSome && pureTile j e r i && !lossy.getD i false)).toArray
  let sem := tileIdx.filter (fun i => pure_.getD i false && !inside i && !same i)
  let listed := if cf.isSome then j.listed r t sem else #[]
  let touched := fun i => cf.isSome && (j.supply r t i).any (fun c => listed.getD c false)
  let todo := tileIdx.filterMap (fun i =>
    if inside i then none
    else if pure_.getD i false && !same i then some (i, some none)
    else if same i && !touched i then none
    else some (i, none))
  let (d, tiles, blk) := d.codeTiles j lossy true todo
  let l := layerWords j.h r t
  let p := layerPalette j.h r t
  let prev := if x.cell && !j.grant then some (x.layer, x.palette) else none
  let cells := if cf.isSome then layerRecs j.f l p prev ++ d.cellRecs j r t listed else []
  let copies := bands.map (fun (l0, hh) =>
    kcs 0x10 0 j.f ([0, unsign 16 (l0 + dd.getD 0), 0, l0, j.ha, hh].flatMap (leBytes 2)))
  let d := d.add64 pgENC Reg.ENC_COPIES copies.length
  let jp := fun i => tiles.any (fun e => e.1 == i && (match e.2 with
    | some rec => recType rec == 0x15
    | none => false))
  let flags := j.grant.toNat + 2 * cf.isSome.toNat
  let needKey := e.key && !j.grant
  let kTodo := tileIdx.map (fun i =>
    match tiles.find? (fun e => e.1 == i) with
    | some (_, some rec) => (i, some (some rec))
    | some (_, none) => (i, some none)
    | none => if pure_.getD i false then (i, some none) else (i, none))
  let (d, kTiles, kBlk) := if needKey then d.codeTiles j lossy false kTodo else (d, [], 0)
  let kCells := if needKey && cf.isSome then
      layerRecs j.f l p none ++ d.cellRecs j r t (j.listed r t (tileIdx.filter (fun i => pureTile j e r i)))
    else []
  (d, { tiles := tiles, keyTiles := if needKey then some kTiles else none, copies := copies, cellRecs := cells
        keyCells := kCells, flags := flags
        hashes := tileIdx.map (fun i => if jp i then ha i ^^^ 1 else ha i)
        lines := lines, cell := cf.isSome, layer := l, palette := p }, blk + kBlk)

/-- R290: the tiles coded semantically are coded by pixels instead; how many of them are block-coded. -/
def Dev.fallBack (d : Dev) (j : Job) (c : Coded) : Dev × Coded × Nat :=
  let lossy := ((d.head j.h).tiles.zip c.hashes).map (fun e => !j.grant && lossyMark e.1 e.2)
  let (d, tiles, n) := d.codeTiles j lossy.toArray true (c.tiles.map (fun e => (e.1, e.2.map some)))
  let jp := fun i => tiles.any (fun e => e.1 == i && (match e.2 with
    | some rec => recType rec == 0x15
    | none => false))
  let kTodo := c.keyTiles.map (fun l => l.map (fun e => (e.1, match e.2 with
    | some rec => some (some rec)
    | none => match tiles.find? (fun x => x.1 == e.1) with
      | some (_, some rec) => some (some rec)
      | _ => none)))
  let (d, keyTiles, n) := match kTodo with
    | none => (d, none, n)
    | some l => let (d, k, m) := d.codeTiles j lossy.toArray false l; (d, some k, n + m)
  let fresh := (c.tiles.filter (fun e => e.2.isNone)).map (fun e => e.1)
  (d, { c with tiles := tiles, keyTiles := keyTiles, cellRecs := [], keyCells := [], cell := false
               flags := c.flags % 2
               hashes := c.hashes.zipIdx.map (fun (v, i) => if fresh.contains i && jp i then v ^^^ 1 else v) }, n)

/-- R290: a write that makes the encoder fall back has committed. -/
def Dev.mustFallBack (d : Dev) (h : Nat) (e : EncFrame) (c : Coded) : Bool :=
  match e.lines with
  | b :: _ =>
    let t := (c.layer.getD 0 0).toNat
    c.cell && (d.head h).layerWr.any (fun x => cellWrite h b.regs t x && decide (e.s1 < x.2.1))
  | [] => false

/-- The delta variant of a coded frame. -/
def Coded.delta (c : Coded) (j : Job) : List (List Byte) :=
  frameRecords j c.flags c.cellRecs c.copies (c.tiles.filterMap (fun e => e.2))

/-- Its key variant (R313). -/
def Coded.key (c : Coded) (j : Job) : Option (List (List Byte)) :=
  c.keyTiles.map (fun l => frameRecords j (c.flags ||| 1) c.keyCells [] (l.filterMap (fun e => e.2)))

/-- The staging areas (R282). -/
def Dev.staging (d : Dev) (h k : Nat) : Nat :=
  d.rdF pgENC Reg.ENC_AREA 17 0 * 2 ^ 30 + h * 0x4000000 + (2 + k) * 0x1000000

/-- Both variants written to the staging areas (R283, R312). -/
def Dev.stage (d : Dev) (h : Nat) (j : Job) (c : Coded) : Dev :=
  let d := d.storeArea (d.staging h 0) (c.delta j).flatten
  match c.key j with
  | some k => d.storeArea (d.staging h 1) k.flatten
  | none => d

/-- A frame's entry among the pending frames replaced. -/
def Dev.setFrame (d : Dev) (h : Nat) (e : EncFrame) : Dev :=
  d.onHead h (fun x => { x with frames := x.frames.map (fun y => if y.num = e.num then e else y) })

/-- The frame that the encoder would code next on a head: the oldest pending one, once its last line has been taken and
unless it has been coded (R283). -/
def Dev.nextToCode (d : Dev) (h : Nat) : Option EncFrame :=
  match (d.head h).frames with
  | e :: _ => if e.coded.isNone && decide (e.ht ≤ e.lines.length) then some e else none
  | [] => none

/-- R320: once no frame of the old head is pending, MOVED goes to every viewer; a session of this chip then views the new head
in its own slot (same chip) or in a slot of the new chip. -/
def Dev.movedDue (d : Dev) (h : Nat) : Dev :=
  match (d.head h).moved with
  | none => d
  | some (next, chip, head, slots) =>
    if !(d.head h).frames.isEmpty then d
    else
      let here := decide (chip = d.myAddr)
      let r := kcs 0x04 here.toNat 0 (leBytes 8 next ++ leBytes 2 chip ++ leBytes 1 head ++ leBytes 1 0)
      forL (d.slotsOf h) (fun (k, m) d =>
        let d := d.slotStream k m r
        if here then d.onMirror k (fun m => { m with head := head })
        else
          let d := d.setMirror k none
          match m.chip, slots.find? (fun e => e.1 == k) with
          | none, some (_, slot) =>
            ((d.onSess k (fun x => { x with remoteSlot := some (chip, slot) })).setSd k dMIRROR 2 slot).setSd k dFLAGS 1 1
          | _, _ => d) (d.onHead h (fun x => { x with moved := none }))

/-- CODE_FRAME (R283): the frame is coded; its block-coded pixels stay in ENC_BACKLOG until coding completes (assumption
log 26). A poisoned surface withholds the frame (R433). -/
def Dev.beginCoding (d : Dev) (h : Nat) : Dev :=
  match d.nextToCode h with
  | none => d
  | some e =>
    let j := d.job h e
    let row := d.surfaceRow h e 0
    if d.poisoned row (j.ha * 4 * j.va) then ((d.poisonRead (d.poisonAddr row (j.ha * 4 * j.va))).withhold h e.num false).movedDue h
    else
      let (d, c, n) := d.codeFrame j e
      let d := (d.setFrame h { e with coded := some c, backlog := 256 * n }).wrN pgENC Reg.ENC_BACKLOG
        (d.rdN pgENC Reg.ENC_BACKLOG + 256 * n)
      d.stage h j c

/-! ### Distribution (R314, R315) -/

/-- The glyphs that CELL_UPDATE records name, below the glyph count (R314). -/
def namedGlyphs (l : List Word) (records : List (List Byte)) : List Nat :=
  let gcount := field (l.getD 1 0) 31 19 + 1
  ((records.filter (fun r => recType r == 0x22)).flatMap (fun r =>
    (List.range (ofLe ((r.drop 12).take 2))).map (fun k => ofLe ((r.drop (16 + 4 * k)).take 4) % 8192))).filter
      (fun g => decide (g < gcount))

/-- Glyph size from a CELL word (R120). -/
def glyphSize (cell : Word) : Nat :=
  let cw := max (field cell 4 0) 3 + 1
  let ch := max (field cell 10 5) 7 + 1
  ((cw * 2 ^ field cell 13 12 + 7) / 8 * ch + 3) / 4 * 4

/-- GLYPH_DEF records for glyphs marked in a table (R307, R314). -/
def Dev.glyphRecs (d : Dev) (h f : Nat) (l : List Word) (a : Array Bool) : List (List Byte) :=
  let gsz := glyphSize (l.getD 2 0)
  let base := (l.getD 5 0).toNat
  (cellRuns (max 1 (65516 / gsz)) a).map (fun (g0, n) =>
    kcs 0x23 0 f (leBytes 2 g0 ++ leBytes 2 n ++ leBytes 2 gsz ++ leBytes 2 0
      ++ leBytes (n * gsz) (d.cread h true (base + g0 * gsz) (n * gsz)).v))

/-- A DICT_REF expanded for a slot (R314): none where the tile copy is poisoned. -/
def Dev.expandRef (d : Dev) (k f : Nat) (r : List Byte) : Dev × Option (List Byte) :=
  let i := ofLe ((r.drop 12).take 4)
  if d.mirrorBit k 0 i then (d, some r)
  else
    let a := d.dictArea + i * 1024
    if d.poisoned a 1024 then (d.poisonRead (d.poisonAddr a 1024), none)
    else
      let px := d.bytes a 1024
      (d.setMirrorBit k 0 i true,
       some (kcs 0x12 0 f ((r.drop 8).take 8 ++ leBytes 8 (crc64 px) ++ leBytes 4 (crc32c px) ++ px)))

/-- R433: the slots of a poisoned index invalidated in both banks. -/
def Dev.dropIndex (d : Dev) (i : Nat) : Dev :=
  forN 524288 (fun j d =>
    let a := dictBase + 16 * j
    if d.slotValid a ∧ d.slotIdx a = i then d.store (a + 14) [byteOf ((d.byte (a + 14)).toNat % 128) 0] else d) d

/-- A frame's records as a slot receives them (R314): references expanded, FRAME_END counted anew. None where a tile copy
cannot be read. -/
def Dev.expand (d : Dev) (h k f : Nat) (layer : List Word) (records : List (List Byte)) : Dev × Option (List (List Byte)) :=
  let t := (layer.getD 0 0).toNat
  let named := namedGlyphs layer records
  let lacks := forL named (fun g a => if d.mirrorBit k (glyphOff t) g then a else a.setIfInBounds g true)
    (if named.isEmpty then #[] else Array.replicate 8192 false)
  let glyphs := d.glyphRecs h f layer lacks
  let d := forL named (fun g d => d.setMirrorBit k (glyphOff t) g true) d
  let (d, out) := records.foldl (fun (acc : Dev × Option (List (List Byte))) r =>
    match acc.2 with
    | none => acc
    | some l =>
      if recType r = 0x11 then
        match acc.1.expandRef k f r with
        | (d, some r') => (d, some (l ++ [r']))
        | (d, none) => (d.dropIndex (ofLe ((r.drop 12).take 4)), none)
      else (acc.1, some (l ++ [r]))) (d, some [])
  (d, out.map (fun l =>
    let head := l.takeWhile (fun r => recType r == 0x02 || recType r == 0x20 || recType r == 0x21)
    let rest := (l.drop head.length).dropLast
    let body := head ++ glyphs ++ rest
    body ++ [kcs 0x03 0 f (leBytes 8 f ++ leBytes 4 (body.length + 1) ++ leBytes 4 ((body.map List.length).sum + 24))]))

/-- A committed frame to one mirror slot (R43, R299, R300, R314, R316). A session that still views another chip's head, whose MOVED
is on its way (R320), receives nothing yet. -/
def Dev.toSlot (d : Dev) (h : Nat) (j : Job) (c : Coded) (k : Nat) : Dev :=
  match d.mirror k with
  | none => d
  | some m =>
    let d := if m.reset then (d.slotStream k m (kcs 0x09 0 0 [])).onMirror k (fun m => { m with reset := false }) else d
    let pick := if m.chip.isNone && (d.sess k).remoteSlot.isSome then none
      else if m.needKey then (if j.grant then some (c.delta j) else if m.needAt < j.start then c.key j else none)
      else some (c.delta j)
    match pick with
    | none => d
    | some records =>
      let d := if m.needKey then d.needSlot k false else d
      let isKey := ((records.head?.map recFlags).getD 0) % 2 = 1
      let d := if isKey then d.clearMirror k 65536 2048 else d
      match d.expand h k j.f c.layer records with
      | (d, some l) => d.slotFrame k m l
      | (d, none) =>
        (if m.chip.isNone then (d.setSd k dDROPPED 8 (d.sd k dDROPPED 8 + 1)).irq pgSESS 3 else d).needSlot k true

/-- R317: heads are served in descending ENC_PRIO and then in ascending frame start instant: another head's coded frame with
block-coded pixels left is served before this one's. -/
def Dev.servedLater (d : Dev) (h : Nat) (e : EncFrame) : Bool :=
  let prio := fun g => d.rdF (pgHD g) Reg.HD_MODE 11 8
  decide (0 < e.backlog) && d.someHeads.any (fun g => g != h && (match (d.head g).frames with
    | b :: _ => b.coded.isSome && decide (0 < b.backlog ∧ (prio h < prio g ∨ prio h = prio g ∧ b.start < e.start))
    | [] => false))

/-- ENC_CELLS (R323): the cells of a committed frame's CELL_UPDATE records, those of the key variant where they are coded anew. -/
def Dev.countCells (d : Dev) (c : Coded) : Dev :=
  d.add64 pgENC Reg.ENC_CELLS (cellCount c.cellRecs + cellCount (c.keyCells.filter (fun r => !c.cellRecs.contains r)))

/-- FRAME_COMMIT (R281, R290, R302, R312, R314): coding completes. A frame that falls back has further tiles to code first
(R290), which enter ENC_BACKLOG (R317): coding completes when the command comes again. -/
def Dev.commitFrame (d : Dev) (h : Nat) : Dev :=
  match (d.head h).frames with
  | [] => d
  | e :: _ =>
    match e.coded with
    | none => d
    | some c =>
      let j := d.job h e
      if d.mustFallBack h e c then
        let (d, c, n) := d.fallBack j c
        ((((d.setFrame h { e with coded := some c, backlog := e.backlog + 256 * n }).wrN pgENC Reg.ENC_BACKLOG
          (d.rdN pgENC Reg.ENC_BACKLOG + 256 * n)).stage h j c)).reply .waits
      else if d.servedLater h e then d.reply .waits
      else
      let d := d.countCells c
      let x := d.head h
      let d := d.setHead h { x with tiles := c.hashes, hashes := c.lines, cell := c.cell, layer := c.layer
                                    palette := c.palette, granted := false, glyphDirty := 0 }
      let slots := (d.slotsOf h).map (fun s => s.1)
      let d := forN 2 (fun t d =>
        if x.glyphDirty.testBit t then forL slots (fun k d => d.clearMirror k (glyphOff t) 1024) d else d) d
      let d := d.evictDue h
      let d := forL slots (fun k d => d.toSlot h j c k) d
      ((d.endPending h e.num Reg.ENC_SENT).evictDue h).movedDue h

/-! ### Skipping (R317) -/

/-- The head whose pending frame R317 skips while coding: the lowest ENC_PRIO below 8, then the highest number. -/
def Dev.skipVictim (d : Dev) : Option Nat :=
  let prio := fun h => d.rdF (pgHD h) Reg.HD_MODE 11 8
  (d.someHeads.filter (fun h => isV h && !(d.head h).frames.isEmpty && decide (prio h ≤ 7))).foldl (fun best h =>
    match best with
    | none => some h
    | some b => if prio h < prio b ∨ (prio h = prio b ∧ b < h) then some h else some b) none

/-- SKIP_WHILE_CODING (R317): while ENC_BACKLOG exceeds ENC_ABORT_LVL, one pending frame is skipped. -/
def Dev.skipCoding (d : Dev) : Dev :=
  if d.rdN pgENC Reg.ENC_BACKLOG ≤ d.rdN pgENC Reg.ENC_ABORT_LVL then d
  else match d.skipVictim with
    | none => d
    | some h =>
      match (d.head h).frames with
      | [] => d
      | e :: _ => ((((d.endPending h e.num Reg.ENC_SKIPPED).irq (pgHD h) 8).irq pgENC 1).irq pgENC 2).movedDue h

/-! ### Commands -/

/-- CODE_FRAME (R283). -/
def execCodeFrame (h : VHead) (s : State) : Host.Outcome State Fault Refusal := s.run (fun d => d.beginCoding h)

/-- SKIP_WHILE_CODING (R317). -/
def execSkipWhileCoding (s : State) : Host.Outcome State Fault Refusal := s.run Dev.skipCoding

/-- FRAME_COMMIT (R312). -/
def execFrameCommit (h : VHead) (s : State) : Host.Outcome State Fault Refusal := s.run (fun d => d.commitFrame h)

end Sys2Proof.Machine
end

