-- ==== Sys2Proof/Machine/Sessions.lean ====
section
/-! DEFINITION. Sessions (R326 to R335): opening and closing, received records, control, viewer input. -/
namespace Sys2Proof.Machine

/-- SESS_OPEN: sessions whose STATE is not CLOSED (R333). -/
def Dev.countOpen (d : Dev) (up : Bool) : Dev :=
  d.wrN pgSESS Reg.SESS_OPEN (if up then d.rdN pgSESS Reg.SESS_OPEN + 1 else d.rdN pgSESS Reg.SESS_OPEN - 1)

/-- STREAM_START (R305) of a session on a head of this chip. -/
def Dev.streamStart (d : Dev) (s h : Nat) (role : Bool) : List Byte :=
  kcs 0x01 0 0 (leBytes 2 1 ++ leBytes 1 role.toNat ++ leBytes 1 0 ++ leBytes 2 s ++ leBytes 2 0 ++ leBytes 8 (d.nameOf h)
    ++ leBytes 2 d.myAddr ++ leBytes 1 h ++ leBytes 1 0 ++ leBytes 2 (d.hactive h) ++ leBytes 2 (d.vactive h)
    ++ leBytes 4 (d.fperiod h) ++ leBytes 4 0 ++ leBytes 8 (d.origin h))

/-- STREAM_END (R305). -/
def streamEnd (reason : Nat) : List Byte := kcs 0x08 0 0 (leBytes 1 reason)

/-- The holder of a console's control closes or ends (R330). -/
def Dev.loseControl (d : Dev) (s : Nat) : Dev :=
  let name := d.sessName s
  if d.controller name = some s then d.takeControl name none else d

/-- A session becomes ENDING (R328, R331), its STREAM_END being sent. -/
def Dev.endSession (d : Dev) (s reason : Nat) : Dev :=
  let d := d.loseControl s
  let d := (d.setSd s dREASON 1 reason).setSd s dSTATE 1 2
  d.onMirror s (fun m => { m with head := 255 })

/-- R331: every session viewing a head's console receives STREAM_END, here or on another chip. -/
def Dev.endSessions (d : Dev) (h reason : Nat) : Dev :=
  let slots := d.slotsOf h
  let d := forL slots (fun (k, m) d =>
    match m.chip with
    | none => (d.sessStream k (streamEnd reason)).endSession k reason
    | some _ => (d.slotStream k m (streamEnd reason)).setMirror k none) d
  if slots.isEmpty then d else (d.irq pgSESS 1).freeIndexes

/-! ### SESS_CMD (R329) -/

/-- The descriptor's fields lie within R326's limits. -/
def Dev.descOk (d : Dev) (s : Nat) : Bool :=
  let suite := d.sd s dSUITE 1
  decide (suite = 1 ∨ suite = 2)
    && [dTXLOG2, dRXCLOG2, dRXPLOG2].all (fun o => decide (16 ≤ d.sd s o 1 ∧ d.sd s o 1 ≤ 24))
    && [dTXBASE, dRXCBASE, dRXPBASE].all (fun o => decide (d.sd s o 8 % 4096 = 0))

/-- SND_SEL of a session (R356). -/
def Dev.sndSel (d : Dev) (s : Nat) : Nat := d.num (audioBase + 0x40400 + 2 * s) 2

/-- A session opened on a head of this chip: its slot cleared, its first record sent (R302, R329). -/
def Dev.openLocal (d : Dev) (s h : Nat) : Dev :=
  let d := d.clearMirror s 0 67584
  let d := d.setMirror s (some { head := h, ack := d.dictEpoch, needKey := true, needAt := d.ft, chip := none, sess := s, snd := 0
                                 evict := [], reset := false })
  let d := (d.setSd s dMIRROR 2 s).setSd s dSTATE 1 1
  d.sessStream s (d.streamStart s h false)

/-- Where a console that is not here is bound (R329, R402, R403): as this chip's own table says where it is the name's home; else
as its home answers, which is free (assumption log 27). The chip; 0 where it is not bound. -/
def Dev.boundAt (d : Dev) (name : Nat) (w : Word) : Option Nat :=
  if name = 0 then none
  else match d.homeOf name with
    | none => none
    | some a =>
      if a = d.myAddr then (match d.loc name with
        | some e => if e.chip = d.myAddr then none else some e.chip
        | none => none)
      else if field w 1 0 = 0 then none else some (field w 15 4)

/-- OPEN (R329, R405): the result. A console of another chip is asked for there; its answer is free (assumption log 27). -/
def Dev.cmdOpen (d : Dev) (s : Nat) : Dev × Nat :=
  if d.sessState s ≠ 0 then (d, 1)
  else
    let name := d.sessName s
    let start := fun (d : Dev) =>
      ((((d.setSd s dROLE 1 0).setSd s dFLAGS 1 1).setSd s dREASON 1 0).countOpen true).doorbell s
    match d.headOf name with
    | some h =>
      if !d.descOk s then (d, 3) else ((start d).openLocal s h, 0)
    | none =>
      let w := d.free
      match d.boundAt name w with
      | none => (d, 2)
      | some chip =>
        let d := d.drew
        if !d.descOk s then (d, 3)
        else
          let slot := 1024 + field w 25 16
          let d := d.msg 1 chip msgOpenSlot [name, s, d.sndSel s]
          if bit w 2 then (d, 4)
          else
            (((start d).onSess s (fun x => { x with remoteSlot := some (chip, slot), awaitStart := true, early := [] })).setSd s dMIRROR
              2 slot |>.setSd s dSTATE 1 1, 0)

/-- CLOSE (R329). -/
def Dev.cmdClose (d : Dev) (s : Nat) : Dev × Nat :=
  if d.sessState s = 0 then (d, 1)
  else
    let d := d.sessRecord s (streamEnd 2)
    let d := d.loseControl s
    let d := match (d.sess s).remoteSlot with
      | some (chip, slot) => d.msg 1 chip msgReleaseSlot [slot]
      | none => d
    let d := ((d.setSd s dREASON 1 2).setSd s dSTATE 1 0).setMirror s none
    let d := d.onSess s (fun _ => {})
    ((d.countOpen false).freeIndexes, 0)

/-- GRANT (R330). -/
def Dev.cmdGrant (d : Dev) (s : Nat) : Dev × Nat :=
  if d.sessState s ≠ 1 then (d, 1)
  else
    let name := d.sessName s
    if (d.headOf name).isNone && (d.sessChip s).isNone then (d, 2) else (d.takeControl name (some s), 0)

/-- REVOKE (R329). -/
def Dev.cmdRevoke (d : Dev) (s : Nat) : Dev × Nat :=
  if d.sessState s ≠ 1 then (d, 1) else (d.loseControl s, 0)

/-- KEYFRAME (R329). -/
def Dev.cmdKeyframe (d : Dev) (s : Nat) : Dev × Nat :=
  if d.sessState s ≠ 1 then (d, 1) else (d.needKey s, 0)

/-- INJECT (R329): every command ends at a record boundary, so the record goes out now, or once the ring has room. -/
def Dev.cmdInject (d : Dev) (s : Nat) : Dev × Nat :=
  if d.sessState s ≠ 1 then (d, 1)
  else
    let n := max 1 (min 16384 (d.sd s dINJLEN 2))
    let plain := d.bytes (d.sd s dINJADDR 8) n
    let d := if d.txFree s < n + 22 then d.irq pgSESS 3 else d
    ((d.onSess s (fun x => { x with
      injects := x.injects ++ [(d.sd s dINJTYPE 1, plain, decide (d.sd s dINJFLAGS 1 % 2 = 1))] })).flushInjects s, 0)

/-- KEY_LOAD (R329). -/
def Dev.cmdKeyLoad (d : Dev) (s : Nat) (rx : Bool) : Dev × Nat :=
  let key := d.enc.keyStage.flatMap (fun w => leBytes 4 w.toNat)
  match d.sessState s, rx with
  | 0, false => ((d.onSess s (fun x => { x with txKey := key })).setSd s dTXSEQ 8 0, 0)
  | 0, true => ((d.onSess s (fun x => { x with rxKey := key })).setSd s dRXSEQ 8 0, 0)
  | 1, false => (d.onSess s (fun x => { x with txStaged := some key }), 0)
  | 1, true => (d.onSess s (fun x => { x with rxStaged := some key }), 0)
  | _, _ => (d, 1)

/-- The command ends: RESULT, CMD_DONE (R333). -/
def Dev.sessDone (x : Dev × Nat) : Dev := (x.1.wrN pgSESS Reg.SESS_CMD_STAT (x.2 * 16)).irq pgSESS 0

/-- SESS_CMD written (R329, R333): other values of OP start nothing, and end with RESULT 0. -/
def Dev.sessCmd (d : Dev) (v : Word) : Dev :=
  let s := field v 9 0
  Dev.sessDone (match field v 19 16 with
    | 1 => d.cmdOpen s
    | 2 => d.cmdClose s
    | 3 => d.cmdGrant s
    | 4 => d.cmdRevoke s
    | 5 => d.cmdKeyframe s
    | 6 => d.cmdInject s
    | 7 => d.cmdKeyLoad s (bit v 12)
    | _ => (d, 0))

/-! ### Received records (R328) -/

/-- An ACK of a session (R299, R328): its slot's ACK_EPOCH advances, here or at the encoding chip. -/
def Dev.viewerAck (d : Dev) (s ep : Nat) : Dev :=
  if d.sessState s ≠ 1 then d
  else match (d.sess s).remoteSlot with
    | some (chip, slot) => d.msg 1 chip msgAck [slot, ep]
    | none => d.ackSlot s ep

/-- A KEY_REQ of a session (R328). -/
def Dev.viewerKeyReq (d : Dev) (s : Nat) : Dev := if d.sessState s ≠ 1 then d else d.needKey s

/-- A record put into the plaintext ring; none where it does not fit. -/
def Dev.toPlain (d : Dev) (s : Nat) (r : List Byte) : Option Dev :=
  let size := 2 ^ ringLog (d.sd s dRXPLOG2 1)
  let prod := d.sd s dRXPPROD 4
  if size < (prod + 2 ^ 32 - (d.sess s).rxpCons) % 2 ^ 32 + r.length then none
  else some (((d.ringStore (d.sd s dRXPBASE 8) size prod r).setSd s dRXPPROD 4 (prod + r.length)).irq pgSESS 2)

/-- Whole KCS records at the front of the received plaintext handled, at most n; what waits stays in rxBuf. A LEN below 8
counts as 8. -/
def Dev.takeRecords (d : Dev) (s : Nat) : Nat → Dev
  | 0 => d
  | n + 1 =>
    let buf := (d.sess s).rxBuf
    let len := max 8 (ofLe ((buf.drop 2).take 2))
    if buf.length < 8 ∨ buf.length < len then d
    else
      let r := buf.take len
      let done := fun (d : Dev) => (d.onSess s (fun x => { x with rxBuf := buf.drop len })).takeRecords s n
      if recType r = 0x81 then done (d.viewerAck s (ofLe ((r.drop 16).take 4)))
      else if recType r = 0x83 then done (d.viewerKeyReq s)
      else match d.toPlain s r with
        | some d => done d
        | none => d

/-- The content type and content of an inner plaintext (RFC 8446 section 5.2): zeros at its end are padding. -/
def innerPlain (bs : List Byte) : Nat × List Byte :=
  match (bs.reverse.dropWhile (fun b => b == 0)) with
  | [] => (0, [])
  | t :: rest => (t.toNat, rest.reverse)

/-- The records in rxBuf that wait for room block decryption (R328), and so does a record of another content type. -/
def Dev.rxBlocked (d : Dev) (s : Nat) : Bool :=
  let buf := (d.sess s).rxBuf
  (d.sess s).other.isSome || decide (8 ≤ buf.length ∧ max 8 (ofLe ((buf.drop 2).take 2)) ≤ buf.length)

/-- The record of another content type that waits for room, passed on where it fits now (R328). -/
def Dev.flushOther (d : Dev) (s : Nat) : Dev :=
  match (d.sess s).other with
  | none => d
  | some r => match d.toPlain s r with
    | some d => d.onSess s (fun x => { x with other := none })
    | none => d

/-- The next complete TLS record of the ciphertext ring decrypted and passed on (R328, R329). -/
def Dev.tlsReceive (d : Dev) (s : Nat) : Dev :=
  if d.sessState s ≠ 1 then d
  else
    let d := (d.flushOther s).takeRecords s 65536
    let cons := d.sd s dRXCCONS 4
    let have_ := ((d.sess s).rxcProd + 2 ^ 32 - cons) % 2 ^ 32
    let size := 2 ^ ringLog (d.sd s dRXCLOG2 1)
    let hd := d.ringLoad (d.sd s dRXCBASE 8) size cons 5
    let len := (hd.getD 3 0).toNat * 256 + (hd.getD 4 0).toNat
    if d.rxBlocked s ∨ have_ < 5 ∨ have_ < 5 + len then d
    else
      let d := match (d.sess s).rxStaged with
        | some k => (d.onSess s (fun x => { x with rxKey := k, rxStaged := none })).setSd s dRXSEQ 8 0
        | none => d
      let seq := d.sd s dRXSEQ 8
      let rec_ := d.ringLoad (d.sd s dRXCBASE 8) size cons (5 + len)
      let d := (d.setSd s dRXCCONS 4 (cons + 5 + len)).setSd s dRXSEQ 8 (seq + 1)
      match tlsOpen (d.sd s dSUITE 1) (d.sess s).rxKey seq rec_ with
      | none => ((d.sessStream s (streamEnd 3)).endSession s 3).irq pgSESS 4
      | some inner =>
        let (t, plain) := innerPlain inner
        if t = 0x17 then (d.onSess s (fun x => { x with rxBuf := x.rxBuf ++ plain })).takeRecords s 65536
        else (d.onSess s (fun x => { x with other := some (kcs 0xFF t 0 plain) })).flushOther s

/-! ### Viewer input (R334, R335) -/

/-- IDU_P2 written: the event is submitted. -/
def Dev.iduSubmit (d : Dev) (p2 : Word) : Dev :=
  let w := d.rd pgSESS Reg.IDU_SESSION
  let s := field w 9 0
  let name := d.sessName s
  let d := d.add64 pgSESS Reg.IN_SUBMITTED 1
  let refuse := fun (c : Nat) => (d.add64 pgSESS Reg.IN_NOCTL 1).wrN pgSESS Reg.IDU_STAT c
  if d.sessState s ≠ 1 then refuse 2
  else if (d.headOf name).isNone && (d.sessChip s).isNone then refuse 3
  else if d.controller name ≠ some s then refuse 2
  else
    let k := field w 23 16
    let (d, kind) := if 1 ≤ k ∧ k ≤ 3 then (d, k) else (d.drew, d.free.toNat % 3 + 1)
    let payload := leBytes 4 (d.rdN pgSESS Reg.IDU_P0) ++ leBytes 4 (d.rdN pgSESS Reg.IDU_P1) ++ leBytes 4 p2.toNat
    let (d, n) := d.acceptEvent name kind 0 payload (d.sessChip s)
    (d.wrN pgSESS Reg.IDU_STAT 1).wr64 pgSESS Reg.IDU_SEQ n

/-- A submission waits while the console's input counter is on its way here (R407). -/
def Dev.submit (d : Dev) (p2 : Word) : Dev :=
  let s := d.rdF pgSESS Reg.IDU_SESSION 9 0
  let name := d.sessName s
  if d.sessState s = 1 ∧ d.controller name = some s ∧ d.counterHere name = false then d.reply .waits else d.iduSubmit p2

/-- A write to a word of the SESS page. -/
def Dev.sessWrite (d : Dev) (off : Nat) (v : Word) : Dev :=
  if off = Reg.SESS_CMD then d.sessCmd v
  else if off = Reg.SESS_DOORBELL then d.doorbell (field v 9 0)
  else if off = Reg.IDU_P2 then d.submit v
  else if Reg.SESS_KEY ≤ off ∧ off < Reg.SESS_KEY + 32 then
    d.onEnc (fun e => { e with keyStage := e.keyStage.set ((off - Reg.SESS_KEY) / 4) v })
  else d.regStore pgSESS off v

/-! ### Commands -/

/-- TLS_RECORD_RX (R328). -/
def execTlsRecordRx (s : Sess) (st : State) : Host.Outcome State Fault Refusal := st.run (fun d => d.tlsReceive s)

/-- ACK (R328). -/
def execAck (s : Sess) (_frame64 : DWord) (evictEpoch : Word) (st : State) : Host.Outcome State Fault Refusal :=
  st.run (fun d => d.viewerAck s evictEpoch.toNat)

/-- KEY_REQ (R328). -/
def execKeyReq (s : Sess) (st : State) : Host.Outcome State Fault Refusal := st.run (fun d => d.viewerKeyReq s)

/-- OPEN (R329). -/
def execOpenSess (s : Sess) (st : State) : Host.Outcome State Fault Refusal := st.run (fun d => Dev.sessDone (d.cmdOpen s))

/-- CLOSE (R329). -/
def execCloseSess (s : Sess) (st : State) : Host.Outcome State Fault Refusal := st.run (fun d => Dev.sessDone (d.cmdClose s))

/-- GRANT (R330). -/
def execGrant (s : Sess) (st : State) : Host.Outcome State Fault Refusal := st.run (fun d => Dev.sessDone (d.cmdGrant s))

/-- REVOKE (R329). -/
def execRevoke (s : Sess) (st : State) : Host.Outcome State Fault Refusal := st.run (fun d => Dev.sessDone (d.cmdRevoke s))

/-- KEYFRAME (R329). -/
def execKeyframe (s : Sess) (st : State) : Host.Outcome State Fault Refusal := st.run (fun d => Dev.sessDone (d.cmdKeyframe s))

/-- INJECT (R329). -/
def execInject (s : Sess) (st : State) : Host.Outcome State Fault Refusal := st.run (fun d => Dev.sessDone (d.cmdInject s))

/-- KEY_LOAD (R329). -/
def execKeyLoad (s : Sess) (dir : Dir) (st : State) : Host.Outcome State Fault Refusal :=
  st.run (fun d => Dev.sessDone (d.cmdKeyLoad s (dir == .rx)))

/-- SESS_DOORBELL (R327). -/
def execSessDoorbell (s : Sess) (st : State) : Host.Outcome State Fault Refusal := st.run (fun d => d.doorbell s)

/-- IDU_SUBMIT (R334). -/
def execIduSubmit (p2 : Word) (s : State) : Host.Outcome State Fault Refusal := s.run (fun d => d.submit p2)

end Sys2Proof.Machine
end

