-- ==== Sys2Proof/Machine/Sound.lean ====
section
/-! DEFINITION. Sound (R340 to R374): ticks, tone channels, Crosswalk, host rings, records, fabric audio, converters and the
headset jack. -/
namespace Sys2Proof.Machine

def Dev.onSnd (d : Dev) (f : SoundSt → SoundSt) : Dev := { d with snd := f d.snd }

/-! ### The frame clock (R340) -/

/-- The fabric time at which tick j begins. -/
def tickStart (j : Nat) : Nat := ceilDiv (j * 2 ^ 32) 48000
/-- AUD_TICK at a fabric time. -/
def tickAt (t : Nat) : Nat := t * 48000 / 2 ^ 32
/-- The first multiple of 48 at or above a tick. -/
def ceil48 (j : Nat) : Nat := ceilDiv j 48 * 48

/-- A sample clamped to 24 bits. -/
def sat24 (i : Int) : Int := clampInt (-8388608) 8388607 i
/-- A frame's samples. -/
def frameInts (f : Frame24) : Int × Int := (f.1.toInt, f.2.toInt)
/-- Samples as a frame. -/
def intsFrame (x : Int × Int) : Frame24 := (BitVec.ofInt 24 x.1, BitVec.ofInt 24 x.2)
def addFrame (a b : Int × Int) : Int × Int := (a.1 + b.1, a.2 + b.2)
def satFrame (a : Int × Int) : Int × Int := (sat24 a.1, sat24 a.2)

/-- A 24-bit sample as 16 bits (R357). -/
def to16 (y : Int) : Nat := unsign 16 (clampInt (-32768) 32767 ((y + 128) / 256))

/-! ### Tone channels (R342 to R346) -/

/-- The offset of channel c's registers. -/
def toneOff (c : Nat) : Nat := 0x100 + 16 * c

def Dev.tone (d : Dev) (h c : Nat) : ToneSt := spGet (fun _ => {}) d.snd.tones (4 * h + c)
def Dev.setTone (d : Dev) (h c : Nat) (t : ToneSt) : Dev :=
  d.onSnd (fun s => { s with tones := spPut (fun _ => {}) s.tones (4 * h + c) t })

/-- What a channel contributes in one step (R343). -/
def toneU (c duty vol pos : Nat) : Int :=
  if c < 2 then (if pos < (if duty = 0 then 1 else if duty = 1 then 2 else 4) then 15 * (vol : Int) else -(15 * (vol : Int)))
  else if c = 2 then (2 * ((if pos < 16 then 15 - pos else pos - 16 : Nat) : Int) - 15) * vol
  else if pos % 2 = 0 then 15 * (vol : Int) else -(15 * (vol : Int))

/-- The position after an advance (R343). -/
def toneAdvance (c pos : Nat) : Nat :=
  if c < 2 then (pos + 1) % 8 else if c = 2 then (pos + 1) % 32
  else (pos / 2) ||| ((pos % 2 ^^^ pos / 2 % 2) * 16384)

/-- n steps of a channel: divider, position and the sum of u. -/
def toneSteps (c duty vol p : Nat) : Nat → Nat → Nat → Int → Nat × Nat × Int
  | 0, dv, pos, sum => (dv, pos, sum)
  | n + 1, dv, pos, sum =>
    let sum := sum + toneU c duty vol pos
    if p + 1 ≤ dv + 1 then toneSteps c duty vol p n 0 (toneAdvance c pos) sum
    else toneSteps c duty vol p n (dv + 1) pos sum

/-- One frame of a channel (R343, R344, R346): its value; nothing moves while EN is 0. -/
def Dev.toneFrame (d : Dev) (h c : Nat) : Dev × Int :=
  let ctl := d.rd (pgHD h) (toneOff c)
  if !bit ctl 0 then (d, 0)
  else
    let t := d.tone h c
    let t := if t.start then { t with divider := 0, pos := if c = 3 then 1 else 0, start := false } else t
    let (dv, pos, sum) := toneSteps c (field ctl 2 1) (field ctl 7 4) (d.rdF (pgHD h) (toneOff c + 4) 15 0) 32 t.divider t.pos 0
    (d.setTone h c { t with divider := dv, pos := pos }, sum)

/-- A head's tone mix for a frame (R346). -/
def Dev.toneMix (d : Dev) (h : Nat) : Dev × (Int × Int) :=
  (List.range 4).foldl (fun (acc : Dev × (Int × Int)) c =>
    let ctl := acc.1.rd (pgHD h) (toneOff c)
    let (d, v) := acc.1.toneFrame h c
    (d, (acc.2.1 + (if bit ctl 8 then 256 * v else 0), acc.2.2 + (if bit ctl 9 then 256 * v else 0)))) (d, (0, 0))

/-- The display function of the lane has negotiated TONE (R342). -/
def Dev.toneOn (d : Dev) (h : Nat) : Bool := d.fnHas h 0 4

/-- A tone register written (R342, R344): EN from 0 to 1 restarts the channel at the next frame. -/
def Dev.toneWrite (d : Dev) (h off : Nat) (v : Word) : Dev :=
  if !isV h || !d.toneOn h then d
  else
    let c := (off - 0x100) / 16
    let was := d.rdB (pgHD h) (toneOff c) 0
    let d := d.regStore (pgHD h) off v
    let t := d.tone h c
    let was' := match t.wrote with
      | some (y, l) => if y = d.cyc then l else []
      | none => []
    d.setTone h c { t with wrote := some (d.cyc, off % 16 :: was'), start := t.start || (!was && d.rdB (pgHD h) (toneOff c) 0) }

/-- A write to register k of a tone channel takes effect in the present cycle (R345). -/
def Dev.toneWritten (d : Dev) (h c k : Nat) : Bool :=
  match (d.tone h c).wrote with
  | some (y, l) => y == d.cyc && l.contains k
  | none => false

/-- R345: one channel at a tick j with j mod 48 = 0. An update of a register written in the same cycle is not applied. -/
def Dev.toneMsStep (d : Dev) (j h c : Nat) : Dev :=
  let p := pgHD h
  let o := toneOff c
  if !d.rdB p o 0 then d
  else
    let len := d.rdF p (o + 8) 15 0
    let env := d.rd p (o + 12)
    let vol := d.rdF p o 7 4
    let ctl := d.toneWritten h c 0
    let d := if d.toneWritten h c 8 then d
      else if len = 1 then (if ctl then d else (d.wrF p (o + 8) 15 0 0).wrB p o 0 false)
      else if 1 < len then d.wrF p (o + 8) 15 0 (len - 1) else d
    if bit env 5 && !ctl && decide (j / 48 % (field env 3 0 + 1) = 0) then
      d.wrF p o 7 4 (if bit env 4 then min 15 (vol + 1) else vol - 1)
    else d

/-- TONE_MS (R345): at the start of the next tick, where its number is a multiple of 48. -/
def Dev.toneMs (d : Dev) : Dev :=
  let j := d.snd.tick
  if !d.clock.started ∨ j % 48 ≠ 0 ∨ d.snd.msDone = some j then d
  else
    let d := (d.toFt (tickStart j)).onSnd (fun s => { s with msDone := some j })
    forN 128 (fun h d => forN 4 (fun c d => d.toneMsStep j h c) d) d

/-! ### Accounting (R369, R370) -/

/-- One counter of an entry advanced: 0 DUE, 1 CARRIED, 2 SUBST, 3 DISCARD. -/
def Dev.audCount (d : Dev) (e k : Nat) (n : Int) : Dev :=
  let a := audioBase + 0xF0000 + e * 32 + 8 * k
  d.puts a (leBytes 8 (unsign 64 ((d.num a 8 : Int) + n)))

/-- A frame due and its outcome: 0 carried, 1 substituted, 2 discarded. -/
def Dev.audDue (d : Dev) (e outcome : Nat) : Dev := (d.audCount e 0 1).audCount e (outcome + 1) 1

/-- Frames counted as carried turn out discarded (assumption log 28). -/
def Dev.audDiscard (d : Dev) (e n : Nat) : Dev := (d.audCount e 1 (-(n : Int))).audCount e 3 n

/-! ### Delay lines and converters (R362, R365) -/

/-- A frame into a line of n frames: what comes out, and the line. -/
def delayStep (n : Nat) (x : Int × Int) (l : List (Int × Int)) : (Int × Int) × List (Int × Int) :=
  let l' := l ++ [x]
  if n < l'.length then (l'.getD (l'.length - n - 1) (0, 0), l'.drop (l'.length - n)) else ((0, 0), l')

def Dev.line (d : Dev) (k : Nat) : List (Int × Int) := spGet (fun _ => []) d.snd.delay k
def Dev.setLine (d : Dev) (k : Nat) (l : List (Int × Int)) : Dev :=
  d.onSnd (fun s => { s with delay := spPut (fun _ => []) s.delay k l })
/-- A frame through delay line k of n frames. -/
def Dev.through (d : Dev) (k n : Nat) (x : Int × Int) : Dev × (Int × Int) :=
  let (y, l) := delayStep n x (d.line k)
  (d.setLine k l, y)
/-- Frames into a converter's buffer, which holds the latest n. -/
def Dev.srcFeed (d : Dev) (k n : Nat) (xs : List (Int × Int)) : Dev :=
  let l := d.line k ++ xs
  d.setLine k (l.drop (l.length - n))
/-- The frame that a converter puts out at a place of the tick. -/
def Dev.srcOut (d : Dev) (k i : Nat) : Int × Int := satFrame (Config.srcFrame i (d.line k))

/-- Converter k is locked (R362, R372). -/
def Dev.srcLocked (d : Dev) (k : Nat) : Bool := d.rdB pgAUD (Reg.SRC_LOCK + 4 * (k / 32)) (k % 32)

/-- Slots of an I2S port (R361, R374). -/
def Dev.i2sSlots (d : Dev) (port : Nat) : Nat :=
  let c := d.rd pgI2S (Reg.I2S_CTL + 8 * port)
  if field c 3 2 = 2 then field c 8 6 + 1 else 2
/-- Pair q (0 to 7 over both ports) is configured. -/
def Dev.i2sPair (d : Dev) (q : Nat) : Bool :=
  d.rdB pgI2S (Reg.I2S_CTL + 8 * (q / 4)) 0 && !d.frozen pgI2S && decide (2 * (q % 4) < d.i2sSlots (q / 4))
def Dev.i2sMaster (d : Dev) (port : Nat) : Bool := d.rdB pgI2S (Reg.I2S_CTL + 8 * port) 1

/-- The keys of the delay lines. -/
abbrev lineJack : Nat := 0
abbrev lineMic : Nat := 1
abbrev lineI2sIn (q : Nat) : Nat := 2 + q
abbrev lineI2sOut (q : Nat) : Nat := 10 + q
abbrev lineDp (n : Nat) : Nat := 18 + n
/-- The frames a converter's buffer holds: its delay of 72 frames at four times the frame clock and the two of the pins. -/
abbrev srcBuf : Nat := 292
abbrev lineLl (k : Nat) : Nat := 22 + k
abbrev lineVoice (v : Nat) : Nat := 32 + v

/-! ### Inputs (R347) -/

/-- Host playback of lane n in frame j (R353): none where it is substituted; silence without a ring. -/
def Dev.playFrame (d : Dev) (n j : Nat) : Option (Int × Int) :=
  let x := d.lane n
  match x.t0 with
  | none => some (0, 0)
  | some t =>
    if j < t then some (0, 0) else (x.play.find? (fun e => e.1 == j)).map (fun e => frameInts e.2)

/-- Console input n (R347). -/
def Dev.consoleIn (d : Dev) (n j : Nat) : Dev × (Int × Int) × Nat :=
  let (d, t) := d.toneMix n
  let p := d.playFrame n j
  let x := satFrame (addFrame (p.getD (0, 0)) t)
  let d := d.onLane n (fun l => { l with play := l.play.filter (fun e => decide (j < e.1)) })
  (d, x, if p.isSome then 0 else 1)

/-- Signed 16-bit samples of a stereo frame in memory, as 24-bit samples. -/
def Dev.frame16 (d : Dev) (a : Nat) : Int × Int := (256 * signed 16 (d.num a 2), 256 * signed 16 (d.num (a + 2) 2))

/-- Voice input v (R358, R362). -/
def Dev.voiceIn (d : Dev) (v : Nat) : Dev × (Int × Int) × Nat :=
  let e := audioBase + 0x40000 + 16 * v
  if d.num (e + 8) 2 < 0x8000 then (d, (0, 0), 0)
  else
    let prod := d.num e 4
    let cons := d.num (e + 4) 4
    let fill := (prod + 2 ^ 32 - cons) % 2 ^ 32
    let (d, cons) := if 2048 < fill then
        (((d.add32 pgAUD Reg.VOICE_OVFS ((fill - 256) / 4)).irq pgAUD 4), (prod + 2 ^ 32 - 256) % 2 ^ 32) else (d, cons)
    let wait := (prod + 2 ^ 32 - cons) % 2 ^ 32 / 4
    let n := min wait (Config.srcTake v d.snd.tick wait)
    let xs := (List.range n).map (fun q => d.frame16 (audioBase + 0x20000 + 2048 * v + (cons + 4 * q) % 2048))
    let d := d.puts (e + 4) (leBytes 4 (cons + 4 * n))
    if !d.srcLocked v then (d, (0, 0), if wait = 0 then 1 else 2)
    else
      let d := d.srcFeed (lineVoice v) srcBuf xs
      (d, d.srcOut (lineVoice v) 0, if wait = 0 then 1 else 0)

/-- Pair q has one slot only: an odd number of slots ends with it (R361). -/
def Dev.i2sSingle (d : Dev) (q : Nat) : Bool := decide (2 * (q % 4) + 1 = d.i2sSlots (q / 4))
/-- The slots of a port are 16 bits wide (R374). -/
def Dev.i2sNarrow (d : Dev) (port : Nat) : Bool := d.rdF pgI2S (Reg.I2S_CTL + 8 * port) 5 4 == 0

/-- A received frame of pair q: a 16-bit slot holds the upper bits, and a single slot feeds both sides (R361). -/
def Dev.i2sFrom (d : Dev) (q : Nat) (x : Int × Int) : Int × Int :=
  let x := if d.i2sNarrow (q / 4) then (x.1 / 256 * 256, x.2 / 256 * 256) else x
  if d.i2sSingle q then (x.1, x.1) else x

/-- A frame of pair q as its slots carry it: a 16-bit slot has the upper bits, and a single slot has the left sample (R361). -/
def Dev.i2sTo (d : Dev) (q : Nat) (x : Int × Int) : Output :=
  let x := if d.i2sNarrow (q / 4) then (256 * (Config.slot16 x.1).toInt, 256 * (Config.slot16 x.2).toInt) else x
  .i2s q x.1 (if d.i2sSingle q then 0 else x.2)

/-- I2S pair q as an input (R347, R362, R365): xs are the frames received in the tick. -/
def Dev.i2sIn (d : Dev) (q : Nat) (xs : List (Int × Int)) : Dev × (Int × Int) × Nat :=
  if !d.i2sPair q then (d, (0, 0), 0)
  else
    let xs := xs.map (d.i2sFrom q)
    if d.i2sMaster (q / 4) then
      let (d, y) := d.through (lineI2sIn q) 2 (xs.headD (0, 0))
      (d, y, 0)
    else if !d.srcLocked (64 + 2 * (q / 4)) then (d, (0, 0), if xs.isEmpty then 1 else 2)
    else
      let d := d.srcFeed (lineI2sIn q) srcBuf xs
      (d, d.srcOut (lineI2sIn q) 0, 0)

/-- Fabric audio input i in frame j (R359). -/
def Dev.fabIn (d : Dev) (i j : Nat) : Dev × (Int × Int) × Nat :=
  if !d.rdB pgFAB (Reg.FA_IN + 4 * i) 31 then (d, (0, 0), 0)
  else
    let l := spGet (fun _ => []) d.snd.fabIn i
    let delay := d.rdF pgAUD Reg.AUD_FAB_DELAY 11 0
    let hit := l.find? (fun e => decide (e.1 + delay = j))
    let d := d.onSnd (fun s => { s with
      fabIn := spPut (fun _ => []) s.fabIn i (l.filter (fun e => decide (j < e.1 + delay))) })
    match hit with
    | some e => (d, frameInts e.2, 0)
    | none => (d, (0, 0), 1)

/-- One side of the DC-blocking filter (R363). -/
def Dev.hpfSide (d : Dev) (key : Nat) (x : Int) : Dev × Int :=
  let (x1, y1) := spGet (fun _ => (0, 0)) d.snd.hpf key
  let y := sat24 (x - x1 + 32725 * y1 / 32768)
  (d.onSnd (fun s => { s with hpf := spPut (fun _ => (0, 0)) s.hpf key (x, y) }), y)

/-- The filter of an input (R363). -/
def Dev.hpf (d : Dev) (i : Nat) (x : Int × Int) : Dev × (Int × Int) :=
  if i < 160 ∨ i = 161 ∨ 233 < i ∨ !d.rdB pgAUD (Reg.AUD_HPF0 + 4 * ((i - 160) / 32)) ((i - 160) % 32) then (d, x)
  else
    let (d, l) := d.hpfSide (2 * i) x.1
    let (d, r) := d.hpfSide (2 * i + 1) x.2
    (d, (l, r))

/-- A write to a word of the AUD page: a filter's state becomes 0 when its bit changes (R363). -/
def Dev.audWrite (d : Dev) (off : Nat) (v : Word) : Dev :=
  let old := d.rd pgAUD off
  let d := d.regStore pgAUD off v
  if off < Reg.AUD_HPF0 ∨ Reg.AUD_HPF2 < off then d
  else
    let new := d.rd pgAUD off
    forN 32 (fun k d =>
      if bit old k == bit new k then d
      else
        let i := 160 + 8 * (off - Reg.AUD_HPF0) + k
        d.onSnd (fun s => { s with hpf := spPut (fun _ => (0, 0)) (spPut (fun _ => (0, 0)) s.hpf (2 * i) (0, 0)) (2 * i + 1) (0, 0) })) d

/-- TG_SEL (R371). -/
def Dev.toneGroup (d : Dev) (g : Nat) (feeds : Array (Int × Int)) : Int × Int :=
  let b := (d.byte (audioBase + 0x40C00 + g)).toNat
  if 128 ≤ b then feeds.getD (b % 128) (0, 0) else (0, 0)

/-- Frame j of an input before its filter, and its outcome (R347, R369). -/
def Dev.inputRaw (d : Dev) (j : Nat) (pins : AudioPins) (mic : Int) (tones : Array (Int × Int)) (i : Nat) :
    Dev × (Int × Int) × Nat :=
  if i < 128 then d.consoleIn i j
  else if i < 160 then (d, d.toneGroup (i - 128) tones, 0)
  else if i = 160 then (d, (mic, mic), 0)
  else if i = 161 then (d, (0, 0), 0)
  else if i < 170 then d.i2sIn (i - 162) ((pins.i2s.getD (i - 162) []).map frameInts)
  else if i < 234 then d.voiceIn (i - 170)
  else d.fabIn (i - 234) j

/-- The tone mix of every head in this frame, without moving any channel. -/
def Dev.toneMixes (d : Dev) : Array (Int × Int) := ((List.range 128).map (fun h => (d.toneMix h).2)).toArray

/-- Frame j of every input (R347, R363, R369). -/
def Dev.inputFrames (d : Dev) (j : Nat) (pins : AudioPins) (mic : Int) : Dev × Array (Int × Int) :=
  let tones := d.toneMixes
  (List.range 256).foldl (fun (acc : Dev × Array (Int × Int)) i =>
    let (d, x, o) := acc.1.inputRaw j pins mic tones i
    let (d, x) := d.hpf i x
    (d.audDue i o, acc.2.push x)) (d, #[])

/-! ### Nodes (R349 to R352) -/

/-- R351: the gain that a node uses in this frame, and its state after it. -/
def nodeStep (n : NodeSt) (g : Nat) : NodeSt :=
  let n := if g = n.target then n else { target := g, from_ := n.last, k := 0, last := n.last }
  if n.k < 64 then
    { n with k := n.k + 1, last := ((n.from_ : Int) + ((n.target : Int) - n.from_) * (n.k + 1) / 64).toNat }
  else { n with last := n.target }

def Dev.node (d : Dev) (k : Nat) : NodeSt := spGet (fun _ => {}) d.snd.nodes k
/-- A node's gain in this frame, its state moved on. -/
def Dev.gain (d : Dev) (k g : Nat) : Dev × Nat :=
  let n := nodeStep (d.node k) g
  (d.onSnd (fun s => { s with nodes := spPut (fun _ => {}) s.nodes k n }), n.last)

/-- Nodes that may have a gain other than 0: those with a state, and those with a byte in audio memory. -/
def Dev.activeNodes (d : Dev) : Sparse Bool :=
  let a := d.snd.nodes.foldl (fun (l : Sparse Bool) e => if e.1 < 65536 then spPut (fun _ => false) l e.1 true else l) []
  (d.mem.filter (fun c => decide (audioBase ≤ c.1 ∧ c.1 < audioBase + 0x20000))).foldl
    (fun l c => spPut (fun _ => false) l ((c.1 - audioBase) / 2) true) a

/-- The order in which Crosswalk computes outputs under PWR_WARN (R352). -/
def warnOrder (o : Nat) : Nat := if 160 ≤ o then o - 160 else if o < 128 then o + 96 else o + 96

/-- R350: a sum rounded and clamped, and whether it was clamped. -/
def roundSum (acc : Int) : Int × Bool :=
  let y := (acc + 8192) / 16384
  (sat24 y, decide (sat24 y ≠ y))

/-- Every output of a frame (R350 to R352): none for one that is not complete in its tick. -/
def Dev.crosswalk (d : Dev) (xs : Array (Int × Int)) : Dev × List (Option (Int × Int)) :=
  let nodes := d.activeNodes.map (fun e => e.1)
  let (d, acc, cnt) := nodes.foldl (fun (s : Dev × Array (Int × Int) × Array Nat) k =>
    let w := s.1.node k
    let new := s.1.num (audioBase + 2 * k) 2
    let idle := new = 0 ∧ w.target = 0 ∧ 64 ≤ w.k
    let (d, g) := s.1.gain k new
    let o := k / 256
    let x := xs.getD (k % 256) (0, 0)
    let a := s.2.1.getD o (0, 0)
    (d, s.2.1.setIfInBounds o (a.1 + x.1 * g, a.2 + x.2 * g),
      s.2.2.setIfInBounds o (s.2.2.getD o 0 + (if idle then 0 else 1))))
    (d, Array.replicate 256 (0, 0), Array.replicate 256 0)
  let warn := d.rdB pgPWR Reg.PWR_STAT 0
  let before := fun o => ((List.range 256).filter (fun q => decide (warnOrder q ≤ warnOrder o))).foldl
    (fun s q => s + cnt.getD q 0) 0
  (List.range 256).foldl (fun (s : Dev × List (Option (Int × Int))) o =>
    if warn && decide (50000 < before o) then (s.1, s.2 ++ [none])
    else
      let a := acc.getD o (0, 0)
      let (l, c1) := roundSum a.1
      let (r, c2) := roundSum a.2
      let n := c1.toNat + c2.toNat
      let d := if n = 0 then s.1 else (s.1.add32 pgAUD Reg.AUD_CLIPS n).irq pgAUD 1
      (d, s.2 ++ [some (l, r)])) (d, [])

/-! ### Sinks (R348, R359, R360) -/

/-- A console feed or bus frame remembered for the SOUND record (R357): feed f, frame j. -/
def Dev.keepSound (d : Dev) (f j : Nat) (x : Int × Int) : Dev :=
  d.onSnd (fun s => { s with sndNow := spPut (fun _ => (0, 0)) s.sndNow (f * 240 + j % 240) x })

/-- The capture ring's gathering of frame j of output n (R355). -/
def Dev.gatherCap (d : Dev) (n j : Nat) (x : Option (Int × Int)) : Dev :=
  match (d.lane n).capNext with
  | some t => if t ≤ j then d.onLane n (fun l => { l with cap := l.cap ++ [x.map intsFrame] }) else d
  | none => d

/-- A low-latency route's sample: its source three frames before, with the route's gain (R364). -/
def Dev.llRoute (d : Dev) (k : Nat) (x : Int × Int) : Dev × (Int × Int) :=
  let (d, g) := d.gain (65536 + k) (d.rdF pgAUD (Reg.LL_GAIN + 4 * k) 15 0)
  let (d, x) := d.through (lineLl k) 3 x
  let on := d.rdB pgAUD Reg.LL_CTL k && (k = 0 || (d.i2sPair 0 && d.i2sMaster 0))
  (d, if on then ((x.1 * g + 8192) / 16384, (x.2 * g + 8192) / 16384) else (0, 0))

/-- The jack output (R364, R365). -/
def Dev.jackOut (d : Dev) (x ll : Int × Int) : Dev :=
  let (d, y) := d.through lineJack 8 x
  let z := satFrame (addFrame y ll)
  d.out (.jack z.1 z.2)

/-- I2S pair q as an output (R361, R362, R365): n frames of a slave port fall in the tick. Slots that a running port does not
use are sent as zero. -/
def Dev.i2sOut (d : Dev) (q n : Nat) (x ll : Int × Int) : Dev :=
  if !d.i2sPair q then
    if d.rdB pgI2S (Reg.I2S_CTL + 8 * (q / 4)) 0 && !d.frozen pgI2S then d.out (.i2s q 0 0) else d
  else if d.i2sMaster (q / 4) then
    let (d, y) := d.through (lineI2sOut q) 2 x
    d.out (d.i2sTo q (satFrame (addFrame y ll)))
  else if !d.srcLocked (65 + 2 * (q / 4)) then forN n (fun _ d => d.out (.i2s q 0 0)) d
  else
    let d := d.srcFeed (lineI2sOut q) srcBuf [x]
    forN n (fun i d => d.out (d.i2sTo q (d.srcOut (lineI2sOut q) i))) d

/-- DisplayPort audio of Pn (R360, R365): frame j leaves the line at tick j + DP_DELAYn and is three ticks later at the link;
while the head does not run, what the line holds is discarded. -/
def Dev.dpOut (d : Dev) (n j : Nat) (x : Int × Int) : Dev × Nat :=
  if !d.runs (128 + n) then
    ((d.onSnd (fun s => { s with dpLine := spPut (fun _ => none) s.dpLine n none })).setLine (lineDp n) [], 2)
  else
    let l := spGet (fun _ => none) d.snd.dpLine n
    let d := if l.isSome then d
      else
        let m := Config.dpMaud (d.htotal (128 + n) * d.vtotal (128 + n)) (d.fperiod (128 + n))
        d.out (.dpInfo n m.1 m.2)
    let l := l.getD [] ++ [{ tick := j, left := x.1, right := x.2 : DpFrame }]
    let delay := d.rdF pgAUD (Reg.DP_DELAY + 4 * n) 11 0
    let now := l.find? (fun e => decide (e.tick + max 1 delay = j + 1))
    let d := d.onSnd (fun s => { s with
      dpLine := spPut (fun _ => none) s.dpLine n (some (l.filter (fun e => decide (j + 1 < e.tick + delay)))) })
    let (d, y) := d.through (lineDp n) 3 ((now.map (fun e => (e.left, e.right))).getD (0, 0))
    (d.out (.dp n y.1 y.2), 0)

/-- A fabric output's block gathered (R359): none stands for a frame not computed in its tick. -/
def Dev.gatherFab (d : Dev) (k j : Nat) (x : Option (Int × Int)) : Dev :=
  if !d.rdB pgFAB (Reg.FA_OUT + 4 * k) 31 then d
  else
    let old := if j % 48 = 0 then [] else spGet (fun _ => []) d.snd.fabNow k
    let l := old ++ [x.map intsFrame]
    if j % 48 = 47 ∧ l.length = 48 then
      d.onSnd (fun s => { s with fabNow := spPut (fun _ => []) s.fabNow k []
                                 fabDone := spPut (fun _ => none) s.fabDone k (some { tick := j - 47, frames := l }) })
    else d.onSnd (fun s => { s with fabNow := spPut (fun _ => []) s.fabNow k l })

/-- Output o's frame j handed to its sink (R348, R369). -/
def Dev.sink (d : Dev) (pins : AudioPins) (j : Nat) (ll0 ll1 : Int × Int) (o : Nat) (v : Option (Int × Int)) : Dev :=
  let x := v.getD (0, 0)
  let fin := fun (d : Dev) => d.audDue (256 + o) (if v.isSome then 0 else 1)
  if o < 128 then fin (d.gatherCap o j v)
  else if o < 160 then fin (d.keepSound o j x)
  else if o = 160 then fin (d.jackOut x ll0)
  else if o < 169 then fin (d.i2sOut (o - 161) (pins.i2s.getD ((o - 161) / 4 * 4) []).length x (if o = 161 then ll1 else (0, 0)))
  else if o < 173 then
    let (d, c) := d.dpOut (o - 169) j x
    d.audDue (256 + o) (if v.isSome then c else 1)
  else if o < 237 then fin (d.gatherFab (o - 173) j v)
  else fin d

/-- AUDIO_TICK (R341): tick j begins; the outputs of frame j - 1 reach their sinks; frame j is computed. -/
def Dev.audioTick (d : Dev) (pins : AudioPins) : Dev :=
  if !d.clock.started then d
  else
    let j := d.snd.tick
    let d := d.toFt (tickStart j)
    let mic0 := pins.mic.toInt
    let (d, m) := d.through lineMic 8 (mic0, mic0)
    let i2s0 := d.i2sFrom 0 (frameInts ((pins.i2s.getD 0 []).headD (0, 0)))
    let (d, a) := d.llRoute 0 (mic0, mic0)
    let (d, b) := d.llRoute 1 (mic0, mic0)
    let (d, c) := d.llRoute 2 i2s0
    let outs := d.snd.outs
    let d := if outs.isEmpty then d
      else forL outs.zipIdx (fun e d => d.sink pins (j - 1) (addFrame a c) b e.2 e.1) d
    let d := if j % 240 = 0 then
        d.onSnd (fun s => { s with sndDone := s.sndNow, sndNow := [], sndTick := if 240 ≤ j then some (j - 240) else none })
      else d
    let (d, xs) := d.inputFrames j pins m.1
    let d := forN 128 (fun n d => d.keepSound n j (xs.getD n (0, 0))) d
    let (d, outs) := d.crosswalk xs
    d.onSnd (fun s => { s with tick := j + 1, outs := outs })

/-! ### Host rings (R97 to R99, R353 to R355) -/

/-- A ring's size in bytes (R97). -/
def Dev.ringSize (d : Dev) (n off : Nat) : Nat := 2 ^ d.rdF (pgFn n 2) off 4 0

/-- Bytes per frame: FMT 0 or 1. -/
def fmtFrame (fmt : Bool) : Nat := if fmt then 8 else 4

/-- LEAD in effect (R97). -/
def Dev.plLead (d : Dev) (n : Nat) : Nat :=
  let l := d.rdF (pgFn n 2) Reg.PL_CTL 6 4
  if 2 ≤ l then l else 3

/-- PL_CTL.EN changes from 0 to 1 (R97, R353). -/
def Dev.plStart (d : Dev) (n : Nat) : Dev :=
  let p := pgFn n 2
  let d := (d.wrN p Reg.PL_PROD 0).wrN p Reg.PL_CONS 0
  let t0 := ceil48 (ceilDiv (d.ft * 48000) (2 ^ 32) + (d.plLead n + 1) * 48)
  d.onLane n (fun l => { l with t0 := some t0, block := 0, underrun := false, play := [] })

/-- PL_CTL.EN changes to 0. -/
def Dev.plStop (d : Dev) (n : Nat) : Dev := d.onLane n (fun l => { l with t0 := none, play := [], underrun := false })

/-- A sample of a host ring. -/
def hostSample (fmt : Bool) (bs : List Byte) : BitVec 24 :=
  if fmt then BitVec.ofInt 24 (signed 32 (ofLe (bs.take 4)) / 256) else BitVec.ofInt 24 (signed 16 (ofLe (bs.take 2)) * 256)

/-- A frame of a host ring. -/
def hostFrame (fmt : Bool) (bs : List Byte) : Frame24 := (hostSample fmt bs, hostSample fmt (bs.drop (fmtFrame fmt / 2)))

/-- R354: whether the ring is in underrun, PLAY_UNDERRUN raised on entry. -/
def Dev.plUnder (d : Dev) (n : Nat) : Dev :=
  let p := pgFn n 2
  let under := decide (2 ^ 31 ≤ (d.rdN p Reg.PL_PROD + 2 ^ 32 - d.rdN p Reg.PL_CONS) % 2 ^ 32)
  let d := if under && !(d.lane n).underrun then d.irq pgAUD 2 else d
  d.onLane n (fun l => { l with underrun := under })

/-- Host memory read for a ring: what passes its end is read from the base (R98). -/
def Dev.hostFetch (d : Dev) (n base size idx len : Nat) : Dev :=
  let k := size - idx % size
  let d := d.out (.hostRead n (base + idx % size) (min len k))
  if len ≤ k then d else d.out (.hostRead n base (len - k))

/-- PLAY_BLOCK_READ (R353, R354): at its tick the next block is read; host is what host memory answers. -/
def Dev.playBlock (d : Dev) (n : Nat) (host : List Byte) : Dev :=
  let x := d.lane n
  match x.t0 with
  | none => d
  | some t0 =>
    let p := pgFn n 2
    let fmt := d.rdB p Reg.PL_CTL 1
    let fb := fmtFrame fmt
    let at_ := t0 + 48 * x.block
    let d := d.toFt (tickStart (at_ - 48 * d.plLead n))
    let d := d.onLane n (fun l => { l with block := l.block + 1 })
    if d.rdB (pgHD n) Reg.HD_MODE 3 then d
    else
      let start := 48 * x.block * fb % 2 ^ 32
      let prod := d.rdN p Reg.PL_PROD
      let under := decide (2 ^ 31 ≤ (prod + 2 ^ 32 - d.rdN p Reg.PL_CONS) % 2 ^ 32)
      let d := d.hostFetch n (d.rd64 p Reg.RG_BASE_LO) (d.ringSize n Reg.RG_SIZE) start (48 * fb)
      let avail := (prod + 2 ^ 32 - start) % 2 ^ 32
      let frames := (List.range 48).filterMap (fun q =>
        if under ∨ 2 ^ 31 ≤ avail ∨ avail < (q + 1) * fb ∨ host.length < (q + 1) * fb then none
        else some (at_ + q, hostFrame fmt ((host.drop (q * fb)).take fb)))
      let fin := (start + 48 * fb) % 2 ^ 32
      let d := d.onLane n (fun l => { l with play := l.play ++ frames })
      (((d.wrN p Reg.PL_CONS fin).plUnder n).out (.hostWrite n (d.rd64 p Reg.RG_WB_LO) (leBytes 8 fin))).fnEvent n 2 1

/-- CP_CTL.EN changes from 0 to 1 (R97, R355). -/
def Dev.cpStart (d : Dev) (n : Nat) : Dev :=
  let p := pgFn n 2
  let d := (d.wrN p Reg.CP_PROD 0).wrN p Reg.CP_CONS 0
  d.onLane n (fun l => { l with capNext := some (ceil48 (tickAt d.ft + 1)), cap := [] })

/-- CP_CTL.EN changes to 0. -/
def Dev.cpStop (d : Dev) (n : Nat) : Dev := d.onLane n (fun l => { l with capNext := none, cap := [] })

/-- A frame for a host ring: 16 bits as R357 rounds, or 32 bits. -/
def ringFrame (fmt : Bool) (f : Option Frame24) : List Byte :=
  let x := frameInts (f.getD (0, 0))
  if fmt then leBytes 4 (unsign 32 (256 * x.1)) ++ leBytes 4 (unsign 32 (256 * x.2))
  else leBytes 2 (to16 x.1) ++ leBytes 2 (to16 x.2)

/-- Bytes into a host ring: what passes its end continues at the base (R98). -/
def Dev.hostRing (d : Dev) (n base size idx : Nat) (bs : List Byte) : Dev :=
  let k := size - idx % size
  let d := d.out (.hostWrite n (base + idx % size) (bs.take k))
  if bs.length ≤ k then d else d.out (.hostWrite n base (bs.drop k))

/-- CAPTURE_BLOCK (R99, R109, R355). -/
def Dev.captureBlock (d : Dev) (n : Nat) : Dev :=
  let x := d.lane n
  let p := pgFn n 2
  if x.cap.length < 48 then d
  else
    let fmt := d.rdB p Reg.CP_CTL 1
    let blk := x.cap.take 48
    let len := 48 * fmtFrame fmt
    let prod := d.rdN p Reg.CP_PROD
    let size := d.ringSize n (Reg.RG_SIZE + 0x20)
    let d := d.onLane n (fun l => { l with cap := l.cap.drop 48 })
    if d.rdB (pgHD n) Reg.HD_MODE 3 ∨ size < (prod + 2 ^ 32 - d.rdN p Reg.CP_CONS) % 2 ^ 32 + len then
      (d.irq pgAUD 3).audDiscard (256 + n) (blk.filter (fun f => f.isSome)).length
    else
      let fin := (prod + len) % 2 ^ 32
      let d := d.hostRing n (d.rd64 p (Reg.RG_BASE_LO + 0x20)) size prod (blk.flatMap (ringFrame fmt))
      ((d.wrN p Reg.CP_PROD fin).out (.hostWrite n (d.rd64 p (Reg.RG_WB_LO + 0x20)) (leBytes 8 fin))).fnEvent n 2 4

/-! ### SOUND (R356, R357) -/

/-- The SOUND record of a feed for the 240 ticks from j. -/
def Dev.soundRec (d : Dev) (f j : Nat) : List Byte :=
  kcs 0x30 0 0 (leBytes 8 j ++ leBytes 2 240 ++ [0, 0] ++ (List.range 240).flatMap (fun q =>
    let x := spGet (fun _ => (0, 0)) d.snd.sndDone (f * 240 + q)
    leBytes 2 (to16 x.1) ++ leBytes 2 (to16 x.2)))

/-- The feed that a SND_SEL entry chooses for a console on head h of this chip; none where it receives none. -/
def sndFeed (entry : Nat) (h : Option Nat) : Option Nat :=
  if entry / 32768 % 2 = 0 then none else if entry / 256 % 2 = 1 then some (128 + entry % 32) else h

/-- A SOUND record to a session of this chip: one that does not fit is not written. -/
def Dev.soundTo (d : Dev) (s : Nat) (r : List Byte) : Dev := if d.txFree s < tlsSize r then d else d.sessStream s r

/-- SOUND (R357): the record of the latest whole 240 ticks to each session that receives sound. -/
def Dev.sound (d : Dev) : Dev :=
  match d.snd.sndTick with
  | none => d
  | some j =>
    let d := d.onSnd (fun s => { s with sndTick := none })
    let d := forL d.enc.sessions (fun e d =>
      match (d.sess e.1).remoteSlot with
      | some _ => match sndFeed (d.sndSel e.1) none with
        | some f => d.soundTo e.1 (d.soundRec f j)
        | none => d
      | none => d) d
    forL d.enc.mirrors (fun e d =>
      match e.2 with
      | none => d
      | some m =>
        match m.chip with
        | none => match sndFeed (d.sndSel e.1) (some m.head) with
          | some f => d.soundTo e.1 (d.soundRec f j)
          | none => d
        | some c => if m.snd / 32768 % 2 = 1 ∧ m.snd / 256 % 2 = 0 then
            d.injectPkt 4 c (relayPacket e.1 m.sess (d.soundRec m.head j)) else d) d

/-! ### Fabric audio (R359, R408) -/

/-- A sample as 32 bits, sign-extended (R408). -/
def ext32 (b : BitVec 24) : List Byte := leBytes 4 (unsign 32 b.toInt)

/-- A credit for the STREAM class on the way to a chip. -/
def Dev.streamCredit (d : Dev) (dst : Nat) : Bool :=
  let c := d.rtEntry d.rtActive dst
  decide (dst = d.myAddr) || decide (7 < c) || decide (d.rdF (pgAL c) (Reg.AL_CRED + 0x44) 15 0 ≠ 0)

/-- FAB_AUDIO_SEND (R359, R408). -/
def Dev.fabSend (d : Dev) (k : Nat) : Dev :=
  match spGet (fun _ => none) d.snd.fabDone k with
  | none => d
  | some ⟨j, l⟩ =>
    let w := d.rd pgFAB (Reg.FA_OUT + 4 * k)
    let d := d.onSnd (fun s => { s with fabDone := spPut (fun _ => none) s.fabDone k none })
    let dst := field w 11 0
    if !d.streamCredit dst then d.audDiscard (256 + 173 + k) (l.filter (fun f => f.isSome)).length
    else d.injectPkt 4 dst ([0x11, byteOf k 0, byteOf (field w 20 16) 0, 0] ++ leBytes 4 0 ++ leBytes 8 j
      ++ l.flatMap (fun f => ext32 (f.getD (0, 0)).1 ++ ext32 (f.getD (0, 0)).2))

/-- FAB_AUDIO_BLOCK (R359, R408). -/
def Dev.fabBlock (d : Dev) (src k i tick : Nat) (frames : List Frame24) : Dev :=
  let w := d.rd pgFAB (Reg.FA_IN + 4 * i)
  if 22 ≤ i ∨ !bit w 31 ∨ field w 11 0 ≠ src ∨ field w 21 16 ≠ k then d.add32 pgFAB Reg.FA_REJECTS 1
  else if tick + d.rdF pgAUD Reg.AUD_FAB_DELAY 11 0 < d.snd.tick then d.add32 pgAUD Reg.AUD_FAB_LATE 1
  else
    let l := spGet (fun _ => []) d.snd.fabIn i ++ frames.zipIdx.map (fun e => (tick + e.2, e.1))
    d.onSnd (fun s => { s with fabIn := spPut (fun _ => []) s.fabIn i l })

/-! ### Converters and I2S (R362, R374) -/

/-- A converter's lock bit; I2Sx_STAT.LOCKED follows both converters of its port. -/
def Dev.setSrc (d : Dev) (k : Nat) (b : Bool) : Dev :=
  let d := d.wrB pgAUD (Reg.SRC_LOCK + 4 * (k / 32)) (k % 32) b
  if k < 64 then d
  else
    let port := (k - 64) / 2
    let both := d.srcLocked (64 + 2 * port) && d.srcLocked (65 + 2 * port)
    let was := d.rdB pgI2S (Reg.I2S_STAT + 8 * port) 1
    let d := d.wrB pgI2S (Reg.I2S_STAT + 8 * port) 1 both
    if both && !was then d.irq pgI2S (2 + port) else d

/-- A converter has a source: an enabled voice input, or a slave port that runs on its clock. -/
def Dev.srcUsed (d : Dev) (k : Nat) : Bool :=
  if k < 64 then decide (0x8000 ≤ d.num (audioBase + 0x40000 + 16 * k + 8) 2)
  else d.rdB pgI2S (Reg.I2S_CTL + 8 * ((k - 64) / 2)) 0 && !d.i2sMaster ((k - 64) / 2)
    && d.rdB pgI2S (Reg.I2S_STAT + 8 * ((k - 64) / 2)) 0

/-- SRC_LOCK. -/
def Dev.srcLock (d : Dev) (k : Nat) : Dev := if d.srcUsed k then d.setSrc k true else d
/-- SRC_UNLOCK. -/
def Dev.srcUnlock (d : Dev) (k : Nat) : Dev := if d.srcLocked k then (d.setSrc k false).irq pgAUD 0 else d

/-- CLK_LOSS (R362, R374): the port's converters have no clock and unlock. -/
def Dev.clkLoss (d : Dev) (k : Nat) : Dev :=
  if !d.rdB pgI2S (Reg.I2S_STAT + 8 * k) 0 then d
  else (((d.wrB pgI2S (Reg.I2S_STAT + 8 * k) 0 false).irq pgI2S k).srcUnlock (64 + 2 * k)).srcUnlock (65 + 2 * k)

/-- CLK_OK (R374). -/
def Dev.clkOk (d : Dev) (k hz : Nat) : Dev :=
  (d.wrB pgI2S (Reg.I2S_STAT + 8 * k) 0 true).wrF pgI2S (Reg.I2S_STAT + 8 * k) 31 8 hz

/-- A write to a word of the I2S page: while EN is 1 only EN changes (R374). -/
def Dev.i2sWrite (d : Dev) (off : Nat) (v : Word) : Dev :=
  if (off = Reg.I2S_CTL ∨ off = Reg.I2S_CTL + 8) ∧ d.rdB pgI2S off 0 then d.wrB pgI2S off 0 (bit v 0) else d.regStore pgI2S off v

/-! ### The headset jack (R366 to R368, R373) -/

def Dev.jackPresent (d : Dev) : Nat := d.rdF pgJACK Reg.JACK_STAT 1 0
def Dev.jackType (d : Dev) : Nat := d.rdF pgJACK Reg.JACK_STAT 4 2

/-- JACK_DETECT_SAMPLE (R366, R595): low reads present. -/
def Dev.jackSample (d : Dev) (low : Bool) : Dev :=
  if !d.rdB pgJACK Reg.JACK_CTL 0 then d
  else
    let agree := decide (d.snd.detLast = some low)
    let d := d.onSnd (fun s => { s with detLast := some low })
    let v := if low then 2 else 1
    if !agree || d.jackPresent == v then d
    else
      let d := d.wrF pgJACK Reg.JACK_STAT 1 0 v
      if low then (d.onSnd (fun s => { s with clsLast := 0 })).irq pgJACK 0
      else (((d.wrF pgJACK Reg.JACK_STAT 4 2 0).wrF pgJACK Reg.JACK_STAT 11 8 0).onSnd (fun s => { s with btnLast := none })).irq pgJACK 1

/-- R367's table: 0 for an unknown pair of readings. -/
def jackClass (mic tip : Nat) : Nat :=
  if mic < 120 then (if tip < 50 then 1 else if 250 ≤ tip then 3 else 0)
  else if 600 ≤ mic ∧ mic ≤ 2400 then 2 else 0

/-- JACK_CLASSIFY (R367). -/
def Dev.jackClassify (d : Dev) (mic tip : Nat) : Dev :=
  if d.jackPresent ≠ 2 ∨ d.jackType ≠ 0 then d
  else
    let d := (d.wrF pgJACK Reg.JACK_STAT 31 16 mic).wrN pgJACK Reg.JACK_TIP tip
    let c := jackClass mic tip
    let agree := c = d.snd.clsLast
    let d := d.onSnd (fun s => { s with clsLast := c })
    if c ≠ 0 ∧ agree then (d.wrF pgJACK Reg.JACK_STAT 4 2 c).irq pgJACK 2 else d

/-- R368's table: the BTN bits of a reading. -/
def jackButton (mic : Nat) : Nat :=
  if mic < 120 then 1 else if mic < 210 then 8 else if mic < 330 then 2 else if mic < 600 then 4 else 0

/-- BUTTON_SAMPLE (R368). -/
def Dev.buttonSample (d : Dev) (mic : Nat) : Dev :=
  if d.jackType ≠ 2 ∨ !d.rdB pgJACK Reg.JACK_CTL 2 ∨ !d.rdB pgJACK Reg.JACK_CTL 1 then d
  else
    let d := d.wrF pgJACK Reg.JACK_STAT 31 16 mic
    let b := jackButton mic
    let agree := d.snd.btnLast = some b
    let d := d.onSnd (fun s => { s with btnLast := some b })
    if agree ∧ d.rdF pgJACK Reg.JACK_STAT 11 8 ≠ b then (d.wrF pgJACK Reg.JACK_STAT 11 8 b).irq pgJACK 3 else d

/-- A write to a word of the JACK page: with DET_EN 0 sensing stops and PRESENT reads 0 (R373). -/
def Dev.jackWrite (d : Dev) (off : Nat) (v : Word) : Dev :=
  let d := d.regStore pgJACK off v
  if off = Reg.JACK_CTL ∧ !bit v 0 then (d.wrF pgJACK Reg.JACK_STAT 1 0 0).onSnd (fun s => { s with detLast := none }) else d

/-- A read of a word of the AUD page: AUD_TICK is computed (R340). -/
def Dev.audRead (d : Dev) (off : Nat) : Word :=
  if off = Reg.AUD_TICK_LO then word (tickAt d.ft) else if off = Reg.AUD_TICK_HI then word (tickAt d.ft / 2 ^ 32) else d.rd pgAUD off

/-! ### Commands -/

/-- AUDIO_TICK (R341). A slot pair that is not given is silence. -/
def execAudioTick (pins : AudioPins) (s : State) : Host.Outcome State Fault Refusal :=
  s.run (fun d => d.audioTick pins)

/-- TONE_MS (R345). -/
def execToneMs (s : State) : Host.Outcome State Fault Refusal := s.run Dev.toneMs

/-- SOUND (R357). -/
def execSound (s : State) : Host.Outcome State Fault Refusal := s.run Dev.sound

/-- FAB_AUDIO_SEND (R359). -/
def execFabAudioSend (k : Fin 64) (s : State) : Host.Outcome State Fault Refusal := s.run (fun d => d.fabSend k)

/-- FAB_AUDIO_BLOCK (R408). -/
def execFabAudioBlock (src : BitVec 12) (k : BitVec 8) (i : BitVec 8) (tick : DWord) (frames : List Frame24) (s : State) :
    Host.Outcome State Fault Refusal :=
  s.run (fun d => d.fabBlock src.toNat k.toNat i.toNat tick.toNat frames)

/-- SRC_LOCK (R362). -/
def execSrcLock (k : Fin 68) (s : State) : Host.Outcome State Fault Refusal := s.run (fun d => d.srcLock k)

/-- SRC_UNLOCK (R362). -/
def execSrcUnlock (k : Fin 68) (s : State) : Host.Outcome State Fault Refusal := s.run (fun d => d.srcUnlock k)

/-- JACK_DETECT_SAMPLE (R366). -/
def execJackDetectSample (low : Bool) (s : State) : Host.Outcome State Fault Refusal := 
  s.run (fun d => d.thawed pgJACK (fun d => d.jackSample low))

/-- JACK_CLASSIFY (R367). -/
def execJackClassify (micMv tipMv : BitVec 16) (s : State) : Host.Outcome State Fault Refusal :=
  s.run (fun d => d.thawed pgJACK (fun d => d.jackClassify micMv.toNat tipMv.toNat))

/-- BUTTON_SAMPLE (R368). -/
def execButtonSample (micMv : BitVec 16) (s : State) : Host.Outcome State Fault Refusal :=
  s.run (fun d => d.thawed pgJACK (fun d => d.buttonSample micMv.toNat))

/-- CLK_LOSS (R374). -/
def execClkLoss (k : Fin 2) (s : State) : Host.Outcome State Fault Refusal := s.run (fun d => d.clkLoss k)

/-- CLK_OK (R374). -/
def execClkOk (k : Fin 2) (hz : BitVec 24) (s : State) : Host.Outcome State Fault Refusal := s.run (fun d => d.clkOk k hz.toNat)

/-- PLAY_BLOCK_READ (R353). -/
def execPlayBlockRead (n : Lane) (host : List Byte) (s : State) : Host.Outcome State Fault Refusal :=
  s.run (fun d => d.playBlock n host)

/-- CAPTURE_BLOCK (R355). -/
def execCaptureBlock (n : Lane) (s : State) : Host.Outcome State Fault Refusal := s.run (fun d => d.captureBlock n)

end Sys2Proof.Machine
end

