-- ==== Sys2Proof/Machine/Gpio.lean ====
section
/-! DEFINITION. GPIO and pin multiplexing (R524 to R531). Pin levels pass through a two-stage LCLK synchroniser: hist holds
each level the pins took with the LCLK edge that first samples it. -/
namespace Sys2Proof.Machine

def Dev.onGpio (d : Dev) (f : GpioSt → GpioSt) : Dev := { d with gpio := f d.gpio }

/-- The LCLK edge that has passed last (12 full-rate PCLK periods an LCLK cycle). -/
def Dev.lclk (d : Dev) : Nat := d.clock.base / 12

/-- The function in effect on a pin. -/
def Dev.pinFn (d : Dev) (p : Nat) : Nat := spGet (fun _ => 0) d.gpio.inEffect p

/-- What the chip drives on a pin by GPIO and timer functions (R524) and as VBUS_EN (R536); none where it drives nothing, and for
the serial peripherals, whose waveforms the commands do not carry. -/
def Dev.pinDrive (d : Dev) (p : Nat) : Option Bool :=
  let q := p % 16
  let tmrOut := fun k => xor (d.rdB pgTMR (0x128 + 0x80 * q + 0x10 * k) 3) (d.rdB pgTMR (0x128 + 0x80 * q + 0x10 * k) 2)
  match d.pinFn p with
  | 0 => if d.rdB pgGPIO (Reg.GPIO_OE + 4 * (p / 32)) (p % 32) then some (d.rdB pgGPIO (Reg.GPIO_OUT + 4 * (p / 32)) (p % 32))
         else none
  | 1 => some (tmrOut 0)
  | 2 => some (tmrOut 1)
  | 5 => if q % 2 = 0 then some (d.rdB pgUSB (Reg.USB_P_STAT + 2 * (q % 4)) 6) else none
  | _ => none

/-- The levels at the 64 pins. -/
def Dev.pinLevels (d : Dev) : Nat :=
  (List.range 64).foldl (fun a p => if (d.pinDrive p).getD (d.gpio.level.testBit p) then a + 2 ^ p else a) 0

/-- The levels that an LCLK edge sees through the synchroniser (R527). -/
def pinsAt (hist : List (Nat × Nat)) (edge : Nat) : Nat :=
  match hist.find? (fun e => decide (e.1 + 2 ≤ edge)) with
  | some e => e.2
  | none => 0

/-- GPIO_IN (R527). -/
def Dev.gpioIn (d : Dev) : Nat := pinsAt d.gpio.hist d.lclk

/-- The match of unit k for given levels (R528). -/
def Dev.pmMatch (d : Dev) (k levels : Nat) : Bool :=
  let ctl := d.rd pgGPIO (Reg.PM_CTL + 8 * k)
  let mask := field ctl 31 16
  decide ((levels >>> (16 * field ctl 1 0)) % 65536 &&& mask = d.rdF pgGPIO (Reg.PM_VAL + 8 * k) 15 0 &&& mask)

/-- Unit k evaluated at levels (R528): MODE says when IRQ_STAT[k] is set. The match sets the DMA request flag of R484. -/
def Dev.pmEval (d : Dev) (k levels : Nat) : Dev :=
  let m := d.pmMatch k levels
  let was := d.gpio.prev.testBit k
  let hit := match d.rdF pgGPIO (Reg.PM_CTL + 8 * k) 3 2 with
    | 1 => m
    | 2 => m && !was
    | 3 => was && !m
    | _ => false
  let d := d.onGpio (fun g => { g with prev := if m = was then g.prev else if m then g.prev + 2 ^ k else g.prev - 2 ^ k })
  if hit then { d.irq pgGPIO k with dma := { d.dma with flags := d.dma.flags ||| 2 ^ (8 + k) } } else d

/-- The units evaluated at every level of hist that has come through the synchroniser and not been seen, the oldest first.
While the page is frozen they stand still (R17); the levels then in place are evaluated once the freeze ends. -/
def Dev.gpioSettle (d : Dev) : Dev :=
  let unseen := d.gpio.hist.take d.gpio.unseen
  let due := unseen.filter (fun e => decide (e.1 + 2 ≤ d.lclk))
  if d.frozen pgGPIO then d.onGpio (fun g => { g with unseen := g.unseen - (due.length - 1) })
  else
    let d := d.onGpio (fun g => { g with unseen := g.unseen - due.length })
    forL due.reverse (fun e d => forN 8 (fun k d => d.pmEval k e.2) d) d

/-- The pins' levels taken into hist at the next LCLK edge, if they changed. Entries that no read can reach any more go. -/
def Dev.gpioNote (d : Dev) : Dev :=
  let v := d.pinLevels
  let cur := match d.gpio.hist with
    | e :: _ => e.2
    | [] => 0
  if v = cur then d
  else d.onGpio (fun g =>
    let old := g.hist.filter (fun e => decide (e.1 ≠ d.lclk + 1))
    { g with hist := ((d.lclk + 1, v) :: old).take (max 4 (g.unseen + 2)), unseen := g.unseen + 1 + old.length - g.hist.length })

/-- A unit in level mode sets its bit in every cycle in which the match holds (R528). -/
def Dev.pmLevels (d : Dev) : Dev :=
  let lv := d.gpioIn
  if d.frozen pgGPIO then d
  else forN 8 (fun k d => if d.rdF pgGPIO (Reg.PM_CTL + 8 * k) 3 2 = 1 && d.pmMatch k lv then d.irq pgGPIO k else d) d

/-- Locked pins of bank b (R529). -/
def Dev.pinsLocked (d : Dev) (b : Nat) : Nat := d.rdF pgGPIO (Reg.GPIO_LOCK + 4 * b) 15 0

/-- All 64 lock bits. -/
def Dev.lockBits (d : Dev) : Nat := (List.range 4).foldl (fun a b => a + d.pinsLocked b * 65536 ^ b) 0

/-- The bits of a word of the GPIO page that belong to locked pins (R529): w bits a pin, from a first pin on. -/
def Dev.lockedMask (d : Dev) (first w : Nat) : Nat :=
  (List.range (32 / w)).foldl (fun a i => if d.lockBits.testBit (first + i) then a + (2 ^ w - 1) * 2 ^ (w * i) else a) 0

/-- A write to GPIO_LOCKx (R529): arming or locking. -/
def Dev.gpioLockWrite (d : Dev) (r : Req) (b : Nat) (was : Option (Req × Nat)) (v : Word) : Dev :=
  let mask := field v 15 0
  if field v 31 24 = 0xC3 then d.onGpio (fun g => { g with armed := [(b, some (r, mask))] })
  else if field v 31 24 = 0x3C ∧ was = some (r, mask) then
    d.wrF pgGPIO (Reg.GPIO_LOCK + 4 * b) 15 0 (d.pinsLocked b ||| mask)
  else d

/-- The pins whose field a write to the GPIO page holds: first pin and bits a pin. -/
def gpioFields (off : Nat) : Option (Nat × Nat) :=
  if 0x040 ≤ off ∧ off < 0x060 then some (8 * ((off - 0x040) / 4), 4)
  else if off = 0x060 ∨ off = 0x064 then some (32 * ((off - 0x060) / 4), 1)
  else if off = 0x068 ∨ off = 0x06C then some (32 * ((off - 0x068) / 4), 1)
  else if 0x078 ≤ off ∧ off < 0x088 then some (16 * ((off - 0x078) / 4), 2)
  else none

/-- A write to a word of the GPIO page (R527 to R530); armed: what the pin locks were armed with before it. -/
def Dev.gpioWrite (d : Dev) (r : Req) (armed : Sparse (Option (Req × Nat))) (off : Nat) (v : Word) : Dev :=
  let d := d.gpioSettle
  let d :=
    if Reg.GPIO_LOCK ≤ off ∧ off < Reg.GPIO_LOCK + 16 then
      let b := (off - Reg.GPIO_LOCK) / 4
      d.gpioLockWrite r b (spGet (fun _ => none) armed b) v
    else match gpioFields off with
      | some (first, w) =>
        let m := word (d.lockedMask first w)
        let d := if w = 1 then d.onGpio (fun g => { g with outEdge := d.lclk + 1 }) else d
        (d.regStore pgGPIO off ((v &&& ~~~ m) ||| (d.rd pgGPIO off &&& m))).gpioNote
      | none =>
        let d := d.regStore pgGPIO off v
        if 0x0A0 ≤ off ∧ off < 0x0E0 then
          let k := (off - 0x0A0) / 8
          let m := d.pmMatch k d.gpioIn
          let was := d.gpio.prev.testBit k
          d.onGpio (fun g => { g with prev := if m = was then g.prev else if m then g.prev + 2 ^ k else g.prev - 2 ^ k })
        else d
  d.pmLevels

/-- A read of a word of the GPIO page. -/
def Dev.gpioRead (d : Dev) (off : Nat) : Word :=
  if off = Reg.GPIO_IN then word d.gpioIn
  else if off = Reg.GPIO_IN + 4 then word (d.gpioIn / 2 ^ 32)
  else if Reg.GPIO_LOCK ≤ off ∧ off < Reg.GPIO_LOCK + 16 then
    putBit (d.rd pgGPIO off) 16 (spGet (fun _ => none) d.gpio.armed ((off - Reg.GPIO_LOCK) / 4)).isSome
  else d.rd pgGPIO off

/-- The input signal that a function takes from a pin at position q (R524, R525): none for outputs. -/
def inSignal (fn q : Nat) : Option Nat :=
  if fn = 3 then if q % 4 = 1 then some 0 else if q % 4 = 3 then some 1 else none
  else if fn = 4 then some (2 + q % 2)
  else if fn = 5 then if q % 4 = 1 then some 4 else if q % 4 = 3 then some 5 else none
  else none

/-- The level that an input function sees (R525): that of the lowest-numbered pin that selects it, through the synchroniser, or its
idle level. -/
def Dev.inLevel (d : Dev) (sig : Nat) (idle : Bool) : Bool :=
  match (List.range 64).find? (fun p => inSignal (d.pinFn p) (p % 16) == some sig) with
  | some p => d.gpioIn.testBit p
  | none => idle

/-- R525: pin p selects an input function that another pin selects: the lower-numbered pin wins, and the pin that lost is
recorded. -/
def Dev.muxCheck (d : Dev) (p : Nat) : Dev :=
  match inSignal (d.pinFn p) (p % 16) with
  | none => d
  | some sig =>
    let others := (List.range 64).filter (fun q => q != p && inSignal (d.pinFn q) (q % 16) == some sig)
    match others with
    | [] => d
    | w :: _ => ((d.wrB pgGPIO Reg.GPIO_STAT 0 true).wrF pgGPIO Reg.GPIO_STAT 13 8 (if w < p then p else w)).irq pgGPIO 8

/-- The function that a pin's field selects. -/
def Dev.pinSel (d : Dev) (p : Nat) : Nat := d.rdF pgGPIO (Reg.GPIO_FUNC + 4 * (p / 8)) (4 * (p % 8) + 3) (4 * (p % 8))

/-- R526: the change of a pin's function field takes effect over two LCLK cycles from the next edge. -/
def Dev.funcChange (d : Dev) (p : Nat) : Dev :=
  let new := d.pinSel p
  if new = d.pinFn p then d
  else
    let d := d.toBase ((d.lclk + 1) * 12)
    let d := (d.onGpio (fun g => { g with inEffect := spPut (fun _ => 0) g.inEffect p new })).muxCheck p
    ((d.toBase ((d.lclk + 2) * 12)).gpioNote).gpioSettle

/-- A write to FENCE (R24) marks the pins whose function changes at an LCLK edge to come (R526), and the writes that reach the
pins at one (R527). -/
def Dev.gpioMark (d : Dev) : Dev :=
  let pins := (List.range 64).filter (fun p => d.pinSel p != d.pinFn p)
  d.onGpio (fun g => { g with fenced := pins, fenceEdge := g.outEdge })

/-- A write that the latest write to FENCE marked has not taken effect (R24). -/
def Dev.gpioPending (d : Dev) : Bool :=
  d.gpio.fenced.any (fun p => d.pinSel p != d.pinFn p) || decide (d.lclk < d.gpio.fenceEdge)

/-- What FENCE marked takes effect before a later write does (R24). -/
def Dev.gpioFenced (d : Dev) : Dev :=
  if !d.gpioPending then d
  else (forL d.gpio.fenced (fun p d => d.funcChange p) d).toBase (d.gpio.fenceEdge * 12)

/-- R527, R528: a pin's level changes; the units evaluate once it has come through the synchroniser. -/
def Dev.pinChange (d : Dev) (p : Nat) (b : Bool) : Dev :=
  let d := d.gpioSettle
  if d.gpio.level.testBit p = b then d
  else
    let d := (d.onGpio (fun g => { g with level := if b then g.level + 2 ^ p else g.level - 2 ^ p })).gpioNote
    (d.toBase ((d.lclk + 3) * 12)).gpioSettle

/-! ### Commands -/

/-- FUNC_CHANGE (R526). -/
def execFuncChange (p : Pin) (s : State) : Host.Outcome State Fault Refusal :=
  s.run (fun d => d.thawed pgGPIO (fun d => d.funcChange p))

/-- PIN_CHANGE (R528). -/
def execPinChange (p : Pin) (level : Bool) (s : State) : Host.Outcome State Fault Refusal :=
  s.run (fun d => d.pinChange p level)

/-- A GPIO_LOCKx key and mask (R529). -/
def lockWord (key : Nat) (mask : BitVec 16) : Word := word (key * 2 ^ 24 + mask.toNat)

/-- GPIO_LOCK_ARM (R529). -/
def execGpioLockArm (r : Req) (b : Fin 4) (mask : BitVec 16) (s : State) : Host.Outcome State Fault Refusal :=
  s.onPage r pgGPIO (fun d => d.gpioWrite r s.dev.gpio.armed (Reg.GPIO_LOCK + 4 * b) (lockWord 0xC3 mask))

/-- GPIO_LOCK (R529). -/
def execGpioLock (r : Req) (b : Fin 4) (mask : BitVec 16) (s : State) : Host.Outcome State Fault Refusal :=
  s.onPage r pgGPIO (fun d => d.gpioWrite r s.dev.gpio.armed (Reg.GPIO_LOCK + 4 * b) (lockWord 0x3C mask))

end Sys2Proof.Machine
end

