-- ==== Sys2Proof/Machine/Memories.lean ====
section
/-! DEFINITION. The commands of the memories: DRAM training, initialisation, scrub and repair (R425 to R440), the march test
engine (R447 to R451) and MRAM (R452 to R457). -/
namespace Sys2Proof.Machine

def Dev.onRam (d : Dev) (f : MemSt → MemSt) : Dev := { d with ram := f d.ram }

/-- n free words drawn (assumption log 3), as bytes. -/
def Dev.freeBytes (d : Dev) (n : Nat) : List Byte :=
  (List.range n).flatMap (fun i => leBytes 4 (Config.freeWord (d.draws + i)).toNat)

/-- An entry added to the repair set in MRAM (R435, R450, R452): the entry's layout is not given, so the word is free. -/
def Dev.repairPost (d : Dev) : Dev :=
  let k := d.ram.repairRows.length + d.ram.spares.length
  { d.mramPost (k % 1024) (d.freeBytes 16) with draws := d.draws + 16 }

/-! ### Training (R425, R426, R430) -/

/-- DDR_CTL.MAX_RATE as a rate code. -/
def maxRate (w : Nat) : Nat := if 5 ≤ w then 4 else w

/-- The rate code of a speed bin in MT/s. -/
def binRate (s : Nat) : Nat := if 6400 ≤ s then 4 else if 6000 ≤ s then 3 else if 5600 ≤ s then 2 else if 5200 ≤ s then 1 else 0

/-- R425: a channel's modules are allowed and alike. -/
def popOk : List SpdInfo → Bool
  | [] => false
  | m :: rest => decide (rest.length < 2) && rest.all (fun x => x == m) && m.rdimm
      && decide (16 ≤ m.sizeGB ∧ m.sizeGB ≤ 128) && decide (m.ranks = 1 ∨ m.ranks = 2 ∨ m.ranks = 4) && decide (4800 ≤ m.speedMts)

/-- DDR_STAT of a channel whose modules are read (R439), without TRAINED. -/
def ddrStatus (ms : List SpdInfo) (rate : Nat) : Nat :=
  match ms with
  | [] => 0
  | m :: _ => ms.length + (m.ranks / 2) * 4 + m.x4.toNat * 16 + rate * 32 + ms.length * m.sizeGB * 65536

/-- POP_ERR set and raised in every channel (R425); DRAM stays disabled. -/
def Dev.popErr (d : Dev) : Dev :=
  (forN 6 (fun c d => ((d.wrB (pgDDR c) Reg.DDR_STAT 9 true).wrB (pgDDR c) Reg.DDR_STAT 8 false).irq (pgDDR c) 6) d).wrF
    (pgDDR 0) Reg.DDR_TOTAL 31 0 0

/-- A channel completes training (R425, R426). When all six have, DDR_TOTAL takes the usable and mirrored sizes (R430). -/
def Dev.trained (d : Dev) (ch : Nat) (ms : List SpdInfo) : Dev :=
  let p := pgDDR ch
  if !d.rdB p Reg.DDR_CTL 0 ∨ d.rdB p Reg.DDR_STAT 8 then d
  else
    let speed := match ms with
      | m :: _ => m.speedMts
      | [] => 0
    let rate := min (min (binRate speed) (if ms.length = 2 then 2 else 4)) (maxRate (d.rdF p Reg.DDR_CTL 3 1))
    let st := ddrStatus ms rate
    let alike := (List.range 6).all (fun c =>
      !d.rdB (pgDDR c) Reg.DDR_STAT 8
      || (decide (d.rdN (pgDDR c) Reg.DDR_STAT % 32 = st % 32) && decide (d.rdF (pgDDR c) Reg.DDR_STAT 31 16 = st / 65536)
          && decide (spGet (fun _ => 0) d.ram.speed c = speed)))
    let mir := d.rdF (pgDDR 0) Reg.DDR_MIR 7 0
    if !popOk ms || !alike || decide (st / 65536 < 2 * mir) then d.popErr
    else
      let d := (d.wrN p Reg.DDR_STAT (st + 256)).onRam (fun m => { m with speed := spPut (fun _ => 0) m.speed ch speed })
      if (List.range 6).all (fun c => d.rdB (pgDDR c) Reg.DDR_STAT 8) then
        d.wrN (pgDDR 0) Reg.DDR_TOTAL (6 * (st / 65536) - 3 * mir + 3 * mir * 65536)
      else d

/-! ### Initialisation (R428, R429) -/

/-- The blocks that a DDR_INIT command acts on: those of usable DRAM from DDR_INIT_BASE to DDR_INIT_END. -/
def Dev.initRange (d : Dev) : Nat × Nat :=
  (d.rdF (pgDDR 0) Reg.DDR_INIT_BASE 19 0,
   min (d.rdF (pgDDR 0) Reg.DDR_INIT_END 19 0 + 1) ((d.dramTop - dramBase) / blockBytes))

/-- R437: before the first INIT of BRINGUP, every row of the repair set that has a hard spare is repaired and removed. -/
def Dev.hardRepair (d : Dev) : Dev :=
  if d.mode = 2 ∧ d.ram.hardDone = false then
    d.onRam (fun m => { m with hardDone := true, repairRows := m.repairRows.filter (fun e => !Config.hardSpare e.1 e.2) })
  else d

/-- DDR_INIT_CMD written (R429, R439): while BUSY it is ignored. A DISCARD takes effect at once. -/
def Dev.initCmd (d : Dev) (op : Nat) : Dev :=
  if d.ram.initOp.isSome then d
  else
    let (lo, hi) := d.initRange
    if op = 1 then
      (d.hardRepair.wrN (pgDDR 0) Reg.DDR_INIT_DONE 0).onRam (fun m => { m with initOp := some (1, lo, hi) })
    else if op = 2 then
      let d := d.onRam (fun m => { m with initOp := some (2, lo, hi) })
      if lo < hi then
        let d := d.keepDue.dropInit lo hi
        forL d.someHeads (fun h d =>
          if d.live h && !(d.bar2Ranges h (dramBase + lo * blockBytes) ((hi - lo) * blockBytes)).isEmpty then
            d.squashWindow h d.ft else d) d
      else d
    else d

/-- INIT_DONE (R429): the command completes: an INIT has zeroed and marked every block of its range. -/
def Dev.initDone (d : Dev) : Dev :=
  match d.ram.initOp with
  | none => d
  | some (op, lo, hi) =>
    let d := d.onRam (fun m => { m with initOp := none })
    let d := if op = 1 then
        (d.markInit lo hi).wrF (pgDDR 0) Reg.DDR_INIT_DONE 19 0 (hi - lo - d.countInit lo hi)
      else d
    d.irq (pgDDR 0) 7

/-! ### Patrol scrub (R431 to R438) -/

/-- The least channel offset from pos on, in 4 KiB granules, whose granule lies in the logical granules [lo, hi), for a
channel that holds granules base + k * step + lane from its granule start on. -/
def nextGranule (pos start base step lane lo hi : Nat) : Option Nat :=
  let k := max (pos - start) (if lo ≤ base + lane then 0 else ceilDiv (lo - base - lane) step)
  if base + k * step + lane < hi then some (start + k) else none

/-- The next granule of a channel at or after pos that is initialised (R434): the interleaved part, then the mirrored. -/
def Dev.scrubNext (d : Dev) (ch pos : Nat) : Option Nat :=
  let gib := 0x40000
  let c := d.rdF (pgDDR 0) Reg.DDR_STAT 31 16 * gib
  let m := d.rdF (pgDDR 0) Reg.DDR_TOTAL 31 16 * gib
  let cands := d.ram.inited.flatMap (fun r =>
    let lo := r.1 * 512
    let hi := r.2 * 512
    (nextGranule pos 0 0 6 ch lo (min hi (6 * c - 2 * m))).toList
      ++ (if m = 0 then [] else (nextGranule (max pos (c - m / 3)) (c - m / 3) (6 * c - 2 * m) 3 (ch / 2) lo hi).toList))
  cands.min?

/-- Patrol scrub goes on to the next initialised burst (R434); past the last one a pass is complete (R435). -/
def Dev.scrubStep (d : Dev) (ch : Nat) : Dev :=
  let pos := spGet (fun _ => 0) d.ram.scrubPos ch
  let setPos := fun (d : Dev) (v : Nat) =>
    (d.onRam (fun m => { m with scrubPos := spPut (fun _ => 0) m.scrubPos ch v })).wrF (pgDDR ch) Reg.DDR_SCRUB 25 0 (v / 4096)
  match d.scrubNext ch (pos / 4096) with
  | some g => setPos d ((if g = pos / 4096 then pos else g * 4096) + 64)
  | none =>
    match d.scrubNext ch 0 with
    | none => d
    | some g =>
      setPos ((d.add32 (pgDDR ch) Reg.DDR_PASSES 1).onRam (fun m => { m with rowErrs := m.rowErrs.filter (fun e => e.ch != ch) }))
        (g * 4096 + 64)

/-- A device's errors counted by row (R435). -/
def countRow (ch dev row : Nat) (spare : Bool) : List RowErr → List RowErr
  | [] => [{ ch := ch, dev := dev, row := row, n := 1, spare := spare, done := false }]
  | e :: l => if e.ch = ch ∧ e.dev = dev ∧ e.row = row then { e with n := e.n + 1, spare := spare } :: l
      else e :: countRow ch dev row spare l

/-- R435: the channel's next soft repair: a row at the threshold, at most one repair a second. -/
def Dev.softRepair (d : Dev) (ch : Nat) : Dev :=
  let p := pgDDR ch
  let thr := max 1 (d.rdF p Reg.DDR_PPR_THR 7 0)
  let recent := match spGet (fun _ => none) d.ram.lastSppr ch with
    | some t => decide (d.clock.base < t + 1200000000)
    | none => false
  if !d.rdB p Reg.DDR_CTL 6 || recent then d
  else match d.ram.rowErrs.find? (fun e => e.ch == ch && decide (thr ≤ e.n) && !e.done) with
    | none => d
    | some e =>
      let d := d.onRam (fun m => { m with rowErrs := m.rowErrs.map (fun x => if x = e then { x with done := true } else x) })
      if e.spare then
        let d := d.onRam (fun m => { m with lastSppr := spPut (fun _ => none) m.lastSppr ch (some d.clock.base)
                                            repairRows := m.repairRows ++ [(ch, e.row)] })
        ((d.wrF p Reg.DDR_SPPR 15 0 (d.rdF p Reg.DDR_SPPR 15 0 + 1)).irq p 3).repairPost
      else
        (((d.wrF p Reg.DDR_SPPR 31 16 (d.rdF p Reg.DDR_SPPR 31 16 + 1)).irq p 4).alarm p 4).degrade 2

/-- R436: a device with corrected errors in 8 rows of the pass is marked; a channel holds one mark. -/
def Dev.markDevice (d : Dev) (ch device sub rank : Nat) : Dev :=
  let p := pgDDR ch
  let mark := 1 + device % 16 * 2 + sub % 2 * 32 + rank % 8 * 64
  if d.rdN p Reg.DDR_MARK = mark then d
  else if d.rdB p Reg.DDR_MARK 0 then (d.irq p 2).alarm p 2
  else
    let d := d.wrN p Reg.DDR_MARK mark
    (((d.wrB p Reg.DDR_STAT 10 true).irq p 2).alarm p 2).degrade 1

/-- A corrected error (R434 to R436): the latest error's address and device, and the counts by row. -/
def Dev.corrected (d : Dev) (ch addr device sub rank row : Nat) (spare : Bool) : Dev :=
  let p := pgDDR ch
  let dev := device + 16 * sub + 32 * rank
  let rows := fun (l : List RowErr) => (l.filter (fun e => e.ch == ch && e.dev == dev)).length
  let before := rows d.ram.rowErrs
  let d := ((d.add32 p Reg.DDR_CE 1).irq p 0).ddrErr ch addr 1 device sub rank
  let d := d.onRam (fun m => { m with rowErrs := countRow ch dev row spare m.rowErrs })
  if before < 8 ∧ rows d.ram.rowErrs = 8 then d.markDevice ch device sub rank else d

/-- An uncorrectable burst (R431, R433): a good mirror copy recovers it; else it is stored back poisoned. -/
def Dev.uncorrected (d : Dev) (ch addr device sub rank : Nat) (mirrorGood : Bool) : Dev :=
  let p := pgDDR ch
  if mirrorGood && d.mirrored addr then
    (((d.add32 p Reg.DDR_MIRREC 1).irq p 5).add32 p Reg.DDR_CE 1).irq p 0 |>.ddrErr ch addr 3 device sub rank
  else
    let d := d.onRam (fun m => { m with poison := if m.poison.contains (addr / 64) then m.poison else addr / 64 :: m.poison })
    let d := ((d.add32 p Reg.DDR_UE 1).irq p 1).ddrErr ch addr 2 device sub rank
    (d.alarm p 1).degrade 0

/-- PATROL_SCRUB: a patrol read of a channel and what it found. -/
def Dev.patrol (d : Dev) (ch : Nat) (found : BurstResult) : Dev :=
  if !d.rdB (pgDDR ch) Reg.DDR_STAT 8 || !d.rdB (pgDDR ch) Reg.DDR_CTL 4 then d
  else
    let d := d.scrubStep ch
    let d := match found with
      | .clean => d
      | .corrected a device sub rank row spare => d.corrected ch a.toNat device sub.toNat rank.toNat row spare
      | .uncorrectable a device sub rank good => d.uncorrected ch a.toNat device sub.toNat rank.toNat good
    d.softRepair ch

/-! ### March tests (R447 to R451) -/

/-- The address ranges of scratchpad k, in the order of R441's table. -/
def padRange : Nat → Nat × Nat
  | 0 => (glyphBase, glyphEnd)
  | 1 => (leadBase, 0x85800000)
  | 2 => (hashBase, 0x86C00000)
  | 3 => (dictBase, 0x87800000)
  | 4 => (storeBase, 0x88200000)
  | 5 => (localBase, 0x88400000)
  | 6 => (audioBase, 0x88500000)
  | _ => (scratchBase, 0x01100000)

/-- Scratchpads cleared (R446), the glyph store's clearing reported to the heads. -/
def Dev.clearPads (d : Dev) (mask : Nat) : Dev :=
  let d := if mask.testBit 0 then d.keepDue else d
  let d := forN 8 (fun k d => if mask.testBit k then d.clear (padRange k).1 (padRange k).2 else d) d
  let d := if mask.testBit 2 then forL d.someHeads (fun h d => d.onHead h (fun x => { x with
      tiles := x.tiles.map (fun _ => 2 ^ 64 - 1), hashes := x.hashes.map (fun _ => 2 ^ 32 - 1) })) d else d
  if mask.testBit 0 then forL d.someHeads (fun h d => if d.live h then d.squashWindow h d.ft else d) d else d

/-- A march test starts, or is refused (R447). -/
def Dev.marchStart (d : Dev) (destructive : Bool) : Dev :=
  if d.rdF pgMARCH Reg.MARCH_STAT 1 0 = 1 then d
  else
    let ok := if destructive then decide (d.mode = 1 ∨ d.mode = 2) else decide (d.mode ≠ 6 ∧ d.mode ≠ 7)
    if ok then (d.wrN pgMARCH Reg.MARCH_STAT 1).onRam (fun m => { m with marchMode := destructive })
    else d.wrF pgMARCH Reg.MARCH_STAT 1 0 3

/-- The scratchpads of the running test: the secure scratch only in destructive mode (R447). -/
def Dev.marchPads (d : Dev) : Nat :=
  let sel := d.rdF pgMARCH Reg.MARCH_SEL 7 0
  if d.ram.marchMode then sel else sel % 128

/-- The test ends: in destructive mode the tested scratchpads are cleared (R447, R451). -/
def Dev.marchEnd (d : Dev) : Dev :=
  let d := if d.ram.marchMode then d.clearPads d.marchPads else d
  (d.wrF pgMARCH Reg.MARCH_STAT 1 0 2).irq pgMARCH 0

/-- MARCH_CTL.ABORT (R451). -/
def Dev.marchAbort (d : Dev) : Dev := if d.rdF pgMARCH Reg.MARCH_STAT 1 0 = 1 then d.marchEnd else d

/-- A spare given (R449, R450). -/
def Dev.giveSpare (d : Dev) (pad bank : Nat) (row : Bool) (i : Nat) : Dev :=
  (d.onRam (fun m => { m with spares := m.spares ++ [(pad, bank, row, i)] })).repairPost.wrB pgMARCH Reg.MARCH_STAT 3 true

/-- Spares of a kind that a bank has left (R449). -/
def Dev.sparesLeft (d : Dev) (pad bank : Nat) (row : Bool) : Nat :=
  (if row then 8 else 2) - (d.ram.spares.filter (fun e => e.1 == pad && e.2.1 == bank && e.2.2.1 == row)).length

/-- The failing rows of a column among a bank's failing cells (row, column). -/
def rowsOfCol (cells : List (Nat × Nat)) (c : Nat) : Nat := ((cells.filter (fun e => e.2 == c)).map (fun e => e.1)).eraseDups.length

/-- The column with the most failing rows, at least 3, the lowest number on a tie. -/
def worstCol (cells : List (Nat × Nat)) : Option Nat :=
  ((cells.map (fun e => e.2)).eraseDups.filter (fun c => decide (3 ≤ rowsOfCol cells c))).foldl (fun best c =>
    match best with
    | none => some c
    | some b => if rowsOfCol cells b < rowsOfCol cells c ∨ (rowsOfCol cells b = rowsOfCol cells c ∧ c < b) then some c else some b) none

/-- R449: spare columns given, at most n. -/
def Dev.giveCols (d : Dev) (pad bank : Nat) : Nat → List (Nat × Nat) → Dev × List (Nat × Nat)
  | 0, cells => (d, cells)
  | n + 1, cells =>
    match worstCol cells with
    | none => (d, cells)
    | some c => (d.giveSpare pad bank false c).giveCols pad bank n (cells.filter (fun e => e.2 != c))

/-- R449: one bank repaired, or found unrepairable. -/
def Dev.repairBank (d : Dev) (pad bank : Nat) (cells : List (Nat × Nat)) : Dev :=
  let (d, left) := d.giveCols pad bank (d.sparesLeft pad bank false) cells
  let rows := (left.map (fun e => e.1)).eraseDups
  let k := d.sparesLeft pad bank true
  let d := forL (rows.take k) (fun r d => d.giveSpare pad bank true r) d
  if rows.length ≤ k then d
  else
    let d := ((d.wrB pgMARCH Reg.MARCH_STAT 4 true).wrN pgMARCH Reg.MARCH_LAST
      (pad + bank * 256 + rows.getD k 0 % 65536 * 65536)).irq pgMARCH 2
    if d.mode = 2 then d else (d.alarm pgMARCH 2).degrade 3

/-- A march test ends, with the failing cells it found (R448, R449). -/
def Dev.marchDone (d : Dev) (fails : List MarchFail) : Dev :=
  if d.rdF pgMARCH Reg.MARCH_STAT 1 0 ≠ 1 then d
  else
    let fs := fails.filter (fun f => d.marchPads.testBit f.pad)
    let d := match fs.getLast? with
      | none => d
      | some f =>
        (((d.wrB pgMARCH Reg.MARCH_STAT 2 true).wrF pgMARCH Reg.MARCH_STAT 31 16 (min fs.length 65535)).wrN pgMARCH Reg.MARCH_LAST
          (f.pad + f.bank * 256 + f.row % 65536 * 65536)).irq pgMARCH 1
    let banks := (fs.map (fun f => (f.pad.val, f.bank.val))).eraseDups
    let d := if d.rdB pgMARCH Reg.MARCH_CTL 2 then
        forL banks (fun (p, b) d => d.repairBank p b ((fs.filter (fun f => f.pad.val == p && f.bank.val == b)).map (fun f => (f.row, f.col)))) d
      else d
    d.marchEnd

/-- PERIOD hours elapse and an automatic preserving pass starts (R451). -/
def Dev.marchPeriod (d : Dev) : Dev :=
  let h := d.rdF pgMARCH Reg.MARCH_CTL 15 8
  if h = 0 then d
  else
    let d := d.toBase (d.ram.marchAt + h * 4320000000000)
    (d.onRam (fun m => { m with marchAt := d.clock.base })).marchStart false

/-- A write to a word of the MARCH page: START and ABORT act with the other fields of the same write. -/
def Dev.marchWrite (d : Dev) (off : Nat) (v : Word) : Dev :=
  if off = Reg.MARCH_CTL then
    let old := d.rdF pgMARCH off 15 8
    let d := d.regStore pgMARCH off v
    let d := if d.rdF pgMARCH off 15 8 = old then d else d.onRam (fun m => { m with marchAt := d.clock.base })
    let d := if bit v 3 then d.marchAbort else d
    if bit v 0 then d.marchStart (bit v 1) else d
  else d.regStore pgMARCH off v

/-! ### MRAM (R452 to R457) -/

/-- Changed persistent counters written, each word at most once a second (R455, R457). -/
def Dev.persistWrite (d : Dev) : Dev :=
  let recent := match d.ram.persistAt with
    | some t => decide (d.clock.base < t + 1200000000)
    | none => false
  if recent || d.ram.persist.isEmpty then d
  else
    let d' := forL d.ram.persist (fun e d => match e.2 with
      | some v => d.mramWrite (0x11000 + 64 * e.1) (leBytes 8 v)
      | none => d) d
    d'.onRam (fun m => { m with persist := [], persistAt := some d.clock.base })

/-- Once per second (R455): a second after the last write. -/
def Dev.persistTick (d : Dev) : Dev :=
  match d.ram.persistAt with
  | some t => (d.toBase (t + 1200000000)).persistWrite
  | none => d.persistWrite

/-- A posted MRAM word completes at the array (R454): not while writes are blocked. -/
def Dev.mramStep (d : Dev) : Dev := if d.mramBlocked then d else d.mramDrain

/-- A write to a word of a DDR page: DDR_MIR takes effect only while DDR0's EN is 0 (R430). -/
def Dev.ddrWrite (d : Dev) (p off : Nat) (v : Word) : Dev :=
  if p = pgDDR 0 ∧ off = Reg.DDR_INIT_CMD then d.initCmd (field v 1 0)
  else if p = pgDDR 0 ∧ off = Reg.DDR_MIR ∧ d.rdB p Reg.DDR_CTL 0 then d
  else d.regStore p off v

/-- A read of DDR_INIT_CMD shows BUSY (R439). -/
def Dev.ddrRead (d : Dev) (p off : Nat) : Word :=
  if p = pgDDR 0 ∧ off = Reg.DDR_INIT_CMD then (if d.ram.initOp.isSome then 0x100 else 0) else d.rd p off

/-- A read of MRAM_STAT (R457). -/
def Dev.mramRead (d : Dev) (off : Nat) : Word :=
  if off = Reg.MRAM_STAT then
    word ((!d.ram.mramBuf.isEmpty).toNat + 2 * d.mramBlocked.toNat + min d.ram.mramBuf.length 64 * 256)
  else d.rd pgMRAM off

/-! ### Commands -/

/-- TRAINED (R425). -/
def execTrained (ch : Fin 6) (spd : List SpdInfo) (s : State) : Host.Outcome State Fault Refusal :=
  s.run (fun d => d.trained ch spd)

/-- DDR_INIT (R429). -/
def execDdrInit (r : Req) (s : State) : Host.Outcome State Fault Refusal := s.onPage r (pgDDR 0) (fun d => d.initCmd 1)

/-- DDR_DISCARD (R429). -/
def execDdrDiscard (r : Req) (s : State) : Host.Outcome State Fault Refusal := s.onPage r (pgDDR 0) (fun d => d.initCmd 2)

/-- INIT_DONE (R429). -/
def execInitDone (s : State) : Host.Outcome State Fault Refusal :=
  s.run (fun d => d.thawed (pgDDR 0) Dev.initDone)

/-- PATROL_SCRUB (R434). -/
def execPatrolScrub (ch : Fin 6) (found : BurstResult) (s : State) : Host.Outcome State Fault Refusal :=
  s.run (fun d => d.thawed (pgDDR ch) (fun d => d.patrol ch found))

/-- MARCH_START (R447). -/
def execMarchStart (r : Req) (s : State) : Host.Outcome State Fault Refusal :=
  s.onPage r pgMARCH (fun d => d.marchStart (d.rdB pgMARCH Reg.MARCH_CTL 1))

/-- MARCH_ABORT (R451). -/
def execMarchAbort (r : Req) (s : State) : Host.Outcome State Fault Refusal := s.onPage r pgMARCH Dev.marchAbort

/-- MARCH_DONE (R449). -/
def execMarchDone (fails : List MarchFail) (s : State) : Host.Outcome State Fault Refusal :=
  s.run (fun d => d.thawed pgMARCH (fun d => d.marchDone fails))

/-- MARCH_PERIOD (R451). -/
def execMarchPeriod (s : State) : Host.Outcome State Fault Refusal :=
  s.run (fun d => d.thawed pgMARCH Dev.marchPeriod)

/-- FLUSH (R457). -/
def execFlush (r : Req) (s : State) : Host.Outcome State Fault Refusal := s.onPage r pgMRAM Dev.persistWrite

/-- COUNTER_PERSIST (R455). -/
def execCounterPersist (s : State) : Host.Outcome State Fault Refusal :=
  s.run (fun d => d.thawed pgMRAM Dev.persistTick)

/-- MRAM_WORD_WRITE (R454). -/
def execMramWordWrite (s : State) : Host.Outcome State Fault Refusal :=
  s.run (fun d => d.thawed pgMRAM Dev.mramStep)

end Sys2Proof.Machine
end

