-- ==== Sys2Proof/Machine/Fabric.lean ====
section
/-! DEFINITION. The Auver links (R375 to R387), discovery and addresses (R388 to R390), the swap of routing tables (R394,
R395), logs between chips (R414) and the software rings (R418). -/
namespace Sys2Proof.Machine

/-- Kinds of messages whose layout is not given (assumption log 23). -/
abbrev msgReplay : Nat := 10
abbrev msgElect : Nat := 11
abbrev msgNonce : Nat := 12
abbrev msgProof : Nat := 13
abbrev msgPassed : Nat := 14
abbrev msgAssign : Nat := 15
abbrev msgMembers : Nat := 16
abbrev msgBeacon : Nat := 17
abbrev msgReport : Nat := 18
abbrev msgReady : Nat := 19
abbrev msgGo : Nat := 20
abbrev msgInjected : Nat := 21
abbrev msgRetire : Nat := 22
abbrev msgFsr : Nat := 23
abbrev msgLog : Nat := 24
abbrev msgInputAck : Nat := 25
abbrev msgClaim : Nat := 26

/-- The code of a link's state in AL_STAT (R417). -/
def LinkState.code : LinkState → Nat
  | .down => 0
  | .train => 1
  | .hello => 2
  | .attest => 3
  | .up => 4
  | .quarantine => 5

/-- The chip's serial number (R573). -/
def ownSerial : Nat := Config.chipSerial.toNat

/-- Full-rate PCLK periods of n ms. -/
def msBase (n : Nat) : Nat := n * 1200000

/-! ### Link states (R376) -/

/-- A link enters a state. -/
def Dev.setLinkSt (d : Dev) (l : Nat) (st : LinkState) : Dev :=
  (d.onLink l (fun x => { x with st := st, enteredAt := d.clock.base })).wrF (pgAL l) Reg.AL_STAT 2 0 st.code

/-- QUARANTINE entered: ATTEST_FAIL and an alarm. -/
def Dev.quarantine (d : Dev) (l : Nat) : Dev := ((d.setLinkSt l .quarantine).irq (pgAL l) 2).alarm (pgAL l) 2

/-- A credit word of a class (R417): word 0 to 3 of its block. -/
def credOff (c w : Nat) : Nat := Reg.AL_CRED + 16 * c + 4 * w

/-- RX_OCC of a class. -/
def Dev.rxOcc (d : Dev) (l c : Nat) : Nat := d.rdF (pgAL l) (credOff c 2) 15 0

/-- SIGNAL_DETECT (R376). -/
def Dev.signalDetect (d : Dev) (l : Nat) : Dev :=
  if (d.link l).st = .down ∧ d.rdB (pgAL l) Reg.AL_CTL 0 ∧ !d.portsOff then d.setLinkSt l .train else d

/-- A HELLO packet of this chip (R385). -/
def Dev.helloBytes (d : Dev) (role feat : Nat) : List Byte :=
  [0x02, byteOf role 0, 0, 0] ++ leBytes 8 ownSerial ++ leBytes 8 (d.rd64 pgFAB Reg.FAB_ID_LO) ++ leBytes 8 feat
    ++ leBytes 2 (d.myAddr + d.addrValid.toNat * 32768) ++ leBytes 1 d.fab.coordHops ++ [0]
    ++ leBytes 8 ((d.fab.coordSerial.map BitVec.toNat).getD ownSerial) ++ List.replicate 8 0

/-- The features offered (R386, R418): bits 5 to 63 are offered as 0 (assumption log 63). -/
def Dev.fabOffer (d : Dev) : Nat := d.rd64 pgFAB Reg.FAB_OFFER_LO % 32

/-- The kind of a HELLO packet: its PTYPE. -/
abbrev msgHello : Nat := 2

/-- TRAIN_DONE (R376, R384, R385): not before every receive buffer is empty. -/
def Dev.trainDone (d : Dev) (l : Nat) (swap : Bool) : Dev :=
  if (d.link l).st ≠ .train ∨ (List.range 6).any (fun c => d.rxOcc l c != 0) then d
  else
    let d := d.setLinkSt l .hello
    let d := (d.wrB (pgAL l) Reg.AL_STAT 3 (d.rdB (pgAL l) Reg.AL_CTL 1)).wrB (pgAL l) Reg.AL_STAT 4 swap
    let b := d.helloBytes 0 d.fabOffer
    let d := d.onLink l (fun x => { x with txSeq := 0, rxSeq := 255, replays := 0, sent := b, offered := none, taken := 0
                                           nonce := [], peerNonce := [], passed := false, peerPassed := false })
    d.linkMsg l msgHello b

/-- TRAIN_TIMEOUT (R376): 100 ms after entry. -/
def Dev.trainTimeout (d : Dev) (l : Nat) : Dev :=
  if (d.link l).st ≠ .train then d else (d.toBase ((d.link l).enteredAt + msBase 100)).setLinkSt l .down

/-- ATTEST_TIMEOUT (R376): 200 ms after entry. -/
def Dev.attestTimeout (d : Dev) (l : Nat) : Dev :=
  if (d.link l).st ≠ .attest then d else (d.toBase ((d.link l).enteredAt + msBase 200)).quarantine l

/-- QUARANTINE_EXPIRY (R376): 10 s after entry. -/
def Dev.quarantineExpiry (d : Dev) (l : Nat) : Dev :=
  if (d.link l).st ≠ .quarantine then d else (d.toBase ((d.link l).enteredAt + msBase 10000)).setLinkSt l .train

/-! ### Election (R388) -/

/-- The links that are UP. -/
def Dev.upLinks (d : Dev) : List Nat := (List.range 8).filter (fun l => decide ((d.link l).st = .up))

/-- ELECT sent on every UP link. -/
def Dev.sendElect (d : Dev) : Dev :=
  forL d.upLinks (fun l d => d.linkSend l msgElect
    [(d.fab.coordSerial.map BitVec.toNat).getD ownSerial, d.fab.coordHops]) d

/-- A peer's lowest serial and its hops (R388). -/
def Dev.electUpdate (d : Dev) (l serial hops : Nat) : Dev :=
  let mine := (d.fab.coordSerial.map BitVec.toNat).getD ownSerial
  if d.fab.silent.map BitVec.toNat = some serial then d
  else if serial < mine ∨ (serial = mine ∧ hops + 1 < d.fab.coordHops) then
    let d := d.onFab (fun f => { f with coordSerial := some (BitVec.ofNat 64 serial), coordHops := hops + 1
                                        parentLink := some l, coordAt := d.clock.base })
    ((d.wrB pgFAB Reg.FAB_STAT 13 false).wrB pgFAB Reg.FAB_STAT 15 false).sendElect
  else if serial = mine ∧ hops + 1 = d.fab.coordHops ∧ d.fab.parentLink.any (fun p => decide (l < p)) then
    d.onFab (fun f => { f with parentLink := some l })
  else d

/-- The address that the chip claims (R389): with ELECT, the one persisted in MRAM (assumption log 31), else its profile's. -/
def Dev.claimed (d : Dev) : Option Nat :=
  if d.rdB pgFAB Reg.FAB_CTL 1 then
    let a := ofLe [d.mramByte 0x10000, d.mramByte 0x10001]
    if 32768 ≤ a then some (a % 4096) else none
  else d.sys.profAddr

/-- CLAIM sent towards the coordinator (R389): serial, address claimed, UP links with their peers' serials. -/
def Dev.sendClaim (d : Dev) : Dev :=
  match d.fab.parentLink with
  | none => d
  | some l => d.linkSend l msgClaim ([ownSerial, (d.claimed.map (· + 1)).getD 0]
      ++ d.upLinks.flatMap (fun k => [k, d.rd64 (pgAL k) Reg.AL_PEER_SN_LO]))

/-- COORD_CHANGE (R388): nothing has changed for 100 ms; the chip with the lowest serial becomes coordinator. -/
def Dev.coordChange (d : Dev) : Dev :=
  let d := d.toBase (d.fab.coordAt + msBase 100)
  let d := d.wrB pgFAB Reg.FAB_STAT 15 true
  if (d.fab.coordSerial.map BitVec.toNat).getD ownSerial ≠ ownSerial then d.sendClaim
  else if d.rdB pgFAB Reg.FAB_STAT 13 then d
  else
    let d := d.onFab (fun f => { f with silent := none, claims := [], nextBeacon := d.clock.base })
    let d := (d.wrB pgFAB Reg.FAB_STAT 13 true).wrF pgFAB Reg.FAB_STAT 27 16 d.myAddr
    d.irq pgFAB 2

/-! ### HELLO and attestation (R385 to R387) -/

/-- The dependencies of R386: FAB_AUDIO requires STREAM_RELAY. -/
def fabDepsOk (f : Nat) : Bool := !f.testBit 1 || f.testBit 0

/-- The taker's choice: what both offer, with the dependencies kept. -/
def fabChoice (a b : Nat) : Nat := let c := a &&& b; if fabDepsOk c then c else c - 2

/-- The negotiated set (R53): AL_NEG, FEAT_DONE, and ATTEST with a fresh nonce. -/
def Dev.negotiated (d : Dev) (l feat : Nat) : Dev :=
  let d := ((d.wr64 (pgAL l) Reg.AL_NEG_LO feat).irq (pgAL l) 3).setLinkSt l .attest
  let n := d.freeBytes 8
  let d := { d with draws := d.draws + 8 }
  (d.onLink l (fun x => { x with nonce := n })).linkSend l msgNonce (n.map BitVec.toNat)

/-- A HELLO packet received (R385, R388). -/
def Dev.hello (d : Dev) (l : Nat) (m : HelloMsg) : Dev :=
  let x := d.link l
  if x.st ≠ .hello then d
  else
    let d := d.wr64 (pgAL l) Reg.AL_PEER_SN_LO m.serial.toNat
    let d := (d.wrF (pgAL l) Reg.AL_STAT 27 16 m.addr.toNat).wrB (pgAL l) Reg.AL_STAT 28 m.addrValid
    let d := d.onLink l (fun x => { x with peerAddr := m.addr.toNat })
    let d := d.electUpdate l m.coordSerial.toNat m.coordHops.toNat
    if m.fabricId.toNat ≠ d.rd64 pgFAB Reg.FAB_ID_LO then d.quarantine l
    else
      let taker := decide (m.serial.toNat < ownSerial)
      let feat := m.feat.toNat
      match m.role with
      | 0 =>
        let d := d.onLink l (fun x => { x with offered := some m })
        if taker then
          let c := fabChoice d.fabOffer feat
          (d.onLink l (fun x => { x with taken := BitVec.ofNat 64 c })).linkMsg l msgHello (d.helloBytes 1 c)
        else d
      | 1 =>
        if taker then d
        else if feat &&& d.fabOffer = feat ∧ fabDepsOk feat then (d.linkMsg l msgHello (d.helloBytes 2 feat)).negotiated l feat
        else (d.linkMsg l msgHello (d.helloBytes 3 feat)).quarantine l
      | 2 => if taker then d.negotiated l x.taken.toNat else d
      | 3 => if taker then d.quarantine l else d

/-- A HELLO packet's bytes read (R385). -/
def helloOf (b : List Byte) : HelloMsg :=
  let n := fun i k => ofLe ((b.drop i).take k)
  { role := ⟨n 1 1 % 4, Nat.mod_lt _ (by decide)⟩, serial := BitVec.ofNat 64 (n 4 8), fabricId := BitVec.ofNat 64 (n 12 8)
    feat := BitVec.ofNat 64 (n 20 8), addr := BitVec.ofNat 12 (n 28 2), addrValid := (n 28 2).testBit 15
    coordHops := BitVec.ofNat 8 (n 30 1), coordSerial := BitVec.ofNat 64 (n 32 8) }

/-- The HELLO packet of ROLE 0 that a peer sent. -/
def offerBytes (m : HelloMsg) : List Byte :=
  [0x02, 0, 0, 0] ++ leBytes 8 m.serial.toNat ++ leBytes 8 m.fabricId.toNat ++ leBytes 8 m.feat.toNat
    ++ leBytes 2 (m.addr.toNat + m.addrValid.toNat * 32768) ++ leBytes 1 m.coordHops.toNat ++ [0]
    ++ leBytes 8 m.coordSerial.toNat ++ List.replicate 8 0

/-- The link comes UP when both ends have passed (R384, R387). -/
def Dev.attestEnd (d : Dev) (l : Nat) : Dev :=
  let x := d.link l
  if x.passed && x.peerPassed then
    let d := d.setLinkSt l .up
    let d := forN 6 (fun c d =>
      (d.wrF (pgAL l) (credOff c 2) 31 16 0).wrN (pgAL l) (credOff c 3) (d.rdF (pgAL l) (credOff c 0) 31 16)) d
    d.irq (pgAL l) 0
  else d

/-- Whether this chip can sign its attestation (R387, R557): KEY_VALID 1 and DBG_OPEN 0. -/
def Dev.canQuote (d : Dev) : Bool := d.rdB pgSEC Reg.SEC_STAT 0 && !d.rdB pgSEC Reg.SEC_STAT 1

/-- The current measurement value (R387, R557). -/
def Dev.measurement (d : Dev) : List Byte := (List.range 8).flatMap (fun i => leBytes 4 (d.rdN pgSEC (Reg.MEAS + 4 * i)))

/-- The hash of the fabric trust anchor, which the active profile holds (R387, R552): MRAM's copy, a constant of the chip's
provisioning where no profile gives one (assumption log 5). -/
def Dev.anchorHash (d : Dev) : List Byte := d.sys.anchor

/-- A certificate chain and signature sent (R379, R387): as a LINK packet has at most 32 flits, in parts of 512 bytes. -/
def Dev.sendProof (d : Dev) (l : Nat) (b : List Byte) : Dev :=
  let n := ceilDiv b.length 512
  forN n (fun i d => d.linkSend l msgProof ([i, n] ++ ((b.drop (512 * i)).take 512).map BitVec.toNat)) d

/-- An attestation message received (R387). -/
def Dev.attest (d : Dev) (l : Nat) (m : AttestMsg) : Dev :=
  let x := d.link l
  if x.st ≠ .attest then d
  else match m with
    | .nonce b =>
      let d := d.onLink l (fun x => { x with peerNonce := b })
      if !d.canQuote then d.quarantine l
      else
        let peer := (x.offered.map offerBytes).getD []
        let digest := Config.sm3 (x.nonce ++ b ++ x.sent ++ peer ++ d.measurement)
        let chain := d.bytes 0x010F0000 (d.rdF pgSEC Reg.SEC_CERT_LEN 16 0)
        let sig := Config.sm2Sign d.draws digest
        let d := { d with draws := d.draws + 1 }
        d.sendProof l (chain ++ sig)
    | .proof chain sig =>
      let peer := (x.offered.map offerBytes).getD []
      if Config.chainVerify d.anchorHash (x.peerNonce ++ x.nonce ++ peer ++ x.sent) chain sig then
        (((d.onLink l (fun x => { x with passed := true })).linkSend l msgPassed [])).attestEnd l
      else d.quarantine l
    | .passed => (d.onLink l (fun x => { x with peerPassed := true })).attestEnd l

/-! ### The parent (R398) -/

/-- TIME takes as parent the UP link whose peer reported the fewest hops, with ties to the lower peer address (R398); the root
has none. A change raises PARENT_CHANGE and clears the servo's integral (R400). -/
def Dev.pickParent (d : Dev) : Dev :=
  let root := d.rdB pgTIME Reg.TIME_STAT 12
  let best := (d.upLinks.filterMap (fun l => (d.link l).peerHops.map (fun h => (h, (d.link l).peerAddr, l)))).foldl
    (fun (b : Option (Nat × Nat × Nat)) e =>
      match b with
      | none => some e
      | some x => if e.1 < x.1 ∨ (e.1 = x.1 ∧ e.2.1 < x.2.1) then some e else some x) none
  let (parent, hops) := match root, best with
    | false, some (h, _, l) => (some l, min 31 (h + 1))
    | _, _ => (none, 0)
  let old := d.fab.parent
  let d := (d.wrF pgTIME Reg.TIME_STAT 6 3 (parent.getD 8)).wrF pgTIME Reg.TIME_STAT 11 7 hops
  if old = parent then d else (d.onFab (fun f => { f with servoI := 0, parent := parent })).irq pgTIME 4

/-! ### Loss (R376, R384) -/

/-- The flits of a queue without the rest of a packet that is partly sent: those of a class before its first SOP. -/
def dropPart (c : Nat) (l : List (Option Nat × List Byte)) : List (Option Nat × List Byte) × List (Option Nat) :=
  let cls := fun (f : List Byte) => (f.getD 2 0).toNat % 8
  let sop := fun (f : List Byte) => (f.getD 2 0).getLsbD 4
  let part := (l.filter (fun e => cls e.2 == c)).takeWhile (fun e => !sop e.2)
  ((l.foldl (fun (acc : List (Option Nat × List Byte) × Nat) e =>
    if cls e.2 = c ∧ 0 < acc.2 then (acc.1, acc.2 - 1) else (acc.1 ++ [e], acc.2)) ([], part.length)).1, part.map (fun e => e.1))

/-- The effects of R384, in one cycle. The whole packets that wait for the link end here, with no route (R392). -/
def Dev.lossEffects (d : Dev) (l : Nat) : Dev :=
  let x := d.link l
  let d := d.add32 (pgAL l) Reg.AL_LOST x.held.length
  let (q, freed) := (List.range 6).foldl (fun (acc : List (Option Nat × List Byte) × List (Nat × Option Nat)) c =>
    let r := dropPart c acc.1
    (r.1, acc.2 ++ r.2.map (fun v => (c, v)))) (x.queue, [])
  let whole := q.filter (fun e => decide ((e.2.getD 2 0).toNat % 8 ≠ 7))
  let d := forL freed (fun e d => d.freeBufs e.2 e.1 1) d
  let d := forL whole (fun e d =>
    let ctl := e.2.getD 2 0
    let d := d.freeBufs e.1 (ctl.toNat % 8) 1
    if ctl.getLsbD 4 then ((d.add64 pgFAB Reg.NOROUTE 1).irq pgFAB 9).add64 pgFAB (Reg.EP_END + 8 * (ctl.getLsbD 3).toNat) 1 else d) d
  let d := d.onFab (fun f => { f with unacked := f.unacked.filter (fun u => !(u.cls == 7 && u.dst == l))
                                      waiting := f.waiting.filter (fun u => !(u.cls == 7 && u.dst == l)) })
  let part := fun c => (spGet (fun _ => []) x.asm c).length
  let d := forN 6 (fun c d =>
    let d := d.wrF (pgAL l) (credOff c 2) 15 0 (d.rxOcc l c - part c)
    let d := d.wrN (pgAL l) (credOff c 1) (d.rdF (pgAL l) (credOff c 0) 15 0)
    (d.wrF (pgAL l) (credOff c 2) 31 16 (d.rdF (pgAL l) (credOff c 0) 31 16 - d.rxOcc l c)).wrN (pgAL l) (credOff c 3) 0) d
  d.onLink l (fun x => { x with held := [], resend := [], queue := [], asm := [], replays := 0, waitReplay := false
                                peerHops := none })

/-- A link is lost (R376, R384). QUARANTINE is left only as its own row says. -/
def Dev.linkLoss (d : Dev) (l : Nat) : Dev :=
  let st := (d.link l).st
  if st = .down then d
  else
    let d := ((d.lossEffects l).add32 (pgAL l) Reg.AL_DOWNS 1).irq (pgAL l) 1
    let d := d.wrB (pgAL l) Reg.AL_STAT 3 false
    (if st = .quarantine then d else d.setLinkSt l .down).pickParent

/-! ### Flits sent (R380 to R382) -/

/-- CLASS of a flit. -/
def flitClass (f : List Byte) : Nat := (f.getD 2 0).toNat % 8

/-- Slots per 1,024 of a class (R378). -/
def classShare : Nat → Nat
  | 1 => 32
  | 2 => 32
  | 3 => 200
  | 4 => 708
  | 5 => 52
  | _ => 0

/-- The class with the most pending credits, and up to 31 of them (R382). -/
def Dev.creditReturn (d : Dev) (l : Nat) : Nat × Nat :=
  let pend := fun c => d.rdF (pgAL l) (credOff c 2) 31 16
  let best := (List.range 6).foldl (fun b c => if pend b < pend c then c else b) 0
  (best, min 31 (pend best))

/-- A flit with its link fields and CRC (R375, R377). -/
def sealFlit (f : List Byte) (lseq lack cret : Nat) : List Byte :=
  let b := ([byteOf lseq 0, byteOf lack 0] ++ (f.drop 2).take 1 ++ [byteOf cret 0] ++ f.drop 4).take 60
  b ++ leBytes 4 (crc32c b)

/-- A flit of a slot goes out (R381, R382): it takes an LSEQ unless it is IDLE and returns no credit. -/
def Dev.putFlit (d : Dev) (l : Nat) (f : List Byte) (idle : Bool) : Dev :=
  let x := d.link l
  let room := decide (x.held.length < 128)
  let (rc, rn) := d.creditReturn l
  let rn := if room then rn else 0
  let seq := !idle || rn != 0
  let b := sealFlit f x.txSeq x.rxSeq (rc + 8 * rn)
  let d := if rn = 0 then d else
      let o := credOff rc 2
      (d.wrF (pgAL l) o 31 16 (d.rdF (pgAL l) o 31 16 - rn)).wrN (pgAL l) (credOff rc 3) (d.rdN (pgAL l) (credOff rc 3) + rn)
  let d := if seq then d.onLink l (fun x => { x with txSeq := (x.txSeq + 1) % 256, held := x.held ++ [b] }) else d
  (d.add64 (pgAL l) Reg.AL_FLITS_TX 1).out (.flit l b)

/-- The first queued flit of a class, and the queue without it. -/
def takeFlit (c : Nat) : List (Option Nat × List Byte) → Option ((Option Nat × List Byte) × List (Option Nat × List Byte))
  | [] => none
  | e :: l => if flitClass e.2 = c then some (e, l) else (takeFlit c l).map (fun r => (r.1, e :: r.2))

/-- The classes after the one served last, in round robin order (R380). -/
def robin (last : Nat) : List Nat := (List.range 5).map (fun i => (last + i) % 5 + 1)

/-- The class that a slot serves (R380). -/
def Dev.slotClass (d : Dev) (l : Nat) : Option Nat :=
  let x := d.link l
  let up := x.st == .up && !d.rdB pgFAB Reg.FAB_STAT 14
  let has := fun c => x.queue.any (fun e => flitClass e.2 == c)
  let ready := fun c => up && has c && d.rdF (pgAL l) (credOff c 1) 15 0 != 0
  if 128 ≤ x.held.length then none
  else if has 7 then some 7
  else if ready 0 then some 0
  else
    let can := (robin x.lastClass).filter ready
    match can.find? (fun c => decide ((x.past.filter (fun p => p == c)).length < classShare c)) with
    | some c => some c
    | none => can.head?

/-- FLIT_SEND (R380): the flit of one slot. -/
def Dev.flitSend (d : Dev) (l : Nat) : Dev :=
  let x := d.link l
  if x.st = .down ∨ x.st = .train then d
  else
    let mark := fun (d : Dev) (c : Nat) => d.onLink l (fun x => { x with past := (c :: x.past).take 1023 })
    match x.resend with
    | f :: rest =>
      mark (((d.onLink l (fun x => { x with resend := rest })).add64 (pgAL l) Reg.AL_FLITS_TX 1).out (.flit l f)) (flitClass f)
    | [] =>
      match d.slotClass l with
      | none => mark (d.putFlit l ([0, 0, 7, 0] ++ List.replicate 56 0) true) 7
      | some c =>
        match takeFlit c x.queue with
        | none => d
        | some ((via, f), q) =>
          let d := d.onLink l (fun x => { x with queue := q, lastClass := if c = 0 ∨ c = 7 then x.lastClass else c })
          let d := if c = 7 then d else
              let o := credOff c 1
              (d.wrF (pgAL l) o 15 0 (d.rdF (pgAL l) o 15 0 - 1)).wrF (pgAL l) o 31 16 (d.rdF (pgAL l) o 31 16 + 1)
          mark ((d.freeBufs via c 1).putFlit l f false) c

/-! ### Relayed streams (R406) -/

/-- A record of a relayed frame: types 0x02, 0x03 and 0x10 to 0x2F (R304). -/
def isFrameRec (r : List Byte) : Bool :=
  recType r == 2 || recType r == 3 || (decide (16 ≤ recType r) && decide (recType r < 0x30))

/-- The slot of a session on another chip that is not known yet: the console has moved there (R320). -/
abbrev slotUnknown : Nat := 4096

/-- A stream record of another chip goes on to the session, with what it says to this chip: STREAM_START lets records that
waited follow (R310); ROLE is the session's; MOVED leads to a slot of the new chip, or of this one (R320); STREAM_END ends the
session (R331). -/
def Dev.relayedStream (d : Dev) (s : Nat) (r : List Byte) : Dev :=
  match recType r with
  | 0x01 =>
    let early := (d.sess s).early
    forL early (fun e d => d.sessStream s e)
      ((d.sessStream s r).onSess s (fun x => { x with awaitStart := false, early := [] }))
  | 0x05 => (d.setSd s dROLE 1 (recFlags r % 2)).sessStream s r
  | 0x04 =>
    let chip := ofLe ((r.drop 16).take 2) % 4096
    let d := (d.sessStream s r).onSess s (fun x => { x with relay := [] })
    if recFlags r % 2 = 1 then d
    else if chip = d.myAddr then (d.onSess s (fun x => { x with remoteSlot := none })).setSd s dMIRROR 2 s
    else (d.onSess s (fun x => { x with remoteSlot := some (chip, slotUnknown) })).setSd s dFLAGS 1 1
  | 0x08 =>
    ((d.sessStream s r).endSession s (r.getD 8 0).toNat |>.onSess s (fun x => { x with remoteSlot := none })).irq pgSESS 1
  | _ => d.sessStream s r

/-- A whole relayed frame (R43, R316, R406): a session that needs a key takes keyframes only. -/
def Dev.relayedFrame (d : Dev) (s : Nat) (l : List (List Byte)) : Dev :=
  let key := decide ((l.head?.map recFlags).getD 0 % 2 = 1)
  if key then (d.setSd s dFLAGS 1 0).sessFrame s l
  else if d.sd s dFLAGS 1 % 2 = 1 then d.needKey s
  else d.sessFrame s l

/-- A relayed record arrives for session s from mirror slot k of the encoding chip (R406); src, where known, is that chip. The
first record that the new chip sends after MOVED shows the session's slot there (R320). -/
def Dev.relayed (d : Dev) (src : Option Nat) (s slot : Nat) (r : List Byte) : Dev :=
  let d := match (d.sess s).remoteSlot with
    | some (c, k) => if k = slotUnknown ∧ src.all (fun a => a == c) then
        (d.onSess s (fun x => { x with remoteSlot := some (c, slot) })).setSd s dMIRROR 2 slot else d
    | none => d
  let x := d.sess s
  if x.remoteSlot.map (fun e => e.2) ≠ some slot ∨ d.sessState s = 0 then d
  else if !isFrameRec r then d.relayedStream s r
  else if recType r = 2 then d.onSess s (fun x => { x with relay := [r] })
  else if recType r ≠ 3 then d.onSess s (fun x => { x with relay := x.relay ++ [r] })
  else
    let l := x.relay ++ [r]
    let d := d.onSess s (fun x => { x with relay := [] })
    let ok := decide (ofLe ((r.drop 16).take 4) = l.length) && decide (ofLe ((r.drop 20).take 4) = (l.map List.length).sum)
      && ((l.head?.map recType).getD 0) == 2
    if ok then d.relayedFrame s l else d.needKey s

/-- Messages by which a source asks a console's home where it is now (R410): their layout is not given. -/
abbrev msgLocAsk : Nat := 52
abbrev msgLocTold : Nat := 53

/-- The INPUT packets of a console go to another chip (R410, step 6). -/
def Dev.retarget (d : Dev) (name c : Nat) : Dev :=
  let mine := fun (u : Unacked) => u.cls == 2 && u.key == name
  let l := d.fab.unacked.filter mine
  let d := d.onFab (fun f => { f with unacked := f.unacked.filter (fun u => !mine u) })
  forL l (fun u d => d.sendItem { u with dst := c, packet := { u.packet with dst := c } }) d

/-- An INPUT packet was refused with MOVED: its source asks the console's home and resends (R410, step 6). -/
def Dev.askHome (d : Dev) (name : Nat) : Dev :=
  match d.homeOf name with
  | none => d
  | some a => if a = d.myAddr then (d.loc name).elim d (fun e => d.retarget name e.chip) else d.msg 1 a msgLocAsk [name]

/-- A CTRL message about sessions from another chip (R330, R405 to R407): keys asked for and epochs acknowledged for a slot, a slot
given up, control taken, given up or revoked. Its layout is not given (assumption log 23). -/
def Dev.ctrlMsg (d : Dev) (src : Nat) (m : Nat × List Nat) : Dev :=
  let own := fun k => (d.mirror k).any (fun x => x.chip == some src)
  match m with
  | (2, [k]) => if own k then d.needSlot k true else d
  | (3, [k, ep]) => if own k then d.ackSlot k ep else d
  | (5, [k]) => if own k then (d.setMirror k none).freeIndexes else d
  | (6, [name, c, t, next]) => if t = 0 then d.remoteRelease name src next else d.remoteGrant name c (t - 1)
  | (7, [name, t, c]) => d.revoked name t c
  | (25, [name, n]) => d.acked (fun u => u.cls == 2 && u.key == name && u.seq == n)
  | (35, [name, _]) => d.askHome name
  | (52, [name]) => (d.loc name).elim d (fun e => d.msg 1 src msgLocTold [name, e.chip])
  | (53, [name, c]) => d.retarget name c
  | (33, [name, c, h, moving]) => d.setLoc name (some { chip := c, head := h, moving := moving == 1 })
  | (20, [go]) => if d.swapState = 1 then (d.wrF pgFAB Reg.RT_CTL 4 3 2).onFab (fun f => { f with goAt := some go }) else d
  | _ => d

/-- The number of an acknowledged item, or of an item with its contents, that a packet carries (R378). -/
def Dev.itemIn (d : Dev) (p : Packet) : Dev × Option (Nat × List Nat) :=
  match Config.fabricRead p.bytes with
  | (27, [n]) => (d.acked (fun u => u.cls == p.cls && u.dst == p.src && u.seq == n), none)
  | (kind, n :: args) =>
    let r := d.hearSeq p.cls p.src n
    (r.1, if r.2 then some (kind, args) else none)
  | _ => (d, none)

/-! ### Packets at their destination (R391) -/

/-- A packet whose layout is given acts at its unit; what others hold comes as commands of their own (assumption log 23). -/
def Dev.deliverPkt (d : Dev) (p : Packet) : Dev :=
  let n := fun i k => ofLe ((p.bytes.drop i).take k)
  if p.cls = 4 ∧ p.bytes.head? = some 0x10 then d.relayed (some p.src) (n 6 2 % 1024) (n 4 2) (p.bytes.drop 16)
  else if p.cls = 4 ∧ p.bytes.head? = some 0x11 then
    let smp := fun i => BitVec.ofNat 24 (n i 4)
    d.fabBlock p.src (n 1 1) (n 2 1) (n 8 8) ((List.range 48).map (fun i => (smp (16 + 8 * i), smp (20 + 8 * i))))
  else if p.cls = 1 ∨ p.cls = 3 ∨ p.cls = 5 then
    let r := d.itemIn p
    match r.2 with
    | some m => if p.cls = 1 then r.1.ctrlMsg p.src m else r.1
    | none => r.1
  else d

/-- LOG_RING_PROD − LOG_RING_CONS has reached the ring's 32,768 records (R414). -/
def Dev.logRingFull (d : Dev) : Bool :=
  decide (32768 ≤ (d.rdN pgLOG Reg.LOG_RING_PROD + 2 ^ 32 - d.rdN pgLOG Reg.LOG_RING_CONS) % 2 ^ 32)

/-- A complete packet off link l (R379, R391, R395, R414): forwarded, or delivered here; a collector whose ring is full keeps
the buffers of a LOG packet. -/
def Dev.packetIn (d : Dev) (l : Nat) (p : Packet) : Dev :=
  if p.cls = 5 ∧ d.addrValid ∧ p.dst = d.myAddr ∧ d.rdB pgLOG Reg.LOG_CTL 3 ∧ d.logRingFull then
    let d := d.onFab (fun f => { f with mail := f.mail ++ [(l, max 1 (ceilDiv p.bytes.length 48))] })
    (d.forward { p with via := none }).1
  else
    let r := d.forward p
    if r.2 then r.1.deliverPkt p else r.1

/-- Buffers of LOG flits that a collector kept are freed once its ring has room (R414). -/
def Dev.freeMail (d : Dev) : Dev :=
  if d.logRingFull then d
  else forL d.fab.mail (fun e d => d.freeBufs (some e.1) 5 e.2) (d.onFab (fun f => { f with mail := [] }))

/-! ### Flits received (R381, R382) -/

/-- The payload of a packet's flits. -/
def assemble (fs : List (List Byte)) : List Byte := fs.flatMap (fun f => (f.drop 12).take (min 48 (f.getD 8 0).toNat))

/-- A flit that LACK covers: where it ends a LINK packet, the packet is acknowledged, since LSEQ is the sequence number that its
class carries (R378: assumption log 24). -/
def Dev.linkAcked (d : Dev) (l : Nat) (f : List Byte) : Dev :=
  if flitClass f ≠ 7 ∨ !(f.getD 2 0).getLsbD 5 then d
  else d.acked (fun u => u.cls == 7 && u.dst == l
    && (((flitsOf u.packet).getLastD []).drop 4).take 56 == (f.drop 4).take 56)

/-- LACK covers held flits up to the one with that LSEQ (R381). -/
def Dev.ackFlits (d : Dev) (l lack : Nat) : Dev × Bool :=
  let x := d.link l
  if x.held.any (fun f => (f.getD 0 0).toNat == lack) then
    let rest := (x.held.dropWhile (fun f => (f.getD 0 0).toNat != lack)).drop 1
    let d := d.onLink l (fun x => { x with held := rest, replays := 0 })
    (forL (x.held.take (x.held.length - rest.length)) (fun f d => d.linkAcked l f) d, true)
  else (d, false)

/-- A flit discarded by the receiver (R381): one REPLAY goes back. -/
def Dev.badFlit (d : Dev) (l : Nat) : Dev :=
  let d := d.add32 (pgAL l) Reg.AL_CRC_ERRS 1
  let x := d.link l
  if x.waitReplay then d
  else (d.onLink l (fun x => { x with waitReplay := true })).linkSend l msgReplay [x.rxSeq]

/-- A flit's payload taken in: a packet is complete at EOP. -/
def Dev.flitPayload (d : Dev) (l : Nat) (f : List Byte) : Dev :=
  let c := flitClass f
  let ctl := f.getD 2 0
  let old := if ctl.getLsbD 4 then [] else spGet (fun _ => []) (d.link l).asm c
  let l' := old ++ [f]
  if !ctl.getLsbD 5 then d.onLink l (fun x => { x with asm := spPut (fun _ => []) x.asm c l' })
  else
    let d := d.onLink l (fun x => { x with asm := spPut (fun _ => []) x.asm c [] })
    let b := assemble l'
    let h := l'.headD []
    let n := fun i => ofLe ((h.drop i).take 2) % 4096
    if c = 7 then (if b.head? = some 0x02 then d.hello l (helloOf b) else d)
    else d.packetIn l { cls := c, epoch := (h.getD 2 0).getLsbD 3, dst := n 4, src := n 6, hops := (h.getD 9 0).toNat
                        bytes := b, via := some l }

/-- FLIT_RX (R377, R381, R382). -/
def Dev.flitRx (d : Dev) (l : Nat) (f : List Byte) : Dev :=
  let x := d.link l
  let c := flitClass f
  let n := fun i => (f.getD i 0).toNat
  if x.st = .down ∨ x.st = .train then d
  else if f.length ≠ 64 ∨ crc32c (f.take 60) ≠ ofLe (f.drop 60) ∨ c = 6 then d.badFlit l
  else
    let idle := c == 7 && n 8 == 0
    let cret := n 3 / 8
    let seq := !idle || cret != 0
    if seq ∧ n 0 ≠ (x.rxSeq + 1) % 256 then d.badFlit l
    else
      let d := (d.ackFlits l (n 1)).1.add64 (pgAL l) Reg.AL_FLITS_RX 1
      let d := if seq then d.onLink l (fun x => { x with rxSeq := n 0, waitReplay := false }) else d
      let rc := n 3 % 8
      let d := if cret = 0 ∨ 6 ≤ rc then d else
          let o := credOff rc 1
          let n := min cret (d.rdF (pgAL l) o 31 16)
          (d.wrF (pgAL l) o 31 16 (d.rdF (pgAL l) o 31 16 - n)).wrF (pgAL l) o 15 0 (d.rdF (pgAL l) o 15 0 + n)
      if idle then d
      else if c = 7 then d.flitPayload l f
      else if x.st ≠ .up then d
      else
        let d := (d.wrF (pgAL l) (credOff c 2) 15 0 (d.rxOcc l c + 1)).wrN (pgAL l) (credOff c 3)
          (d.rdN (pgAL l) (credOff c 3) - 1)
        d.flitPayload l f

/-- REPLAY (R376, R381): every held flit after LACK is sent again; eight without an advance of LACK lose the link. -/
def Dev.replay (d : Dev) (l lack : Nat) : Dev :=
  let d := (d.add32 (pgAL l) Reg.AL_REPLAYS 1).irq (pgAL l) 4
  let (d, moved) := d.ackFlits l lack
  let d := if moved then d else d.onLink l (fun x => { x with replays := x.replays + 1 })
  if 8 ≤ (d.link l).replays then d.linkLoss l else d.onLink l (fun x => { x with resend := x.held })

/-! ### Addresses and members (R389, R390) -/

/-- The address that the coordinator gives to a claimant (R389). -/
def Dev.giveAddress (d : Dev) (serial : Nat) (claim : Option Nat) : Option Nat :=
  let others := d.fab.claims.filter (fun c => decide (c.serial.toNat ≠ serial))
  let lower := others.any (fun c => decide (c.serial.toNat < serial) && (c.claim == claim || c.given == claim))
  if d.rdB pgFAB Reg.FAB_CTL 1 then
    if claim.isSome && !lower then claim
    else (List.range 4096).find? (fun a => !(others.any (fun c => c.given == some a || c.claim == some a)))
  else if claim.isSome && !lower then claim else none

/-- ASSIGN (R389): the chip takes its address and writes it to MRAM (the record's layout is not given: the address in its first
two bytes, assumption log 31), or is refused. -/
def Dev.assign (d : Dev) (addr : Option Nat) (coord : Nat) : Dev :=
  let d := d.wrF pgFAB Reg.FAB_STAT 27 16 coord
  match addr with
  | some a =>
    let d := (d.wrF pgFAB Reg.FAB_STAT 11 0 a).wrB pgFAB Reg.FAB_STAT 12 true
    ((d.wrB pgFAB Reg.FAB_STAT 14 false).irq pgFAB 0).mramWrite 0x10000 (leBytes 2 (a + 32768))
  | none => (d.wrB pgFAB Reg.FAB_STAT 14 true).irq pgFAB 1

/-- A message from the coordinator to every other member. -/
def Dev.toMembers (d : Dev) (kind : Nat) (args : List Nat) : Dev :=
  forL (d.fab.members.filter (fun a => decide (a ≠ d.myAddr))) (fun a d => d.msg 1 a kind args) d

/-- A change of membership announced (R390): its effective instant is 10 ms ahead. -/
def Dev.announce (d : Dev) (addr : Nat) : Dev := d.toMembers msgMembers [addr, (d.ft + 42949673) % 2 ^ 64]

/-- A CLAIM reaches the coordinator (R389); another chip passes it on along the election tree (R388). -/
def Dev.claimAddress (d : Dev) (serial : Nat) (claim : Option Nat) : Dev :=
  if !d.rdB pgFAB Reg.FAB_STAT 13 then
    d.fab.parentLink.elim d (fun l => d.linkSend l msgClaim [serial, (claim.map (· + 1)).getD 0])
  else
    let g := d.giveAddress serial claim
    let d := d.onFab (fun f => { f with claims := f.claims.filter (fun c => decide (c.serial.toNat ≠ serial))
      ++ [{ serial := BitVec.ofNat 64 serial, claim := claim, given := g }] })
    let d := match g with
      | some a => if d.fab.members.contains a then d else d.announce a
      | none => d
    if serial = ownSerial then d.assign g (g.getD d.myAddr)
    else
      let b := Config.fabricMsg msgAssign [serial, (g.map (· + 1)).getD 0, d.myAddr]
      forL d.upLinks (fun l d => d.linkMsg l msgAssign b) d

/-- The coordinator's address. -/
def Dev.coordAddr (d : Dev) : Nat := d.rdF pgFAB Reg.FAB_STAT 27 16

/-- BEACON (R390): every 10 ms. -/
def Dev.beacon (d : Dev) : Dev :=
  if !d.rdB pgFAB Reg.FAB_STAT 13 then d
  else
    let d := d.toBase d.fab.nextBeacon
    (d.onFab (fun f => { f with nextBeacon := d.clock.base + msBase 10 })).toMembers msgBeacon [d.ft]

/-- REPORT (R390): every 10 ms, to the coordinator. -/
def Dev.report (d : Dev) : Dev :=
  if !d.addrValid || d.rdB pgFAB Reg.FAB_STAT 13 then d
  else
    let d := d.toBase d.fab.nextReport
    (d.onFab (fun f => { f with nextReport := d.clock.base + msBase 10 })).msg 1 d.coordAddr msgReport [d.myAddr]

/-- BEACON_MISS (R390): a new election without the silent coordinator. -/
def Dev.beaconMiss (d : Dev) : Dev :=
  if d.rdB pgFAB Reg.FAB_STAT 13 then d
  else
    let d := d.onFab (fun f => { f with silent := f.coordSerial, coordSerial := none, coordHops := 0, parentLink := none
                                        coordAt := d.clock.base })
    (d.wrB pgFAB Reg.FAB_STAT 15 false).sendElect

/-! ### Routing tables (R394, R395) -/

/-- RT_CTL.SWAP_STATE. -/
def Dev.setSwap (d : Dev) (n : Nat) : Dev := d.wrF pgFAB Reg.RT_CTL 4 3 n

/-- LOAD_DONE (R394, step 1). -/
def Dev.loadDone (d : Dev) : Dev :=
  if d.swapState ≠ 0 then d
  else ((d.wrB pgFAB Reg.RT_CTL 0 true).setSwap 1).msg 1 d.coordAddr msgReady [d.myAddr]

/-- GO (R394, step 2): at the coordinator. -/
def Dev.go (d : Dev) : Dev :=
  if !d.rdB pgFAB Reg.FAB_STAT 13 ∨ d.swapState ≠ 1 then d
  else
    let at_ := d.rd64 pgFAB Reg.RT_GO_LO
    let d := (d.wrB pgFAB Reg.RT_CTL 1 true).setSwap 2
    (d.onFab (fun f => { f with goAt := some at_ })).toMembers msgGo [at_]

/-- The active bit inverted (R394, step 3). -/
def Dev.switchNow (d : Dev) : Dev :=
  let old := d.rtActive
  let d := ((d.wrB pgFAB Reg.RT_CTL 2 (!old)).wrB pgFAB Reg.RT_CTL 5 false).setSwap 3
  let d := d.onFab (fun f => { f with goAt := none, epSum := 0, epAt := d.clock.base, nextCollect := d.clock.base, lostDraining := false })
  (d.irq pgFAB 4).msg 1 d.coordAddr msgInjected [old.toNat, d.rd64 pgFAB (Reg.EP_INJ + 8 * old.toNat)]

/-- SWITCHED (R394, step 3): the first PCLK cycle at or after RT_GO; deferred while PWR_WARN is in force. A chip that is not
coordinator learns the instant by a message; its step is the command's. -/
def Dev.switched (d : Dev) : Dev :=
  if ¬(d.swapState = 2 ∨ (d.swapState = 1 ∧ !d.rdB pgFAB Reg.FAB_STAT 13)) then d
  else
    let d := match d.fab.goAt with
      | some x => d.toFt x
      | none => d
    if d.rdB pgPWR Reg.PWR_STAT 0 then (d.setSwap 2).wrB pgFAB Reg.RT_CTL 5 true else d.switchNow

/-- RETIRED (R394, step 5; R395): the hold is delivered in order of arrival. -/
def Dev.retired (d : Dev) : Dev :=
  if d.swapState ≠ 3 then d
  else
    let held := d.fab.hold
    let d := ((d.setSwap 0).wrF pgFAB Reg.RT_CTL 1 0 0).onFab (fun f => { f with hold := [] })
    let d := d.setHoldUsed
    let d := forL held (fun p d => (d.epEnd p).deliverPkt p) d
    d.irq pgFAB 5

/-- EP_COLLECT (R394, step 4): every 1 ms at the coordinator; RETIRE when every packet of the old bit has ended, or 10 ms after
the last change where a member was lost. -/
def Dev.epCollect (d : Dev) (inj ended : Nat) : Dev :=
  if !d.rdB pgFAB Reg.FAB_STAT 13 ∨ d.swapState ≠ 3 then d
  else
    let d := d.toBase d.fab.nextCollect
    let now := d.clock.base
    let d := d.onFab (fun f => { f with nextCollect := now + msBase 1, epAt := if ended = f.epSum then f.epAt else now, epSum := ended })
    if inj = ended ∨ (d.fab.lostDraining ∧ d.fab.epAt + msBase 10 ≤ now) then (d.toMembers msgRetire []).retired else d

/-! ### Logs (R414) -/

/-- A record written to the operating-system ring at LOG_AREA + 1 MiB. -/
def Dev.logRing (d : Dev) (r : LogRec) : Dev :=
  let n := d.rdN pgLOG Reg.LOG_RING_PROD
  let d := (d.storeArea (d.logArea + 0x100000 + n % 32768 * 32) (logBytes r)).wrN pgLOG Reg.LOG_RING_PROD (n + 1)
  if d.logRingFull then d.irq pgLOG 3 else d

/-- The collector takes the oldest record (R414): it goes there once, and is taken when the collector has acknowledged it. -/
def Dev.logToCollector (d : Dev) (r : LogRec) : Dev × Bool :=
  let c := d.rdF pgLOG Reg.LOG_CTL 27 16
  match d.log.flying with
  | some n => (d, !(d.fab.unacked ++ d.fab.waiting).any (fun u => u.cls == 5 && u.seq == n))
  | none =>
    if !d.addrValid then (d, false)
    else
      let n := spGet (fun _ => 0) d.fab.seqs (4096 * 5 + c)
      let d := d.msg 5 c msgLog ((logBytes r).map BitVec.toNat)
      ({ d with log := { d.log with flying := some n } }, decide (c = d.myAddr))

/-- LOG_DELIVER (R414, R416): the oldest record is delivered when every enabled path has taken it; until then it waits. -/
def Dev.logDeliver (d : Dev) : Dev :=
  match d.log.queue with
  | [] => d
  | (_, r) :: rest =>
    let os := d.rdB pgLOG Reg.LOG_CTL 2
    if os && d.logRingFull then d
    else
      let (d, taken) := if d.rdB pgLOG Reg.LOG_CTL 1 then d.logToCollector r else (d, true)
      if !taken then d.reply .waits
      else
        let d := { d with log := { d.log with queue := rest, flying := none } }
        let d := if os then d.logRing r else d
        (d.logCount r.source 1 1).logCount r.source 4 (-1)

/-- LOG_PACKET (R414): a collector writes a received record into its own ring. -/
def Dev.logPacket (d : Dev) (r : LogRec) : Dev :=
  if !d.rdB pgLOG Reg.LOG_CTL 3 || d.logRingFull then d else (d.logRing r).add64 pgLOG Reg.LOG_RX_REMOTE 1

/-- LOG_SW2 (R413, R420): one record from LOG_SW0 and LOG_SW1; KIND 3 acts as no kind and makes none. -/
def Dev.logSw2 (d : Dev) : Dev :=
  let w := d.rd pgLOG Reg.LOG_SW0
  if field w 9 8 = 3 then d else d.logNow (0x400 + field w 5 0) (field w 9 8) (field w 23 16) 0 (d.rd pgLOG Reg.LOG_SW1)

/-! ### Software rings (R418) -/

/-- The address of a software ring's slot: the transmit ring first. -/
def Dev.fsrSlot (d : Dev) (rx : Bool) (n : Nat) : Nat :=
  d.rdF pgFAB Reg.FSR_BASE 26 0 * blockBytes + rx.toNat * 0x100000 + n % 1024 * 1024

/-- FSR_SEND (R418): each posted slot leaves as one CTRL packet. -/
def Dev.fsrSend (d : Dev) (prod : Word) : Dev :=
  let d := d.wr pgFAB Reg.FSR_TX_PROD prod
  let cons := d.rdN pgFAB Reg.FSR_TX_CONS
  let n := min 1024 ((prod.toNat + 2 ^ 32 - cons) % 2 ^ 32)
  let d := forN n (fun i d =>
    let a := d.fsrSlot false (cons + i)
    let w := word (d.num a 4)
    let len := field w 31 16
    if len = 0 ∨ 1020 < len then d else d.msg 1 (field w 11 0) msgFsr ((d.bytes (a + 4) len).map BitVec.toNat)) d
  d.wrN pgFAB Reg.FSR_TX_CONS (cons + n)

/-- FSR_RX (R418): a message that finds the ring full is not taken, and its source resends it (R378). -/
def Dev.fsrRx (d : Dev) (src : Nat) (payload : List Byte) : Dev :=
  let prod := d.rdN pgFAB Reg.FSR_RX_PROD
  if payload.length = 0 ∨ 1020 < payload.length ∨ 1024 ≤ (prod + 2 ^ 32 - d.rdN pgFAB Reg.FSR_RX_CONS) % 2 ^ 32 then d
  else
    let d := d.storeArea (d.fsrSlot true prod) (leBytes 4 (src + payload.length * 65536) ++ payload)
    (d.wrN pgFAB Reg.FSR_RX_PROD (prod + 1)).irq pgFAB 7

/-! ### Resends (R378) -/

/-- RESEND (R378): the oldest unacknowledged item of a class towards a chip leaves again; a LINK packet goes out on the link
with that number. -/
def Dev.resend (d : Dev) (cls dst : Nat) : Dev :=
  match d.fab.unacked.find? (fun u => u.cls == cls && u.dst == dst) with
  | none => d
  | some u =>
    let d := d.toBase u.due
    let again : Unacked := { u with due := d.clock.base + classResend cls }
    (d.onFab (fun f => { f with unacked := f.unacked.erase u ++ [again] })).depart u

/-! ### Commands -/

/-- SIGNAL_DETECT (R376). -/
def execSignalDetect (l : Al) (s : State) : Host.Outcome State Fault Refusal := s.run (fun d => d.signalDetect l)
/-- TRAIN_DONE (R376). -/
def execTrainDone (l : Al) (laneSwap : Bool) (s : State) : Host.Outcome State Fault Refusal := s.run (fun d => d.trainDone l laneSwap)
/-- TRAIN_TIMEOUT (R376). -/
def execTrainTimeout (l : Al) (s : State) : Host.Outcome State Fault Refusal := s.run (fun d => d.trainTimeout l)
/-- HELLO (R385). -/
def execHello (l : Al) (m : HelloMsg) (s : State) : Host.Outcome State Fault Refusal := s.run (fun d => d.hello l m)
/-- ATTEST (R387). -/
def execAttest (l : Al) (m : AttestMsg) (s : State) : Host.Outcome State Fault Refusal := s.run (fun d => d.attest l m)
/-- ATTEST_TIMEOUT (R376). -/
def execAttestTimeout (l : Al) (s : State) : Host.Outcome State Fault Refusal := s.run (fun d => d.attestTimeout l)
/-- QUARANTINE_EXPIRY (R376). -/
def execQuarantineExpiry (l : Al) (s : State) : Host.Outcome State Fault Refusal := s.run (fun d => d.quarantineExpiry l)
/-- LINK_LOSS (R384). -/
def execLinkLoss (l : Al) (s : State) : Host.Outcome State Fault Refusal := s.run (fun d => d.linkLoss l)
/-- RETRAIN (R376). -/
def execRetrain (r : Req) (l : Al) (s : State) : Host.Outcome State Fault Refusal := s.onPage r (pgAL l) (fun d => d.linkLoss l)
/-- FLIT_SEND (R380). -/
def execFlitSend (l : Al) (s : State) : Host.Outcome State Fault Refusal := s.run (fun d => d.flitSend l)
/-- FLIT_RX (R377, R382): a flit is 64 bytes; what arrives in another length fails its CRC. -/
def execFlitRx (l : Al) (flit : List Byte) (s : State) : Host.Outcome State Fault Refusal :=
  s.run (fun d => d.flitRx l flit)
/-- REPLAY (R381). -/
def execReplay (l : Al) (lack : Byte) (s : State) : Host.Outcome State Fault Refusal := s.run (fun d => d.replay l lack.toNat)
/-- ELECT (R388). -/
def execElect (l : Al) (serial : DWord) (hops : Byte) (s : State) : Host.Outcome State Fault Refusal :=
  s.run (fun d => d.electUpdate l serial.toNat hops.toNat)
/-- BEACON (R390). -/
def execBeacon (s : State) : Host.Outcome State Fault Refusal := s.run Dev.beacon
/-- REPORT (R390). -/
def execReport (s : State) : Host.Outcome State Fault Refusal := s.run Dev.report
/-- BEACON_MISS (R390). -/
def execBeaconMiss (s : State) : Host.Outcome State Fault Refusal := s.run Dev.beaconMiss
/-- LOAD_DONE (R394). -/
def execLoadDone (r : Req) (s : State) : Host.Outcome State Fault Refusal := s.onPage r pgFAB Dev.loadDone
/-- GO (R394). -/
def execGo (r : Req) (s : State) : Host.Outcome State Fault Refusal := s.onPage r pgFAB Dev.go
/-- SWITCHED (R394). -/
def execSwitched (s : State) : Host.Outcome State Fault Refusal := s.run Dev.switched
/-- EP_COLLECT (R394). -/
def execEpCollect (inj ended : DWord) (s : State) : Host.Outcome State Fault Refusal :=
  s.run (fun d => d.epCollect inj.toNat ended.toNat)
/-- RETIRED (R394, R395). -/
def execRetired (s : State) : Host.Outcome State Fault Refusal := s.run Dev.retired
/-- STREAM_RELAY (R406). -/
def execStreamRelay (k : Sess) (slot : BitVec 16) (record : List Byte) (s : State) : Host.Outcome State Fault Refusal :=
  s.run (fun d => d.relayed none k slot.toNat record)
/-- LOG_SW2 (R420). -/
def execLogSw2 (r : Req) (_v : Word) (s : State) : Host.Outcome State Fault Refusal := s.onPage r pgLOG Dev.logSw2
/-- LOG_DELIVER (R414). -/
def execLogDeliver (s : State) : Host.Outcome State Fault Refusal :=
  s.run (fun d => d.thawed pgLOG Dev.logDeliver)
/-- LOG_PACKET (R414). -/
def execLogPacket (rec : LogRec) (s : State) : Host.Outcome State Fault Refusal := s.run (fun d => d.logPacket rec)
/-- FSR_SEND (R418). -/
def execFsrSend (r : Req) (prod : Word) (s : State) : Host.Outcome State Fault Refusal := s.onPage r pgFAB (fun d => d.fsrSend prod)
/-- FSR_RX (R418): a payload of 1 to 1,020 bytes; no slot holds another, and it is not taken. -/
def execFsrRx (src : BitVec 12) (payload : List Byte) (s : State) : Host.Outcome State Fault Refusal :=
  s.run (fun d => d.fsrRx src.toNat payload)
/-- RESEND (R378). -/
def execResend (cls : Fin 8) (dst : BitVec 12) (s : State) : Host.Outcome State Fault Refusal :=
  s.run (fun d => d.resend cls dst.toNat)

end Sys2Proof.Machine
end

