-- ==== Sys2Proof/Machine/HeadPage.lean ====
section
/-! DEFINITION. The head pages (R65, R107 to R109, R115, R145 to R149, R158, R321): what a write to a word does by who
makes it, what a read returns, and binding. -/
namespace Sys2Proof.Machine

/-- Who writes a head page: 0 the host through BAR0, 1 management software, 2 a line engine. -/
abbrev byHost : Nat := 0
abbrev byMgmt : Nat := 1
abbrev byEngine : Nat := 2

/-! ### HD_MODE (R75, R109, R148, R149) -/

/-- HD_MODE.DETACHED written (R109): a change raises DETACH_CHANGE in all three functions. -/
def Dev.setDetached (d : Dev) (h : Nat) (on : Bool) : Dev :=
  if d.rdB (pgHD h) Reg.HD_MODE 3 = on then d
  else
    let d := d.onHead h (fun x => { x with detWas := match x.detWas with
      | some (c, v) => if c = d.cyc then some (c, v) else some (d.cyc, !on)
      | none => some (d.cyc, !on) })
    let d := d.wrB (pgHD h) Reg.HD_MODE 3 on
    if isV h then forN 3 (fun f d => (d.wrB (pgFn h f) Reg.HF_STAT 3 on).fnEvent h f 2) d else d

/-- DETACHED as it stood at the start of the present PCLK cycle (R109). -/
def Dev.detachedAtStart (d : Dev) (h : Nat) : Bool :=
  match (d.head h).detWas with
  | some (c, v) => if c = d.cyc then v else d.rdB (pgHD h) Reg.HD_MODE 3
  | none => d.rdB (pgHD h) Reg.HD_MODE 3

/-- HD_MODE.CONSIST written: FENCE is refused without FENCE_MODE (R53, R75); a host's refused write is counted. -/
def Dev.consistField (d : Dev) (h who v : Nat) : Dev :=
  if v = 1 ∧ bit (d.feats h) 1 = false then (if who = byHost then d.discard h else d) else d.consistWrite h v

/-- A write to HD_MODE. -/
def Dev.modeWrite (d : Dev) (h who : Nat) (v : Word) : Dev :=
  let p := pgHD h
  let d := d.consistField h who (field v 1 0)
  let d := if who = byMgmt then
      let d := (d.wrF p Reg.HD_MODE 11 8 (field v 11 8)).setDetached h (bit v 3)
      if d.live h then d else d.wrF p Reg.HD_MODE 21 16 (field v 21 16)
    else d
  if bit v 2 then d.requestAdmit h else d.disable h

/-! ### Words of the head page -/

/-- A word stored by its access codes, without the bits that features not negotiated silence (R53, R145), and reported
(R144). -/
def Dev.headStore (d : Dev) (h off : Nat) (v : Word) : Dev :=
  let p := pgHD h
  let old := d.rd p off
  let m := d.wmask p off &&& ~~~ (silenced (d.feats h) off)
  if m = 0 then d
  else
    let new := (old &&& ~~~ m) ||| (v &&& m)
    let new := if off = Reg.BM_FMT ∧ bit (d.feats h) 9 = false ∧ field v 2 0 = 0
      then putField new 2 0 (field old 2 0) else new
    (d.wr p off new).reportReg h off old

/-! ### Binding (R32, R107, R108, R402, R403) -/

/-- Kinds of messages whose layout is not given (assumption log 23). -/
abbrev msgLocBind : Nat := 30
abbrev msgLocUnbind : Nat := 31
abbrev msgLocAnswer : Nat := 32

/-- NAME_STATE and REFUSE. -/
def Dev.setNameState (d : Dev) (h st refuse : Nat) : Dev :=
  (d.wrF (pgHD h) Reg.HB_STAT 1 0 st).wrF (pgHD h) Reg.HB_STAT 7 4 refuse

/-- The name set to 0. -/
def Dev.clearName (d : Dev) (h : Nat) : Dev :=
  ((d.wrN (pgHD h) Reg.HB_NAME_LO 0).wrN (pgHD h) Reg.HB_NAME_HI 0).setNameState h 0 0

/-- SYS_STAT.DRAINED (R547). -/
def Dev.drained (d : Dev) : Bool :=
  (List.range 128).all (fun h => d.nameState h == 0)
    && (List.range 8).all (fun k =>
      let m := (spGet (fun _ => ({} : Mig)) d.fab.migs k).st
      m == .idle || m == .done || m == .failed)

/-- DRAINED raised where the bit became 1 in DRAIN (R547): was says what it read before. -/
def Dev.drainCheck (d : Dev) (was : Bool) : Dev := if !was && d.drained && d.mode = 5 then d.irq pgSYS 3 else d

/-- The name's entry removed at its home (R403). -/
def Dev.releaseName (d : Dev) (name : Nat) : Dev :=
  match d.homeOf name with
  | some a => d.msg 1 a msgLocUnbind [name]
  | none => d

/-- BIND (R108): NAME_STATE becomes 1 until the answer; the request goes to the name's home. -/
def Dev.bind (d : Dev) (h : Nat) : Dev :=
  if d.nameState h = 1 ∨ d.nameState h = 2 then d
  else
    let d := (d.setNameState h 1 0).onHead h (fun x => { x with bindAt := d.clock.base })
    let name := d.nameOf h
    match d.homeOf name with
    | some a => if name = 0 then d else d.msg 1 a msgLocBind [name, d.myAddr, h]
    | none => d

/-- The locator's answer to a pending request (R108): a refusal code, 0 for a grant. -/
def Dev.answerBind (d : Dev) (h code : Nat) : Dev :=
  (if code = 0 then d.setNameState h 2 0 else d.setNameState h 3 code).irq (pgHP h) 10

/-- Another head of this chip serves the name. -/
def Dev.nameTaken (d : Dev) (h name : Nat) : Bool := (List.range 128).any (fun g => g != h && d.console g == name)


/-- The home's answer to a request of head h, 0 for a grant (R32, R403): this chip's own table decides for a name whose home
it is, and the operand for another; a name that another head here holds is granted to none. -/
def Dev.bindCode (d : Dev) (h name : Nat) (grant : Bool) : Nat :=
  if d.nameTaken h name then 2
  else if d.addrValid && d.homeOf name == some d.myAddr then
    match d.loc name with
    | some e => if e.chip = d.myAddr ∧ e.head = h then 0 else 2
    | none => 0
  else if d.addrValid then (if grant then 0 else 2)
  else 0

/-- The entry of a granted name, where this chip is its home (R403). -/
def Dev.enterName (d : Dev) (h name : Nat) : Dev :=
  if d.addrValid && d.homeOf name == some d.myAddr then d.setLoc name (some { chip := d.myAddr, head := h, moving := false }) else d

/-- BIND_ANSWER (R108): answers come in the order of the requests (assumption log 14), so an abandoned request's comes
first, and one that grants it releases the name. Name 0 is refused with code 1. -/
def Dev.bindAnswer (d : Dev) (h : Nat) (grant : Bool) : Dev :=
  match (d.head h).abandoned with
  | name :: rest =>
    if d.unsettled name.toNat then d.reply .waits
    else
    let d := d.onHead h (fun x => { x with abandoned := rest })
    if d.bindCode h name.toNat grant = 0 then (d.enterName h name.toNat).releaseName name.toNat else d
  | [] =>
    let name := d.nameOf h
    if d.nameState h ≠ 1 then d
    else if name = 0 then d.answerBind h 1
    else if d.unsettled name then d.reply .waits
    else
      let code := d.bindCode h name grant
      (if code = 0 then d.enterName h name else d).answerBind h code

/-- BIND_TIMEOUT (R108, R403): no answer for 1 s. -/
def Dev.bindTimeout (d : Dev) (h : Nat) : Dev :=
  if d.nameState h ≠ 1 then d else (d.toBase ((d.head h).bindAt + msBase 1000)).answerBind h 3

/-- A console ends on its head (R108, R280, R331): sessions, pending frames, the hash-store region, the input counter, the
locator's entry. -/
def Dev.endConsole (d : Dev) (h : Nat) : Dev :=
  let name := d.nameOf h
  let d := (d.endSessions h 1).skipPending h
  let d := if (d.head h).region = 0 then d else d.dropRegion h
  let d := ((d.setSeq name 0).setGaps name []).setCounterMoved name false
  (d.clearName h).releaseName name

/-- UNBIND (R108). -/
def Dev.unbind (d : Dev) (h : Nat) : Dev :=
  let was := d.drained
  let d :=
    match d.nameState h with
    | 2 => d.endConsole h
    | 1 =>
      let name := BitVec.ofNat 64 (d.nameOf h)
      let d := if d.addrValid && decide (name ≠ 0) then
          d.onHead h (fun x => { x with abandoned := x.abandoned ++ [name] }) else d
      d.clearName h
    | _ => d.clearName h
  d.drainCheck was

/-- A write to HB_CTL (R108): UNBIND wins over BIND. -/
def Dev.hbCtl (d : Dev) (h : Nat) (v : Word) : Dev :=
  if bit v 1 then d.unbind h else if bit v 0 then d.bind h else d

/-! ### Writes -/

/-- A write of a word of the lower part of a head page (0x040 to 0x06F, R147, R149). -/
def Dev.timingWrite (d : Dev) (h who off : Nat) (v : Word) : Dev :=
  if off = Reg.HD_MODE then d.modeWrite h who v
  else if d.live h then d
  else if (off = Reg.HD_ORIGIN_LO ∨ off = Reg.HD_ORIGIN_HI) ∧ who ≠ byMgmt then d
  else d.headStore h off v

/-- A write of a word that only a virtual head has (R107, R321, R342). -/
def Dev.consoleWrite (d : Dev) (h off : Nat) (v : Word) : Dev :=
  let p := pgHD h
  if off < 0x140 then d.toneWrite h off v
  else if off = Reg.V_ACCT_CTL then d.acctWrite p off v
  else if off = Reg.HB_CTL then d.hbCtl h v
  else if off = Reg.HB_NAME_LO ∨ off = Reg.HB_NAME_HI then
    if d.nameState h = 1 ∨ d.nameState h = 2 then d else d.regStore p off v
  else if 0x1D0 ≤ off ∧ off ≤ 0x1DC then if d.rdB p Reg.HD_MODE 3 then d.regStore p off v else d
  else d.regStore p off v

/-- A write to a word of a head page from 0x040 on, in the present cycle. It disarms the page's lock, whoever makes it (R26). -/
def Dev.headWriteNow (d : Dev) (h who off : Nat) (v : Word) : Dev :=
  let p := pgHD h
  let d := d.keepDue.disarm p
  if off < 0x070 then d.timingWrite h who off v
  else if off = Reg.HD_LSTAT then d.regStore p off v
  else if off = Reg.PH_DRAM ∨ off = Reg.PH_ALLOC then
    if isV h || d.rdB p Reg.HD_MODE 2 then d else d.regStore p off v
  else if 0x100 ≤ off ∧ off < 0x200 then if isV h then d.consoleWrite h off v else d
  else d.headStore h off v

/-- An engine's oldest queued head-register write commits in the present cycle (R222). -/
def Dev.commitHreg (d : Dev) (e : Nat) : Dev :=
  match (d.eng e).hreg with
  | [] => d
  | (_, h, off, v) :: rest =>
    (d.onEng e (fun x => { x with hreg := rest, hregAt := d.cyc + 1, hregWord := (h, off) })).headWriteNow h byEngine off v

/-- R223: what the engines write to a word commits first, lower engines before higher ones, a cycle for each; another agent's
write commits in the first cycle in which none of them writes the word. -/
def Dev.enginesFirst (d : Dev) (h off : Nat) : Nat → Dev
  | 0 => d
  | n + 1 =>
    let d := if d.hregTaken h off d.cyc then d.pass 1 else d
    match d.engines.find? (fun e => e.2.hregDue h off d.cyc) with
    | some e => (d.commitHreg e.1).enginesFirst h off n
    | none => d

/-- The device in the cycle in which an agent that is no engine may write a word of head h (R223). -/
def Dev.afterEngines (d : Dev) (h off : Nat) : Dev :=
  d.enginesFirst h off ((d.engines.map (fun e => e.2.hreg.length)).sum + 1)

/-- A write by an agent that is no engine to a word of a head page from 0x040 on (R223). -/
def Dev.headWrite (d : Dev) (h who off : Nat) (v : Word) : Dev := (d.afterEngines h off).headWriteNow h who off v

/-! ### Reads -/

/-- HD_BEAM (R148, R150). -/
def Dev.beamWord (d : Dev) (h : Nat) : Word :=
  if d.runs h && (d.head h).cur.isSome then
    let (_, l, s) := d.beam h
    word (l + s * 65536 + (decide (d.vactive h ≤ l)).toNat * 2 ^ 30)
  else 0x80000000

/-- HD_FRAME (R147, R150): the number at the beam, or that of the next frame to start. -/
def Dev.frameNumber (d : Dev) (h : Nat) : Nat :=
  if d.runs h && (d.head h).cur.isSome then (d.beam h).1 else d.nextFrame h

/-- What a word of a head page from 0x040 on reads as, its computed fields included (R147, R148, R321). -/
def Dev.headRead (d : Dev) (h off : Nat) : Word :=
  let p := pgHD h
  let x := d.head h
  if off = Reg.HD_LEAD then word (x.eff + x.lines.length * 256 + min 63 x.sq * 65536)
  else if off = Reg.HD_BEAM then d.beamWord h
  else if off = Reg.HD_FRAME_LO then word (d.frameNumber h)
  else if off = Reg.HD_FRAME_HI then word (d.frameNumber h / 2 ^ 32)
  else if off = Reg.HD_TOKENS then word (x.scan + x.line * 65536)
  else if off = Reg.HD_ADMIT then word (x.code + x.adm.code * 16 + x.need * 65536)
  else if 0x100 ≤ off ∧ off < 0x140 then if isV h && !d.toneOn h then 0 else d.rd p off
  else if isV h ∧ off = Reg.ENC_HCTL then
    putField (d.rd p off) 18 16 ((decide (x.region ≠ 0)).toNat + x.cell.toNat * 2
      + ((d.slotsOf h).any (fun s => s.2.needKey)).toNat * 4)
  else if isV h ∧ off = Reg.ENC_PEND then
    putField (putField (d.rd p off) 1 0 x.frames.length) 23 16 x.region
  else d.rd p off &&& ~~~ (silenced (d.feats h) off)

/-! ### Commands -/

/-- A tone register written by a row: an engine that writes it in the same cycle comes first (R223). -/
def Dev.toneRow (d : Dev) (h off : Nat) (v : Word) : Dev :=
  if d.toneOn h then ((d.afterEngines h off).disarm (pgHD h)).toneWrite h off v else d

/-- TONE_ENABLE (R344). -/
def execToneEnable (h : VHead) (c : Fin 4) (ctl : Word) (s : State) : Host.Outcome State Fault Refusal :=
  s.run (fun d => d.toneRow h (toneOff c) ctl)

/-- TONE_PERIOD_WRITE (R344). -/
def execTonePeriodWrite (h : VHead) (c : Fin 4) (v : Word) (s : State) : Host.Outcome State Fault Refusal :=
  s.run (fun d => d.toneRow h (toneOff c + 4) v)

/-- BIND (R108). -/
def execBind (n : VHead) (s : State) : Host.Outcome State Fault Refusal := s.run (fun d => (d.disarm (pgHD n)).bind n)
/-- UNBIND (R108, R331). -/
def execUnbind (n : VHead) (s : State) : Host.Outcome State Fault Refusal := s.run (fun d => (d.disarm (pgHD n)).unbind n)
/-- BIND_ANSWER (R108). -/
def execBindAnswer (n : VHead) (grant : Bool) (s : State) : Host.Outcome State Fault Refusal := s.run (fun d => d.bindAnswer n grant)
/-- BIND_TIMEOUT (R403). -/
def execBindTimeout (n : VHead) (s : State) : Host.Outcome State Fault Refusal := s.run (fun d => d.bindTimeout n)
/-- DETACH_WRITE (R109). -/
def execDetachWrite (h : Head) (on : Bool) (s : State) : Host.Outcome State Fault Refusal :=
  s.run (fun d => (d.disarm (pgHD h)).setDetached h on)
/-- ADMISSION_REQUEST (R152). -/
def execAdmissionRequest (h : Head) (s : State) : Host.Outcome State Fault Refusal := s.run (fun d => (d.disarm (pgHD h)).requestAdmit h)
/-- ADMIT (R152 to R154). -/
def execAdmitHead (h : Head) (s : State) : Host.Outcome State Fault Refusal := s.run (fun d => d.answerAdmit h)
/-- HEAD_DISABLE (R155). -/
def execHeadDisable (h : Head) (s : State) : Host.Outcome State Fault Refusal := s.run (fun d => (d.disarm (pgHD h)).disable h)
/-- FRAME_START (R149, R150, R174, R175). -/
def execFrameStart (h : Head) (s : State) : Host.Outcome State Fault Refusal := s.run (fun d => d.frameStart h)
/-- HEAD_STOP (R155). -/
def execHeadStop (h : Head) (s : State) : Host.Outcome State Fault Refusal := s.run (fun d => d.headStop h)
/-- CONSIST_WRITE (R53, R157). -/
def execConsistWrite (h : Head) (mode : BitVec 2) (s : State) : Host.Outcome State Fault Refusal :=
  s.run (fun d => (d.disarm (pgHD h)).consistField h byMgmt mode.toNat)
/-- CONSIST_EFFECT (R40, R157). -/
def execConsistEffect (h : Head) (s : State) : Host.Outcome State Fault Refusal := s.run (fun d => d.consistEffect h)
/-- COMPOSE_LINE (R161, R162). -/
def execComposeLine (h : Head) (s : State) : Host.Outcome State Fault Refusal := s.run (fun d => d.composeNext h)
/-- LINE_FINAL (R163). -/
def execLineFinal (h : Head) (s : State) : Host.Outcome State Fault Refusal := s.run (fun d => d.lineFinal h)
/-- LINE_TAKE (R161, R171). -/
def execLineTake (h : Head) (s : State) : Host.Outcome State Fault Refusal := s.run (fun d => d.lineTake h)
/-- LATE (R168). -/
def execLate (h : VHead) (s : State) : Host.Outcome State Fault Refusal := s.run (fun d => d.late h)
/-- FRAME_INCOMPLETE (R171): physical head Pn is head 128 + n. -/
def execFrameIncomplete (h : PHead) (s : State) : Host.Outcome State Fault Refusal := s.run (fun d => d.incomplete (128 + h))

end Sys2Proof.Machine
end

