-- ==== Sys2Proof/Machine/Usb.lean ====
section
/-! DEFINITION. The USB ports (R536 to R539): attached devices, reports turned into input events, keyboard LEDs. -/
namespace Sys2Proof.Machine

/-- USB_Pk_CTL and USB_Pk_STAT. -/
abbrev usbCtl (k : Nat) : Nat := Reg.USB_P_CTL + 4 * k
abbrev usbStat (k : Nat) : Nat := Reg.USB_P_STAT + 4 * k

/-- A port's KIND: 1 keyboard, 2 mouse, 3 unsupported, 0 none. -/
def Dev.usbKind (d : Dev) (k : Nat) : Nat := d.rdF pgUSB (usbStat k) 4 3

/-- The port works: USB_CTL.EN and its power (assumption log 34). -/
def Dev.usbLive (d : Dev) (k : Nat) : Bool := d.rdB pgUSB Reg.USB_CTL 0 && d.rdB pgUSB (usbStat k) 6 && !d.portsOff

/-- USB_CTL.HEAD. -/
def Dev.usbHead (d : Dev) : Nat := d.rdF pgUSB Reg.USB_CTL 14 8

/-- The previous report of a port. -/
def Dev.usbLast (d : Dev) (k : Nat) : List Byte := spGet (fun _ => []) d.usb.last k
def Dev.setUsbLast (d : Dev) (k : Nat) (r : List Byte) : Dev :=
  { d with usb := { d.usb with last := spPut (fun _ => []) d.usb.last k r } }

/-- A device attaches (R536). -/
def Dev.usbAttach (d : Dev) (k speed kind : Nat) : Dev :=
  if !d.usbLive k then d
  else
    let d := d.wr pgUSB (usbStat k)
      (word (1 + speed * 2 + kind * 8 + 64) ||| (d.rd pgUSB (usbStat k) &&& 0x20))
    let d := (d.setUsbLast k []).irq pgUSB 0
    if kind = 3 then d.irq pgUSB 2 else d

/-- An event of kind t for the console of head USB_CTL.HEAD (R537): counted in USB_EVENTS, or in USB_DROPPED. -/
def Dev.usbEvent (d : Dev) (t : Nat) (payload : List Byte) : Dev :=
  let name := d.console d.usbHead
  if d.rdB pgUSB Reg.USB_CTL 1 && decide (name ≠ 0) then
    (d.acceptEvent name t 1 payload none).1.add64 pgUSB Reg.USB_EVENTS 1
  else d.add64 pgUSB Reg.USB_DROPPED 1

/-- A KEY event's payload (R91). -/
def keyPayload (usage : Nat) (press : Bool) (mods : Nat) : List Byte :=
  leBytes 2 7 ++ leBytes 2 usage ++ [byteOf press.toNat 0, byteOf mods 0] ++ List.replicate 6 0

/-- The key usages of a boot keyboard's report, ascending. -/
def reportKeys (rep : List Byte) : List Nat :=
  (((rep.drop 2).take 6).map (fun b => b.toNat)).foldl (fun l u =>
    if u = 0 ∨ l.contains u then l else l.filter (fun x => decide (x < u)) ++ [u] ++ l.filter (fun x => decide (u < x))) []

/-- The modifier byte of a report. -/
def reportMods (rep : List Byte) : Nat := (rep.getD 0 0).toNat

/-- The events that turn one report into the next (R537): usage, press, modifier byte after it. -/
def keyChanges (old new : List Byte) : List (Nat × Bool × Nat) :=
  let m0 := reportMods old
  let m1 := reportMods new
  let off := (List.range 8).filter (fun i => m0.testBit i && !m1.testBit i)
  let on := (List.range 8).filter (fun i => m1.testBit i && !m0.testBit i)
  let step := fun (acc : Nat × List (Nat × Bool × Nat)) (i : Nat) (p : Bool) =>
    let m := if p then acc.1 + 2 ^ i else acc.1 - 2 ^ i
    (m, acc.2 ++ [(0xE0 + i, p, m)])
  let (ma, rel) := off.foldl (fun acc i => step acc i false) (m0, [])
  let relK := (reportKeys old).filter (fun u => !(reportKeys new).contains u)
  let (mb, prs) := on.foldl (fun acc i => step acc i true) (ma, [])
  let prsK := (reportKeys new).filter (fun u => !(reportKeys old).contains u)
  rel ++ relK.map (fun u => (u, false, ma)) ++ prs ++ prsK.map (fun u => (u, true, mb))

/-- A keyboard's report (R537). -/
def Dev.keyReport (d : Dev) (k : Nat) (rep : List Byte) : Dev :=
  if ((rep.drop 2).take 6).all (fun b => b == 1) then d
  else forL (keyChanges (d.usbLast k) rep) (fun (u, p, m) d => d.usbEvent 1 (keyPayload u p m)) (d.setUsbLast k rep)

/-- A byte sign-extended to 16 bits. -/
def sext16 (b : Byte) : List Byte := leBytes 2 (unsign 16 b.toInt)

/-- A mouse's report (R537): a REL event where a button changes or it moves. -/
def Dev.mouseReport (d : Dev) (k : Nat) (rep : List Byte) : Dev :=
  let b := fun (r : List Byte) i => r.getD i 0
  let buttons := (b rep 0).toNat % 8
  let moves := decide (b rep 1 ≠ 0) || decide (b rep 2 ≠ 0) || decide (b rep 3 ≠ 0)
  let changed := decide (buttons ≠ (b (d.usbLast k) 0).toNat % 8)
  let d := d.setUsbLast k rep
  if moves || changed then
    d.usbEvent 2 (sext16 (b rep 1) ++ sext16 (b rep 2) ++ leBytes 2 buttons ++ sext16 (b rep 3) ++ [0, 0, 0, 0])
  else d

/-- A polled report (R537). -/
def Dev.usbReport (d : Dev) (k : Nat) (rep : List Byte) : Dev :=
  if !d.usbLive k then d
  else match d.usbKind k with
    | 1 => d.keyReport k rep
    | 2 => d.mouseReport k rep
    | _ => d

/-- A device detaches (R537). -/
def Dev.usbDetach (d : Dev) (k : Nat) : Dev :=
  if !d.rdB pgUSB (usbStat k) 0 then d
  else
    let d := if d.usbKind k = 1 then d.usbEvent 4 (List.replicate 12 0) else d
    ((d.wr pgUSB (usbStat k) (d.rd pgUSB (usbStat k) &&& 0x60)).setUsbLast k []).irq pgUSB 1

/-- OC# low (R536). -/
def Dev.usbOver (d : Dev) (k : Nat) : Dev :=
  (((d.wrB pgUSB (usbStat k) 6 false).wrB pgUSB (usbStat k) 5 true).irq pgUSB 3).gpioNote

/-- IR_LED of head h changed (R538): an output report to each attached keyboard. -/
def Dev.usbLeds (d : Dev) (h : Nat) : Dev :=
  if h ≠ d.usbHead then d
  else forN 2 (fun k d =>
    if d.usbLive k && d.usbKind k == 1 then d.out (.usbLed k (d.rdF (pgFn h 1) Reg.IR_LED 4 0)) else d) d

/-- A write to a word of the USB page: POWER drives the port's power and ends an overcurrent (assumption log 34). -/
def Dev.usbWrite (d : Dev) (off : Nat) (v : Word) : Dev :=
  let d := d.regStore pgUSB off v
  (forN 2 (fun k d =>
    if off = usbCtl k then (d.wrB pgUSB (usbStat k) 6 (bit v 0)).wrB pgUSB (usbStat k) 5 false else d) d).gpioNote

/-- ATTACH (R536). -/
def execAttach (p : Fin 2) (speed : Fin 3) (dev : UsbDev) (s : State) : Host.Outcome State Fault Refusal :=
  s.run (fun d => d.usbAttach p speed (match dev with
    | .keyboard => 1
    | .mouse => 2
    | .other => 3))
/-- DETACH (R537). -/
def execDetach (p : Fin 2) (s : State) : Host.Outcome State Fault Refusal := s.run (fun d => d.usbDetach p)
/-- USB_REPORT (R537). -/
def execUsbReport (p : Fin 2) (rep : List Byte) (s : State) : Host.Outcome State Fault Refusal :=
  s.run (fun d => d.thawed pgUSB (fun d => d.usbReport p rep))
/-- OVERCURRENT (R536). -/
def execOvercurrent (p : Fin 2) (s : State) : Host.Outcome State Fault Refusal := s.run (fun d => d.usbOver p)

end Sys2Proof.Machine
end

