-- ==== Sys2Proof/Machine/Lanes.lean ====
section
/-! DEFINITION. Host lanes (R52 to R109, R602): functions and their registers, feature negotiation, ingress and its credits,
reads, PRESENT, rings, link and function resets. -/
namespace Sys2Proof.Machine

/-- A function's number (R60). -/
def fnIx : Fn → Nat
  | .display => 0
  | .input => 1
  | .audio => 2

/-! ### Functions -/

/-- The function is in D0 (R71): its power state in configuration space (assumption log 8). -/
def Dev.inD0 (d : Dev) (n f : Nat) : Bool := d.rdF (pgCfg n f) Reg.CFG_PMCSR 1 0 == 0

/-- HP_STAT.CFG_READY. -/
def Dev.cfgReady (d : Dev) (n : Nat) : Bool := d.rdB (pgHP n) Reg.HP_STAT 10

/-- HF_STAT.READY (R71). -/
def Dev.fnReady (d : Dev) (n f : Nat) : Bool :=
  d.cfgReady n && d.inD0 n f && d.rdB (pgFn n f) Reg.HF_STAT 0

/-- FEAT_OK written as 1 (R52, R54, R71). -/
def Dev.featStart (d : Dev) (n f : Nat) : Dev :=
  if d.rdB (pgFn n f) Reg.HF_CTL 0 then d
  else (d.wrB (pgFn n f) Reg.HF_CTL 0 true).wrB (pgFn n f) Reg.HF_STAT 1 false

/-- The dependencies of R73: RELAXED_ORDER needs the function's ring. -/
def featDeps (f : Nat) (v : Word) : Bool :=
  match f with
  | 1 => !bit v 7 || bit v 6
  | 2 => !bit v 7 || bit v 5
  | _ => true

/-- The answer to a negotiation (R52, R71, R73): 0 accepts, 1 not a subset, 2 a dependency fails. -/
def Dev.featCode (d : Dev) (n f : Nat) : Nat :=
  let p := pgFn n f
  let lo := d.rd p Reg.HF_DRV_FEAT_LO
  if lo &&& ~~~ (d.rd p Reg.HF_DEV_FEAT_LO) ≠ 0 ∨ d.rd p Reg.HF_DRV_FEAT_HI &&& ~~~ (d.rd p Reg.HF_DEV_FEAT_HI) ≠ 0 then 1
  else if featDeps f lo then 0 else 2

/-- FEAT_DONE (R52, R53, R74). -/
def Dev.featAnswer (d : Dev) (n f : Nat) : Dev :=
  let p := pgFn n f
  if !d.rdB p Reg.HF_CTL 0 || d.rdB p Reg.HF_STAT 0 then d
  else
    let d := match d.featCode n f with
      | 0 => ((d.wr p Reg.HF_NEG_LO (d.rd p Reg.HF_DRV_FEAT_LO)).wr p Reg.HF_NEG_HI (d.rd p Reg.HF_DRV_FEAT_HI)).wrB
          p Reg.HF_STAT 0 true
      | c => ((d.wrB p Reg.HF_STAT 1 true).wrF p Reg.HF_STAT 15 8 c).wrB p Reg.HF_CTL 0 false
    (d.fnEvent n f 0).irq (pgHP n) 5

/-! ### The input ring (R89, R90, R96) -/

/-- A value clamped between two bounds. -/
def clampNat (lo hi v : Nat) : Nat := max lo (min hi v)

/-- IR_CTL.EN written (R89). -/
def Dev.irCtl (d : Dev) (n : Nat) (on : Bool) : Dev :=
  let p := pgFn n 1
  let d := if on && !d.rdB p Reg.IR_CTL 0 then (d.wrN p Reg.IR_PROD 0).wrN p Reg.IR_CONS 0 else d
  d.wrB p Reg.IR_CTL 0 on

/-- IR_CONS written (R90). -/
def Dev.irCons (d : Dev) (n : Nat) (v : Word) : Dev :=
  let p := pgFn n 1
  if 2 ^ d.irLog n < (d.rd p Reg.IR_PROD - v).toNat then d.fnEvent n 1 3 else d.wr p Reg.IR_CONS v

/-- IR_LED written (R96, R538): to the controlling session of this chip, and to the local keyboard where it changed. -/
def Dev.irLed (d : Dev) (n : Nat) (v : Word) : Dev :=
  let p := pgFn n 1
  let old := d.rdF p Reg.IR_LED 4 0
  let d := d.regStore p Reg.IR_LED v
  let bits := d.rdF p Reg.IR_LED 4 0
  let d := match d.controller (d.console n) with
    | some s => if d.console n = 0 then d else d.sessStream s (kcs 0x06 0 0 [byteOf bits 0])
    | none => d
  let d := match d.holder (d.console n) with
    | some (c, t) => forL (d.slotsOf n) (fun (k, m) d =>
        if m.chip = some c ∧ m.sess = t then d.slotStream k m (kcs 0x06 0 0 [byteOf bits 0]) else d) d
    | none => d
  if bits = old then d else d.usbLeds n

/-- A write to a word of the input ring's registers (R89). -/
def Dev.irWrite (d : Dev) (n off : Nat) (v : Word) : Dev :=
  let p := pgFn n 1
  if !d.fnHas n 1 6 then d
  else if off = Reg.IR_CTL then d.irCtl n (bit v 0)
  else if off = Reg.IR_CONS then d.irCons n v
  else if off = Reg.IR_LED then d.irLed n v
  else if off < 0x058 ∧ d.rdB p Reg.IR_CTL 0 then d
  else if off = Reg.IR_SIZE then d.wrF p off 3 0 (clampNat 4 12 (field v 3 0))
  else d.regStore p off v

/-! ### The audio rings (R97) -/

/-- A CTL word of an audio ring: playback at 0x40, capture at 0x60. FMT stays while EN is 1. -/
def Dev.audCtl (d : Dev) (n off : Nat) (v : Word) : Dev :=
  let p := pgFn n 2
  let was := d.rdB p off 0
  let fmt := d.rdB p off 1
  let d := d.regStore p off v
  let d := if was then d.wrB p off 1 fmt else d
  let on := bit v 0
  if on == was then d
  else if off = Reg.PL_CTL then (if on then d.plStart n else d.plStop n)
  else if on then d.cpStart n else d.cpStop n

/-- A write to a word of the audio rings' registers. -/
def Dev.audRingWrite (d : Dev) (n off : Nat) (v : Word) : Dev :=
  let p := pgFn n 2
  let ctl := if off < 0x060 then Reg.PL_CTL else Reg.CP_CTL
  if !d.fnHas n 2 5 then d
  else if off = ctl then d.audCtl n off v
  else if off = Reg.PL_PROD then
    let d := d.regStore p off v
    if (d.lane n).t0.isSome then d.plUnder n else d
  else if off = Reg.CP_CONS then d.regStore p off v
  else if d.rdB p ctl 0 then d
  else if off % 0x20 = 8 then d.wrF p off 4 0 (clampNat 12 20 (field v 4 0))
  else d.regStore p off v

/-! ### Register accesses of a host -/

/-- A write to a word at an offset from a function's register base (R70, R85, R89, R97); the MSI-X table at 0x800. -/
def Dev.fnWrite (d : Dev) (n f off : Nat) (v : Word) : Dev :=
  let p := pgFn n f
  if off = Reg.HF_DRV_FEAT_LO ∨ off = Reg.HF_DRV_FEAT_HI then
    if d.rdB p Reg.HF_CTL 0 then d else d.regStore p off v
  else if off = Reg.HF_CTL then if bit v 0 then d.featStart n f else d
  else if off = Reg.HF_EVT_EN then d.fnEnables n f v
  else if off < 0x040 then d.regStore p off v
  else if 0x800 ≤ off then (d.regStore p off v).fnUnmask n f
  else if f = 0 then if off = Reg.HF_PRESENT then d.present n v else d
  else if f = 1 then d.irWrite n off v
  else d.audRingWrite n off v

/-- What a word of a function's registers reads as. -/
def Dev.fnRead (d : Dev) (n f off : Nat) : Word :=
  let p := pgFn n f
  if off = Reg.HF_STAT then putBit (d.rd p off) 2 (d.fnReady n f)
  else if 0x040 ≤ off ∧ off < 0x080 ∧ f = 1 ∧ !d.fnHas n 1 6 then 0
  else if 0x040 ≤ off ∧ off < 0x080 ∧ f = 2 ∧ !d.fnHas n 2 5 then 0
  else if f = 0 ∧ off = Reg.HF_PRESENT then 0
  else d.rd p off

/-- Where a display BAR0 offset lies (R64). -/
inductive Bar0 where
  | head (off : Nat) | fn (off : Nat) | none
  deriving DecidableEq, Repr

/-- R64, R65, R69: a BAR0 offset of a function. -/
def bar0At (f off : Nat) : Bar0 :=
  if f ≠ 0 then (if off < 0x080 ∨ (0x800 ≤ off ∧ off < 0x840) ∨ (0xC00 ≤ off ∧ off < 0xC08) then .fn off else .none)
  else if off < 0x1000 then .head off
  else if 0x2000 ≤ off ∧ off < 0x2050 then .fn (off - 0x2000)
  else if 0x3000 ≤ off ∧ off < 0x3040 then .fn (off - 0x3000 + 0x800)
  else if 0x3800 ≤ off ∧ off < 0x3808 then .fn (off - 0x3800 + 0xC00)
  else .none

/-- Head-page offsets that a host writes (R65). -/
def hostVisible (off : Nat) : Bool := decide (0x040 ≤ off ∧ off < 0x180) || decide (0x800 ≤ off ∧ off < 0x1000)

/-- A word written through BAR0. -/
def Dev.bar0Write (d : Dev) (n f off : Nat) (v : Word) : Dev :=
  match bar0At f off with
  | .head o => if hostVisible o then d.headWrite n byHost o v else d
  | .fn o => d.fnWrite n f o v
  | .none => d

/-- A word read through BAR0 (R65, R109). -/
def Dev.bar0Word (d : Dev) (n f off : Nat) : Dev × Word :=
  match bar0At f off with
  | .head o =>
    if d.rdB (pgHD n) Reg.HD_MODE 3 then (d, 0)
    else if o < 0x00C then (d, d.rd (pgHD n) o)
    else if hostVisible o then d.readLatch (pgHD n) o (d.headRead n o) (d.headRead n (o + 4))
    else (d, 0)
  | .fn o => d.readLatch (pgFn n f) o (d.fnRead n f o) (d.fnRead n f (o + 4))
  | .none => (d, 0)

/-! ### Ingress credits (R81 to R83) -/

/-- The shared pool's counters after lane n's holding became u (R82). -/
def Dev.setShare (d : Dev) (n u : Nat) : Dev :=
  let old := d.rdN (pgHP n) Reg.HP_SHARE_USED
  let d := d.wrN (pgHP n) Reg.HP_SHARE_USED u
  let d := d.wrN pgSYS Reg.ING_SH_USED (d.rdN pgSYS Reg.ING_SH_USED + u - old)
  d.wrN pgSYS Reg.ING_SH_FREE (d.rdN pgSYS Reg.ING_SH_FREE + old - u)

/-- Lane n's floor credits in use. -/
def Dev.setFloor (d : Dev) (n u : Nat) : Dev :=
  (d.wrN (pgHP n) Reg.HP_FLOOR_USED u).wrN (pgHP n) Reg.HP_FLOOR_FREE (d.rdN (pgHP n) Reg.HP_FLOOR_TOTAL - u)

/-- R83: lane n may borrow 4 shared credits. -/
def Dev.mayBorrow (d : Dev) (n : Nat) : Bool :=
  decide (d.rdN (pgHP n) Reg.HP_FLOOR_FREE < 8) && decide (4 ≤ d.rdN pgSYS Reg.ING_SH_FREE)
    && decide (d.rdN (pgHP n) Reg.HP_SHARE_USED + 4 ≤ d.rdF (pgHP n) Reg.HP_SHARE_CAP 12 0)
    && d.linkLive n && !d.rdB (pgHP n) Reg.HP_STAT 13

/-- One round of borrowing, in ascending lane order after the lane that borrowed last (R83). -/
def Dev.borrow (d : Dev) : Dev :=
  let from_ := d.lastBorrow + 1
  forN 128 (fun i d =>
    let n := (from_ + i) % 128
    if d.mayBorrow n then { d.setShare n (d.rdN (pgHP n) Reg.HP_SHARE_USED + 4) with lastBorrow := n } else d) d

/-- The credits of a write returned (R83): floor credits to the lane, shared ones to the pool. -/
def Dev.returnCredits (d : Dev) (n : Nat) (t : Tlp) : Dev :=
  let d := d.setFloor n (d.rdN (pgHP n) Reg.HP_FLOOR_USED - t.floor)
  let d := d.setShare n (d.rdN (pgHP n) Reg.HP_SHARE_USED - t.share)
  d.onLane n (fun l => { l with shareBusy := l.shareBusy - t.share })

/-! ### Received writes -/

/-- The size of a function's BAR (R60). -/
def barSize (f : Fn) : Bar → Nat
  | .bar0 => if f = .display then 0x10000 else 0x1000
  | .bar2 => if f = .display then 0x20000000 else 0
  | .rom => if f = .display then 0x40000 else 0
  | .none => 0

/-- The bit of AER's uncorrectable error status that a flaw sets; an access that addresses no BAR is an unsupported request. -/
def aerBit : TlpFlaw → Nat
  | .good => 20
  | .poisoned => 12
  | .ecrc => 19
  | .malformed => 18

/-- An error logged in a function's AER capability (R59): its status bit, and where it is the first that is not masked its
number and the header of the TLP, which is no operand of the rows, so four free words (assumption log 8). -/
def Dev.aerLog (d : Dev) (n f b : Nat) : Dev :=
  let p := pgCfg n f
  let first := (d.rd p Reg.CFG_AER_UES &&& ~~~ (d.rd p Reg.CFG_AER_UEM)) = 0 ∧ !d.rdB p Reg.CFG_AER_UEM b
  let d := d.setBits p Reg.CFG_AER_UES (word (2 ^ b))
  if first then
    forN 4 (fun i d => (d.wr p (Reg.CFG_AER_HDR + 4 * i) d.free).drew) (d.wrF p Reg.CFG_AER_CAP 4 0 b)
  else d

/-- An error logged through AER, and the TLP discarded (R59). -/
def Dev.aerDiscard (d : Dev) (n f : Nat) (flaw : TlpFlaw) : Dev := ((d.aerLog n f (aerBit flaw)).irq (pgHP n) 6).discard n

/-- R66: a BAR0 write of 4 or 8 bytes, naturally aligned, all of them enabled. -/
def bar0WriteOk (off : Nat) (data : List (Option Byte)) : Bool :=
  (data.length == 4 && off % 4 == 0 || data.length == 8 && off % 8 == 0) && data.all (fun b => b.isSome)

/-- HOST_WRITE (R58, R59, R66, R76, R81, R83): the write enters its function's queue, where the lane has a posted header credit
of its 32 and data credits for it; else it waits (assumption log 65). -/
def Dev.hostWrite (d : Dev) (n : Nat) (f : Fn) (bar : Bar) (off : Nat) (data : List (Option Byte)) (relaxed : Bool)
    (flaw : TlpFlaw) : Dev :=
  if !d.linkLive n then d
  else if flaw ≠ .good ∨ bar = .rom ∨ barSize f bar < off + data.length ∨ !d.cfgReady n ∨ !d.inD0 n (fnIx f) then d.aerDiscard n (fnIx f) flaw
  else if bar = .bar0 ∧ !bar0WriteOk off data then d.discard n
  else
    let k := ceilDiv data.length 64
    let fl := min k (d.rdN (pgHP n) Reg.HP_FLOOR_FREE)
    let sh := k - fl
    if 32 ≤ (d.lane n).queue.length ∨ d.rdN (pgHP n) Reg.HP_SHARE_USED < (d.lane n).shareBusy + sh then d.borrow.reply .waits
    else
      let d := d.setFloor n (d.rdN (pgHP n) Reg.HP_FLOOR_USED + fl)
      (d.onLane n (fun l => { l with shareBusy := l.shareBusy + sh, queue := l.queue ++
        [{ fn := f, bar := bar, off := off, data := data, relaxed := relaxed, floor := fl, share := sh }] })).borrow

/-! ### Commit (R76 to R79) -/

/-- The runs of enabled bytes of a write: offset and bytes. -/
def enabledRuns (off : Nat) : List (Option Byte) → List (Nat × List Byte)
  | [] => []
  | none :: l => enabledRuns (off + 1) l
  | some b :: l =>
    match enabledRuns (off + 1) l with
    | (o, bs) :: rest => if o = off + 1 then (off, b :: bs) :: rest else (off, [b]) :: (o, bs) :: rest
    | [] => [(off, [b])]

/-- R77: entry k of a function's queue may commit now. -/
def Dev.mayCommit (d : Dev) (n : Nat) (f : Fn) (l : List Tlp) (k : Nat) : Bool :=
  match l.drop k with
  | [] => false
  | t :: _ => k == 0 || (t.relaxed && d.fnHas n (fnIx f) 7 && t.bar == .bar2 && (l.take k).all (fun x => x.bar == .bar2))

/-- A write's bytes are counted and stamped (R79). -/
def Dev.countCommit (d : Dev) (n f bytes : Nat) : Dev :=
  let d := (d.add64 (pgHP n) Reg.ING_COMMITS 1).add64 (pgHP n) Reg.ING_BYTES bytes
  ((d.wr64 (pgHP n) Reg.ING_LAST_FT d.ft).wr64 (pgFn n f) Reg.HF_FENCE d.ft).onLane n (fun l => { l with lastCyc := some d.cyc })

/-- The cycle of a lane's next commit: one for each PCLK cycle (R78). -/
def Dev.commitCycle (d : Dev) (n : Nat) : Dev := if (d.lane n).lastCyc = some d.cyc then d.pass 1 else d

/-- A BAR2 write applied (R67, R68, R109) (assumption log 65). -/
def Dev.bar2Commit (d : Dev) (n : Nat) (t : Tlp) : Dev :=
  let runs := enabledRuns t.off t.data
  let parts := runs.filterMap (fun (o, bs) =>
    match d.bar2 n o, d.bar2 n (o + bs.length - 1) with
    | some a, some z => if a + bs.length = z + 1 then some (a, bs) else none
    | _, _ => none)
  if d.detachedAtStart n then d.discard n
  else if parts.length ≠ runs.length then d.discard n
  else (d.countCommit n 0 (runs.map (fun r => r.2.length)).sum).storeHost n parts

/-- The words of a BAR0 write, lower address first (R66). -/
def bar0Words (t : Tlp) : List (Nat × Word) :=
  (List.range (t.data.length / 4)).map (fun i =>
    (t.off + 4 * i, word (ofLe (((t.data.drop (4 * i)).take 4).map (fun b => b.getD 0)))))

/-- A BAR0 write applied (R64 to R66, R109). -/
def Dev.bar0Commit (d : Dev) (n : Nat) (t : Tlp) : Dev :=
  if t.fn = .display ∧ t.off < 0x1000 ∧ d.detachedAtStart n then d.discard n
  else forL (bar0Words t) (fun (o, v) d => d.bar0Write n (fnIx t.fn) o v) (d.countCommit n (fnIx t.fn) t.data.length)

/-- COMMIT of entry k of a function's queue (R76 to R79, R83). -/
def Dev.commitAt (d : Dev) (n : Nat) (f : Fn) (k : Nat) : Dev :=
  let all := (d.lane n).queue
  let mine := all.filter (fun t => t.fn == f)
  if !d.mayCommit n f mine k then d
  else match mine.drop k with
    | [] => d
    | t :: _ =>
      let d := d.commitCycle n
      let i := (all.zipIdx.filter (fun e => e.1.fn == f)).getD k (t, 0)
      let d := d.onLane n (fun l => { l with queue := l.queue.eraseIdx i.2 })
      let d := d.returnCredits n t
      (if t.bar = .bar2 then d.bar2Commit n t else d.bar0Commit n t).borrow

/-- A 32-bit host write that commits now, with its effect (R78, R79): what the rows of single registers stand for. -/
def Dev.hostWord (d : Dev) (n f : Nat) (g : Dev → Dev) : Dev := g ((d.commitCycle n).countCommit n f 4)

/-! ### Reads (R62, R66 to R68, R80, R109) -/

/-- The whole aligned words that a read covers, in order. -/
def Dev.bar0Read (d : Dev) (n f off : Nat) : Nat → Dev × List Byte
  | 0 => (d, [])
  | k + 1 =>
    let (d, v) := d.bar0Word n f off
    let (d, l) := d.bar0Read n f (off + 4) k
    (d, leBytes 4 v.toNat ++ l)

/-- One byte through BAR2: 0 outside the allocation and while detached. -/
def Dev.bar2Byte (d : Dev) (n a : Nat) : Byte :=
  if d.rdB (pgHD n) Reg.HD_MODE 3 then 0 else ((d.bar2 n a).map d.byte).getD 0

/-- One byte of the expansion ROM (R62): the image of the active profile; beyond its end nothing is stated, so free. -/
def Dev.romByte (d : Dev) (i : Nat) : Byte :=
  let (o, len) := d.sys.rom
  if i < len then d.byte (flashBase + o + i) else byteOf (Config.freeWord (d.draws + i)).toNat 0

/-- HOST_READ: a read with earlier writes of its function still queued waits (R80). -/
def Dev.hostRead (d : Dev) (n : Nat) (f : Fn) (bar : Bar) (off len : Nat) (bad : Bool) : Dev :=
  if !d.linkLive n then d
  else if bad ∨ barSize f bar < off + len ∨ !d.cfgReady n ∨ !d.inD0 n (fnIx f)
      ∨ (bar = .rom ∧ !d.rdB (pgHP n) Reg.HP_CTL 3) then d.aerDiscard n (fnIx f) (if bad then .poisoned else .good)
  else if (d.lane n).queue.any (fun t => t.fn == f) then d.reply .waits
  else match bar with
    | .bar0 =>
      let (d, bs) := d.bar0Read n (fnIx f) (off / 4 * 4) ((off + len + 3) / 4 - off / 4)
      d.reply (.bytes bs)
    | .bar2 =>
      let bs := (List.range len).map (fun i => d.bar2Byte n (off + i))
      let hits := ((List.range len).filterMap (fun i => d.bar2 n (off + i))).filter (fun a => d.poisoned a 1)
      match hits with
      | [] => d.reply (.bytes bs)
      | a :: _ => if d.rdB (pgHD n) Reg.HD_MODE 3 then d.reply (.bytes bs) else (d.poisonRead a).reply (.poisoned bs)
    | .rom => ({ d with draws := d.draws + off + len }).reply (.bytes ((List.range len).map (fun i => d.romByte (off + i))))
    | .none => d

/-! ### Resets (R106, R602) -/

/-- Host-writable words of a head page that a lane reset returns to reset (R106). -/
def laneResetWord (n off : Nat) : Bool :=
  (decide (0x070 ≤ off ∧ off < 0x140) || decide (0x800 ≤ off))
    && match rowAt (pgHD n) off with
      | some r => decide (r.rw ≠ 0 ∨ r.w1c ≠ 0)
      | none => false

/-- CONSIST back to BEAM, and the host's words of head Vn at their reset values, from stamp c on (R106). -/
def Dev.resetHead (d : Dev) (n c : Nat) : Dev :=
  let d := d.keepDue.wrF (pgHD n) Reg.HD_MODE 1 0 0
  let d := d.onHead n (fun x => { x with fence := false, consAt := none, shown := none, writes := [], held := none,
                                          clearAt := none })
  let old := (d.ownRegs n).filter (fun e => laneResetWord n e.1)
  let d := d.dropRegs (pgHD n) (laneResetWord n)
  let d := forL old (fun (off, v) d => d.reportReg n off v) d
  if d.live n then d.squashWindow n c else d

/-- Both allocations of head Vn cleared to zero as one commit stamped c (R602). -/
def Dev.clearAllocs (d : Dev) (n c : Nat) : Dev :=
  let d := d.keepDue
  let (db, ds, gb, gs) := d.alloc n
  let g := glyphBase + gb
  let d := if ds = 0 then d else
      let d := d.clear db (db + ds)
      let d := { d with ram := { d.ram with
        poison := d.ram.poison.filter (fun b => !(decide (db ≤ b * 64) && decide (b * 64 < db + ds))) } }
      (d.markInit ((db - dramBase) / blockBytes) ((db + ds - dramBase) / blockBytes)).noteDirty db ds
  let d := if gs = 0 then d else (d.clear g (min (g + gs) glyphEnd)).noteDirty g gs
  let parts := (if ds = 0 then [] else [(db, ds)]) ++ (if gs = 0 then [] else [(g, gs)])
  let d := if parts.isEmpty then d else d.reportMem n parts c false true
  forL (d.someHeads.filter (fun h => h != n)) (fun h d =>
    if d.live h && parts.any (fun (a, k) => d.badgeHit h a k) then d.squashWindow h c else d) d

/-- ALLOC_CLEAR (R602): the clearing that waits takes effect at the start instant of its frame (assumption log 65). -/
def Dev.allocClear (d : Dev) (n : Nat) : Dev :=
  match (d.head n).clearAt with
  | none => d
  | some f =>
    let c := if d.live n then d.startFt n f else d.ft
    let d := if d.live n then d.toFt c else d
    (d.resetHead n (c - 1)).clearAllocs n c

/-- R106's effect of a reset on head Vn: at once where it does not run, else from the next frame (R602). -/
def Dev.headReset (d : Dev) (n : Nat) : Dev :=
  if !d.runs n then (d.resetHead n d.ft).clearAllocs n d.ft
  else if (d.head n).clearAt.isSome then d
  else d.onHead n (fun x => { x with clearAt := some (d.nextFrame n) })

/-- Writes of functions that q chooses discarded and counted, their credits returned (R106) (assumption log 65). -/
def Dev.dropWrites (d : Dev) (n : Nat) (q : Fn → Bool) : Dev :=
  let gone := (d.lane n).queue.filter (fun t => q t.fn)
  let d := d.onLane n (fun l => { l with queue := l.queue.filter (fun t => !q t.fn) })
  (forL gone (fun t d => (d.returnCredits n t).discard n) d).borrow

/-- A function's registers after a reset of it (R106): HF_EVT_VEC stays; configuration space and MSI-X are PRESUMED to reset
(assumption log 8). -/
def Dev.fnRegsReset (d : Dev) (n f : Nat) : Dev :=
  let p := pgFn n f
  let det := d.rd p Reg.HF_STAT &&& 8
  let d := d.dropRegs p (fun off => off == Reg.HF_DRV_FEAT_LO || off == Reg.HF_DRV_FEAT_HI || off == Reg.HF_CTL
    || off == Reg.HF_STAT || off == Reg.HF_EVT_STAT || off == Reg.HF_EVT_EN || off == Reg.HF_FENCE || off == Reg.HF_FENCE + 4
    || off == Reg.HF_NEG_LO || off == Reg.HF_NEG_HI || decide (0x800 ≤ off))
  (d.wr p Reg.HF_STAT det).dropRegs (pgCfg n f) (fun _ => true)

/-- A function reset (R106). -/
def Dev.fnReset (d : Dev) (n : Nat) (f : Fn) : Dev :=
  let d := d.dropWrites n (fun x => x == f)
  let neg := d.feats n
  let d := d.fnRegsReset n (fnIx f)
  match f with
  | .display =>
    let d := d.wrF (pgHP n) Reg.HP_STAT 12 11 0
    let d := if d.runs n && (d.head n).held.isNone then d.onHead n (fun x => { x with held := some neg }) else d
    d.headReset n
  | .input => (d.wrB (pgFn n 1) Reg.IR_CTL 0 false).refusePending n
  | .audio =>
    ((d.wrB (pgFn n 2) Reg.PL_CTL 0 false).wrB (pgFn n 2) Reg.CP_CTL 0 false |>.plStop n).cpStop n

/-- All three functions reset (R106). -/
def Dev.laneReset (d : Dev) (n : Nat) : Dev := ((d.fnReset n .display).fnReset n .input).fnReset n .audio

/-- HP_STAT.LTSSM: the spec gives its place and no coding, so a free value at each change of the link. -/
def Dev.ltssm (d : Dev) (n : Nat) : Dev := (d.wrF (pgHP n) Reg.HP_STAT 9 4 d.free.toNat).drew

/-- The link goes down: LINK_UP, SPEED, CFG_READY and IN_L1 become 0 (R100, R104); LINK_DOWN where it was up. -/
def Dev.linkFalls (d : Dev) (n : Nat) : Dev :=
  let up := d.linkLive n
  let d := (((d.wrF (pgHP n) Reg.HP_STAT 3 1 0).wrB (pgHP n) Reg.HP_STAT 10 false).wrB (pgHP n) Reg.HP_STAT 13 false).ltssm n
  if up then d.irq (pgHP n) 3 else d

/-- PERST_ASSERT (R102, R106). -/
def Dev.perstAssert (d : Dev) (n : Nat) : Dev :=
  if d.rdB (pgHP n) Reg.HP_STAT 0 then d
  else (((d.wrB (pgHP n) Reg.HP_STAT 0 true).irq (pgHP n) 0).linkFalls n).laneReset n

/-- PERST_RELEASE (R102, R104). -/
def Dev.perstRelease (d : Dev) (n : Nat) : Dev :=
  if d.rdB (pgHP n) Reg.HP_STAT 0 then (d.wrB (pgHP n) Reg.HP_STAT 0 false).irq (pgHP n) 1 else d

/-- HOT_RESET (R104, R106): CFG_READY falls; the link stays up (assumption log 36). -/
def Dev.hotReset (d : Dev) (n : Nat) : Dev :=
  if !d.linkLive n then d else (d.wrB (pgHP n) Reg.HP_STAT 10 false).laneReset n

/-- LANE_LINK_DOWN (R106). -/
def Dev.laneLinkDown (d : Dev) (n : Nat) : Dev := if d.linkLive n then (d.linkFalls n).laneReset n else d

/-- LANE_LINK_UP (R57, R104, R105). -/
def Dev.laneLinkUp (d : Dev) (n speed : Nat) : Dev :=
  let p := pgHP n
  if d.rdB p Reg.HP_STAT 0 || d.linkLive n || !d.rdB p Reg.HP_CTL 0 || d.mode == 6 || d.mode == 7 then d
  else (((d.wrB p Reg.HP_STAT 1 true).wrF p Reg.HP_STAT 3 2 (min speed (d.rdF p Reg.HP_CTL 2 1))).ltssm n).irq p 2

/-- CFG_READY (R104, R105, R602). -/
def Dev.becomeReady (d : Dev) (n : Nat) : Dev :=
  if d.rdB (pgHP n) Reg.HP_STAT 0 || !(d.mode == 3 || d.mode == 4 || d.mode == 5) then d
  else (d.allocClear n).wrB (pgHP n) Reg.HP_STAT 10 true

/-- IN_L1 (R57, R100). -/
def Dev.setL1 (d : Dev) (n : Nat) (on : Bool) : Dev :=
  if d.linkLive n then ((d.wrB (pgHP n) Reg.HP_STAT 13 on).ltssm n).borrow else d

/-- A Function Level Reset, or D3hot to D0 (R102, R106). -/
def Dev.fnLevelReset (d : Dev) (n : Nat) (f : Fn) : Dev := (d.fnReset n f).irq (pgHP n) 4

/-! ### Configuration space (R57, R60, R61, R104): its layout is assumption log 8's -/

/-- Words of configuration space that are fixed or show other registers; none where stored words answer. -/
def Dev.cfgFixed (d : Dev) (n : Nat) (f : Fn) (off : Nat) : Option Nat :=
  let disp := f = .display
  let class_ := match f with
    | .display => 0x038000
    | .input => 0x098000
    | .audio => 0x040100
  let serial := Config.chipSerial.toNat * 256 + n
  match off with
  | 0x00 => some (0x1E4C + (0x0128 + fnIx f) * 65536)
  | 0x08 => some (0xB0 + class_ * 256)
  | 0x0C => some 0x800000
  | 0x2C => some (d.rdN (pgHD n) Reg.HB_SUBSYS)
  | 0x34 => some 0x40
  | 0x40 => some 0x00035001
  | 0x64 => some (if disp then 0x3000 else 0x800)
  | 0x68 => some (if disp then 0x3800 else 0xC00)
  | 0x70 => some 0x00020010
  | 0x74 => some 0x10008001
  | 0x100 => some 0x11010003
  | 0x104 => some (serial % 2 ^ 32)
  | 0x108 => some (serial / 2 ^ 32)
  | 0x110 => some 0x16020001
  | 0x160 => some 0x1701001E
  | 0x164 => some 0x1F
  | 0x170 => some 0x18010018
  | 0x180 => some 0x00010027
  | 0x184 => some 0
  | _ => none

/-- A configuration read. -/
def Dev.cfgRead (d : Dev) (n : Nat) (f : Fn) (off : Nat) : Word :=
  let p := pgCfg n (fnIx f)
  match d.cfgFixed n f off with
  | some v => word v
  | none =>
    if (off = Reg.CFG_BAR2_LO ∨ off = Reg.CFG_BAR2_HI ∨ off = Reg.CFG_ROM_BAR) ∧ f ≠ .display then 0
    else if off = Reg.CFG_ROM_BAR ∧ !d.rdB (pgHP n) Reg.HP_CTL 3 then 0
    else if off = Reg.CFG_COMMAND then d.rd p off ||| 0x100000
    else if off = Reg.CFG_MSI then d.rd p off ||| 0x6000
    else if off = Reg.CFG_MSIX then d.rd p off ||| 0x7000
    else d.rd p off

/-- A configuration write: D1 and D2 are not supported (R57) and change no power state; D3hot to D0 and a Function Level Reset act as R106 states. -/
def Dev.cfgWrite (d : Dev) (n : Nat) (f : Fn) (off : Nat) (v : Word) : Dev :=
  let p := pgCfg n (fnIx f)
  if (d.cfgFixed n f off).isSome then d
  else if off = Reg.CFG_PMCSR then
    let was := !d.inD0 n (fnIx f)
    let d := if field v 1 0 = 1 ∨ field v 1 0 = 2 then d else d.regStore p off v
    let d := if f = .display then d.wrF (pgHP n) Reg.HP_STAT 12 11 (d.rdF p off 1 0) else d
    if was && d.inD0 n (fnIx f) then d.fnLevelReset n f else d
  else if off = Reg.CFG_DEVCTL then if bit v 15 then d.fnLevelReset n f else d.regStore p off v
  else if off = Reg.CFG_BAR0_LO ∧ f ≠ .display then d.wr p off ((v &&& 0xFFFFF000) ||| 4)
  else if off = Reg.CFG_MSIX then (d.regStore p off v).fnUnmask n (fnIx f)
  else d.regStore p off v

/-- CONFIG_REQUEST (R104, R105): Retry Status until CFG_READY, and outside SERVICE, DEGRADED and DRAIN. -/
def Dev.configRequest (d : Dev) (n : Nat) (f : Fn) (off : Nat) (wr : Option Word) : Dev :=
  if !d.linkLive n then d
  else if !d.cfgReady n || !(d.mode == 3 || d.mode == 4 || d.mode == 5) then d.reply .retryStatus
  else match wr with
    | some v => (d.cfgWrite n f (off / 4 * 4) v).reply .done
    | none => d.reply (.data ((d.cfgRead n f (off / 4 * 4)).setWidth 64))

/-! ### Commands -/

/-- PERST_ASSERT (R106). -/
def execPerstAssert (n : Lane) (s : State) : Host.Outcome State Fault Refusal := s.run (fun d => d.perstAssert n)
/-- PERST_RELEASE (R104). -/
def execPerstRelease (n : Lane) (s : State) : Host.Outcome State Fault Refusal := s.run (fun d => d.perstRelease n)
/-- HOT_RESET (R106). -/
def execHotReset (n : Lane) (s : State) : Host.Outcome State Fault Refusal := s.run (fun d => d.hotReset n)
/-- LANE_LINK_DOWN (R106). -/
def execLaneLinkDown (n : Lane) (s : State) : Host.Outcome State Fault Refusal := s.run (fun d => d.laneLinkDown n)
/-- LANE_LINK_UP (R104). -/
def execLaneLinkUp (n : Lane) (speed : Fin 4) (s : State) : Host.Outcome State Fault Refusal := s.run (fun d => d.laneLinkUp n speed)
/-- CFG_READY (R104). -/
def execCfgReady (n : Lane) (s : State) : Host.Outcome State Fault Refusal := s.run (fun d => d.becomeReady n)
/-- CONFIG_REQUEST (R104). -/
def execConfigRequest (n : Lane) (f : Fn) (off : BitVec 12) (wr : Option Word) (s : State) : Host.Outcome State Fault Refusal :=
  s.run (fun d => d.configRequest n f off.toNat wr)
/-- FUNCTION_LEVEL_RESET (R106). -/
def execFunctionLevelReset (n : Lane) (f : Fn) (s : State) : Host.Outcome State Fault Refusal := s.run (fun d => d.fnLevelReset n f)
/-- D3HOT_TO_D0 (R106): a function in D3hot. -/
def execD3hotToD0 (n : Lane) (f : Fn) (s : State) : Host.Outcome State Fault Refusal :=
  s.run (fun d => if d.inD0 n (fnIx f) then d else d.fnLevelReset n f)
/-- HOST_WRITE (R76, R81). A TLP carries 1 to 256 bytes (R57); another is discarded as a flawed one is (assumption log 7). -/
def execHostWrite (n : Lane) (f : Fn) (bar : Bar) (off : BitVec 29) (data : List (Option Byte)) (relaxed : Bool) (flaw : TlpFlaw)
    (s : State) : Host.Outcome State Fault Refusal :=
  s.run (fun d => d.hostWrite n f bar off.toNat data relaxed
    (if data.length = 0 ∨ 256 < data.length then .malformed else flaw))
/-- COMMIT (R76 to R79). -/
def execCommit (n : Lane) (f : Fn) (k : Nat) (s : State) : Host.Outcome State Fault Refusal := 
  s.run (fun d => d.thawed (pgHP n) (fun d => d.commitAt n f k))
/-- HOST_READ (R80). A read asks for 1 to 4,096 bytes; another is discarded as a flawed one is (assumption log 7). -/
def execHostRead (n : Lane) (f : Fn) (bar : Bar) (off : BitVec 29) (len : Nat) (bad : Bool) (s : State) :
    Host.Outcome State Fault Refusal :=
  s.run (fun d => d.hostRead n f bar off.toNat len (bad || len == 0 || decide (4096 < len)))
/-- FEAT_OK (R52, R71): the host's write of 1. -/
def execFeatOk (n : Lane) (f : Fn) (s : State) : Host.Outcome State Fault Refusal :=
  s.run (fun d => d.hostWord n (fnIx f) (fun d => d.featStart n (fnIx f)))
/-- FEAT_DONE (R74). -/
def execFeatDone (n : Lane) (f : Fn) (s : State) : Host.Outcome State Fault Refusal := s.run (fun d => d.featAnswer n (fnIx f))
/-- PRESENT (R86): the host's write of the tag. -/
def execPresent (n : Lane) (tag : Word) (s : State) : Host.Outcome State Fault Refusal :=
  s.run (fun d => d.hostWord n 0 (fun d => d.present n tag))
/-- IR_ENABLE (R89): the host's write that sets EN. -/
def execIrEnable (n : Lane) (s : State) : Host.Outcome State Fault Refusal :=
  s.run (fun d => d.hostWord n 1 (fun d => d.irWrite n Reg.IR_CTL 1))
/-- IR_CONS_WRITE (R90). -/
def execIrConsWrite (n : Lane) (v : Word) (s : State) : Host.Outcome State Fault Refusal :=
  s.run (fun d => d.hostWord n 1 (fun d => d.irWrite n Reg.IR_CONS v))
/-- IR_LED_WRITE (R96). -/
def execIrLedWrite (n : Lane) (v : Word) (s : State) : Host.Outcome State Fault Refusal :=
  s.run (fun d => d.hostWord n 1 (fun d => d.irWrite n Reg.IR_LED v))
/-- PL_ENABLE (R97, R353): the host's write that sets EN. -/
def execPlEnable (n : Lane) (s : State) : Host.Outcome State Fault Refusal :=
  s.run (fun d => d.hostWord n 2 (fun d => d.audRingWrite n Reg.PL_CTL (d.rd (pgFn n 2) Reg.PL_CTL ||| 1)))
/-- CP_ENABLE (R97, R355). -/
def execCpEnable (n : Lane) (s : State) : Host.Outcome State Fault Refusal :=
  s.run (fun d => d.hostWord n 2 (fun d => d.audRingWrite n Reg.CP_CTL (d.rd (pgFn n 2) Reg.CP_CTL ||| 1)))
/-- ALLOC_CLEAR (R602). -/
def execAllocClear (n : VHead) (s : State) : Host.Outcome State Fault Refusal := s.run (fun d => d.allocClear n)
/-- IN_L1 (R57). -/
def execInL1 (n : Lane) (on : Bool) (s : State) : Host.Outcome State Fault Refusal := s.run (fun d => d.setL1 n on)

end Sys2Proof.Machine
end

