-- ==== Sys2Proof/Machine/Blt.lean ====
section
/-! DEFINITION. The rectangle engine (R458 to R477). A command runs whole: segments in the order of R467, each segment's
reads before its writes. -/
namespace Sys2Proof.Machine

/-! ### Surfaces and commands (R461 to R464, R470) -/

/-- Bits per pixel of formats 0 to 7 (R461). -/
def bltBpp (f : Nat) : Nat := [8, 16, 16, 32, 32, 1, 2, 4].getD f 8
/-- Alignment of base and pitch (R461). -/
def bltAlign (f : Nat) : Nat := [1, 2, 2, 4, 4, 1, 1, 1].getD f 1

/-- A field of a command: n bytes from an offset. -/
def cmdField (c : List Byte) (off n : Nat) : Nat := ofLe ((c.drop off).take n)
/-- A flag of a command (R470): 0 IRQ, 1 XDIR, 2 YDIR, 3 KEY_EN, 4 ZERO_SKIP. -/
def cmdFlag (c : List Byte) (i : Nat) : Bool := (cmdField c 1 1).testBit i

abbrev opFill : Nat := 1
abbrev opCopy : Nat := 2
abbrev opConvert : Nat := 3
abbrev opNote : Nat := 4
abbrev opSetclip : Nat := 5

/-- R463: the operation accepts the format pair. -/
def bltPairOk (op src dst : Nat) : Bool :=
  if op = opFill then decide (dst < 8)
  else if op = opCopy then decide (dst < 8) && src == dst
  else decide (src < 8) && decide (1 ≤ dst ∧ dst ≤ 4)

/-- R475's codes 1 to 4, found before any access; 0 for none. -/
def bltCheck (c : List Byte) : Nat :=
  let op := cmdField c 0 1
  let src := cmdField c 3 1 % 16
  let dst := cmdField c 3 1 / 16
  let w := cmdField c 4 2
  let h := cmdField c 6 2
  let db := cmdField c 8 6
  let dp := cmdField c 16 4
  let sb := cmdField c 24 6
  let sp := cmdField c 32 4
  let reads := op = opCopy ∨ op = opConvert
  if op = opSetclip then 0
  else if op = opNote then if db % 8 = 0 then 0 else 4
  else if op = 0 ∨ 5 < op then 1
  else if !bltPairOk op src dst then 2
  else if w = 0 ∨ 16384 < w ∨ h = 0 ∨ 16384 < h ∨ 65536 < cmdField c 20 2 + w ∨ 65536 < cmdField c 22 2 + h
      ∨ (reads ∧ (65536 < cmdField c 36 2 + w ∨ 65536 < cmdField c 38 2 + h)) then 3
  else if db % bltAlign dst ≠ 0 ∨ dp % bltAlign dst ≠ 0 ∨ 0x1000000 < dp
      ∨ (reads ∧ (sb % bltAlign src ≠ 0 ∨ sp % bltAlign src ≠ 0 ∨ 0x1000000 < sp))
      ∨ (op = opConvert ∧ (src = 0 ∨ 6 ≤ src) ∧ cmdField c 56 6 % 4 ≠ 0) then 4
  else 0

/-- R458: the rectangle engine reaches n bytes at a. -/
def Dev.bltReach (d : Dev) (a n : Nat) : Bool := inGlyph a n || d.inDram a n

/-- An access that failed: R475's code and the faulting address. -/
abbrev BltErr := Nat × Nat

/-- n bytes read (R458, R475). -/
def Dev.bltRead (d : Dev) (a n : Nat) : Except BltErr Nat :=
  if !d.bltReach a n then .error (5, a)
  else if d.poisoned a n then .error (6, d.poisonAddr a n)
  else .ok (d.num a n)

/-- A raw source pixel (R462). -/
def Dev.bltPixel (d : Dev) (base pitch f x y : Nat) : Except BltErr Nat :=
  let bpp := bltBpp f
  let a := base + y * pitch + x * bpp / 8
  if 8 ≤ bpp then d.bltRead a (bpp / 8)
  else (d.bltRead a 1).map (fun b => b / 2 ^ (8 - bpp - x * bpp % 8) % 2 ^ bpp)

/-- R464: red, green, blue and alpha of a raw source pixel. -/
def Dev.bltColour (d : Dev) (c : List Byte) (f p : Nat) : Except BltErr (Rgb × Nat) :=
  let argb := fun (w : Nat) => (rgbOf w, w / 2 ^ 24 % 256)
  match f with
  | 0 => (d.bltRead (cmdField c 56 6 + 4 * p) 4).map argb
  | 1 => .ok ((exp5 (p / 2048 % 32), exp6 (p / 32 % 64), exp5 (p % 32)), 255)
  | 2 => .ok ((exp5 (p / 1024 % 32), exp5 (p / 32 % 32), exp5 (p % 32)), 255)
  | 3 => .ok (rgbOf p, 255)
  | 4 => .ok (argb p)
  | 5 => .ok (argb (if p = 1 then cmdField c 40 4 else cmdField c 44 4))
  | _ => (d.bltRead (cmdField c 56 6 + 4 * p) 4).map argb

/-- R464: a colour packed into a destination format. -/
def bltPack (f : Nat) (px : Rgb × Nat) : Nat :=
  let ((r, g, b), a) := px
  let r5 := (r * 31 + 127) / 255
  let g5 := (g * 31 + 127) / 255
  let g6 := (g * 63 + 127) / 255
  let b5 := (b * 31 + 127) / 255
  match f with
  | 1 => r5 * 2048 + g6 * 32 + b5
  | 2 => r5 * 1024 + g5 * 32 + b5
  | 3 => r * 65536 + g * 256 + b
  | _ => a * 2 ^ 24 + r * 65536 + g * 256 + b

/-- R465: the source pixel is not written. -/
def bltSkipped (c : List Byte) (f p : Nat) : Bool :=
  let m := cmdField c 52 4
  (cmdFlag c 3 && p &&& m == cmdField c 48 4 &&& m) || (cmdFlag c 4 && decide (5 ≤ f) && p == 0)

/-- The clip rectangles latched at a command's start (R466, R472): X0, Y0, X1, Y1. -/
def Dev.bltClips (d : Dev) : List (Nat × Nat × Nat × Nat) :=
  (List.range 4).map (fun k =>
    let a := Reg.BLT_CLIP_A + 8 * k
    let b := Reg.BLT_CLIP_B + 8 * k
    (d.rdF pgBLT a 15 0, d.rdF pgBLT a 31 16, d.rdF pgBLT b 15 0, d.rdF pgBLT b 31 16))

/-- R466: pixel (x, y) is admitted. -/
def clipAdmits (clips : List (Nat × Nat × Nat × Nat)) (mask x y : Nat) : Bool :=
  mask == 0 || clips.zipIdx.any (fun e =>
    mask.testBit e.2 && decide (e.1.1 ≤ x ∧ x < e.1.2.2.1 ∧ e.1.2.1 ≤ y ∧ y < e.1.2.2.2))

/-- The source of pixel i of a row: what to write, none where R465 keeps the destination. -/
def Dev.bltSource (d : Dev) (c : List Byte) (i row : Nat) : Except BltErr (Option Nat) :=
  let op := cmdField c 0 1
  let src := cmdField c 3 1 % 16
  let dst := cmdField c 3 1 / 16
  if op = opFill then .ok (some (cmdField c 40 4 % 2 ^ bltBpp dst))
  else match d.bltPixel (cmdField c 24 6) (cmdField c 32 4) src (cmdField c 36 2 + i) (cmdField c 38 2 + row) with
    | .error e => .error e
    | .ok p =>
      if op = opCopy then .ok (if bltSkipped c src p then none else some p)
      else match d.bltColour c src p with
        | .error e => .error e
        | .ok px => .ok (if bltSkipped c src p then none else some (bltPack dst px))

/-- The sources of n pixels from i on, in order; the first access that fails ends it. -/
def Dev.bltSources (d : Dev) (c : List Byte) (row i : Nat) : Nat → Except BltErr (List (Option Nat))
  | 0 => .ok []
  | n + 1 =>
    match d.bltSource c i row with
    | .error e => .error e
    | .ok v => (d.bltSources c row (i + 1) n).map (fun l => v :: l)

/-! ### Segments (R467 to R469) -/

/-- The bytes that whole-byte pixels write: each byte, none where kept. -/
def wideBytes (k : Nat) (px : List (Option Nat)) : List (Option Byte) :=
  px.flatMap (fun p => match p with
    | some v => (leBytes k v).map some
    | none => List.replicate k none)

/-- The byte at index j of a row for pixels smaller than a byte: what it becomes, none where no pixel of it is written. px
starts at pixel x0. -/
def Dev.narrowByte (d : Dev) (bpp rowBase x0 : Nat) (px : List (Option Nat)) (j : Nat) : Except BltErr (Option Byte) :=
  let per := 8 / bpp
  let mine := (List.range per).map (fun q => if j * per + q < x0 then none else (px.getD (j * per + q - x0) none))
  if mine.all (fun p => p.isNone) then .ok none
  else
    let build := fun (old : Nat) => some (BitVec.ofNat 8 ((mine.zipIdx.map (fun e =>
      let sh := 8 - bpp - e.2 * bpp
      (match e.1 with
        | some v => v
        | none => old / 2 ^ sh % 2 ^ bpp) * 2 ^ sh)).sum))
    if mine.all (fun p => p.isSome) then .ok (build 0)
    else (d.bltRead (rowBase + j) 1).map build

/-- The bytes of indices j to j + n - 1 of a row. -/
def Dev.narrowBytes (d : Dev) (bpp rowBase x0 : Nat) (px : List (Option Nat)) (j : Nat) : Nat → Except BltErr (List (Option Byte))
  | 0 => .ok []
  | n + 1 =>
    match d.narrowByte bpp rowBase x0 px j with
    | .error e => .error e
    | .ok b => (d.narrowBytes bpp rowBase x0 px (j + 1) n).map (fun l => b :: l)

/-- A segment's writes, in ascending runs: one outside the engine's regions fails, and nothing more is written. -/
def Dev.bltStore (d : Dev) : List (Nat × List Byte) → Dev × Option BltErr
  | [] => (d, none)
  | (a, bs) :: rest =>
    let ok := (List.range bs.length).takeWhile (fun i => d.bltReach (a + i) 1)
    if ok.length = bs.length then (d.storeBy a bs).bltStore rest
    else (if ok.isEmpty then d else d.storeBy a (bs.take ok.length), some (5, a + ok.length))

/-- Pixels x0 to x0 + n - 1 of line row of the rectangle. -/
def Dev.bltSegment (d : Dev) (c : List Byte) (clips : List (Nat × Nat × Nat × Nat)) (row x0 n : Nat) : Dev × Option BltErr :=
  let dst := cmdField c 3 1 / 16
  let bpp := bltBpp dst
  let dx := cmdField c 20 2 + x0
  let dy := cmdField c 22 2 + row
  let rowBase := cmdField c 8 6 + dy * cmdField c 16 4
  match d.bltSources c row x0 n with
  | .error e => (d, some e)
  | .ok l =>
    let px := l.zipIdx.map (fun e => if clipAdmits clips (cmdField c 2 1 % 16) (dx + e.2) dy then e.1 else none)
    let lo := dx * bpp / 8
    let bytes := if 8 ≤ bpp then .ok (wideBytes (bpp / 8) px)
      else d.narrowBytes bpp rowBase dx px lo (ceilDiv ((dx + n) * bpp) 8 - lo)
    match bytes with
    | .error e => (d, some e)
    | .ok bs =>
      let (d, e) := d.bltStore (enabledRuns (rowBase + lo) bs)
      if e.isSome then (d, e)
      else (d.add64 pgBLT Reg.BLT_PIXELS (px.filter (fun p => p.isSome)).length, none)

/-- The segments of a rectangle in R467's order: row, first pixel, pixels. -/
def bltSegments (c : List Byte) : List (Nat × Nat × Nat) :=
  let w := cmdField c 4 2
  let h := cmdField c 6 2
  let nseg := (w + 2047) / 2048
  (List.range h).flatMap (fun j =>
    let row := if cmdFlag c 2 then h - 1 - j else j
    (List.range nseg).map (fun i =>
      let k := if cmdFlag c 1 then nseg - 1 - i else i
      (row, 2048 * k, min w (2048 * k + 2048) - 2048 * k)))

/-- Segments run until one fails. -/
def Dev.bltRun (d : Dev) (c : List Byte) (clips : List (Nat × Nat × Nat × Nat)) : List (Nat × Nat × Nat) → Dev × Option BltErr
  | [] => (d, none)
  | (row, x0, n) :: rest =>
    match d.bltSegment c clips row x0 n with
    | (d, some e) => (d, some e)
    | (d, none) => d.bltRun c clips rest

/-- A command's work (R463 to R471), already checked. -/
def Dev.bltWork (d : Dev) (c : List Byte) : Dev × Option BltErr :=
  let op := cmdField c 0 1
  if op = opNote then
    let a := cmdField c 8 6
    if d.bltReach a 8 then (d.storeBy a ((c.drop 56).take 8), none) else (d, some (5, a))
  else if op = opSetclip then
    (forN 4 (fun k d =>
      if (cmdField c 2 1).testBit k then
        (d.wrN pgBLT (Reg.BLT_CLIP_A + 8 * k) (cmdField c (8 + 8 * k) 4)).wrN pgBLT (Reg.BLT_CLIP_B + 8 * k)
          (cmdField c (12 + 8 * k) 4)
      else d) d, none)
  else d.bltRun c d.bltClips (bltSegments c)

/-! ### The ring and the register path (R473 to R476) -/

/-- BLT_STAT.STATE: 0 IDLE, 1 BUSY, 2 STOPPED. -/
def Dev.bltState (d : Dev) : Nat := d.rdF pgBLT Reg.BLT_STAT 1 0
/-- BLT_STAT.PATH: the register path. -/
def Dev.bltPath (d : Dev) : Bool := d.rdB pgBLT Reg.BLT_STAT 2
def Dev.bltProd (d : Dev) : Nat := d.rdN pgBLT Reg.RING_PROD
def Dev.bltCons (d : Dev) : Nat := d.rdN pgBLT Reg.RING_CONS
/-- log2 of the ring's size (R476). -/
def Dev.bltLog (d : Dev) : Nat :=
  let n := d.rdF pgBLT Reg.RING_SIZE 3 0
  if 4 ≤ n ∧ n ≤ 12 then n else 4
/-- The address of the ring's next command (R473). -/
def Dev.bltSlot (d : Dev) : Nat :=
  d.rdN pgBLT Reg.RING_BASE_LO + d.rdF pgBLT Reg.RING_BASE_HI 15 0 * 2 ^ 32 + d.bltCons % 2 ^ d.bltLog * 64

/-- The engine has a command to run now: one begun by BLT_GO or RETRY, or the ring's next. -/
def Dev.bltReady (d : Dev) : Bool :=
  !d.frozen pgBLT && (d.bltState == 1 || (d.bltState == 0 && d.rdB pgBLT Reg.BLT_CTL 0 && d.bltProd != d.bltCons))

/-- That command's bytes, or how its fetch fails (R473, R475). -/
def Dev.bltFetch (d : Dev) : Except BltErr (List Byte) :=
  if d.bltState = 1 ∧ d.bltPath then .ok d.blt.cmd
  else if !d.bltReach d.bltSlot 64 then .error (7, d.bltSlot)
  else if d.poisoned d.bltSlot 64 then .error (6, d.poisonAddr d.bltSlot 64)
  else .ok (d.bytes d.bltSlot 64)

/-- A failure (R475): STOPPED, the code, the event, the address. -/
def Dev.bltFail (d : Dev) (path : Bool) (e : BltErr) : Dev :=
  let d := (d.wrF pgBLT Reg.BLT_STAT 2 0 (2 + path.toNat * 4)).wrF pgBLT Reg.BLT_STAT 7 4 e.1
  if e.1 ≤ 4 then d.irq pgBLT 2
  else
    let d := if e.1 = 6 then d.poisonRead e.2 else d
    ((d.wrN pgBLT Reg.BLT_ERR_LO e.2).wrN pgBLT Reg.BLT_ERR_HI (e.2 / 2 ^ 32 % 65536)).irq pgBLT 3

/-- CONS advances (R473). -/
def Dev.bltAdvance (d : Dev) : Dev :=
  let d := d.wrN pgBLT Reg.RING_CONS (d.bltCons + 1)
  if d.bltCons = d.bltProd then d.irq pgBLT 1 else d

/-- A command completes (R473, R474). -/
def Dev.bltDone (d : Dev) (path flag : Bool) : Dev :=
  let d := (d.wrF pgBLT Reg.BLT_STAT 2 0 0).add64 pgBLT Reg.BLT_CMDS 1
  let d := if path then { d with blt := { d.blt with cmd := [] } } else d.bltAdvance
  if path || flag then d.irq pgBLT 0 else d

/-- The engine runs its next command, if that has operation op; a command that cannot be fetched or whose operation is
not known fails whichever operation was expected (assumption log 37). -/
def Dev.bltStep (d : Dev) (op : Nat) : Dev :=
  if !d.bltReady then d
  else
    let path := d.bltState == 1 && d.bltPath
    match d.bltFetch with
    | .error e => d.bltFail path e
    | .ok c =>
      let o := cmdField c 0 1
      if o ≠ op ∧ 1 ≤ o ∧ o ≤ 5 then d
      else match bltCheck c with
        | 0 =>
          match d.bltWork c with
          | (d, some e) => d.bltFail path e
          | (d, none) => d.bltDone path (cmdFlag c 0)
        | code => d.bltFail path (code, 0)

/-- RING_PROD written (R473). -/
def Dev.bltProdWrite (d : Dev) (v : Word) : Dev :=
  if 2 ^ d.bltLog < (v - word d.bltCons).toNat then d.wrB pgBLT Reg.BLT_STAT 9 true else d.wr pgBLT Reg.RING_PROD v

/-- BLT_GO written (R474). -/
def Dev.bltGo (d : Dev) : Dev :=
  if d.bltState ≠ 0 then d.wrB pgBLT Reg.BLT_STAT 8 true
  else
    let c := (List.range 16).flatMap (fun i => leBytes 4 (d.rdN pgBLT (Reg.BLT_CMD + 4 * i)))
    { d with blt := { d.blt with cmd := c } }.wrF pgBLT Reg.BLT_STAT 2 0 5

/-- RETRY (R475): the failed command will run again from its start. -/
def Dev.bltRetry (d : Dev) : Dev :=
  if d.bltState = 2 then (d.wrF pgBLT Reg.BLT_STAT 1 0 1).wrF pgBLT Reg.BLT_STAT 7 4 0 else d

/-- SKIP (R475). -/
def Dev.bltSkip (d : Dev) : Dev :=
  if d.bltState ≠ 2 then d
  else
    let path := d.bltPath
    let d := (d.wrF pgBLT Reg.BLT_STAT 2 0 0).wrF pgBLT Reg.BLT_STAT 7 4 0
    if path then { d with blt := { d.blt with cmd := [] } } else d.bltAdvance

/-- A write to a word of the BLT page (R473, R476). A write that sets RETRY and SKIP together skips (assumption log 37). -/
def Dev.bltWrite (d : Dev) (off : Nat) (v : Word) : Dev :=
  if off = Reg.BLT_CTL then
    let d := d.regStore pgBLT off v
    if bit v 2 then d.bltSkip else if bit v 1 then d.bltRetry else d
  else if off = Reg.RING_PROD then d.bltProdWrite v
  else if off = Reg.BLT_GO then d.bltGo
  else if off = Reg.RING_BASE_LO ∨ off = Reg.RING_BASE_HI ∨ off = Reg.RING_SIZE then
    if d.bltState = 0 ∧ d.bltProd = d.bltCons then d.regStore pgBLT off v else d
  else if 0x0C0 ≤ off ∧ off < 0x0E0 then if d.bltState = 0 then d.regStore pgBLT off v else d
  else d.regStore pgBLT off v

/-- RING_PROD (R473). -/
def execRingProd (r : Req) (v : Word) (s : State) : Host.Outcome State Fault Refusal := s.onPage r pgBLT (fun d => d.bltProdWrite v)
/-- FILL (R463). -/
def execFill (s : State) : Host.Outcome State Fault Refusal := s.run (fun d => d.bltStep opFill)
/-- COPY (R463, R467). -/
def execCopy (s : State) : Host.Outcome State Fault Refusal := s.run (fun d => d.bltStep opCopy)
/-- CONVERT (R464). -/
def execConvert (s : State) : Host.Outcome State Fault Refusal := s.run (fun d => d.bltStep opConvert)
/-- NOTE (R471). -/
def execNote (s : State) : Host.Outcome State Fault Refusal := s.run (fun d => d.bltStep opNote)
/-- SETCLIP (R471). -/
def execSetclip (s : State) : Host.Outcome State Fault Refusal := s.run (fun d => d.bltStep opSetclip)
/-- BLT_GO (R474). -/
def execBltGo (r : Req) (s : State) : Host.Outcome State Fault Refusal := s.onPage r pgBLT Dev.bltGo
/-- RETRY (R475). -/
def execRetry (r : Req) (s : State) : Host.Outcome State Fault Refusal := s.onPage r pgBLT Dev.bltRetry
/-- SKIP (R475). -/
def execSkip (r : Req) (s : State) : Host.Outcome State Fault Refusal := s.onPage r pgBLT Dev.bltSkip

end Sys2Proof.Machine
end

