-- ==== Sys2Proof/Machine/FabTime.lean ====
section
/-! DEFINITION. TIME (R397 to R401, R419): how fabric time starts, the exchange, the servo and its states. -/
namespace Sys2Proof.Machine

/-- Kinds of messages whose layout is not given (assumption log 23). -/
abbrev msgSyncReq : Nat := 50
abbrev msgSyncResp : Nat := 51

/-- TIME_STAT.STATE (R419): 0 WAIT, 1 SLEW, 2 LOCKED, 3 HOLDOVER, 4 ISLAND. -/
def Dev.timeState (d : Dev) : Nat := d.rdF pgTIME Reg.TIME_STAT 2 0
def Dev.setTimeState (d : Dev) (n : Nat) : Dev := d.wrF pgTIME Reg.TIME_STAT 2 0 n
/-- TIME_STAT.IS_ROOT. -/
def Dev.isRoot (d : Dev) : Bool := d.rdB pgTIME Reg.TIME_STAT 12

/-- LOCKED entered (R173, R401). -/
def Dev.timeLock (d : Dev) : Dev := { d.setTimeState 2 with clock := { d.clock with locked := true } }

/-- Fabric time starts at a value (R397): STARTED. The audio ticks go on from it (R341). -/
def Dev.startTime (d : Dev) (v : Nat) : Dev :=
  let d := { d with clock := { d.clock with ft := v % 2 ^ 64, ftAcc := 0, started := true } }
  (d.onSnd (fun s => { s with tick := ceilDiv (v % 2 ^ 64 * 48000) (2 ^ 32) })).irq pgTIME 5

/-- ACQ_TIMEOUT (R397, R563): no exchange within TIME_ACQ_WAIT ms of reset, or of a wake; the chip starts at 0 as its own root. -/
def Dev.acqTimeout (d : Dev) : Dev :=
  if d.clock.started then d
  else
    let d := d.toBase (d.clock.timeFrom + msBase (d.rdF pgTIME Reg.TIME_ACQ_WAIT 15 0))
    (((d.startTime 0).wrB pgTIME Reg.TIME_STAT 12 true).timeLock).pickParent

/-- The chip becomes root, or is no longer root, as the members' ROOT bits and the coordinator say (R398). -/
def Dev.rootChange (d : Dev) : Dev :=
  let root := (d.fab.roots.min?).getD d.coordAddr
  let mine := d.addrValid && root == d.myAddr
  if mine == d.isRoot || !d.clock.started || d.timeState == 4 then d
  else if mine then ((d.wrB pgTIME Reg.TIME_STAT 12 true).timeLock).pickParent
  else
    let d := (d.wrB pgTIME Reg.TIME_STAT 12 false).setTimeState 1
    (d.onFab (fun f => { f with servoI := 0, goodRun := 0, badRun := 0, lastSync := d.clock.base })).pickParent

/-- Hops that the chip reports (R398, R401): an island, or a chip without a parent, reports none. -/
def Dev.reportHops (d : Dev) : Option Nat :=
  if d.timeState = 4 then none
  else if d.isRoot then some 0
  else if d.fab.parent.isNone then none else some (d.rdF pgTIME Reg.TIME_STAT 11 7)

/-- The next instant ⌈k × 2^32 ÷ 1,000⌉ of fabric time (R399). -/
def nextExchange (ft : Nat) : Nat := ceilDiv ((ft * 1000 / 2 ^ 32 + 1) * 2 ^ 32) 1000

/-- SYNC_REQ (R399): when fabric time passes the next such instant, or at once while it has not started; each UP link's
neighbour is asked. -/
def Dev.syncReq (d : Dev) : Dev :=
  let d := if d.clock.started then d.toFt (nextExchange d.ft) else d
  forL d.upLinks (fun l d =>
    d.toLink l { cls := 0, epoch := d.rtActive, dst := (d.link l).peerAddr, src := d.myAddr, hops := 0
                 bytes := Config.fabricMsg msgSyncReq [d.ft] }) d

/-- SYNC_ANSWER (R399): SYNC_RESP carries t1, t2, t3 and the hops reported. -/
def Dev.syncAnswer (d : Dev) (l t1 t2 : Nat) : Dev :=
  d.toLink l { cls := 0, epoch := d.rtActive, dst := (d.link l).peerAddr, src := d.myAddr, hops := 0
               bytes := Config.fabricMsg msgSyncResp [t1, t2, d.ft, (d.reportHops.map (· + 1)).getD 0] }

/-- A difference of fabric times modulo 2^64, signed. -/
def ftDiff (a b : Nat) : Int := (BitVec.ofNat 64 a - BitVec.ofNat 64 b).toInt

/-- The delay of an exchange (R399), in signed 64-bit arithmetic. -/
def syncDelay (t1 t2 t3 t4 : Nat) : Int := (BitVec.ofInt 64 (ftDiff t2 t1 + ftDiff t4 t3)).toInt / 2

/-- The offset of an exchange (R399): parent time minus own time. -/
def syncOffset (t1 t2 t3 t4 : Nat) (asym : Int) : Int := (BitVec.ofInt 64 (ftDiff t2 t1 - ftDiff t4 t3)).toInt / 2 - asym

/-- The servo's bound (R400). -/
abbrev servoMax : Int := 109824

/-- The servo (R400): i and c after an exchange with offset o. -/
def servo (i o : Int) : Int × Int :=
  let i := clampInt (-servoMax) servoMax (i + 4 * o)
  (i, clampInt (-servoMax) servoMax (i + 64 * o))

/-- The states of R401 after an exchange with offset o. -/
def Dev.servoStates (d : Dev) (o : Int) : Dev :=
  let d := if d.timeState = 3 then
      (d.setTimeState 1).onFab (fun f => { f with goodRun := 0, badRun := 0 }) else d
  if d.timeState = 1 then
    let n := if o.natAbs ≤ 8 then d.fab.goodRun + 1 else 0
    if 16 ≤ n then ((d.onFab (fun f => { f with goodRun := 0, badRun := 0 })).timeLock).irq pgTIME 0
    else d.onFab (fun f => { f with goodRun := n })
  else if d.timeState = 2 then
    let n := if 64 < o.natAbs then d.fab.badRun + 1 else 0
    if 4 ≤ n then
      (((d.onFab (fun f => { f with goodRun := 0, badRun := 0 })).setTimeState 1).add32 pgTIME Reg.TIME_UNLOCKS 1).irq pgTIME 1
    else d.onFab (fun f => { f with badRun := n })
  else d

/-- SYNC_RESP (R397 to R401): an exchange completes. -/
def Dev.syncResp (d : Dev) (l t1 t2 t3 t4 : Nat) (hops : Option Nat) : Dev :=
  if (d.link l).st ≠ .up then d
  else
    let o := syncOffset t1 t2 t3 t4 (signed 16 (d.rdF (pgAL l) Reg.AL_ASYM 15 0))
    let d := d.wrN (pgAL l) Reg.AL_DELAY (unsign 32 (syncDelay t1 t2 t3 t4))
    let d := (d.onLink l (fun x => { x with peerHops := hops })).pickParent
    if d.isRoot || d.timeState == 4 || d.fab.parent != some l then d
    else
      let d := (d.add64 pgTIME Reg.TIME_SYNCS 1).wrN pgTIME Reg.TIME_OFFSET (unsign 32 (clampInt (-2147483648) 2147483647 o))
      let d := d.onFab (fun f => { f with lastSync := d.clock.base })
      if !d.clock.started then
        ((d.startTime (unsign 64 (t4 + o))).setTimeState 1).onFab (fun f => { f with servoI := 0, goodRun := 0, badRun := 0 })
      else if 2 ^ 32 < o.natAbs then (d.setTimeState 4).irq pgTIME 3
      else
        let (i, c) := servo d.fab.servoI o
        let d := (d.onFab (fun f => { f with servoI := i, servoC := c })).wrN pgTIME Reg.TIME_CORR (unsign 32 c)
        d.servoStates o

/-- HOLDOVER (R401): 8 ms without a completed exchange. -/
def Dev.holdover (d : Dev) : Dev :=
  if d.isRoot || !(d.timeState == 1 || d.timeState == 2) then d
  else ((d.toBase (d.fab.lastSync + msBase 8)).setTimeState 3).irq pgTIME 2

/-! ### Commands -/

/-- COORD_CHANGE (R388): the root follows the coordinator (R398). -/
def execCoordChange (s : State) : Host.Outcome State Fault Refusal := s.run (fun d => d.coordChange.rootChange)
/-- CLAIM_ADDRESS (R389). -/
def execClaimAddress (serial : DWord) (claim : Option (BitVec 12)) (s : State) : Host.Outcome State Fault Refusal :=
  s.run (fun d => (d.claimAddress serial.toNat (claim.map BitVec.toNat)).rootChange)
/-- ASSIGN (R389). -/
def execAssign (addr : Option (BitVec 12)) (coord : BitVec 12) (s : State) : Host.Outcome State Fault Refusal :=
  s.run (fun d => (d.assign (addr.map BitVec.toNat) coord.toNat).rootChange)
/-- ACQ_TIMEOUT (R397). -/
def execAcqTimeout (s : State) : Host.Outcome State Fault Refusal := s.run Dev.acqTimeout
/-- SYNC_REQ (R399). -/
def execSyncReq (s : State) : Host.Outcome State Fault Refusal := s.run Dev.syncReq
/-- SYNC_ANSWER (R399). -/
def execSyncAnswer (l : Al) (t1 t2 : DWord) (s : State) : Host.Outcome State Fault Refusal :=
  s.run (fun d => d.syncAnswer l t1.toNat t2.toNat)
/-- SYNC_RESP (R400). -/
def execSyncResp (l : Al) (t1 t2 t3 t4 : DWord) (hops : Option (BitVec 5)) (s : State) : Host.Outcome State Fault Refusal :=
  s.run (fun d => d.syncResp l t1.toNat t2.toNat t3.toNat t4.toNat (hops.map BitVec.toNat))
/-- HOLDOVER (R401). -/
def execHoldover (s : State) : Host.Outcome State Fault Refusal := s.run Dev.holdover

end Sys2Proof.Machine
end

