-- ==== Sys2Proof/Machine/Locator.lean ====
section
/-! DEFINITION. Membership (R390), the locator (R402 to R404), remote mirror slots (R405), remote input (R407). An entry of
LOC_AREA is held as data: the layout of its 32 bytes is not given (assumption log 32). -/
namespace Sys2Proof.Machine

/-- Kinds of messages whose layout is not given (assumption log 23). -/
abbrev msgLocEntry : Nat := 33
abbrev msgSlotAnswer : Nat := 34
abbrev msgMovedRefusal : Nat := 35
abbrev msgLocMoving : Nat := 36
abbrev msgLocBound : Nat := 37

/-- This chip is the home of a name. -/
def Dev.isHome (d : Dev) (name : Nat) : Bool := d.homeOf name == some d.myAddr

/-- The entry of a name changed at its home (R410): here, or by a message. -/
def Dev.tellHome (d : Dev) (name chip head : Nat) (moving : Bool) : Dev :=
  match d.homeOf name with
  | none => d
  | some a =>
    if a = d.myAddr then d.setLoc name (some { chip := chip, head := head, moving := moving })
    else d.msg 1 a (if moving then msgLocMoving else msgLocBound) [name, chip, head]

/-! ### Members (R390, R404) -/

/-- MEMBERS_CHANGE (R390, R398, R404): the MEMBER bitmap and FAB_MEMBERS; entries whose home changes go to their new home. -/
def Dev.membersChange (d : Dev) (ms roots : List Nat) : Dev :=
  let d := d.onFab (fun f => { f with members := ms, roots := roots, locFrom := f.members
                                      locUntil := d.clock.base + msBase 20 })
  let d := forN 128 (fun w d =>
    d.wrN pgFAB (Reg.MEMBER + 4 * w) (((List.range 32).filter (fun j => ms.contains (32 * w + j))).map (fun j => 2 ^ j)).sum) d
  let d := (d.wrN pgFAB Reg.FAB_MEMBERS ((List.range 4096).filter (fun a => ms.contains a)).length).irq pgFAB 3
  let d := d.rootChange
  forL d.fab.locs (fun (name, e) d =>
    match e, d.homeOf name with
    | some e, some a =>
      if a = d.myAddr then d else (d.setLoc name none).msg 1 a msgLocEntry [name, e.chip, e.head, e.moving.toNat]
    | _, _ => d) d

/-! ### The home of a name (R403, R404) -/

/-- LOC_BIND (R403): granted where the name has no entry or names the requesting head; a chip that is not the home forwards
the request. -/
def Dev.locBind (d : Dev) (name chip head : Nat) : Dev :=
  match d.homeOf name with
  | none => d
  | some a =>
    if a ≠ d.myAddr then d.msg 1 a msgLocBind [name, chip, head]
    else if d.unsettled name then d.reply .waits
    else
      match d.loc name with
      | some e => d.msg 1 chip msgLocAnswer [name, head, if e.chip = chip ∧ e.head = head then 0 else 2]
      | none => (d.setLoc name (some { chip := chip, head := head, moving := false })).msg 1 chip msgLocAnswer [name, head, 0]

/-- LOCATOR_UNBIND (R403): the entry is removed. -/
def Dev.locUnbind (d : Dev) (name : Nat) : Dev :=
  match d.homeOf name with
  | none => d
  | some a =>
    if a ≠ d.myAddr then d.msg 1 a msgLocUnbind [name]
    else if d.unsettled name then d.reply .waits else d.setLoc name none

/-! ### Mirror slots for other chips (R405) -/

/-- Slots from 1,024 to 2,047 that are free: neither taken nor reserved for a migration. -/
def Dev.freeSlots (d : Dev) : List Nat :=
  ((List.range 1024).map (fun i => 1024 + i)).filter (fun k =>
    (d.mirror k).isNone && !(d.fab.migs.any (fun e => e.2.slots.contains k)))

/-- A mirror slot taken for a session: cleared, NEED_KEY set (R302, R405). -/
def Dev.takeSlot (d : Dev) (k head : Nat) (chip : Option Nat) (sess snd : Nat) : Dev :=
  ((d.clearMirror k 0 67584).setMirror k (some { head := head, ack := d.dictEpoch, needKey := true, needAt := 0, chip := chip
                                                 sess := sess, snd := snd, evict := [], reset := false })).needSlot k true

/-- MIRROR_SLOT_REQUEST (R405, R329): a request of a session on another chip. Its answer is a RESULT code and the slot; the
session's first record is STREAM_START. -/
def Dev.slotRequest (d : Dev) (chip sess name snd : Nat) : Dev :=
  match d.headOf name with
  | none => d.msg 1 chip msgSlotAnswer [sess, 2, 0]
  | some h =>
    match d.freeSlots with
    | [] => d.msg 1 chip msgSlotAnswer [sess, 4, 0]
    | k :: _ =>
      let d := (d.takeSlot k h (some chip) sess snd).msg 1 chip msgSlotAnswer [sess, 0, k]
      match d.mirror k with
      | some m => d.slotStream k m (d.streamStart sess h false)
      | none => d

/-- Every slot of a lost chip released (R405). -/
def Dev.releaseSlotsOf (d : Dev) (chip : Nat) : Dev :=
  let ks := d.enc.mirrors.filterMap (fun e => match e.2 with
    | some m => if m.chip = some chip then some e.1 else none
    | none => none)
  if ks.isEmpty then d else (forL ks (fun k d => d.setMirror k none) d).freeIndexes

/-! ### Remote input (R407) -/

/-- The outgoing migration that forwards a console's input (R410, step 6). -/
def Dev.forwarder (d : Dev) (name : Nat) : Option Mig :=
  (d.fab.migs.find? (fun e => decide (e.1 < 8) && e.2.forwarding && e.2.name.toNat == name)).map (fun e => e.2)

/-- ORIGIN of an event that came over the fabric (R91): 3 where it was forwarded at a migration, else 2; RELEASE_ALL keeps the
ORIGIN 0 it was accepted with (R92). -/
def fabOrigin (e : InputMsg) : Nat := if e.origin = 3 ∨ e.kind = 4 then e.origin else 2

/-- INPUT_PACKET (R95, R101, R407, R410). -/
def Dev.inputPacket (d : Dev) (src name : Nat) (e : InputMsg) : Dev :=
  match d.headOf name with
  | some h => (d.arriveEvent h name { e with origin := fabOrigin e }).msg 1 src msgInputAck [name, e.seq]
  | none =>
    match d.forwarder name with
    | some m =>
      let p := pgHP (m.goSrc.toNat % 128)
      let d := (d.add64 p Reg.IN_ACCEPTED 1).add64 p Reg.IN_FORWARDED 1
      (d.sendInput (field m.goDst 11 0) name { e with origin := 3 }).msg 1 src msgInputAck [name, e.seq]
    | none => d.msg 1 src msgMovedRefusal [name, e.seq]

/-- INPUT_COUNTER (R92, R407): the counter arrives; where a session here has taken control of a console of another chip, the
RELEASE_ALL of that change is accepted now. -/
def Dev.inputCounter (d : Dev) (name next : Nat) : Dev :=
  let d := (d.setSeq name (next - 1)).setCounterMoved name (d.headOf name).isNone
  match d.controller name with
  | some s => d.releaseAll name (d.sessChip s)
  | none => d

/-! ### Commands -/

/-- MEMBERS_CHANGE (R390). -/
def execMembersChange (members roots : List (BitVec 12)) (s : State) : Host.Outcome State Fault Refusal :=
  s.run (fun d => d.membersChange (members.map BitVec.toNat) (roots.map BitVec.toNat))
/-- LOC_BIND (R403). -/
def execLocBind (name : DWord) (chip : BitVec 12) (head : BitVec 7) (s : State) : Host.Outcome State Fault Refusal :=
  s.run (fun d => d.locBind name.toNat chip.toNat head.toNat)
/-- LOCATOR_UNBIND (R403). -/
def execLocatorUnbind (name : DWord) (s : State) : Host.Outcome State Fault Refusal := s.run (fun d => d.locUnbind name.toNat)
/-- MIRROR_SLOT_REQUEST (R405). -/
def execMirrorSlotRequest (chip : BitVec 12) (k : Sess) (name : DWord) (snd : BitVec 16) (s : State) :
    Host.Outcome State Fault Refusal := s.run (fun d => d.slotRequest chip.toNat k name.toNat snd.toNat)
/-- INPUT_PACKET (R407). -/
def execInputPacket (src : BitVec 12) (name : DWord) (ev : InputMsg) (s : State) : Host.Outcome State Fault Refusal :=
  s.run (fun d => d.inputPacket src.toNat name.toNat ev)
/-- INPUT_COUNTER (R407). -/
def execInputCounter (name next : DWord) (s : State) : Host.Outcome State Fault Refusal :=
  s.run (fun d => d.inputCounter name.toNat next.toNat)

end Sys2Proof.Machine
end

