-- ==== Sys2Proof/Machine/Migrate.lean ====
section
/-! DEFINITION. Console migration (R33, R34, R409 to R412). Slots 0 to 7 are outgoing, 8 to 15 incoming. What the rounds of
PRECOPY copy arrives with the final state (COPY_COMPLETE): no head reads it before (assumption log 33). -/
namespace Sys2Proof.Machine

/-- Kinds of messages whose layout is not given (assumption log 23). -/
abbrev msgReserve : Nat := 40
abbrev msgReserved : Nat := 41
abbrev msgRound : Nat := 42
abbrev msgState : Nat := 43
abbrev msgSchedule : Nat := 44
abbrev msgScheduled : Nat := 45
abbrev msgAbort : Nat := 46

def Dev.mig (d : Dev) (k : Nat) : Mig := spGet (fun _ => {}) d.fab.migs k
def Dev.onMig (d : Dev) (k : Nat) (f : Mig → Mig) : Dev :=
  d.onFab (fun x => { x with migs := spPut (fun _ => {}) x.migs k (f (d.mig k)) })

/-- Va and Vb of a slot: an outgoing slot's head here is Va, an incoming one's is Vb. -/
def Mig.vaOf (m : Mig) : Nat := m.goSrc.toNat % 128
def Mig.chipB (m : Mig) : Nat := field m.goDst 11 0
def Mig.vbOf (m : Mig) : Nat := field m.goDst 22 16

/-- MIG_STAT.STATE (R418). -/
def MigSt.code : MigSt → Nat
  | .idle => 0
  | .reserve => 1
  | .precopy => 2
  | .converged => 3
  | .cutover => 4
  | .done => 5
  | .failed => 6

/-- A migration is between RESERVE and DONE. -/
def Mig.active (m : Mig) : Bool := m.st == .reserve || m.st == .precopy || m.st == .converged || m.st == .cutover

/-- A word of the selected slot (R418). -/
def Dev.migSel (d : Dev) : Nat := d.rdF pgFAB Reg.MIG_SEL 3 0

/-! ### Failure (R412) -/

/-- An outgoing migration fails before step 5: DETACHED and the home's entry as before s1. -/
def Dev.failOut (d : Dev) (k code : Nat) : Dev :=
  let m := d.mig k
  let was := d.drained
  let d := if m.st = .cutover then
      (d.setDetached m.vaOf m.wasDetached).tellHome m.name.toNat d.myAddr m.vaOf false else d
  (d.onMig k (fun m => { m with st := .failed, result := code, dirty := [], carried := none, acked := false })).drainCheck was

/-- An incoming migration fails: Vb returns to OFF, its tokens and slots are released. -/
def Dev.failIn (d : Dev) (k code : Nat) : Dev :=
  let m := d.mig k
  if !m.active then d
  else
    let d := (d.leaveRun m.vb).onHead m.vb (fun x => { x with reserved := 0 })
    d.onMig k (fun m => { m with st := .failed, result := code, slots := [], carried := none, acked := false })

/-- This chip's incoming slot for the migration of a peer's outgoing slot. -/
def Dev.inSlot (d : Dev) (peer k : Nat) : Option Nat :=
  ((List.range 8).map (fun i => 8 + i)).find? (fun i => (d.mig i).active && (d.mig i).peer == peer && (d.mig i).peerSlot == k)

/-! ### Step 1: RESERVE -/

/-- TIME is LOCKED. -/
def Dev.timeLocked (d : Dev) : Bool := d.timeState == 2

/-- Why chip A cannot start towards chip B: code 6, or code 10 where the route's link lacks MIGRATE; 8 without a route. -/
def Dev.startCode (d : Dev) (dst : Nat) : Nat :=
  if !d.timeLocked then 6
  else if dst = d.myAddr then 0
  else
    let c := d.rtEntry d.rtActive dst
    if c = 8 then 0
    else if 8 < c ∨ (d.link c).st ≠ .up then 8
    else if !d.rdB (pgAL c) Reg.AL_NEG_LO 3 then 10
    else 0

/-- MIG_CMD START (R410, step 1) in the selected slot. A slot that runs or forwards, and a head without a console, start
nothing (assumption log 33). -/
def Dev.migStart (d : Dev) (auto : Bool) : Dev :=
  let k := d.migSel
  let m := d.mig k
  let va := m.src.toNat % 128
  if 8 ≤ k ∨ m.active ∨ m.forwarding ∨ d.console va = 0 then d
  else
    let m := { m with goSrc := m.src, goDst := m.dst }
    let code := d.startCode m.chipB
    let d := d.onMig k (fun m => { ({} : Mig) with src := m.src, dst := m.dst, goSrc := m.src, goDst := m.dst, auto := auto
                                                   name := BitVec.ofNat 64 (d.console va), st := .reserve })
    if code ≠ 0 then d.failOut k code
    else
      let (_, ds, _, gs) := d.alloc va
      d.msg 3 m.chipB msgReserve [k, va, m.vbOf, d.nameOf va, d.rdN (pgHD va) Reg.HD_HTIME, d.rdN (pgHD va) Reg.HD_VTIME,
        d.fperiod va, d.origin va, ds, gs, (d.slotsOf va).length]

/-- Codes 2 to 6 at chip B, in order, where it now has the timing (R409, R410). -/
def Dev.reserveCode (d : Dev) (vb dram glyph need : Nat) (local_ aLocked : Bool) : Nat :=
  let (_, ds, _, gs) := d.alloc vb
  if d.live vb || !d.rdB (pgHD vb) Reg.HD_MODE 3 || d.nameState vb != 0 then 2
  else if d.rdN pgCOMPOSE Reg.TOK_FREE < (d.scanNeed vb).getD (2 ^ 32) ∨ d.rdN pgLEAD Reg.LTOK_FREE < d.lineNeed vb then 3
  else if ds < dram ∨ gs < glyph then 4
  else if !local_ ∧ d.freeSlots.length < need then 5
  else if !(aLocked && d.timeLocked) then 6
  else 0

/-- The timing written into Vb. -/
def Dev.takeTiming (d : Dev) (vb : Nat) (ht vt fp : Word) (origin : Nat) : Dev :=
  (((d.wr (pgHD vb) Reg.HD_HTIME ht).wr (pgHD vb) Reg.HD_VTIME vt).wr (pgHD vb) Reg.HD_FPERIOD fp).wr64 (pgHD vb)
    Reg.HD_ORIGIN_LO origin

/-- RESERVE (R410, step 1): B is asked, or A hears the answer. A ninth incoming migration is refused with code 5 (assumption
log 33). -/
def Dev.reserve (d : Dev) : ReserveMsg → Dev
  | .ask slot chipA va vb name ht vt fp origin dram glyph sessions aLocked =>
    let a := chipA.toNat
    let answer := fun (d : Dev) (code : Nat) => d.msg 3 a msgReserved [slot, code]
    let t := d.takeTiming vb ht vt fp origin.toNat
    let code := t.reserveCode vb dram glyph sessions (decide (a = d.myAddr)) aLocked
    match ((List.range 8).map (fun i => 8 + i)).find? (fun i => !(d.mig i).active) with
    | none => answer d 5
    | some k =>
      if code ≠ 0 then answer d code
      else
        let d := t.enterRun vb origin.toNat 0
        let d := d.onHead vb (fun x => { x with reserved := 1 })
        let slots := if a = d.myAddr then [] else d.freeSlots.take sessions
        answer (d.onMig k (fun _ => { ({} : Mig) with st := .precopy, peer := a, peerSlot := slot, va := va, vb := vb
                                                      name := name, slots := slots })) 0
  | .answer slot code =>
    if (d.mig slot).st ≠ .reserve then d
    else if code = 0 then d.onMig slot (fun m => { m with st := .precopy })
    else d.failOut slot code

/-! ### Steps 2 and 3: PRECOPY and FREEZE -/

/-- Head words that a console carries (R33): layer, sprite, cursor, line-table and palette words, tone channels. -/
def carriedOff (off : Nat) : Bool :=
  (decide (0x070 ≤ off ∧ off ≤ 0x0E0)) || (decide (0x100 ≤ off ∧ off < 0x140)) || decide (0x800 ≤ off)

/-- What the glyph and DRAM allocations of a head hold, by BAR2 offset: the bytes that differ from unwritten memory. -/
def Dev.allocCells (d : Dev) (h : Nat) : List (Nat × List Byte) :=
  let (db, ds, gb, gs) := d.alloc h
  d.mem.filterMap (fun c =>
    if db ≤ c.1 ∧ c.1 < db + ds then some (c.1 - db, [c.2])
    else if glyphBase + gb ≤ c.1 ∧ c.1 < glyphBase + gb + gs then some (c.1 - glyphBase - gb + 0x10000000, [c.2])
    else none)

/-- What A sends at s1 (R33, R410): the input counter only if A holds it and no session of A keeps it (R407). -/
def Dev.carriedOf (d : Dev) (va name : Nat) : Carried :=
  { s1 := d.ft
    regs := (d.ownRegs va).filter (fun e => carriedOff e.1)
    bytes := d.allocCells va
    tones := (List.range 4).map (fun c => let t := d.tone va c; (t.divider, t.pos, t.start))
    nextSeq := if d.counterHere name && (d.controller name).isNone then some (d.lastSeq name + 1) else none
    viewers := (d.slotsOf va).map (fun (k, m) =>
      (BitVec.ofNat 12 (m.chip.getD d.myAddr), (⟨m.sess % 1024, Nat.mod_lt _ (by decide)⟩ : Sess),
       BitVec.ofNat 16 (if m.chip.isNone then d.sndSel k else m.snd))) }

/-- FREEZE (R410, step 3): its commit is s1. -/
def Dev.freeze (d : Dev) (k : Nat) : Dev :=
  let m := d.mig k
  let va := m.vaOf
  let d := d.onMig k (fun m => { m with st := .cutover, s1 := d.ft, wasDetached := d.rdB (pgHD va) Reg.HD_MODE 3, dirty := [] })
  let d := (d.setDetached va true).tellHome m.name.toNat d.myAddr va true
  let c := d.carriedOf va m.name.toNat
  (d.onMig k (fun m => { m with carried := some c })).msg 3 m.chipB msgState [k, c.s1]

/-- PRECOPY_ROUND (R410, step 2): a round ends. -/
def Dev.precopyRound (d : Dev) (k : Nat) : Dev :=
  let m := d.mig k
  if ¬(m.st = .precopy ∨ m.st = .converged) then d
  else
    let kib := 4 * m.dirty.length
    let ok := decide (kib ≤ d.rdN pgFAB Reg.MIG_DIRTY_LIM)
    let d := d.onMig k (fun m => { m with round := (m.round + 1) % 256, dirtyKiB := kib, dirty := []
                                          st := if ok || m.st == .converged then .converged else .precopy })
    let d := d.msg 3 m.chipB msgRound [k, m.round + 1]
    if ok && m.auto then d.freeze k else d

/-- MIG_CMD CUTOVER (R410): while CONVERGED. -/
def Dev.migCutover (d : Dev) : Dev :=
  let k := d.migSel
  if (d.mig k).st = .converged ∧ k < 8 then d.freeze k else d

/-! ### Step 4: SCHEDULE -/

/-- The carried state laid into Vb. -/
def Dev.layIn (d : Dev) (vb : Nat) (c : Carried) : Dev :=
  let (db, ds, gb, gs) := d.alloc vb
  let d := (d.clear db (db + ds)).clear (glyphBase + gb) (glyphBase + gb + gs)
  let d := forL c.bytes (fun (o, bs) d => match d.bar2 vb o with
    | some a => d.store a bs
    | none => d) d
  let d := { d with regs := d.regs.filter (fun e => !(e.1 / 4096 == pgHD vb && carriedOff (e.1 % 4096))) }
  let d := forL (c.regs.filter (fun e => carriedOff e.1)) (fun (o, v) d => d.wr (pgHD vb) o v) d
  forL c.tones.zipIdx (fun ((dv, ps, st), i) d => d.setTone vb i { divider := dv, pos := ps, start := st, wrote := none }) d

/-- F_b (R410, step 4): the first frame that starts at or after t_c + 2^22. -/
def Dev.cutFrame (d : Dev) (vb : Nat) : Nat := ceilDiv (d.ft + 0x400000 - d.origin vb) (d.fperiod vb)

/-- COPY_COMPLETE (R410, step 4) at chip B: a migration within the chip carries what A holds. -/
def Dev.copyComplete (d : Dev) (k : Nat) (c : Option Carried) : Dev :=
  let m := d.mig k
  let c := if m.peer = d.myAddr then (d.mig m.peerSlot).carried else c
  match m.st, c with
  | .precopy, some c =>
    let vb := m.vb
    let d := d.layIn vb c
    let f := d.cutFrame vb
    if c.s1 + 2 * d.fperiod vb < d.startFt vb f then (d.failIn k 7).msg 3 m.peer msgAbort [m.peerSlot, 7]
    else
      let d := d.onMig k (fun m => { m with st := .cutover, frame := f, s1 := c.s1, carried := some c })
      let d := d.onHead vb (fun x => { x with reserved := 2, first := f, next := (f, 0), high := (f, 0), fin := (f, 0) })
      d.msg 3 m.peer msgSchedule [m.peerSlot, f]
  | _, _ => d

/-- SCHEDULE_ACK (R410, step 4): A receives F_b and acknowledges it; B receives the acknowledgement by start(F_b) − 2^22. -/
def Dev.scheduleAck (d : Dev) (k : Nat) : ScheduleMsg → Dev
  | .schedule f slots =>
    if (d.mig k).st ≠ .cutover then d
    else (d.onMig k (fun m => { m with frame := f.toNat, acked := true
                                       viewers := []
                                       slots := slots.flatMap (fun e => [e.1.val, e.2.toNat]) })).msg 3 (d.mig k).chipB msgScheduled [k]
  | .acknowledged =>
    let m := d.mig (8 + k)
    if m.st = .cutover ∧ d.ft + 0x400000 ≤ d.startFt m.vb m.frame then d.onMig (8 + k) (fun m => { m with acked := true }) else d

/-- ACK_DEADLINE (R412): B lacks the acknowledgement, fails with code 8 and sends ABORT. -/
def Dev.ackDeadline (d : Dev) (k : Nat) : Dev :=
  let m := d.mig k
  if m.st ≠ .cutover ∨ m.acked then d
  else ((d.toFt (d.startFt m.vb m.frame - 0x400000)).failIn k 8).msg 3 m.peer msgAbort [m.peerSlot, 8]

/-! ### Step 5: CUT-OVER -/

/-- Pairs from a flat list: sessions and their slots at B. -/
def pairsOf : List Nat → List (Nat × Nat)
  | a :: b :: l => (a, b) :: pairsOf l
  | _ => []

/-- Who controls a console goes with it to chip B (R33, R330). -/
def Dev.handControl (d : Dev) (name chip : Nat) : Dev :=
  let who := match d.controller name with
    | some s => some (d.myAddr, s)
    | none => d.holder name
  match who with
  | some (c, t) => (d.setHolder name none).msg 1 chip msgControl [name, c, t + 1, 0]
  | none => d

/-- CUT_OVER at chip A (R410, R320): Va stops, its pending input is forwarded, its name goes. -/
def Dev.cutOut (d : Dev) (k : Nat) : Dev :=
  let m := d.mig k
  let va := m.vaOf
  let name := m.name.toNat
  if m.st ≠ .cutover ∨ !m.acked then d
  else if d.live va ∧ (d.head va).last.map (fun f => f + 1) ≠ some m.frame then d.reply .waits
  else
    let d := d.toFt (d.startFt va m.frame)
    let was := d.drained
    let held := d.counterHere name
    let gone := (m.carried.map (fun c => c.nextSeq.isSome)).getD true
    let views := d.slotsOf va
    let d := d.leaveRun va
    let (d, evs) := d.takePending va
    let here := decide (m.chipB = d.myAddr)
    let d := forL evs (fun e d =>
      let e := { e with origin := 3 }
      if here then d.enqueueEvent m.vbOf e else d.sendInput m.chipB name e) d
    let d := d.clearName va
    let d := if here then d else d.setCounterMoved name (held && !gone)
    let d := d.tellHome name m.chipB m.vbOf false
    let d := if here then d else d.handControl name m.chipB
    let d := (d.onHead va (fun x => { x with moved := some (m.frame, m.chipB, m.vbOf, pairsOf m.slots) })).movedDue va
    let d := d.onMig k (fun m => { m with st := .done, result := 1, forwarding := true, cutAt := d.ft, viewers := views
                                          carried := none })
    (d.irq pgFAB 6).drainCheck was

/-- A viewer's slot at chip B: a session of another chip takes a reserved slot, one of B itself its own, which serves it once
MOVED has come from chip A (R320). -/
def Dev.seatViewer (d : Dev) (k vb : Nat) (v : BitVec 12 × Sess × BitVec 16) : Dev :=
  let (chip, s, snd) := v
  if chip.toNat = d.myAddr then
    let d := d.takeSlot s vb none s 0
    if (d.sess s).remoteSlot.any (fun e => e.1 == (d.mig k).peer) then d
    else (d.onSess s (fun x => { x with remoteSlot := none })).setSd s dMIRROR 2 s
  else
    match (d.mig k).slots with
    | [] => d
    | slot :: rest => (d.takeSlot slot vb (some chip.toNat) s snd.toNat).onMig k (fun m => { m with slots := rest })

/-- CUT_OVER at chip B (R410): Vb runs the console from frame F_b. -/
def Dev.cutIn (d : Dev) (k : Nat) : Dev :=
  let m := d.mig k
  let vb := m.vb
  if m.st ≠ .cutover ∨ !m.acked then d
  else
    let d := d.toFt (d.startFt vb m.frame)
    let name := m.name.toNat
    let c := m.carried
    let d := ((d.wr64 (pgHD vb) Reg.HB_NAME_LO name).setNameState vb 2 0).onHead vb (fun x => { x with reserved := 0 })
    let here := decide (m.peer = d.myAddr)
    let d := if here then d else
        match c.bind (fun c => c.nextSeq) with
        | some n => ((d.setSeq name (n - 1)).setGaps name ((List.range 256).map (fun i => n - 256 + i) |>.filter (fun g =>
            decide (0 < g ∧ g < n)))).setCounterMoved name false
        | none => d.setCounterMoved name (d.controller name).isNone
    let d := if here then d else forL ((c.map (fun c => c.viewers)).getD []) (fun v d => d.seatViewer k vb v) d
    let d := d.tellHome name d.myAddr vb false
    (d.onMig k (fun m => { m with st := .done, result := 1, slots := [], carried := none })).irq pgFAB 6

/-! ### Steps 6 and after -/

/-- FORWARD_END (R410, step 6): 2^31 units after the cut-over. -/
def Dev.forwardEnd (d : Dev) (k : Nat) : Dev :=
  let m := d.mig k
  if !m.forwarding then d else (d.toFt (m.cutAt + 0x80000000)).onMig k (fun m => { m with forwarding := false })

/-- MIG_CMD ABORT (R409, R412): before cut-over. -/
def Dev.migAbort (d : Dev) : Dev :=
  let k := d.migSel
  let m := d.mig k
  if !m.active ∨ 8 ≤ k then d
  else
    let d := (d.failOut k 9).msg 3 m.chipB msgAbort [k, 9]
    if m.chipB = d.myAddr then
      match d.inSlot d.myAddr k with
      | some i => d.failIn i 9
      | none => d
    else d

/-- Va re-admitted after its stop (R412): the console resumes here with a keyframe. -/
def Dev.resumeConsole (d : Dev) (k : Nat) : Dev :=
  let m := d.mig k
  let va := m.vaOf
  let name := m.name.toNat
  let d := ((d.wr64 (pgHD va) Reg.HB_NAME_LO name).setNameState va 2 0).setDetached va m.wasDetached
  let d := (d.onHead va (fun x => { x with moved := none })).setCounterMoved name false
  let d := forL m.viewers (fun (s, v) d =>
    let d := d.takeSlot s va v.chip v.sess v.snd
    if v.chip.isNone then (d.onSess s (fun x => { x with remoteSlot := none })).setSd s dMIRROR 2 s else d) d
  let d := d.tellHome name d.myAddr va false
  let d := d.onMig k (fun m => { m with st := .failed, result := 8, forwarding := false, viewers := [] })
  (d.setEnable va true).admitAnswer va false d.ft

/-- ABORT_RECEIVED (R412): at B, from A; at A, from B, before or after Va's stop. -/
def Dev.abortReceived (d : Dev) (k : Nat) (inbound : Bool) : Dev :=
  if inbound then d.failIn (8 + k) 9
  else
    let m := d.mig k
    if m.active then d.failOut k 8
    else if m.forwarding then d.resumeConsole k
    else d

/-! ### A chip lost (R390, R394, R404, R405, R409) -/

/-- CHIP_LOST: the coordinator declares a chip lost. The homes delete the entries that name it. -/
def Dev.chipLost (d : Dev) (addr : Nat) : Dev :=
  let d := d.onFab (fun f => { f with locs := f.locs.filter (fun e => match e.2 with
    | some l => l.chip != addr
    | none => true) })
  let d := d.releaseSlotsOf addr
  let d := forN 8 (fun k d => if (d.mig k).active && (d.mig k).chipB == addr then d.failOut k 8 else d) d
  let d := forN 8 (fun i d =>
    let m := d.mig (8 + i)
    if m.active && m.peer == addr && !m.acked then d.failIn (8 + i) 8 else d) d
  let d := if d.swapState = 3 then d.onFab (fun f => { f with lostDraining := true, epAt := d.clock.base }) else d
  if d.rdB pgFAB Reg.FAB_STAT 13 then d.announce addr else d

/-! ### Registers of the selected slot (R418) -/

/-- A write to MIG_CMD. -/
def Dev.migCmd (d : Dev) (v : Word) : Dev :=
  match field v 3 0 with
  | 1 => d.migStart (bit v 4)
  | 2 => d.migCutover
  | 3 => d.migAbort
  | _ => d

/-- MIG_SRC, MIG_DST, MIG_STAT, MIG_DIRTY, MIG_FRAME of the selected slot; slots 8 to 15 read 0. -/
def Dev.migRead (d : Dev) (off : Nat) : Word :=
  let k := d.migSel
  let m := d.mig k
  if 8 ≤ k then 0
  else if off = Reg.MIG_SRC then m.src
  else if off = Reg.MIG_DST then m.dst
  else if off = Reg.MIG_STAT then word (m.st.code + m.result * 256 + m.round * 65536)
  else if off = Reg.MIG_DIRTY then word m.dirtyKiB
  else word m.frame

/-- MIG_SRC and MIG_DST written. -/
def Dev.migWrite (d : Dev) (off : Nat) (v : Word) : Dev :=
  let k := d.migSel
  if 8 ≤ k then d
  else if off = Reg.MIG_SRC then d.onMig k (fun m => { m with src := v &&& 0x7F })
  else d.onMig k (fun m => { m with dst := v &&& 0x7F0FFF })

/-! ### Commands -/

/-- MIG_START (R410). -/
def execMigStart (r : Req) (auto : Bool) (s : State) : Host.Outcome State Fault Refusal := s.onPage r pgFAB (fun d => d.migStart auto)
/-- RESERVE (R410). -/
def execReserve (m : ReserveMsg) (s : State) : Host.Outcome State Fault Refusal := s.run (fun d => d.reserve m)
/-- PRECOPY_ROUND (R410). -/
def execPrecopyRound (k : Fin 8) (s : State) : Host.Outcome State Fault Refusal := s.run (fun d => d.precopyRound k)
/-- MIG_CUTOVER (R410). -/
def execMigCutover (r : Req) (s : State) : Host.Outcome State Fault Refusal := s.onPage r pgFAB Dev.migCutover
/-- COPY_COMPLETE (R410): incoming migration k. -/
def execCopyComplete (k : Fin 8) (c : Option Carried) (s : State) : Host.Outcome State Fault Refusal :=
  s.run (fun d => d.copyComplete (8 + k) c)
/-- SCHEDULE_ACK (R410). -/
def execScheduleAck (k : Fin 8) (m : ScheduleMsg) (s : State) : Host.Outcome State Fault Refusal := s.run (fun d => d.scheduleAck k m)
/-- CUT_OVER (R34, R410): at chip B where inbound, else at chip A. -/
def execCutOver (k : Fin 8) (inbound : Bool) (s : State) : Host.Outcome State Fault Refusal :=
  s.run (fun d => if inbound then d.cutIn (8 + k) else d.cutOut k)
/-- FORWARD_END (R410). -/
def execForwardEnd (k : Fin 8) (s : State) : Host.Outcome State Fault Refusal := s.run (fun d => d.forwardEnd k)
/-- MIG_ABORT (R412). -/
def execMigAbort (r : Req) (s : State) : Host.Outcome State Fault Refusal := s.onPage r pgFAB Dev.migAbort
/-- ACK_DEADLINE (R412): incoming migration k. -/
def execAckDeadline (k : Fin 8) (s : State) : Host.Outcome State Fault Refusal := s.run (fun d => d.ackDeadline (8 + k))
/-- ABORT_RECEIVED (R412). -/
def execAbortReceived (k : Fin 8) (inbound : Bool) (s : State) : Host.Outcome State Fault Refusal :=
  s.run (fun d => d.abortReceived k inbound)
/-- CHIP_LOST (R390, R404, R405). -/
def execChipLost (addr : BitVec 12) (s : State) : Host.Outcome State Fault Refusal := s.run (fun d => d.chipLost addr.toNat)

end Sys2Proof.Machine
end

