-- ==== Sys2Proof/Machine/Timers.lean ====
section
/-! DEFINITION. The general timers TMR0 to TMR15 (R514 to R523). -/
namespace Sys2Proof.Machine

def Dev.tmr (d : Dev) (n : Nat) : TmrSt := spGet (fun _ => {}) d.tmrs n
def Dev.setTmr (d : Dev) (n : Nat) (x : TmrSt) : Dev := { d with tmrs := spPut (fun _ => {}) d.tmrs n x }

/-- Offset of a word of timer n (R523). -/
def tmrOff (n base : Nat) : Nat := base + 0x80 * n
/-- Offset of a word of compare channel k of timer n. -/
def cmpOff (n k base : Nat) : Nat := base + 0x80 * n + 0x10 * k

/-- Timer n runs (TMR_RUN). -/
def Dev.tmrRuns (d : Dev) (n : Nat) : Bool := d.rdB pgTMR Reg.TMR_RUN n
/-- MODE: 0 up, 1 down, 2 up-down; 3 acts as 0 (R523). -/
def Dev.tmrMode (d : Dev) (n : Nat) : Nat := d.rdF pgTMR (tmrOff n Reg.TMR_CTL) 1 0 % 3
/-- The up-down direction. -/
def Dev.tmrFalling (d : Dev) (n : Nat) : Bool := d.rdB pgTMR (tmrOff n Reg.TMR_CTL) 2
def Dev.tmrCnt (d : Dev) (n : Nat) : Nat := d.rd64 pgTMR (tmrOff n Reg.TMR_CNT_LO)
def Dev.tmrPer (d : Dev) (n : Nat) : Nat := d.rd64 pgTMR (tmrOff n Reg.TMR_PER_LO)
/-- PRESC + 1 (R514). -/
def Dev.tmrStep (d : Dev) (n : Nat) : Nat := d.rdF pgTMR (tmrOff n Reg.TMR_PRESC) 15 0 + 1

/-- R521: IRQ_STAT[n] is set in every cycle in which (TMRn_EVT AND TMRn_EVT_EN) is not 0. -/
def Dev.tmrIrq (d : Dev) : Dev :=
  forN 16 (fun n d =>
    if d.rd pgTMR (tmrOff n Reg.TMR_EVT) &&& d.rd pgTMR (tmrOff n Reg.TMR_EVT_EN) = 0 then d else d.irq pgTMR n) d

/-- A bit of TMRn_EVT set; a write of 1 in the same cycle does not clear it (R521). -/
def Dev.tmrEvt (d : Dev) (n k : Nat) : Dev := d.setBits pgTMR (tmrOff n Reg.TMR_EVT) (word (2 ^ k))

/-- R517: the condition of compare channel k. -/
def Dev.cmpHolds (d : Dev) (n k : Nat) : Bool :=
  let cmp := d.rd64 pgTMR (cmpOff n k Reg.CMP0_LO)
  let cnt := d.tmrCnt n
  let down := d.tmrMode n = 1 ∨ (d.tmrMode n = 2 ∧ d.tmrFalling n)
  if down then decide ((cmp + 2 ^ 64 - cnt) % 2 ^ 64 < 2 ^ 63) else decide ((cnt + 2 ^ 64 - cmp) % 2 ^ 64 < 2 ^ 63)

/-- R517, R518: an armed channel whose condition holds fires: its event bit is set, it is disarmed, its output moves, and
channel 0 sets the DMA request flag of R484. -/
def Dev.cmpEval (d : Dev) (n k : Nat) : Dev :=
  let ctl := cmpOff n k Reg.CMP0_CTL
  if d.rdB pgTMR ctl 0 && d.cmpHolds n k then
    let d := (d.tmrEvt n k).wrB pgTMR ctl 0 false
    let d := if k < 2 then d.wrB pgTMR ctl 3 (!(d.tmrMode n == 2 && d.tmrFalling n)) else d
    if k = 0 then { d with dma := { d.dma with flags := d.dma.flags ||| 2 ^ (16 + n) } } else d
  else d

/-- All four channels evaluated. -/
def Dev.cmpEvalAll (d : Dev) (n : Nat) : Dev := forN 4 (fun k d => d.cmpEval n k) d

/-- R518: the channels with REARM set are armed again. -/
def Dev.cmpRearm (d : Dev) (n : Nat) : Dev :=
  forN 4 (fun k d =>
    if d.rdB pgTMR (cmpOff n k Reg.CMP0_CTL) 1 then d.wrB pgTMR (cmpOff n k Reg.CMP0_CTL) 0 true else d) d

/-- Outputs 0 and 1 set to 0 (R518). -/
def Dev.tmrOutsLow (d : Dev) (n : Nat) : Dev :=
  forN 2 (fun k d => d.wrB pgTMR (cmpOff n k Reg.CMP0_CTL) 3 false) d

/-- What a tick does to a counter (R515): the count, the direction, and whether PERIOD and PEAK happen. -/
def tmrMove (mode p cnt : Nat) (falling : Bool) : Nat × Bool × Bool × Bool :=
  if mode = 0 then if p ≤ cnt then (0, falling, true, false) else (cnt + 1, falling, false, false)
  else if mode = 1 then if cnt = 0 then (p, falling, true, false) else (cnt - 1, falling, false, false)
  else if p = 0 ∧ cnt = 0 then (0, falling, true, true)
  else if falling then if cnt = 0 then (1, false, true, false) else (cnt - 1, true, false, false)
  else if p ≤ cnt then (cnt - 1, true, false, true) else (cnt + 1, false, false, false)

/-- A running timer ticks (R515, R518, R521). Under a freeze none ticks (R522). -/
def Dev.tmrTick (d : Dev) (n : Nat) : Dev :=
  if !d.tmrRuns n || d.frozen pgTMR || d.mode == 6 then d
  else
    let d := d.toCyc (d.tmr n).nextTick
    let d := d.setTmr n { d.tmr n with nextTick := d.cyc + d.tmrStep n }
    let (c, f, per, peak) := tmrMove (d.tmrMode n) (d.tmrPer n) (d.tmrCnt n) (d.tmrFalling n)
    let d := (d.wr64 pgTMR (tmrOff n Reg.TMR_CNT_LO) c).wrB pgTMR (tmrOff n Reg.TMR_CTL) 2 f
    let d := if per then d.tmrEvt n 4 else d
    let d := if peak then d.tmrEvt n 5 else d
    let d := if per && decide (d.tmrMode n ≠ 2) then d.tmrOutsLow n else d
    let d := if per || peak then d.cmpRearm n else d
    (d.cmpEvalAll n).tmrIrq

/-- TMR_GO (R514, R518): stopped timers of a mask start on this edge. -/
def Dev.tmrGo (d : Dev) (mask : Nat) : Dev :=
  forN 16 (fun n d =>
    if mask.testBit n && !d.tmrRuns n then
      let d := (d.wrB pgTMR Reg.TMR_RUN n true).tmrOutsLow n
      d.setTmr n { d.tmr n with nextTick := d.cyc + d.tmrStep n
                                left := if d.frozen pgTMR then some (d.tmrStep n) else none }
    else d) d

/-- TMR_STOP (R514). -/
def Dev.tmrStop (d : Dev) (mask : Nat) : Dev :=
  forN 16 (fun n d =>
    if mask.testBit n && d.tmrRuns n then
      (d.wrB pgTMR Reg.TMR_RUN n false).setTmr n { d.tmr n with nextTick := 0, left := none }
    else d) d

/-- The page's freeze begins or ends (R522): each prescaler keeps its phase. -/
def Dev.tmrFreezeEdge (d : Dev) : Dev :=
  let fr := d.frozen pgTMR
  forN 16 (fun n d =>
    let t := d.tmr n
    if !d.tmrRuns n then d
    else match fr, t.left with
      | true, none => d.setTmr n { t with left := some (t.nextTick - d.cyc) }
      | false, some k => d.setTmr n { t with nextTick := d.cyc + k, left := none }
      | _, _ => d) d

/-- PER_HI written: with the low word held, the period takes its new value (R516, R519). -/
def Dev.perWrite (d : Dev) (n : Nat) (hi : Word) : Dev :=
  let t := d.tmr n
  let d := match t.perHeld with
    | some lo => d.wr pgTMR (tmrOff n Reg.TMR_PER_LO) lo
    | none => d
  (d.wr pgTMR (tmrOff n Reg.TMR_PER_HI) hi).setTmr n { t with perHeld := none }

/-- CMPk_HI written: the compare takes its value and the channel is armed (R517, R519). -/
def Dev.cmpArm (d : Dev) (n k : Nat) (hi : Word) : Dev :=
  let t := d.tmr n
  let d := match t.cmpHeld.find? (fun e => e.1 == k) with
    | some e => d.wr pgTMR (cmpOff n k Reg.CMP0_LO) e.2
    | none => d
  let d := (d.wr pgTMR (cmpOff n k Reg.CMP0_HI) hi).setTmr n { t with cmpHeld := t.cmpHeld.filter (fun e => e.1 != k) }
  ((d.wrB pgTMR (cmpOff n k Reg.CMP0_CTL) 0 true).cmpEval n k).tmrIrq

/-- A write to a word of the TMR page (R514 to R519, R521, R523). -/
def Dev.tmrWrite (d : Dev) (off : Nat) (v : Word) : Dev :=
  if off = Reg.TMR_GO then d.tmrGo v.toNat
  else if off = Reg.TMR_STOP then d.tmrStop v.toNat
  else if off < 0x100 ∨ 0x900 ≤ off then d.regStore pgTMR off v
  else
    let n := (off - 0x100) / 0x80
    let w := (off - 0x100) % 0x80
    if w = 0x00 ∨ w = 0x08 ∨ w = 0x0C then
      if d.tmrRuns n then d else ((d.regStore pgTMR off v).cmpEvalAll n).tmrIrq
    else if w = 0x10 then d.setTmr n { d.tmr n with perHeld := some v }
    else if w = 0x14 then d.perWrite n v
    else if w = 0x18 ∨ w = 0x1C then (d.regStore pgTMR off v).tmrIrq
    else if 0x20 ≤ w ∧ w < 0x60 then
      let k := (w - 0x20) / 0x10
      if w % 0x10 = 0 then
        let t := d.tmr n
        d.setTmr n { t with cmpHeld := (k, v) :: t.cmpHeld.filter (fun e => e.1 != k) }
      else if w % 0x10 = 4 then d.cmpArm n k v
      else d.regStore pgTMR off v
    else d.regStore pgTMR off v

/-- R520: what a wake makes of a timer that was running, e SCLK ticks later: count, falling, WAKE. -/
def tmrAdvance (mode per presc cnt : Nat) (falling : Bool) (e : Nat) : Nat × Bool × Bool :=
  let k := e * 1200000000 / (32768 * (presc + 1))
  if per = 0 then (0, falling, decide (0 < k))
  else if mode = 0 then
    let v := cnt + k
    if per < v then ((v - per - 1) % (per + 1), falling, true) else (v, falling, false)
  else if mode = 1 then
    if k ≤ cnt then (cnt - k, falling, false) else (per - (k - cnt - 1) % (per + 1), falling, true)
  else
    let ph : Int := if falling then 2 * (per : Int) - cnt else cnt
    let wake := decide (2 * (per : Int) ≤ ph + k) || (decide (ph ≤ per) && decide ((per : Int) < ph + k))
    let ph' := (ph + k) % (2 * (per : Int))
    if ph' ≤ per then (ph'.toNat, false, wake) else ((2 * (per : Int) - ph').toNat, true, wake)

/-- R520: at a wake the timers that were running, and not frozen, are advanced by e SCLK ticks and released on one edge. -/
def Dev.timersWake (d : Dev) (e : Nat) : Dev :=
  forN 16 (fun n d =>
    if !d.tmrRuns n || (d.tmr n).left.isSome then d
    else
      let (c, f, wake) := tmrAdvance (d.tmrMode n) (d.tmrPer n) (d.tmrStep n - 1) (d.tmrCnt n) (d.tmrFalling n) e
      let d := (d.wr64 pgTMR (tmrOff n Reg.TMR_CNT_LO) c).wrB pgTMR (tmrOff n Reg.TMR_CTL) 2 f
      let d := if wake then (d.tmrEvt n 6).cmpRearm n else d
      let d := d.cmpEvalAll n
      d.setTmr n { d.tmr n with nextTick := d.cyc + d.tmrStep n, left := none }) d |>.tmrIrq

/-! ### Commands -/

/-- TMR_GO (R514). -/
def execTmrGo (r : Req) (mask : BitVec 16) (s : State) : Host.Outcome State Fault Refusal :=
  s.onPage r pgTMR (fun d => (d.tmrGo mask.toNat).gpioNote)

/-- TMR_STOP (R514). -/
def execTmrStop (r : Req) (mask : BitVec 16) (s : State) : Host.Outcome State Fault Refusal :=
  s.onPage r pgTMR (fun d => (d.tmrStop mask.toNat).gpioNote)

/-- TICK (R515). -/
def execTick (n : Tmr) (s : State) : Host.Outcome State Fault Refusal := s.run (fun d => (d.tmrTick n).gpioNote)

/-- CMP_ARM (R517). -/
def execCmpArm (r : Req) (n : Tmr) (k : Fin 4) (hi : Word) (s : State) : Host.Outcome State Fault Refusal :=
  s.onPage r pgTMR (fun d => (d.cmpArm n k hi).gpioNote)

/-- PER_WRITE (R516). -/
def execPerWrite (r : Req) (n : Tmr) (hi : Word) (s : State) : Host.Outcome State Fault Refusal :=
  s.onPage r pgTMR (fun d => (d.perWrite n hi).gpioNote)

end Sys2Proof.Machine
end

