-- ==== Sys2Proof/Machine/Common.lean ====
section
/-! DEFINITION. The common words of every page (R14 to R27) as a read returns them, and the words of a head page. -/
namespace Sys2Proof.Machine

/-- BLK_STAT.BUSY (R21): the block has work in progress (assumption log 64). -/
def Dev.blkBusy (d : Dev) (p : Nat) : Bool :=
  match pageKind p with
  | .le => (d.eng (p - 0x040)).st == .running
  | .blt => d.rdF p Reg.BLT_STAT 1 0 == 1
  | .march => d.rdF p Reg.MARCH_STAT 1 0 == 1
  | .dict => d.rdF p Reg.DICT_STAT 1 0 != 0
  | .mram => !d.ram.mramBuf.isEmpty
  | .ddr0 => d.ram.initOp.isSome
  | .lsp => d.lsp.xfer.isSome || d.lsp.ixfer.isSome || !d.lsp.utx.isEmpty
  | .prof => d.rdF p Reg.PROF_STAT 1 0 != 0
  | .tmr => (List.range 16).any (fun n => d.tmrRuns n)
  | .gpio => (List.range 64).any (fun n => d.pinSel n != d.pinFn n)
  | .compose => d.heads.any (fun e => d.live e.1)
  | .lead => d.heads.any (fun e => d.live e.1)
  | .enc => d.heads.any (fun e => !e.2.frames.isEmpty)
  | .fab => d.swapState != 0 || d.fab.migs.any (fun e => e.2.active || e.2.forwarding) || !d.fab.hold.isEmpty
  | .al => !(d.link (p - 0x020)).queue.isEmpty
  | .log => !d.log.queue.isEmpty
  | .hp => !(d.lane (p - 0x080)).queue.isEmpty
  | .mgmt => d.mgmt.mdio.isSome
  | .dma => (List.range 16).any (fun c => d.rdF p (Reg.CH_STAT + 8 * c) 1 0 == 1)
  | .vhead => d.runs (p - 0x100)
  | .phead => d.runs (p - 0x100)
  | _ => false

/-- BLK_STAT (R21). -/
def Dev.blkStat (d : Dev) (p : Nat) : Word :=
  word ((d.blkBusy p).toNat + (d.frozen p).toNat * 2 + (d.isLocked p).toNat * 4 + (d.inReset.contains p).toNat * 8)

/-- LOCK as read (R27). -/
def Dev.lockWord (d : Dev) (p : Nat) : Word :=
  word ((d.isLocked p).toNat + ((spGet (fun _ => (none : Option Req)) d.armed p).isSome).toNat * 2)

/-- A common word of a page as read. FENCE reads 1 on the GPIO page while a marked write waits for its LCLK edge, and 0
elsewhere, where every write takes effect before the next access (R24). -/
def Dev.commonRead (d : Dev) (p off : Nat) : Word :=
  if pageKind p = .none ∨ off = Reg.IRQ_SET then 0
  else if off = Reg.FENCE then (if p = pgGPIO then word d.gpioPending.toNat else 0)
  else if off = Reg.BLK_STAT then d.blkStat p
  else if off = Reg.LOCK then d.lockWord p
  else d.rd p off

/-- A word of a head page as the direct view returns it, without what the read does. -/
def Dev.headWord (d : Dev) (h off : Nat) : Word := if off < 0x040 then d.commonRead (pgHD h) off else d.headRead h off

/-- A read of a word of a head page, with the latching of R147. -/
def Dev.headReadNow (d : Dev) (h off : Nat) : Dev × Word :=
  d.readLatch (pgHD h) off (d.headWord h off) (d.headWord h (off + 4))

end Sys2Proof.Machine
end

