-- ==== Sys2Proof/Machine/Lsp.lean ====
section
/-! DEFINITION. The low-speed peripherals (R532 to R535) and the MDIO controller of the management port (R541). -/
namespace Sys2Proof.Machine

def Dev.onLsp (d : Dev) (f : LspSt → LspSt) : Dev := { d with lsp := f d.lsp }

/-- The four bytes of a FIFO word (R533). -/
def fifoBytes (v : Word) : List Byte := leBytes 4 v.toNat

/-- IRQ_STAT bit of group g (0 UART, 1 xSPI, 2 I2C/I3C), cause 0 transmit space, 1 receive data, 2 error, 3 done (R535). -/
def Dev.lspIrq (d : Dev) (g k : Nat) : Dev := d.irq pgLSP (8 * g + k)

/-- A status flag set with the group's error event. -/
def Dev.lspErr (d : Dev) (off bit g : Nat) : Dev := (d.wrB pgLSP off bit true).lspIrq g 2

/-- Bytes pushed into the UART's 64-byte transmit FIFO (R533): with too few free, nothing moves and TX_OVF is set. -/
def Dev.uartPush (d : Dev) (bs : List Byte) : Dev :=
  if d.lsp.utx.length + bs.length ≤ 64 then d.onLsp (fun l => { l with utx := l.utx ++ bs })
  else d.lspErr Reg.UART_STAT 16 0

/-- UART_RX4 (R533): four bytes, or nothing and RX_UNF. -/
def Dev.uartPop4 (d : Dev) : Dev × Word :=
  let q := d.lsp.urx
  if q.length < 4 then (d.lspErr Reg.UART_STAT 17 0, 0)
  else (d.onLsp (fun l => { l with urx := l.urx.drop 4 }), word (ofLe ((q.take 4).map (fun e => e.1))))

/-- UART_RX1 (R534): one byte with its status; nothing held: VALID 0. -/
def Dev.uartPop1 (d : Dev) : Dev × Word :=
  match d.lsp.urx with
  | [] => (d, 0)
  | (b, flags) :: rest =>
    (d.onLsp (fun l => { l with urx := rest }), word (b.toNat + 0x100 + flags * 0x200))

/-- The data bits of a UART character (R534). -/
def Dev.uartBits (d : Dev) (b : Byte) : Byte := BitVec.ofNat 8 (b.toNat % 2 ^ (5 + d.rdF pgLSP Reg.UART_CTL 2 1))

/-- A character received (R532, R534): a full FIFO loses it with RX_OVF. -/
def Dev.uartRx (d : Dev) (b : Byte) (flags : Nat) : Dev :=
  if !d.rdB pgLSP Reg.UART_CTL 0 then d
  else if 64 ≤ d.lsp.urx.length then d.lspErr Reg.UART_STAT 18 0
  else
    let d := (d.onLsp (fun l => { l with urx := l.urx ++ [(d.uartBits b, flags)] })).lspIrq 0 1
    if flags = 0 then d else d.lspIrq 0 2

/-- With flow control the transmitter waits while CTS# is 1 (R525, R532). -/
def Dev.uartHeld (d : Dev) : Bool := d.rdB pgLSP Reg.UART_CTL 6 && d.inLevel 1 false

/-- A character transmitted (R532). -/
def Dev.uartTx (d : Dev) : Dev :=
  match d.lsp.utx with
  | [] => d
  | b :: rest =>
    if !d.rdB pgLSP Reg.UART_CTL 0 || d.uartHeld then d
    else ((d.onLsp (fun l => { l with utx := rest })).out (.uart (d.uartBits b))).lspIrq 0 0

/-- XSPI_CMD (R534): the write starts the transfer. While one is in progress, or EN is 0, it starts none. -/
def Dev.xspiStart (d : Dev) (v : Word) : Dev :=
  if d.rdB pgLSP Reg.XSPI_CTL 0 && d.lsp.xfer.isNone then d.onLsp (fun l => { l with xfer := some (v &&& 0x7FFFFF) }) else d

/-- XSPI_DATA written (R533). -/
def Dev.xspiPush (d : Dev) (v : Word) : Dev :=
  if d.lsp.xfifo.length + 4 ≤ 256 then d.onLsp (fun l => { l with xfifo := l.xfifo ++ fifoBytes v })
  else d.lspErr Reg.XSPI_STAT 10 1

/-- XSPI_DATA read (R533). -/
def Dev.xspiPop (d : Dev) : Dev × Word :=
  let q := d.lsp.xfifo
  if q.length < 4 then (d.lspErr Reg.XSPI_STAT 11 1, 0)
  else (d.onLsp (fun l => { l with xfifo := l.xfifo.drop 4 }), word (ofLe (q.take 4)))

/-- An xSPI transfer completes (R534, R535): a write takes its bytes from the FIFO, a read puts them there. -/
def Dev.xspiDone (d : Dev) (rx : List Byte) : Dev :=
  match d.lsp.xfer with
  | none => d
  | some c =>
    let len := d.rdF pgLSP Reg.XSPI_LEN 15 0
    let d := d.onLsp (fun l => { l with xfer := none })
    let d := if d.rdB pgLSP Reg.XSPI_LEN 16 then
        ((d.out (.xspi c (d.lsp.xfifo.take len))).onLsp (fun l => { l with xfifo := l.xfifo.drop len })).lspIrq 1 0
      else
        let all := d.lsp.xfifo ++ rx.take len
        let d := ((d.out (.xspi c [])).onLsp (fun l => { l with xfifo := all.take 256 })).lspIrq 1 1
        if 256 < all.length then d.lspErr Reg.XSPI_STAT 10 1 else d
    d.lspIrq 1 3

/-- I3C_CMD (R534). -/
def Dev.i3cStart (d : Dev) (v : Word) : Dev :=
  if d.rdB pgLSP Reg.I3C_CTL 0 && d.lsp.ixfer.isNone then d.onLsp (fun l => { l with ixfer := some (v &&& 0x3FFFFFF) }) else d

/-- I3C_DATA written (R533). -/
def Dev.i3cPush (d : Dev) (v : Word) : Dev :=
  if d.lsp.ififo.length + 4 ≤ 32 then d.onLsp (fun l => { l with ififo := l.ififo ++ fifoBytes v })
  else d.lspErr Reg.I3C_STAT 10 2

/-- I3C_DATA read (R533). -/
def Dev.i3cPop (d : Dev) : Dev × Word :=
  let q := d.lsp.ififo
  if q.length < 4 then (d.lspErr Reg.I3C_STAT 11 2, 0)
  else (d.onLsp (fun l => { l with ififo := l.ififo.drop 4 }), word (ofLe (q.take 4)))

/-- An I2C/I3C transfer completes (R534, R535). -/
def Dev.i3cDone (d : Dev) (nack arb : Bool) (rx : List Byte) : Dev :=
  match d.lsp.ixfer with
  | none => d
  | some c =>
    let len := field c 23 8
    let d := d.onLsp (fun l => { l with ixfer := none })
    let d := if nack then d.lspErr Reg.I3C_STAT 8 2 else d
    let d := if arb then d.lspErr Reg.I3C_STAT 9 2 else d
    let d := if nack || arb then d.out (.i3c c [])
      else if bit c 7 then
        let all := d.lsp.ififo ++ rx.take len
        let d := ((d.out (.i3c c [])).onLsp (fun l => { l with ififo := all.take 32 })).lspIrq 2 1
        if 32 < all.length then d.lspErr Reg.I3C_STAT 10 2 else d
      else ((d.out (.i3c c (d.lsp.ififo.take len))).onLsp (fun l => { l with ififo := l.ififo.drop len })).lspIrq 2 0
    d.lspIrq 2 3

/-- An in-band interrupt (R532): taken while the controller is enabled in I3C mode. -/
def Dev.ibi (d : Dev) (addr : Nat) (b : Byte) : Dev :=
  if d.rdB pgLSP Reg.I3C_CTL 0 && d.rdB pgLSP Reg.I3C_CTL 1 then
    (d.onLsp (fun l => { l with ibis := l.ibis ++ [(addr, b)] })).lspIrq 2 1
  else d

/-- I3C_IBI read (R534). -/
def Dev.ibiPop (d : Dev) : Dev × Word :=
  match d.lsp.ibis with
  | [] => (d, 0)
  | (a, b) :: rest => (d.onLsp (fun l => { l with ibis := rest }), word (a % 128 + b.toNat * 256 + 0x10000))

/-- A write to a word of the LSP page (R533, R534). -/
def Dev.lspWrite (d : Dev) (off : Nat) (v : Word) : Dev :=
  if off = Reg.UART_TX4 then d.uartPush (fifoBytes v)
  else if off = Reg.UART_TX1 then d.uartPush [byteOf v.toNat 0]
  else if off = Reg.XSPI_CMD then d.xspiStart v
  else if off = Reg.XSPI_DATA then d.xspiPush v
  else if off = Reg.I3C_CMD then d.i3cStart v
  else if off = Reg.I3C_DATA then d.i3cPush v
  else d.regStore pgLSP off v

/-- A read of a word of the LSP page; through an alias (side false) it pops nothing (R533). -/
def Dev.lspRead (d : Dev) (side : Bool) (off : Nat) : Dev × Word :=
  let pop := fun (x : Dev × Word) => if side then x else (d, x.2)
  if off = Reg.UART_RX4 then pop d.uartPop4
  else if off = Reg.UART_RX1 then pop d.uartPop1
  else if off = Reg.XSPI_DATA then pop d.xspiPop
  else if off = Reg.I3C_DATA then pop d.i3cPop
  else if off = Reg.I3C_IBI then pop d.ibiPop
  else if off = Reg.UART_STAT then
    (d, putField (putField (d.rd pgLSP off) 6 0 (64 - d.lsp.utx.length)) 14 8 d.lsp.urx.length)
  else if off = Reg.XSPI_STAT then
    (d, putField (putBit (d.rd pgLSP off) 0 d.lsp.xfer.isSome) 9 1 d.lsp.xfifo.length)
  else if off = Reg.I3C_STAT then
    (d, putField (putBit (d.rd pgLSP off) 0 d.lsp.ixfer.isSome) 6 1 d.lsp.ififo.length)
  else (d, d.rd pgLSP off)

/-! ### MDIO (R541) -/

/-- MDIO_CMD: the write starts the operation; while one is in progress it starts none. -/
def Dev.mdioStart (d : Dev) (v : Word) : Dev :=
  if d.mgmt.mdio.isNone then
    { (d.wrB pgMGMT Reg.MDIO_STAT 0 true).out (.mdio (v &&& 0xFFFF0FFF)) with mgmt := { d.mgmt with mdio := some (v &&& 0xFFFF0FFF) } }
  else d

/-- An MDIO operation completes. -/
def Dev.mdioDone (d : Dev) (data : Nat) : Dev :=
  match d.mgmt.mdio with
  | none => d
  | some c =>
    let d := { d with mgmt := { d.mgmt with mdio := none } }.wrB pgMGMT Reg.MDIO_STAT 0 false
    (if field c 11 10 = 2 then d.wrF pgMGMT Reg.MDIO_STAT 31 16 data else d).irq pgMGMT 5

/-! ### Commands -/

/-- A read of a register that answers its value. -/
def Dev.replyWord (x : Dev × Word) : Dev := x.1.reply (.data (x.2.setWidth 64))

/-- UART_TX4 (R533). -/
def execUartTx4 (r : Req) (v : Word) (s : State) : Host.Outcome State Fault Refusal :=
  s.onPage r pgLSP (fun d => d.uartPush (fifoBytes v))

/-- UART_TX1 (R534). -/
def execUartTx1 (r : Req) (v : Byte) (s : State) : Host.Outcome State Fault Refusal :=
  s.onPage r pgLSP (fun d => d.uartPush [v])

/-- UART_RX4 (R533). -/
def execUartRx4 (r : Req) (s : State) : Host.Outcome State Fault Refusal :=
  s.onRead r (fun d => Dev.replyWord d.uartPop4)

/-- UART_RX1 (R534). -/
def execUartRx1 (r : Req) (s : State) : Host.Outcome State Fault Refusal :=
  s.onRead r (fun d => Dev.replyWord d.uartPop1)

/-- UART_RX_BYTE (R532). -/
def execUartRxByte (b : Byte) (parityErr framingErr brk : Bool) (s : State) : Host.Outcome State Fault Refusal :=
  s.run (fun d => d.uartRx b (parityErr.toNat + 2 * framingErr.toNat + 4 * brk.toNat))

/-- UART_TX_BYTE (R532). -/
def execUartTxByte (s : State) : Host.Outcome State Fault Refusal := s.run (fun d => d.thawed pgLSP Dev.uartTx)

/-- XSPI_CMD (R534). -/
def execXspiCmd (r : Req) (v : Word) (s : State) : Host.Outcome State Fault Refusal :=
  s.onPage r pgLSP (fun d => d.xspiStart v)

/-- XSPI_DATA_PUSH (R533). -/
def execXspiDataPush (r : Req) (v : Word) (s : State) : Host.Outcome State Fault Refusal :=
  s.onPage r pgLSP (fun d => d.xspiPush v)

/-- XSPI_DATA_POP (R533). -/
def execXspiDataPop (r : Req) (s : State) : Host.Outcome State Fault Refusal :=
  s.onRead r (fun d => Dev.replyWord d.xspiPop)

/-- XSPI_DONE (R535). -/
def execXspiDone (rx : List Byte) (s : State) : Host.Outcome State Fault Refusal := s.run (fun d => d.thawed pgLSP (fun d => d.xspiDone rx))

/-- I3C_CMD (R534). -/
def execI3cCmd (r : Req) (v : Word) (s : State) : Host.Outcome State Fault Refusal :=
  s.onPage r pgLSP (fun d => d.i3cStart v)

/-- I3C_DATA_PUSH (R533). -/
def execI3cDataPush (r : Req) (v : Word) (s : State) : Host.Outcome State Fault Refusal :=
  s.onPage r pgLSP (fun d => d.i3cPush v)

/-- I3C_DATA_POP (R533). -/
def execI3cDataPop (r : Req) (s : State) : Host.Outcome State Fault Refusal :=
  s.onRead r (fun d => Dev.replyWord d.i3cPop)

/-- I3C_DONE (R535). -/
def execI3cDone (nack arbLost : Bool) (rx : List Byte) (s : State) : Host.Outcome State Fault Refusal :=
  s.run (fun d => d.thawed pgLSP (fun d => d.i3cDone nack arbLost rx))

/-- IBI_RX (R532). -/
def execIbiRx (addr : BitVec 7) (payload : Byte) (s : State) : Host.Outcome State Fault Refusal :=
  s.run (fun d => d.ibi addr.toNat payload)

/-- I3C_IBI (R534). -/
def execI3cIbi (r : Req) (s : State) : Host.Outcome State Fault Refusal :=
  s.onRead r (fun d => Dev.replyWord d.ibiPop)

/-- MDIO_CMD (R541). -/
def execMdioCmd (r : Req) (v : Word) (s : State) : Host.Outcome State Fault Refusal :=
  s.onPage r pgMGMT (fun d => d.mdioStart v)

/-- MDIO_DONE (R541). -/
def execMdioDone (data : BitVec 16) (s : State) : Host.Outcome State Fault Refusal :=
  s.run (fun d => d.thawed pgMGMT (fun d => d.mdioDone data.toNat))

end Sys2Proof.Machine
end

