-- ==== Sys2Proof/Machine/LeQueue.lean ====
section
/-! DEFINITION. Where a line engine's instructions come from (R206, R241, R243, R245, R248 to R253): the program memories, the
loop unit as fetch follows it, and the words fetched ahead of issue. -/
namespace Sys2Proof.Machine

/-- Engine e's own program memory. -/
def progBase (e : Nat) : Nat := localBase + e * 0x10000
/-- Engine e's own data memory. -/
def dataBase (e : Nat) : Nat := localBase + e * 0x10000 + 0x8000

/-- LE_CTL.PMEM is LOCKED (R241). -/
def Dev.pmemLocked (d : Dev) (e : Nat) : Bool := d.rdB (pgLE e) Reg.LE_CTL 2
/-- LE_CTL.DET (R256). -/
def Dev.det (d : Dev) (e : Nat) : Bool := d.rdB (pgLE e) Reg.LE_CTL 1

/-- LE_PC. -/
def Dev.lePc (d : Dev) (e : Nat) : Nat := d.rdN (pgLE e) Reg.LE_PC
def Dev.setPc (d : Dev) (e pc : Nat) : Dev := d.wrN (pgLE e) Reg.LE_PC pc

/-! ### The loop unit (R208 to R210) -/

/-- The address of the first body word. -/
def lpFirst (s : Word) : Nat := (if bit s 19 then 0x18000000 else 0x10000) + 4 * field s 18 0
/-- The address of the last body word. -/
def lpLast (s : Word) : Nat := lpFirst s + 4 * field s 31 20

/-- The next address in sequence after pc, with the loop unit's choice (R210). -/
def seqNext (count s : Word) (pc : Nat) : Nat :=
  if count ≠ 0 ∧ pc = lpLast s ∧ count ≠ 1 then lpFirst s else (pc + 4) % 2 ^ 32

/-- The address lies in an active body. -/
def Engine.inBody (x : Engine) (pc : Nat) : Bool :=
  x.lpCount != 0 && decide (lpFirst x.lpState ≤ pc ∧ pc ≤ lpLast x.lpState)

/-- The loop unit's action where the instruction at pc issues with no performed branch (R210), and the loop buffer's end where
LP.COUNT reaches 0 (R252). -/
def Engine.loopAction (x : Engine) (pc : Nat) : Engine :=
  if x.lpCount ≠ 0 ∧ pc = lpLast x.lpState then
    if x.lpCount = 1 then { x with lpCount := 0, lbuf := [], lbufOn := false } else { x with lpCount := x.lpCount - 1 }
  else x

/-! ### Words -/

/-- Invalidate every fetch structure: the loop buffer, the cache, the fetch buffer, the branch target buffer, and what was
fetched ahead (R254). -/
def Engine.invalidate (x : Engine) : Engine :=
  { x with cache := [], fbuf := none, missing := none, btb := [], lbuf := [], lbufOn := false, stale := [], fq := [] }

/-- The loop buffer disengages and discards its contents (R252). -/
def Engine.dropLbuf (x : Engine) : Engine := { x with lbuf := [], lbufOn := false }

/-- The cause code of a fetch at an address that cannot be fetched (R206, R256). -/
def Dev.fetchFault (d : Dev) (e pc : Nat) : Option Nat :=
  let x := d.eng e
  if x.lbufOn && x.lbuf.any (fun w => w.1 == pc) then none
  else if 0x10000 ≤ pc ∧ pc < 0x14000 then (if d.pmemLocked e then none else some 9)
  else if 0x18000000 ≤ pc ∧ pc < 0x18200000 then (if d.det e then some 8 else none)
  else some 9

/-- The line that holds an address, where the cache or the fetch buffer has it (R241). -/
def Engine.heldLine (x : Engine) (pc : Nat) : Option (List Byte) :=
  ((x.fbuf.toList ++ x.cache).find? (fun l => l.1 == pc / 64 * 64)).map (fun l => l.2)

/-- A word of a line. -/
def lineWord (l : List Byte) (pc : Nat) : Word := word (ofLe ((l.drop (pc % 64)).take 4))

/-- The word that a fetch at pc gives, with whether the loop buffer gives it; none: its line is missing (R243, R251, R253). -/
def Dev.fetched (d : Dev) (e pc : Nat) : Option (Word × Bool) :=
  let x := d.eng e
  match (if x.lbufOn then x.lbuf.find? (fun w => w.1 == pc) else none) with
  | some w => some (w.2, true)
  | none =>
    match x.stale.find? (fun w => w.1 == pc) with
    | some w => some (w.2, false)
    | none =>
      if pc < 0x18000000 then some (word (d.num (progBase e + (pc - 0x10000)) 4), false)
      else (x.heldLine pc).map (fun l => (lineWord l pc, false))

/-- A line used: it becomes the latest of its set (R241). -/
def Engine.touch (x : Engine) (pc : Nat) : Engine :=
  match x.cache.find? (fun l => l.1 == pc / 64 * 64) with
  | some l => { x with cache := l :: x.cache.filter (fun m => m.1 != l.1) }
  | none => x

/-- The loop buffer engages at a fetch of the first body word once it holds every word (R251). -/
def Engine.engage (x : Engine) (pc : Nat) : Engine :=
  if x.inBody pc ∧ pc = lpFirst x.lpState ∧ field x.lpState 31 20 ≤ 63 ∧ x.lbuf.length = field x.lpState 31 20 + 1
  then { x with lbufOn := true } else x

/-- The address that follows the instruction at pc by the loop unit, as the fetch unit sees it in cycle c (R250): count and state
as they stand at the start of the cycle, but for a write in the cycle before. -/
def Engine.loopNext (x : Engine) (c pc : Nat) (count s : Word) : Nat :=
  match x.lpPrev with
  | some (k, n, t) => if k + 1 = c then seqNext n t pc else seqNext count s pc
  | none => seqNext count s pc

/-- The address that F1 follows pc with (R248, R250): the branch target buffer's, with true, or the loop unit's. Body ends that
wait in the queue have still to count LP.COUNT down. -/
def Engine.predict (x : Engine) (det : Bool) (pc : Nat) : Nat × Bool :=
  let entry := if det then (0, 0, false) else spGet (fun _ => (0, 0, false)) x.btb (pc / 4 % 64)
  if entry.1 = pc ∧ pc ≠ 0 ∧ (entry.2.2 = false ∨ entry.2.1 ≤ pc) then (entry.2.1, true)
  else
    let ends := (x.fq.filter (fun w => w.1 == lpLast x.lpState)).length
    (seqNext (if x.lpCount.toNat ≤ ends then 0 else x.lpCount - word ends) x.lpState pc, false)

/-! ### Fetching ahead (R245) -/

/-- How many words fetch holds: the instruction at LE_PC and a queue of 4 after it. -/
abbrev fetchDepth : Nat := 5

/-- The fetch path starts at the next instruction where it stands elsewhere: nothing has been fetched for it. -/
def Dev.fetchStart (d : Dev) (e : Nat) : Dev :=
  let x := d.eng e
  let pc := d.lePc e
  let at_ := match x.fq with
    | w :: _ => w.1
    | [] => x.fpc
  if at_ = pc then d else d.onEng e (fun x => { x with fq := [], fpc := pc, fcyc := min x.fcyc (d.cyc - 2) })

/-- At most n words fetched by now: F1 in fcyc and F2 in the next cycle, one word a cycle, until the queue is full, an address
cannot be fetched, or a line is missing. -/
def Dev.fetchAhead (d : Dev) (e : Nat) : Nat → Dev
  | 0 => d
  | n + 1 =>
    let d := d.onEng e (fun x => if x.fq.length < fetchDepth ∧ x.fcyc + 1 ≤ d.cyc then x.engage x.fpc else x)
    let x := d.eng e
    if fetchDepth ≤ x.fq.length ∨ d.cyc < x.fcyc + 1 ∨ x.missing.isSome ∨ (d.fetchFault e x.fpc).isSome then d
    else match d.fetched e x.fpc with
      | none => d.onEng e (fun x => { x with missing := some (x.fpc / 64 * 64, x.fcyc + 1) })
      | some (w, lb) =>
        let p := x.predict (d.det e) x.fpc
        (d.setEng e { x.touch x.fpc with
          fq := x.fq ++ [(x.fpc, w, lb, p.2, x.fcyc + 1)], fpc := p.1, fcyc := x.fcyc + 1 }).fetchAhead e n

/-- What a running engine has fetched by now. -/
def Dev.prefetch (d : Dev) (e : Nat) : Dev :=
  if (d.eng e).st ≠ .running then d else (d.fetchStart e).fetchAhead e fetchDepth

/-- Before bytes of a locked local program memory change: what its engine has fetched stays as it was (R253). -/
def Dev.prefetchAt (d : Dev) (a : Nat) : Dev :=
  let e := (a - localBase) / 0x10000
  if localBase ≤ a ∧ a < localBase + 0x200000 ∧ (a - localBase) % 0x10000 < 0x4000 ∧ d.pmemLocked e then d.prefetch e else d

/-- An access through the shared window to a local memory in this cycle: the engine's own local accesses of this cycle have
come before it (R204). -/
def Dev.noteLocal (d : Dev) (a : Nat) : Dev :=
  let e := (a - localBase) / 0x10000
  if localBase ≤ a ∧ a < localBase + 0x200000 ∧ (d.eng e).st = .running then
    d.onEng e (fun x => { x with localFrom := d.cyc + 1 })
  else d

end Sys2Proof.Machine
end

