-- ==== Sys2Proof/Machine/LeMem.lean ====
section
/-! DEFINITION. What a line engine reaches: the 32-bit address space of R230, local and shared accesses (R199 to R204),
the aliases (R231), split accesses (R233), and the string unit's bytes (R211). -/
namespace Sys2Proof.Machine

/-! ### The address space (R230) -/

/-- Where an engine's address leads: its own local memory, or the shared window; the physical address; the view (0 plain, 1
set alias, 2 clear alias). -/
structure Place where
  shared : Bool
  phys : Nat
  view : Nat
  deriving DecidableEq, Repr

/-- An address of the shared window, plain view; none in a region marked "No", in a hole or outside (R230). -/
def sharedPhys (a : Nat) : Option Nat :=
  let p := 0x80000000 + (a - 0x10000000)
  if 0x10000000 ≤ a ∧ a < 0x13000000 then some p
  else if 0x18000000 ≤ a ∧ a < 0x18200000 then some p
  else if 0x18200000 ≤ a ∧ a < 0x18400000 then (if a % 0x10000 / 0x4000 = 1 then none else some p)
  else if 0x18400000 ≤ a ∧ a < 0x18500000 then some p
  else none

/-- R230: where an address leads; none where an access raises an address fault. -/
def Dev.place (d : Dev) (e a : Nat) : Option Place :=
  if a < 0x8000 then some ⟨false, dataBase e + a, 0⟩
  else if 0x10000 ≤ a ∧ a < 0x14000 then
    if d.pmemLocked e then some ⟨false, progBase e + (a - 0x10000), 0⟩ else none
  else if 0x30000000 ≤ a then (sharedPhys (a - 0x20000000)).map (fun p => ⟨true, p, 2⟩)
  else if 0x20000000 ≤ a then (sharedPhys (a - 0x10000000)).map (fun p => ⟨true, p, 1⟩)
  else (sharedPhys a).map (fun p => ⟨true, p, 0⟩)

/-- A physical address in a program memory that serves as cache: it reads 0 and ignores writes (R230). -/
def Dev.asCache (d : Dev) (a : Nat) : Bool :=
  decide (localBase ≤ a ∧ a < localBase + 0x200000) && decide ((a - localBase) % 0x10000 < 0x4000)
    && !d.pmemLocked ((a - localBase) / 0x10000)

/-- A byte as an engine or a core reads it in the shared memories. -/
def Dev.sharedByte (d : Dev) (a : Nat) : Byte := if d.asCache a then 0 else d.byte a

/-- Bytes as an engine reads them. -/
def Dev.sharedBytes (d : Dev) (a n : Nat) : List Byte := (List.range n).map (fun i => d.sharedByte (a + i))

/-- A byte after a write of b through a view (R231). -/
def viewByte (view : Nat) (old b : Byte) : Byte :=
  match view with
  | 0 => b
  | 1 => old ||| b
  | _ => old &&& ~~~ b

/-- Can a shared memory's byte be written? The audio counter area cannot (R370), nor a program memory that serves as cache. -/
def Dev.writable (d : Dev) (a : Nat) : Bool := !(d.asCache a || decide (audioBase + 0xF0000 ≤ a ∧ a < audioBase + 0x100000))

/-- Bytes written through a view into a shared memory, reported to the heads (R164, R231, R232). -/
def Dev.sharedStore (d : Dev) (view a : Nat) (bs : List Byte) : Dev :=
  if d.writable a then ((d.noteLocal a).prefetchAt a).storeBy a ((d.bytes a bs.length).zipWith (viewByte view) bs) else d

/-! ### Loads and stores (R199 to R201, R233) -/

/-- The value of a load: zero- or sign-extended. -/
def loadValue (sx : Bool) (bs : List Byte) : Word :=
  if sx then BitVec.ofInt 32 (signed (8 * bs.length) (ofLe bs)) else word (ofLe bs)

/-- How many bytes of an access of n bytes at a lie below the next 4-byte boundary (R233). -/
def belowBoundary (a n : Nat) : Nat := min n (4 - a % 4)

/-- An access of n bytes at a is split (R233). -/
def isSplit (a n : Nat) : Bool := decide (belowBoundary a n < n)

/-- The places of the halves of an access: addresses and lengths; none where one of them raises an address fault. -/
def Dev.halves (d : Dev) (e a n : Nat) : Option (List (Place × Nat)) :=
  let k := belowBoundary a n
  match d.place e a with
  | none => none
  | some p =>
    if k = n then some [(p, n)]
    else match d.place e ((a + k) % 2 ^ 32) with
      | none => none
      | some q => some [(p, k), (q, n - k)]

/-- The outstanding shared accesses that an access of n bytes at a adds. -/
def Dev.sharedCount (d : Dev) (e a n : Nat) : Nat :=
  match d.halves e a n with
  | some l => (l.filter (fun h => h.1.shared)).length
  | none => 0

/-- The trigger of a load (R199 to R201): a local load's data is read at once and shows after 3 cycles, 4 if split; a shared
load joins the queue. -/
def Dev.startLoad (d : Dev) (e a n : Nat) (sx : Bool) : Dev :=
  match d.halves e a n with
  | none => d
  | some l =>
    let lat := if l.length = 1 then 3 else 4
    if l.all (fun h => !h.1.shared) then
      let v := loadValue sx (l.flatMap (fun h => d.bytes h.1.phys h.2))
      d.onEng e (fun x => { x with
        flights := x.flights ++ [(d.cyc + lat, .load v)], halfAt := if l.length = 1 then x.halfAt else d.cyc + 2 })
    else
      let mk := fun (i : Nat) (h : Place × Nat) =>
        ({ trig := d.cyc + i, phys := h.1.phys, view := h.1.view, len := h.2, bytes := [], load := some (n, sx)
           part := if l.length = 1 then 0 else i + 1, drop := false } : Shared)
      d.onEng e (fun x => { x with shared := x.shared ++ (l.zipIdx).map (fun (h, i) => mk i h) })

/-- The trigger of a store (R199 to R201): a local store is done at once; FETCH_SYNC and FENCE
find that it has taken effect 2 cycles later, 3 if split (R254, R257); a shared store is posted. -/
def Dev.startStore (d : Dev) (e a : Nat) (bs : List Byte) : Dev :=
  match d.halves e a bs.length with
  | none => d
  | some l =>
    let split := l.length ≠ 1
    let step := fun (i k : Nat) (h : Place × Nat) (d : Dev) =>
      let part := (bs.drop k).take h.2
      if h.1.shared then
        d.onEng e (fun x => { x with shared := x.shared ++ [{ trig := d.cyc + i, phys := h.1.phys, view := h.1.view
                                                              len := h.2, bytes := part, load := none
                                                              part := if split then i + 1 else 0, drop := false }] })
      else (d.store h.1.phys part).onEng e (fun x => { x with
        storeAt := d.cyc + i + 2, halfAt := if split then d.cyc + 2 else x.halfAt })
    match l with
    | [h] => step 0 0 h d
    | [h, g] => step 1 h.2 g (step 0 0 h d)
    | _ => d

/-- A result arrives (R197, R200, R229). -/
def Engine.arrive (x : Engine) (c : Nat) : Flight → Engine
  | .mul v => { x with mres := v }
  | .mac p => { x with macc := x.macc + p, mres := x.macc + p, macAt := some (c, p) }
  | .load v => { x with lres := v }

/-- The results whose cycles have come. -/
def Dev.settle (d : Dev) (e : Nat) : Dev :=
  d.onEng e (fun x =>
    forL (x.flights.filter (fun f => decide (f.1 ≤ d.cyc))) (fun f x => x.arrive f.1 f.2)
      { x with flights := x.flights.filter (fun f => decide (d.cyc < f.1)) })

/-- One more shared access has completed in the present cycle (R201, R202). -/
def Engine.shareDone (x : Engine) (c : Nat) : Engine :=
  { x with sharedAt := c + 1, doneCnt := (c, if x.doneCnt.1 = c then x.doneCnt.2 + 1 else 1) }

/-- One half of a split shared access has been performed and the other not (R233). -/
def Engine.midSplit (x : Engine) : Bool :=
  match x.shared with
  | s :: _ => s.part == 2
  | [] => false

/-- LOAD_COMPLETE (R201, R203): the oldest load completes, no earlier than 10 cycles after its trigger. Shared accesses keep their
order: a store before it takes effect first. -/
def Dev.completeLoad (d : Dev) (e : Nat) : Dev :=
  match (d.eng e).shared with
  | [] => d
  | s :: rest =>
    match s.load with
    | none => if rest.any (fun t => t.load.isSome) then d.reply .waits else d
    | some (_, sx) =>
      let d := ((d.toCyc (s.trig + 10)).settle e).noteLocal s.phys
      let bs := s.bytes ++ d.sharedBytes s.phys s.len
      let rest := if s.part = 1 then match rest with
          | t :: l => { t with bytes := bs } :: l
          | [] => []
        else rest
      let x := ({ d.eng e with shared := rest }).shareDone d.cyc
      d.setEng e (if s.part = 1 ∨ s.drop then x else { x with lres := loadValue sx bs })

/-- STORE_TAKES_EFFECT (R201, R203): the oldest posted store reaches its memory. Shared accesses keep their order: a load before it
completes first. -/
def Dev.storeEffect (d : Dev) (e : Nat) : Dev :=
  match (d.eng e).shared with
  | [] => d
  | s :: rest =>
    if s.load.isSome then (if rest.any (fun t => t.load.isNone) then d.reply .waits else d)
    else
      let d := d.toCyc (s.trig + 1)
      let d := d.sharedStore s.view s.phys s.bytes
      d.onEng e (fun x => { ({ x with shared := rest } : Engine).shareDone d.cyc with storeDone := d.cyc + 1 })

/-! ### The string unit (R211 to R214) -/

/-- The byte that step i of an operation reads, by engine address; none for a fill. -/
def strSrc (x : Engine) (o : StrOp) (i : Nat) : Option Nat :=
  if o.fill then none
  else if o.down then some ((x.stSrc.toNat + (x.stLen.toNat - 1 - i)) % 2 ^ 32)
  else some ((x.stSrc.toNat + i) % 2 ^ 32)

/-- The byte that step i writes. -/
def strDst (x : Engine) (o : StrOp) (i : Nat) : Nat :=
  if o.down then (x.stDst.toNat + (x.stLen.toNat - 1 - i)) % 2 ^ 32 else (x.stDst.toNat + i) % 2 ^ 32

/-- Why the string unit may not touch a byte (R214, R234): the cause code. -/
def Dev.strBar (d : Dev) (e a : Nat) : Option Nat :=
  match d.place e a with
  | none => some 5
  | some p => if p.shared && d.det e then some 8 else none

/-- Why step i is not performed: its cause and address. -/
def Dev.strStop (d : Dev) (e : Nat) (x : Engine) (o : StrOp) (i : Nat) : Option (Nat × Nat) :=
  let src := (strSrc x o i).bind (fun a => (d.strBar e a).map (fun c => (c, a)))
  match src with
  | some r => some r
  | none => (d.strBar e (strDst x o i)).map (fun c => (c, strDst x o i))

/-- Step i performed on the bytes alone: no report yet. -/
def Dev.strStep (d : Dev) (e : Nat) (x : Engine) (o : StrOp) (i : Nat) : Dev :=
  let a := strDst x o i
  let v := match strSrc x o i with
    | some s => match d.place e s with
      | some p => d.sharedByte p.phys
      | none => 0
    | none => byteOf o.val.toNat (a % 4)
  match d.place e a with
  | some p => if d.writable p.phys then d.put p.phys (viewByte p.view (d.byte p.phys) v) else d
  | none => d

/-- Steps from i on, at most n: the device after them, how many were performed, and why the next was not. -/
def Dev.strSteps (d : Dev) (e : Nat) (x : Engine) (o : StrOp) : Nat → Nat → Dev × Nat × Option (Nat × Nat)
  | 0, i => (d, i, none)
  | n + 1, i =>
    match d.strStop e x o i with
    | some r => (d, i, some r)
    | none => (d.strStep e x o i).strSteps e x o n (i + 1)

/-- An engine address leads through the shared window. -/
def Dev.farByte (d : Dev) (e : Nat) (a : Nat) : Bool :=
  match d.place e a with
  | some p => p.shared
  | none => false

/-- The operation moves between local memories only (R212, R258). -/
def Dev.strLocal (d : Dev) (e : Nat) : Bool :=
  let x := d.eng e
  match x.str with
  | none => true
  | some o =>
    let isLocal := fun (a : Nat) => match d.place e a with
      | some p => !p.shared
      | none => true
    isLocal (strDst x o 0) && (match strSrc x o 0 with
      | some a => isLocal a
      | none => true)

/-- At most k bytes of the operation moved (R211): reported where heads may read them (R232), ST.SRC, ST.DST and ST.LEN after
them; and why it stopped before another of the k. -/
def Dev.strRun (d : Dev) (e k : Nat) : Dev × Option (Nat × Nat) :=
  let x := d.eng e
  match x.str with
  | none => (d, none)
  | some o =>
    let (t, n, why) := d.strSteps e x o (min k x.stLen.toNat) 0
    let lo := if o.down then strDst x o (n - 1) else strDst x o 0
    let d := match (if n = 0 then none else d.place e lo) with
      | some p => if inGlyph p.phys n then d.storeBy p.phys (t.bytes p.phys n) else t
      | none => t
    let step := word n
    (d.onEng e (fun x => if o.down then { x with stLen := x.stLen - step, str := some { o with moved := o.moved + n } }
      else { x with stLen := x.stLen - step, stDst := x.stDst + step, str := some { o with moved := o.moved + n }
                    stSrc := if o.fill then x.stSrc else x.stSrc + step }), why)

/-- The bytes of a transfer through the shared window that its first k accesses move (R212): each up to the next 64-byte boundary of
the side that is shared. -/
def strChunks (x : Engine) (o : StrOp) (far : Bool) (k : Nat) : Nat :=
  let len := x.stLen.toNat + o.moved
  let base := if far then x.stDst.toNat else x.stSrc.toNat
  let first := if o.down then (if (base + x.stLen.toNat + o.moved) % 64 = 0 then 64 else (base + x.stLen.toNat + o.moved) % 64)
    else 64 - (base + 64 * o.moved - o.moved) % 64
  if k = 0 then 0 else min len (first + 64 * (k - 1))

/-- The bytes that an operation has moved by cycle c (R212): between local memories 8 a cycle; through the shared window one
access after another, a load with its 10 cycles (R201; assumption log 60). -/
def Dev.strBy (d : Dev) (e c : Nat) : Nat :=
  let x := d.eng e
  match x.str with
  | none => 0
  | some o =>
    if d.strLocal e then 8 * (c - o.trig)
    else
      let lat := if (strSrc x o 0).any (fun a => d.farByte e a) then 10 else 1
      strChunks x o (d.farByte e (strDst x o 0)) ((c - o.trig) / lat)

/-- The cycles that the rest of an operation takes from its trigger on. -/
def Dev.strTime (d : Dev) (e : Nat) : Nat :=
  let x := d.eng e
  match x.str with
  | none => 0
  | some o =>
    let len := x.stLen.toNat + o.moved
    if d.strLocal e then ceilDiv len 8
    else
      let lat := if (strSrc x o 0).any (fun a => d.farByte e a) then 10 else 1
      let first := strChunks x o (d.farByte e (strDst x o 0)) 1
      lat * (1 + ceilDiv (len - first) 64)

/-- The operation as far as the present cycle (R212); its end is STRING_DONE's. -/
def Dev.strAdvance (d : Dev) (e : Nat) : Dev :=
  match (d.eng e).str with
  | none => d
  | some o => (d.strRun e (d.strBy e d.cyc - o.moved)).1

/-- The byte at which an operation stops (R214, R234): the next one may not be touched. -/
def Dev.strBarred (d : Dev) (e : Nat) : Option (Nat × Nat) :=
  let x := d.eng e
  match x.str with
  | none => none
  | some o => if x.stLen = 0 then none else d.strStop e x o 0

end Sys2Proof.Machine
end

