-- ==== Sys2Proof/Machine/Space.lean ====
section
/-! DEFINITION. The 48-bit physical address space of the application cores, the debug module and DMA (R422, R423): where an
address leads, and plain reads and writes of the memories there. -/
namespace Sys2Proof.Machine

/-- The regions of R422. -/
inductive Area where
  | rom | secure | regs | glyph | lead | hash | dict | store | local | audio | mram | flash | dram
  deriving DecidableEq, Repr

/-- Where an address leads: its region, the plain address, and the view (0 plain, 1 set alias, 2 clear alias). -/
structure Spot where
  area : Area
  phys : Nat
  view : Nat
  deriving DecidableEq, Repr

/-- The scratchpad window at its plain addresses; none in a hole (R422, R423). -/
def scratchArea (a : Nat) : Option Area :=
  if glyphBase ≤ a ∧ a < glyphEnd then some .glyph
  else if leadBase ≤ a ∧ a < leadBase + 0x1800000 then some .lead
  else if hashBase ≤ a ∧ a < hashBase + 0xC00000 then some .hash
  else if dictBase ≤ a ∧ a < dictBase + 0x800000 then some .dict
  else if storeBase ≤ a ∧ a < storeBase + 0x200000 then some .store
  else if localBase ≤ a ∧ a < localBase + 0x200000 then (if a % 0x10000 / 0x4000 = 1 then none else some .local)
  else if audioBase ≤ a ∧ a < audioBase + 0x100000 then some .audio
  else none

/-- R422, R423: the region of an address; none where it lies in no region or in a hole. -/
def Dev.spot (d : Dev) (a : Nat) : Option Spot :=
  if a < 0x40000 then some ⟨.rom, a, 0⟩
  else if scratchBase ≤ a ∧ a < scratchBase + 0x100000 then some ⟨.secure, a, 0⟩
  else if 0x40000000 ≤ a ∧ a < 0x41000000 then some ⟨.regs, a, 0⟩
  else if mramBase ≤ a ∧ a < mramBase + 0x1000000 then some ⟨.mram, a, 0⟩
  else if flashBase ≤ a ∧ a < flashBase + 0x10000000 then some ⟨.flash, a, 0⟩
  else if dramBase ≤ a then (if a < d.dramTop then some ⟨.dram, a, 0⟩ else none)
  else if 0x90000000 ≤ a ∧ a < 0x98500000 then (scratchArea (a - 0x10000000)).map (fun r => ⟨r, a - 0x10000000, 1⟩)
  else if 0xA0000000 ≤ a ∧ a < 0xA8500000 then (scratchArea (a - 0x20000000)).map (fun r => ⟨r, a - 0x20000000, 2⟩)
  else (scratchArea a).map (fun r => ⟨r, a, 0⟩)

/-- n bytes from an address in one region. -/
def Dev.spotN (d : Dev) (a n : Nat) : Option Spot :=
  match d.spot a, d.spot (a + n - 1) with
  | some s, some t => if s.area = t.area ∧ s.view = t.view then some s else none
  | _, _ => none

/-- A region of the scratchpad window. -/
def Area.isScratch : Area → Bool
  | .glyph => true | .lead => true | .hash => true | .dict => true | .store => true | .local => true | .audio => true
  | .rom => false | .secure => false | .regs => false | .mram => false | .flash => false | .dram => false

/-- A scratchpad that cores and DMA may write (R422, R458). -/
def Area.scratchWritable : Area → Bool
  | .glyph => true | .store => true | .local => true | .audio => true
  | .lead => false | .hash => false | .dict => false | .rom => false | .secure => false | .regs => false | .mram => false
  | .flash => false | .dram => false

/-- A byte of the hash store (R278, R279): its page's head has its tile hashes first, 8 bytes each, then its line hashes, 4 bytes
each, little-endian. Whatever no head holds is all ones. -/
def Dev.hashByte (d : Dev) (a : Nat) : Byte :=
  let i := a - hashBase
  match d.heads.find? (fun e => e.2.pages.contains (i / 4096)) with
  | none => 0xFF
  | some (_, x) =>
    let o := x.pages.idxOf (i / 4096) * 4096 + i % 4096
    let t := 8 * x.tiles.length
    if o < t then byteOf (x.tiles.getD (o / 8) 0) (o % 8)
    else if o - t < 4 * x.hashes.length then byteOf (x.hashes.getD ((o - t) / 4) 0) ((o - t) % 4)
    else 0xFF

/-- Bytes read at a spot of a memory; the register region apart. The lead buffer holds what composers left there, in no stated
layout, once a head has been used (assumption log 75). -/
def Dev.spotBytes (d : Dev) (s : Spot) (n : Nat) : List Byte :=
  match s.area with
  | .rom => (List.range n).map (fun i => Config.bootRomByte (s.phys + i))
  | .mram => (List.range n).map (fun i => d.mramByte (s.phys - mramBase + i))
  | .lead => if d.heads.isEmpty then d.sharedBytes s.phys n else (List.range n).map (fun i => Config.leadByte d.clock.cyc (s.phys + i))
  | .hash => (List.range n).map (fun i => d.hashByte (s.phys + i))
  | _ => d.sharedBytes s.phys n

/-- Bytes written at a spot of DRAM, the secure scratch or a writable scratchpad (R164, R231, R444). -/
def Dev.spotStore (d : Dev) (s : Spot) (bs : List Byte) : Dev := d.sharedStore s.view s.phys bs

end Sys2Proof.Machine
end

