-- ==== Sys2Proof/Machine/Dma.lean ====
section
/-! DEFINITION. DMA (R478 to R498): descriptors, hand-over, arming and aborting, and the channels' registers. Bursts, which
reach register pages, are in Machine/DmaRun.lean. -/
namespace Sys2Proof.Machine

def Dev.chan (d : Dev) (c : Nat) : ChanSt := spGet (fun _ => {}) d.dma.chans c
def Dev.setChan (d : Dev) (c : Nat) (x : ChanSt) : Dev :=
  { d with dma := { d.dma with chans := spPut (fun _ => {}) d.dma.chans c x } }
def Dev.onChan (d : Dev) (c : Nat) (f : ChanSt → ChanSt) : Dev := d.setChan c (f (d.chan c))

/-- CHn_CTL and CHn_STAT. -/
def chCtl (c : Nat) : Nat := Reg.CH_CTL + 8 * c
def chStat (c : Nat) : Nat := Reg.CH_STAT + 8 * c
/-- A channel's counters (R494): 0 CH_PROG, 1 CH_WRITTEN, 2 CH_REMAIN, 3 CH_ABANDON. -/
def chCount (c k : Nat) : Nat := Reg.CH_COUNT + 64 * c + 8 * k

/-- CHn_STAT.STATE: 0 IDLE, 1 RUNNING, 2 FROZEN, 3 ERROR. -/
def Dev.chState (d : Dev) (c : Nat) : Nat := d.rdF pgDMA (chStat c) 1 0
def Dev.setChState (d : Dev) (c st : Nat) : Dev := d.wrF pgDMA (chStat c) 1 0 st
/-- CH_CTL.ARM and CH_CTL.LINK. -/
def Dev.chArmed (d : Dev) (c : Nat) : Bool := d.rdB pgDMA (chCtl c) 0
def Dev.chLink (d : Dev) (c : Nat) : Bool := d.rdB pgDMA (chCtl c) 3
/-- DMA_STAT.ERR. -/
def Dev.dmaErr (d : Dev) : Bool := d.rdB pgDMA Reg.DMA_STAT 0

/-! ### Descriptors (R478, R479) -/

/-- Word i of a descriptor. -/
def descW (a : List Word) (i : Nat) : Word := a.getD i 0

/-- A side of a descriptor: its first word's index (0 source, 5 destination): start address, line bytes, width, stride, lines. -/
def descAddr (a : List Word) (k : Nat) : Nat := (descW a k).toNat + field (descW a (k + 1)) 15 0 * 2 ^ 32
def descLine (a : List Word) (k : Nat) : Nat := field (descW a (k + 2)) 23 0
def descWidth (a : List Word) (k : Nat) : Nat := field (descW a (k + 2)) 26 24
def descStride (a : List Word) (k : Nat) : Int := (descW a (k + 3)).toInt
def descLines (a : List Word) (k : Nat) : Nat := field (descW a (k + 4)) 23 0
/-- The total (R479). -/
def descTotal (a : List Word) : Nat := descLine a 0 * descLines a 0
/-- NEXT. -/
def descNext (a : List Word) : Nat := (descW a 11).toNat / 64 * 64 + field (descW a 12) 15 0 * 2 ^ 32
/-- DCTL: REQ, IRQ, BURST (R478). -/
def descReq (a : List Word) : Nat := field (descW a 10) 5 0
def descIrq (a : List Word) : Bool := bit (descW a 10) 8
def descBurst (a : List Word) : Nat := let b := field (descW a 10) 22 16; if b = 0 ∨ 64 < b then 64 else b

/-- DERR (R479): the first failing code; 0 for none. -/
def Dev.descCheck (d : Dev) (c : Nat) (a : List Word) : Nat :=
  let next := descNext a
  if descTotal a ≠ descLine a 5 * descLines a 5 then 1
  else if descLine a 0 = 0 ∨ descLines a 0 = 0 ∨ descLine a 5 = 0 ∨ descLines a 5 = 0 then 2
  else if descWidth a 0 = 7 ∨ descWidth a 5 = 7 then 3
  else if descReq a = 7 ∨ 32 ≤ descReq a then 4
  else if d.chLink c && decide (next ≠ 0) && !d.inDram next 64 && !inGlyph next 64 then 5
  else 0

/-- The address of stream byte i on a side (R480), modulo the 48-bit space. -/
def descByte (a : List Word) (k i : Nat) : Nat :=
  let line := descLine a k
  (((descAddr a k : Int) + (i / line : Nat) * descStride a k + (i % line : Nat)) % (2 ^ 48 : Int)).toNat

/-! ### Request lines (R484, R533) -/

/-- The count of a level line: the whole words that the FIFO can take or give. -/
def Dev.reqCount (d : Dev) (r : Nat) : Nat :=
  match r with
  | 1 => (64 - d.lsp.utx.length) / 4
  | 2 => d.lsp.urx.length / 4
  | 3 => (256 - d.lsp.xfifo.length) / 4
  | 4 => d.lsp.xfifo.length / 4
  | 5 => (32 - d.lsp.ififo.length) / 4
  | 6 => d.lsp.ififo.length / 4
  | _ => 0

/-- The request line is asserted; a free-running channel's counts as asserted. -/
def Dev.reqOn (d : Dev) (r : Nat) : Bool :=
  if r = 0 then true else if r < 7 then decide (0 < d.reqCount r) else decide (8 ≤ r ∧ r < 32) && d.dma.flags / 2 ^ r % 2 == 1

/-- DMA_REQ (R496): lines 1 to 31. -/
def Dev.reqWord (d : Dev) : Word :=
  word (((List.range 32).map (fun r => if r ≠ 0 ∧ d.reqOn r then 2 ^ r else 0)).sum)

/-! ### Hand-over (R487 to R489) -/

/-- The shadow's words. -/
def Dev.shadow (d : Dev) (c : Nat) : List Word := (List.range 13).map (fun i => d.rd pgDMA (Reg.CH_SHADOW + 64 * c + 4 * i))

/-- A hand-over is due and nothing holds it: no bus error stands, and with LINK a fetch in progress holds it until ARM is set. -/
def Dev.handReady (d : Dev) (c : Nat) : Bool :=
  let x := d.chan c
  x.handAt.isSome && !d.dmaErr && !(x.fetching && !d.chArmed c)

/-- The hand-over (R487). -/
def Dev.handOver (d : Dev) (c : Nat) : Dev :=
  let x := d.chan c
  let d := if x.ended && descIrq x.active then d.irq pgDMA c else d
  let d := d.setChan c { x with handAt := none, ended := false }
  if d.chArmed c then
    let a := d.shadow c
    let d := d.wrB pgDMA (chCtl c) 0 false
    let d := d.wrF pgDMA (chStat c) 31 16 (d.rdF pgDMA (chStat c) 31 16 + 1)
    let d := d.onChan c (fun x => { x with active := a, spos := 0, dpos := 0, held := [], left := 0 })
    let code := d.descCheck c a
    if code ≠ 0 then ((d.setChState c 3).wrF pgDMA (chStat c) 6 4 code).irq pgDMA c
    else
      let d := ((d.setChState c 1).add64 pgDMA (chCount c 0) (descTotal a)).add64 pgDMA (chCount c 2) (descTotal a)
      d.onChan c (fun x => { x with fetching := d.chLink c && decide (descNext a ≠ 0) })
  else d.setChState c 0

/-- HANDOVER (R487): in its cycle. -/
def Dev.handRow (d : Dev) (c : Nat) : Dev :=
  match (d.chan c).handAt with
  | none => d
  | some k => if d.handReady c then (d.toCyc k).handOver c else d.reply .waits

/-- A hand-over whose cycle has come takes place before a write that arrives now (R487). -/
def Dev.handDue (d : Dev) (c : Nat) : Dev :=
  match (d.chan c).handAt with
  | some k => if k ≤ d.cyc ∧ d.handReady c then d.handOver c else d
  | none => d

/-- ARM written 1 (R488, R489): from IDLE or ERROR the hand-over takes place in the next cycle. -/
def Dev.chArm (d : Dev) (c : Nat) : Dev :=
  if d.chLink c && d.chState c != 0 then d
  else
    let d := d.wrB pgDMA (chCtl c) 0 true
    if d.chState c = 0 ∨ d.chState c = 3 then
      d.onChan c (fun x => { x with handAt := some (x.handAt.getD (d.cyc + 1)) })
    else d

/-- ABORT (R490): the bytes not written move to CH_ABANDON; an ended descriptor still raises its event. -/
def Dev.chAbort (d : Dev) (c : Nat) : Dev :=
  let x := d.chan c
  let d := if x.ended && descIrq x.active then d.irq pgDMA c else d
  let n := d.rd64 pgDMA (chCount c 2)
  let d := (d.wr64 pgDMA (chCount c 2) 0).add64 pgDMA (chCount c 3) n
  let d := (d.wrB pgDMA (chCtl c) 0 false).setChState c 0
  d.setChan c { x with held := [], left := 0, fetching := false, handAt := none, ended := false }

/-- CHn_CTL written (R488 to R490): ABORT wins over DISARM, DISARM over ARM. -/
def Dev.chCtlWrite (d : Dev) (c : Nat) (v : Word) : Dev :=
  let d := d.handDue c
  let d := d.regStore pgDMA (chCtl c) (v &&& 0xFFFFFFF8)
  if bit v 2 then d.chAbort c
  else if bit v 1 then d.wrB pgDMA (chCtl c) 0 false
  else if bit v 0 then d.chArm c
  else d

/-- A shadow word written (R487, R489). -/
def Dev.shadowWrite (d : Dev) (off : Nat) (v : Word) : Dev :=
  let c := (off - Reg.CH_SHADOW) / 64
  let d := d.handDue c
  if 0x34 ≤ (off - Reg.CH_SHADOW) % 64 ∨ (d.chLink c && d.chState c != 0) then d else d.regStore pgDMA off v

/-- DMA_RESUME (R493): ignored while ERR is 1; an interrupted fetch is made again. -/
def Dev.dmaResume (d : Dev) (mask : Nat) : Dev :=
  if d.dmaErr then d
  else forN 16 (fun c d => if mask / 2 ^ c % 2 = 1 ∧ d.chState c = 2 then d.setChState c 1 else d) d

/-- A write to a word of the DMA page from 0x040 on. -/
def Dev.dmaWrite (d : Dev) (off : Nat) (v : Word) : Dev :=
  if off = Reg.DMA_RESUME then d.dmaResume v.toNat
  else if off = Reg.DMA_ACCT_CTL then d.acctWrite pgDMA off v
  else if 0x080 ≤ off ∧ off < 0x100 ∧ off % 8 = 0 then d.chCtlWrite ((off - 0x080) / 8) v
  else if 0x100 ≤ off ∧ off < 0x500 then d.shadowWrite off v
  else d.regStore pgDMA off v

/-! ### Reads -/

/-- CHn_ACTIVE (R496): positions, what is left of the lines, and the active words. -/
def Dev.activeWord (d : Dev) (c i : Nat) : Word :=
  let x := d.chan c
  let a := x.active
  let side := fun (k pos j : Nat) =>
    let line := descLine a k
    let total := line * descLines a k
    if total = 0 then 0
    else
      let p := min pos total
      let addr := if p = total then descByte a k (total - 1) + 1 else descByte a k p
      match j with
      | 0 => word addr
      | 1 => word (addr / 2 ^ 32 % 2 ^ 16)
      | 2 => word (if p = total then 0 else line - p % line)
      | _ => word (descLines a k - p / line)
  if i < 4 then side 0 x.spos i
  else if i < 8 then side 5 x.dpos (i - 4)
  else match i with
    | 8 => descW a 10
    | 9 => descW a 11
    | 10 => descW a 12
    | 11 => word x.held.length
    | _ => 0

/-- A word of the DMA page from 0x040 on as read. -/
def Dev.dmaRead (d : Dev) (off : Nat) : Word :=
  if off = Reg.DMA_STAT then
    word (d.dmaErr.toNat + ((List.range 16).any (fun c => d.chState c == 1)).toNat * 2)
  else if off = Reg.DMA_REQ then d.reqWord
  else if 0x080 ≤ off ∧ off < 0x100 ∧ off % 8 = 4 then
    let c := (off - 0x080) / 8
    putBit (d.rd pgDMA off) 2 (decide (descReq (d.chan c).active ≠ 0) && d.reqOn (descReq (d.chan c).active))
  else if 0x500 ≤ off ∧ off < 0x900 then d.activeWord ((off - 0x500) / 64) (off % 64 / 4)
  else if 0x100 ≤ off ∧ off < 0x500 ∧ 0x34 ≤ off % 64 then 0
  else d.rd pgDMA off

/-! ### Commands -/

/-- CH_ARM (R488). -/
def execChArm (r : Req) (c : Chan) (s : State) : Host.Outcome State Fault Refusal :=
  s.onPage r pgDMA (fun d => (d.handDue c).chArm c)
/-- DISARM (R488). -/
def execDisarm (r : Req) (c : Chan) (s : State) : Host.Outcome State Fault Refusal :=
  s.onPage r pgDMA (fun d => (d.handDue c).wrB pgDMA (chCtl c) 0 false)
/-- CH_ABORT (R490). -/
def execChAbort (r : Req) (c : Chan) (s : State) : Host.Outcome State Fault Refusal :=
  s.onPage r pgDMA (fun d => (d.handDue c).chAbort c)
/-- HANDOVER (R479, R487). -/
def execHandover (c : Chan) (s : State) : Host.Outcome State Fault Refusal := s.run (fun d => d.handRow c)
/-- DMA_RESUME (R493). -/
def execDmaResume (r : Req) (mask : BitVec 16) (s : State) : Host.Outcome State Fault Refusal :=
  s.onPage r pgDMA (fun d => d.dmaResume mask.toNat)

end Sys2Proof.Machine
end

