-- ==== Sys2Proof/Machine/LePorts.lean ====
section
/-! DEFINITION. The ports of a line engine (R181, R182, R194 to R228, R259, R273): what a read returns, which faults and
stalls a write meets, and what it does. -/
namespace Sys2Proof.Machine

/-! ### Instructions (R184 to R188) -/

/-- One move: destination, whether its source is an immediate, the source's port or value. -/
structure Move where
  dst : Nat
  imm : Bool
  src : Nat
  deriving DecidableEq, Repr

/-- A decoded instruction: its moves (one, or a pair), and its guard: predicate (0: always) and the value it asks for. -/
structure LeInstr where
  moves : List Move
  pred : Nat
  want : Bool
  deriving DecidableEq, Repr

/-- R184 to R186: an instruction's moves and guard. -/
def leDecode (w : Word) : LeInstr :=
  if bit w 31 then
    let short := fun (hi : Nat) =>
      let imm := bit w (hi - 7)
      let s := field w (hi - 8) (hi - 14)
      ({ dst := field w hi (hi - 6), imm := imm, src := if imm then unsign 32 (signed 7 s) else s } : Move)
    { moves := [short 29, short 14], pred := (bit w 30).toNat, want := true }
  else
    let g := field w 29 27
    { moves := [{ dst := field w 26 16, imm := bit w 30
                  src := if bit w 30 then unsign 32 (signed 16 (field w 15 0)) else field w 10 0 }]
      pred := g % 4, want := decide (g < 4) }

/-! ### Port map (R194, R228, R259, R273) -/

/-- A port with a read meaning. -/
def portReads (p : Nat) : Bool :=
  decide (p < 0x20) || decide (0x21 ≤ p ∧ p ≤ 0x23) || decide (0x6C ≤ p ∧ p ≤ 0x6E) || decide (0x75 ≤ p ∧ p ≤ 0x78)
  || decide (0x57 ≤ p ∧ p ≤ 0x59) || decide (0x80 ≤ p ∧ p ≤ 0x84) || decide (0x90 ≤ p ∧ p ≤ 0x95) || p == 0x97
  || decide (0x100 ≤ p ∧ p ≤ 0x105) || decide (0x400 ≤ p ∧ p ≤ 0x7FF)
  || [0x30, 0x3E, 0x40, 0x4E, 0x50, 0x53, 0x54, 0x64, 0x68, 0x6A, 0x72, 0x7A, 0x7C].contains p

/-- A port with a write meaning. -/
def portWrites (p : Nat) : Bool :=
  decide (p < 0x20) || decide (0x21 ≤ p ∧ p ≤ 0x23) || decide (0x30 ≤ p ∧ p ≤ 0x3D) || decide (0x40 ≤ p ∧ p ≤ 0x4D)
  || decide (0x50 ≤ p ∧ p ≤ 0x53) || decide (0x57 ≤ p ∧ p ≤ 0x64) || decide (0x68 ≤ p ∧ p ≤ 0x6A)
  || decide (0x6C ≤ p ∧ p ≤ 0x70) || decide (0x72 ≤ p ∧ p ≤ 0x74) || decide (0x78 ≤ p ∧ p ≤ 0x7B)
  || decide (0x7D ≤ p ∧ p ≤ 0x7F) || decide (0x400 ≤ p ∧ p ≤ 0x7FF)
  || [0x90, 0x91, 0x94, 0x95, 0x96].contains p

/-- A register or operand port: a write to it sets it and does nothing else (R181, R268). -/
def portSettable (p : Nat) : Bool :=
  decide (p < 0x20) || decide (0x21 ≤ p ∧ p ≤ 0x23) || decide (0x6C ≤ p ∧ p ≤ 0x6E)
  || [0x30, 0x40, 0x50, 0x53, 0x57, 0x64, 0x68, 0x6A, 0x72, 0x78, 0x7A, 0x90, 0x91, 0x94, 0x95].contains p

/-- The unit of a short port (R192), named by its first port. -/
def portUnit (p : Nat) : Nat :=
  if 0x30 ≤ p ∧ p ≤ 0x3E then 0x30
  else if 0x40 ≤ p ∧ p ≤ 0x4E then 0x40
  else if 0x50 ≤ p ∧ p ≤ 0x54 then 0x50
  else if 0x57 ≤ p ∧ p ≤ 0x5F then 0x57
  else if 0x60 ≤ p ∧ p ≤ 0x64 then 0x60
  else if 0x68 ≤ p ∧ p ≤ 0x6A then 0x68
  else if 0x6C ≤ p ∧ p ≤ 0x70 then 0x6C
  else if 0x72 ≤ p ∧ p ≤ 0x77 then 0x72
  else if 0x78 ≤ p ∧ p ≤ 0x79 then 0x78
  else if 0x7A ≤ p ∧ p ≤ 0x7C then 0x7A
  else p

/-- The faults that an instruction's encoding decides (R235): the lowest cause code and its move; none: no such fault. -/
def encodingFault (w : Word) (i : LeInstr) : Option (Nat × Bool) :=
  let bad := fun (m : Move) => !portWrites m.dst || (!m.imm && !portReads m.src)
  if !bit w 31 && field w 29 27 == 4 then some (1, false)
  else if !bit w 31 && !bit w 30 && field w 15 11 != 0 then some (2, false)
  else match i.moves with
    | [a, b] =>
      if portUnit a.dst = portUnit b.dst then some (3, false)
      else if bad a then some (4, false)
      else if bad b then some (4, true)
      else none
    | [a] => if bad a then some (4, false) else none
    | _ => none

/-- The guard holds (R187, R189, R190). -/
def Engine.guard (x : Engine) (i : LeInstr) : Bool :=
  match i.pred with
  | 0 => true
  | 1 => x.p1 == i.want
  | 2 => x.p2 == i.want
  | _ => x.p3 == i.want

/-! ### Reads -/

/-- E.ESTATE (R259). -/
def Engine.estate (x : Engine) : Word :=
  word (x.evIn.toNat + x.evWait.toNat * 2 + x.evPred % 8 * 4 + x.evSrc.toNat * 256)

/-- The head that BM.HEAD or HR.SEL names; none above 131 (R216, R221). -/
def namedHead (v hi lo : Nat) (w : Word) : Option Nat := if field w hi lo ≤ v then some (field w hi lo) else none

/-- A port's read meaning (R194, R216, R228, R259, R273), without what reading does. -/
def Dev.portValue (d : Dev) (e p : Nat) : Word :=
  let x := d.eng e
  let q := pgLE e
  if p < 0x20 then x.g.getD p 0
  else if 0x400 ≤ p then
    match namedHead 131 23 16 x.hrSel with
    | some h => d.headWord h (4 * (p - 0x400))
    | none => 0
  else match p with
    | 0x21 => word x.p1.toNat | 0x22 => word x.p2.toNat | 0x23 => word x.p3.toNat
    | 0x30 => x.op0 | 0x3E => x.res0 | 0x40 => x.op1 | 0x4E => x.res1
    | 0x50 => x.mop | 0x53 => x.macc | 0x54 => x.mres
    | 0x57 => x.ldata | 0x58 => x.lres | 0x59 => 0
    | 0x64 => x.blink | 0x68 => x.lpCount | 0x6A => x.lpState
    | 0x6C => x.stSrc | 0x6D => x.stDst | 0x6E => x.stLen
    | 0x72 => x.bmHead
    | 0x75 => match namedHead 131 7 0 x.bmHead with
      | some h => word (field (d.beamWord h) 11 0)
      | none => 0
    | 0x76 => match namedHead 131 7 0 x.bmHead with
      | some h => word (field (d.beamWord h) 27 16)
      | none => 0
    | 0x77 => match namedHead 131 7 0 x.bmHead with
      | some h => word (d.frameNumber h)
      | none => 0
    | 0x78 => x.hrSel | 0x7A => x.khi | 0x7C => x.kres
    | 0x80 => word e
    | 0x81 => word d.cyc
    | 0x82 => x.latchCyc.getD (word (d.cyc / 2 ^ 32))
    | 0x83 => word d.ft
    | 0x84 => x.latchFt.getD (word (d.ft / 2 ^ 32))
    | 0x90 => x.epc | 0x91 => x.estate
    | 0x92 => word x.ewaitc
    | 0x93 => x.latchEw.getD (word (x.ewaitc / 2 ^ 32))
    | 0x94 => x.emask | 0x95 => word x.epend | 0x97 => x.mbox
    | 0x100 => d.rd q Reg.LE_ISSUED
    | 0x101 => x.latchIss.getD (d.rd q (Reg.LE_ISSUED + 4))
    | 0x102 => d.rd q Reg.LE_STALLS
    | 0x103 => d.rd q Reg.LE_REDIRECTS
    | 0x104 => d.rd q Reg.LE_FILLS
    | 0x105 => d.rd q Reg.LE_LBUF
    | _ => 0

/-- What reading a port does: a low port latches its high word, and the read of the high port ends that (R228, R259, R273);
a read of the head-register window reads as the cores' view (R221). -/
def Dev.portLatch (d : Dev) (e p : Nat) : Dev :=
  if 0x400 ≤ p then
    match namedHead 131 23 16 (d.eng e).hrSel with
    | some h => (d.headReadNow h (4 * (p - 0x400))).1
    | none => d
  else d.onEng e (fun x => match p with
    | 0x81 => { x with latchCyc := some (word (d.cyc / 2 ^ 32)) }
    | 0x82 => { x with latchCyc := none }
    | 0x83 => { x with latchFt := some (word (d.ft / 2 ^ 32)) }
    | 0x84 => { x with latchFt := none }
    | 0x92 => { x with latchEw := some (word (x.ewaitc / 2 ^ 32)) }
    | 0x93 => { x with latchEw := none }
    | 0x100 => { x with latchIss := some (d.rd (pgLE e) (Reg.LE_ISSUED + 4)) }
    | 0x101 => { x with latchIss := none }
    | _ => x)

/-- What a window read returns with its latch (R221): the other ports' values do not depend on what reading them does. -/
def Dev.portRead (d : Dev) (e p : Nat) : Word :=
  if 0x400 ≤ p then
    match namedHead 131 23 16 (d.eng e).hrSel with
    | some h => (d.headReadNow h (4 * (p - 0x400))).2
    | none => 0
  else d.portValue e p

/-! ### Faults and stalls of a performed move -/

/-- The LSU triggers (R199): size in bytes, sign-extended, whether a store. -/
def lsuOp : Nat → Option (Nat × Bool × Bool)
  | 0x58 => some (1, true, false)
  | 0x59 => some (1, false, false)
  | 0x5A => some (2, true, false)
  | 0x5B => some (2, false, false)
  | 0x5C => some (4, false, false)
  | 0x5D => some (1, false, true)
  | 0x5E => some (2, false, true)
  | 0x5F => some (4, false, true)
  | _ => none

/-- R221: engine e may write offset off of head h. -/
def Dev.hregOk (d : Dev) (e h off : Nat) : Bool :=
  decide (h ≤ 131) && d.rdB (pgLE e) (Reg.LE_HEADS + 4 * (h / 32)) (h % 32)
    && (decide (0x070 ≤ off ∧ off ≤ 0x0E0) || decide (0x800 ≤ off ∧ off ≤ 0xFFC) || isV h && decide (0x100 ≤ off ∧ off ≤ 0x13F))

/-- The word that a head-register move writes: HR.TWR's WORD, or the window port's. -/
def hregWord (x : Engine) (p : Nat) : Nat := if p = 0x79 then field x.hrSel 9 0 else p - 0x400

/-- LP.STATE for a body of n words after the instruction at a (R208, R209). -/
def lpStateOf (a n : Nat) : Word :=
  let (base, region) := if a < 0x18000000 then (0x10000, 0) else (0x18000000, 1)
  word ((a + 4 - base) / 4 % 2 ^ 19 + region * 2 ^ 19 + (n - 1) * 2 ^ 20)

/-- R209: a body of n words after the instruction at a lies in a's region. -/
def loopOk (a n : Nat) : Bool :=
  decide (1 ≤ n ∧ n ≤ 4096)
    && (if a < 0x18000000 then decide (a + 4 * n < 0x14000) else decide (a + 4 * n < 0x18200000))

/-- Why a performed write of v to port p faults, in the instruction at a: cause and LE_FAULT_ADDR (R235, R236). -/
def Dev.portFault (d : Dev) (e a p : Nat) (v : Word) : Option (Nat × Nat) :=
  let x := d.eng e
  match lsuOp p with
  | some (n, _, _) =>
    match d.halves e v.toNat n with
    | none => some (5, v.toNat)
    | some l => if d.det e && l.any (fun h => h.1.shared) then some (8, 0) else none
  | none =>
    if p = 0x79 ∨ 0x400 ≤ p then
      if d.hregOk e (field x.hrSel 23 16) (4 * hregWord x p) then none else some (6, 0)
    else if p = 0x69 then (if loopOk a v.toNat then none else some (7, 0))
    else if p = 0x73 ∨ p = 0x74 then
      match namedHead 131 7 0 x.bmHead with
      | none => some (10, v.toNat)
      | some h =>
        if d.vtotal h ≤ field v 11 0 ∨ d.htotal h ≤ (if p = 0x74 then field v 27 16 else 0) then some (10, v.toNat) else none
    else if p = 0x96 ∧ x.evIn = false then some (4, 0)
    else none

/-- Everything that a FENCE waits for is under way no more (R227). -/
def Engine.quiet (x : Engine) : Bool := x.shared.isEmpty && x.hreg.isEmpty && x.str.isNone

/-- A performed write of v to port p stalls until another command ends the stall (R201, R213, R222, R227). -/
def Dev.portStall (d : Dev) (e p : Nat) (v : Word) : Bool :=
  let x := d.eng e
  match lsuOp p with
  | some (n, _, _) =>
    x.str.isSome || (let k := d.sharedCount e v.toNat n; decide (0 < k ∧ 4 < x.shared.length + k))
  | none =>
    if 0x6C ≤ p ∧ p ≤ 0x70 then x.str.isSome
    else if p = 0x7F then !x.quiet
    else if p = 0x79 ∨ 0x400 ≤ p then decide (4 ≤ x.hreg.length)
    else false

/-- The first cycle in which a write of v to port p may issue for what has completed before: a shared access counts as
outstanding through its last cycle (R201, R202); a local access comes before a shared one to the engine's local memory in its
cycle (R204); a FENCE waits for what it names (R227). -/
def Dev.writeFrom (d : Dev) (e p : Nat) (v : Word) : Nat :=
  let x := d.eng e
  match lsuOp p with
  | some (n, _, _) =>
    let k := d.sharedCount e v.toNat n
    if k = 0 then x.localFrom
    else if x.doneCnt.1 = d.cyc ∧ 4 < x.shared.length + x.doneCnt.2 + k then d.cyc + 1 else 0
  | none =>
  if p = 0x7F then
    let loads := x.flights.filterMap (fun f => match f.2 with
      | .load _ => some f.1
      | _ => none)
    loads.foldl max (max x.storeAt (max x.sharedAt x.hregAt))
  else 0

/-! ### Writes -/

/-- The ALU operations in the order of their ports (R195). -/
def aluOp (k : Nat) (t o : Word) : Word :=
  match k with
  | 1 => t + o
  | 2 => t - o
  | 3 => t &&& o
  | 4 => t ||| o
  | 5 => t ^^^ o
  | 6 => t <<< (o.toNat % 32)
  | 7 => t >>> (o.toNat % 32)
  | 8 => t.sshiftRight (o.toNat % 32)
  | 9 => if t = o then 1 else 0
  | 10 => if t.slt o then 1 else 0
  | 11 => if t.ult o then 1 else 0
  | 12 => if t.slt o then t else o
  | _ => if t.slt o then o else t

/-- A write to LP.COUNT or LP.STATE, or LP.TSTART: the fetch unit has not seen one of the first two in the next cycle (R250). A
write of LP.STATE or LP.TSTART, or LP.COUNT reaching 0, disengages the loop buffer (R252). -/
def Engine.loopWrite (x : Engine) (c : Nat) (count state : Word) (start drop : Bool) : Engine :=
  let y := { x with lpPrev := if start then x.lpPrev else some (c, x.lpCount, x.lpState), lpCount := count, lpState := state }
  if drop ∨ count = 0 then { y with lbuf := [], lbufOn := false } else y

/-- The instruction words after the one at a that a store of n bytes at physical address q changes, as fetched before it
(R253). -/
def Dev.staleWords (d : Dev) (e a q n : Nat) : List (Nat × Word) :=
  (List.range 4).filterMap (fun k =>
    let w := a + 4 * (k + 1)
    let phys := if w < 0x18000000 then progBase e + (w - 0x10000) else storeBase + (w - 0x18000000)
    if q < phys + 4 ∧ phys < q + n then
      let x := d.eng e
      let held := (x.fbuf.toList ++ x.cache).find? (fun l => l.1 == w / 64 * 64)
      some (w, match held with
        | some l => word (ofLe ((l.2.drop (w % 64)).take 4))
        | none => word (d.num phys 4))
    else none)

/-- A store trigger, with the words that it leaves stale. -/
def Dev.leStore (d : Dev) (e a t n : Nat) : Dev :=
  let old := match d.halves e t n with
    | some l => l.flatMap (fun (h : Place × Nat) => d.staleWords e a h.1.phys h.2)
    | none => []
  let bs := leBytes n (d.eng e).ldata.toNat
  (d.startStore e t bs).onEng e (fun x =>
    { x with stale := x.stale ++ old.filter (fun w => !x.stale.any (fun v => v.1 == w.1)) })

/-- A string trigger (R211, R214): the operation starts, unless ST.LEN is 0. -/
def Dev.strStart (d : Dev) (e a : Nat) (w : Word) (moveB fill : Bool) (v : Word) : Dev :=
  d.onEng e (fun x => if x.stLen = 0 then x else
    { x with str := some { fill := fill, down := !fill && bit v 0, val := v, trig := d.cyc, pc := a, iword := w
                           moveB := moveB, zeroAtEnd := false, moved := 0 } })

/-- A write of T to HR.TWR or to a window port (R221, R222): queued. -/
def Dev.hregQueue (d : Dev) (e p : Nat) (v : Word) : Dev :=
  d.onEng e (fun x =>
    let x' := { x with hreg := x.hreg ++ [(d.cyc, field x.hrSel 23 16, 4 * hregWord x p, v)] }
    if p = 0x79 ∧ bit x.hrSel 31 then { x' with hrSel := putField x.hrSel 9 0 (field x.hrSel 9 0 + 1) } else x')

/-- M.ACC written (R197): a TMAC that completes in this cycle adds its product to the written value. -/
def Engine.writeAcc (x : Engine) (c : Nat) (v : Word) : Engine :=
  match x.macAt with
  | some (k, p) => if k = c then { x with macc := v + p, mres := v + p } else { x with macc := v }
  | none => { x with macc := v }

/-- A write of v to port p by the instruction at a, whose word is w, in the present cycle: registers, operands and triggers
(R181). Branches, and where execution goes on, are Machine/LeFetch.lean's. -/
def Dev.portWrite (d : Dev) (e a : Nat) (w : Word) (moveB : Bool) (p : Nat) (v : Word) : Dev :=
  let on := d.onEng e
  let c := d.cyc
  if p < 0x20 then on (fun x => { x with g := x.g.set p v })
  else if 0x31 ≤ p ∧ p ≤ 0x3D then on (fun x => { x with res0 := aluOp (p - 0x30) v x.op0 })
  else if 0x41 ≤ p ∧ p ≤ 0x4D then on (fun x => { x with res1 := aluOp (p - 0x40) v x.op1 })
  else if 0x400 ≤ p then d.hregQueue e p v
  else match lsuOp p with
    | some (n, sx, st) => if st then d.leStore e a v.toNat n else d.startLoad e v.toNat n sx
    | none =>
      match p with
      | 0x21 => on (fun x => { x with p1 := bit v 0 })
      | 0x22 => on (fun x => { x with p2 := bit v 0 })
      | 0x23 => on (fun x => { x with p3 := bit v 0 })
      | 0x30 => on (fun x => { x with op0 := v })
      | 0x40 => on (fun x => { x with op1 := v })
      | 0x50 => on (fun x => { x with mop := v })
      | 0x51 => on (fun x => { x with flights := x.flights ++ [(c + 2, .mul (v * x.mop))] })
      | 0x52 => on (fun x => { x with flights := x.flights ++ [(c + 2, .mac (v * x.mop))] })
      | 0x53 => on (fun x => x.writeAcc c v)
      | 0x57 => on (fun x => { x with ldata := v })
      | 0x62 => on (fun x => { x with blink := word (a + 4) })
      | 0x64 => on (fun x => { x with blink := v })
      | 0x68 => on (fun x => x.loopWrite c v x.lpState false false)
      | 0x69 => on (fun x => x.loopWrite c x.lpCount (lpStateOf a v.toNat) true true)
      | 0x6A => on (fun x => x.loopWrite c x.lpCount v false true)
      | 0x6C => on (fun x => { x with stSrc := v })
      | 0x6D => on (fun x => { x with stDst := v })
      | 0x6E => on (fun x => { x with stLen := v })
      | 0x6F => d.strStart e a w moveB false v
      | 0x70 => d.strStart e a w moveB true v
      | 0x72 => on (fun x => { x with bmHead := v })
      | 0x78 => on (fun x => { x with hrSel := v })
      | 0x79 => d.hregQueue e p v
      | 0x7A => on (fun x => { x with khi := v })
      | 0x7B => on (fun x => { x with kres := word (field x.khi 15 0 * 65536 + field v 15 0) })
      | 0x7D => d.irq (pgLE e) (16 + v.toNat % 16)
      | 0x90 => on (fun x => { x with epc := v })
      | 0x91 => on (fun x => { x with evWait := bit v 1, evPred := field v 4 2 })
      | 0x94 => on (fun x => { x with emask := v })
      | 0x95 => on (fun x => { x with
          epend := x.epend &&& ((3 - field v 1 0) ||| (if x.pendNow.1 = c then x.pendNow.2 else 0)) })
      | 0x96 => on (fun x => { x with p1 := x.evPred % 2 == 1, p2 := x.evPred / 2 % 2 == 1, p3 := x.evPred / 4 % 2 == 1
                                      evIn := false, useHeld := x.evWait })
      | _ => d

end Sys2Proof.Machine
end

