-- ==== Sys2Proof/Machine/LeFetch.lean ====
section
/-! DEFINITION. The fetch path of a line engine: where instructions come from (R206, R241 to R244), redirects (R246),
branch prediction (R247 to R249), block repeat (R208 to R210, R250), the loop buffer (R251, R252), stale words (R253)
and FETCH_SYNC (R254 to R256). -/
namespace Sys2Proof.Machine

/-- A cache set's index (R241). -/
def cacheSet (a : Nat) : Nat := a / 64 % 64

/-- A line filled: into the fetch buffer while PMEM is LOCKED, else into its set, whose least recently used line gives way
(R241). -/
def Engine.fill (x : Engine) (locked : Bool) (line : Nat) (bs : List Byte) : Engine :=
  if locked then { x with fbuf := some (line, bs), missing := none }
  else
    let set := (x.cache.filter (fun l => cacheSet l.1 == cacheSet line)).take 3
    let rest := x.cache.filter (fun l => cacheSet l.1 != cacheSet line)
    { x with cache := (line, bs) :: set ++ rest, missing := none }

/-- FETCH_FILL (R243): the missing line arrives, no earlier than 12 cycles after the miss was found; fetch goes on with its word,
which can issue now. -/
def Dev.fetchFill (d : Dev) (e : Nat) : Dev :=
  let d := d.prefetch e
  match (d.eng e).missing with
  | none => d
  | some (line, c) =>
    let d := d.toCyc (c + 12)
    let bs := d.bytes (storeBase + (line - 0x18000000)) 64
    (d.onEng e (fun x => { x.fill (d.pmemLocked e) line bs with fcyc := d.cyc - 2 })).add32 (pgLE e) Reg.LE_FILLS 1

/-! ### Redirects and prediction -/

/-- A redirect decided in cycle c: the next instruction issues in c + 3 at the earliest (R246). -/
def Dev.redirect (d : Dev) (e c pc : Nat) : Dev :=
  ((d.setPc e pc).onEng e (fun x => { x with
    ready := c + 3, stale := [], missing := none, fq := [], fpc := pc, fcyc := c + 1 })).add32 (pgLE e) Reg.LE_REDIRECTS 1

/-- A performed branch recorded, if its entry is absent or holds another target (R247). -/
def Engine.record (x : Engine) (pc target : Nat) (guarded : Bool) : Engine :=
  let old := spGet (fun _ => (0, 0, false)) x.btb (pc / 4 % 64)
  if old.1 = pc ∧ old.2.1 = target then x
  else { x with btb := spPut (fun _ => (0, 0, false)) x.btb (pc / 4 % 64) (pc, target, guarded) }

/-- A word captured as it issues (R251). -/
def Engine.capture (x : Engine) (pc : Nat) (w : Word) : Engine :=
  if x.inBody pc ∧ field x.lpState 31 20 ≤ 63 ∧ x.lbuf.all (fun v => v.1 != pc) then { x with lbuf := x.lbuf ++ [(pc, w)] }
  else x

/-- The target of a branch port (R205): the instruction at a, the value v, B.LINK at the start of the cycle. -/
def branchTarget (link : Word) (a p : Nat) (v : Word) : Option Nat :=
  let t := fun (w : Word) => w.toNat / 4 * 4
  match p with
  | 0x60 => some (t v)
  | 0x61 => some (t (word a + 4 * v))
  | 0x62 => some (t v)
  | 0x63 => some (t link)
  | _ => none

/-! ### FETCH_SYNC and INVAL -/

/-- The stores that a FETCH_SYNC waits for have all taken effect (R254). -/
def Engine.storesDone (x : Engine) : Bool := x.shared.all (fun s => s.load.isSome)

/-- A FETCH_SYNC that issued in cycle n takes effect if it can (R254): in cycle d, and the next instruction issues in d + 3. -/
def Dev.trySync (d : Dev) (e : Nat) : Dev :=
  let x := d.eng e
  match x.syncAt with
  | none => d
  | some n =>
    if x.storesDone then
      let c := max n (max x.storeAt x.storeDone)
      (d.onEng e (fun x => { x.invalidate with syncAt := none })).redirect e c (d.lePc e)
    else d

/-- What LE_CTL.INVAL does when it takes effect (R255). -/
def Dev.invalNow (d : Dev) (e : Nat) : Dev :=
  let d := d.onEng e (fun x => { x.invalidate with invalReq := false })
  if (d.eng e).st = .running then d.redirect e d.cyc (d.lePc e) else d

end Sys2Proof.Machine
end

