-- ==== Sys2Proof/Machine/LeCore.lean ====
section
/-! DEFINITION. How a line engine issues an instruction (R180, R183, R189 to R193, R245, R249, R257), its beam waits (R217 to
R219), faults (R235 to R238), events (R260 to R264), stopping and debug (R265 to R267), resets (R240, R269), swaps (R270,
R271), and writes to its page (R242, R268, R272). -/
namespace Sys2Proof.Machine

/-! ### Leaving and entering RUNNING -/

/-- The stall of the instruction at LE_PC ends: its cycles are counted (R272). -/
def Dev.endStall (d : Dev) (e : Nat) : Dev :=
  match (d.eng e).stallAt with
  | some c => (d.onEng e (fun x => { x with stallAt := none })).add32 (pgLE e) Reg.LE_STALLS (d.cyc - c)
  | none => d

/-- The engine leaves RUNNING in place of its next instruction (R266): an interrupted wait is held, with its c. -/
def Dev.leLeave (d : Dev) (e : Nat) (st : LeState) : Dev :=
  (d.endStall e).onEng e (fun x =>
    let x := match x.wait with
      | some w => { x with waitHeld := true, ewaitc := w.c }
      | none => { x with waitHeld := x.waitHeld || x.useHeld }
    { x.dropLbuf with st := st, wait := none, useHeld := false, stepping := false, haltReq := none })

/-- HALTED entered (R265, R272). -/
def Dev.leHalt (d : Dev) (e why : Nat) : Dev :=
  ((d.leLeave e .halted).onEng e (fun x => { x with why := why })).irq (pgLE e) 1

/-- RUNNING entered (R246, R265): honour says whether a held wait counts from E.EWAITC, skip whether breakpoints leave the next
instruction alone (R266). A freeze in force halts the engine again. -/
def Dev.leRun (d : Dev) (e : Nat) (honour skip : Bool) : Dev :=
  let d := (d.onEng e (fun x => { x with st := .running, useHeld := honour && x.waitHeld, waitHeld := false, skipBp := skip
                                         haltReq := none, runAt := d.ft, stallAt := none })).redirect e d.cyc (d.lePc e)
  if d.frozen (pgLE e) then d.leHalt e 3 else d

/-- The four fault registers (R236, R238). A write of 1 to VALID in the same cycle does not clear it. -/
def Dev.recordFault (d : Dev) (e what pc : Nat) (w : Word) (addr : Nat) : Dev :=
  let p := pgLE e
  (((d.wrN p Reg.LE_FAULT what).setBits p Reg.LE_FAULT (1 <<< 31) |>.wrN p Reg.LE_FAULT_PC pc).wr p Reg.LE_FAULT_WORD w).wrN
    p Reg.LE_FAULT_ADDR addr

/-- A fault (R235, R238): recorded while VALID is 0; the engine enters FAULTED with LE_PC at the instruction. -/
def Dev.leFault (d : Dev) (e code : Nat) (moveB : Bool) (pc : Nat) (w : Word) (addr : Nat) : Dev :=
  let p := pgLE e
  let what := code + moveB.toNat * 16
  let d := d.irq p 0
  let d := if d.rdB p Reg.LE_FAULT 31 then d.onEng e (fun x => { x with lateFault := some (d.cyc, what, pc, w, addr) })
    else d.recordFault e what pc w addr
  d.leLeave e .faulted

/-! ### Beam waits (R217 to R219) -/

/-- The target of a wait (R218): the earliest instant slot_at(f, k) at or after c, counted from the head's first frame where
that is later; none while the head does not run (R219). -/
def Dev.waitTarget (d : Dev) (w : WaitOp) : Option Nat :=
  let h := w.head
  let x := d.head h
  if d.runs h && (!w.fresh || x.adm == .running || decide (w.c ≤ d.startFt h x.first)) then
    let c := max w.c (d.startFt h x.first)
    let p := d.fperiod h
    let dd := (c + 2 ^ 64 - d.origin h) % 2 ^ 64
    let off := (w.line * d.htotal h + w.slot) * p / (d.htotal h * d.vtotal h)
    let f := if dd % p ≤ off then dd / p else dd / p + 1
    some (c + (f * p + off - dd))
  else none

/-- The wait that a write of v to port p triggers (R217): c is now, or E.EWAITC where a held wait is honoured (R264, R266). -/
def Dev.waitOf (d : Dev) (e p : Nat) (v : Word) (row : Bool) : WaitOp :=
  let x := d.eng e
  let h := field x.bmHead 7 0
  { head := h, line := field v 11 0, slot := if p = 0x74 then field v 27 16 else 0
    c := if x.useHeld then x.ewaitc else d.ft
    fresh := (d.head h).adm != .running, row := row }

/-- The wait's target has come. -/
def Dev.waitDue (d : Dev) (w : WaitOp) : Bool :=
  match d.waitTarget w with
  | some t => decide (t ≤ d.ft)
  | none => false

/-! ### Events and swaps -/

/-- An event can be taken (R261). -/
def Engine.takeable (x : Engine) : Bool := x.st == .running && !x.evIn && x.epend &&& field x.emask 1 0 != 0

/-- Event entry in the present cycle (R262, R263). -/
def Dev.eventEnter (d : Dev) (e : Nat) : Dev :=
  let pc := d.lePc e
  let d := (d.endStall e).onEng e (fun x =>
    { x.dropLbuf with
      epc := word pc, evIn := true, evWait := x.wait.isSome || x.useHeld
      evPred := x.p1.toNat + x.p2.toNat * 2 + x.p3.toNat * 4
      evSrc := (x.epend &&& field x.emask 1 0) % 2 == 0
      ewaitc := match x.wait with
        | some w => w.c
        | none => x.ewaitc
      wait := none, useHeld := false })
  let d := d.redirect e d.cyc (d.rdN (pgLE e) Reg.LE_EVVEC)
  if (d.eng e).stepping then d.leHalt e 2 else d

/-- E.EPEND bit i set (R260): EVENT_LOST where it was already 1. -/
def Dev.lePend (d : Dev) (e i : Nat) : Dev :=
  let lost := (d.eng e).epend / 2 ^ i % 2 == 1
  let d := d.onEng e (fun x => { x with
    epend := x.epend ||| 2 ^ i, pendNow := (d.cyc, (if x.pendNow.1 = d.cyc then x.pendNow.2 else 0) ||| 2 ^ i) })
  if lost then d.irq (pgLE e) 3 else d

/-- The ports as an engine reset leaves them (R240); stores issued stay. -/
def Engine.cleared (x : Engine) : Engine :=
  { ({} : Engine) with
    st := x.st, shared := x.shared.filter (fun s => s.load.isNone), storeAt := x.storeAt, storeDone := x.storeDone
    sharedAt := x.sharedAt, doneCnt := x.doneCnt, localFrom := x.localFrom, hregAt := x.hregAt, hregWord := x.hregWord, ready := x.ready, ewaitc := x.ewaitc, mbox := x.mbox, lineAt := x.lineAt
    why := x.why, armedAt := x.armedAt, runAt := x.runAt }

/-- An armed swap's frame start has come (R270): the frame in progress of LE_SWAP_CTL.HEAD began after ARM became 1, while the
engine was RUNNING. -/
def Dev.swapDue (d : Dev) (e : Nat) : Option Nat :=
  let p := pgLE e
  let x := d.eng e
  let h := d.rdF p Reg.LE_SWAP_CTL 7 0
  if d.rdB p Reg.LE_SWAP_CTL 8 && x.st == .running && decide (h ≤ 131) && d.runs h then
    match (d.head h).cur with
    | some f => if x.armedAt < d.startFt h f ∧ x.runAt < d.startFt h f then some f else none
    | none => none
  else none

/-- A swap in the present cycle (R271). -/
def Dev.leSwap (d : Dev) (e f : Nat) : Dev :=
  let p := pgLE e
  let keep := d.rdB p Reg.LE_SWAP_CTL 9
  let d := (d.endStall e).onEng e (fun x =>
    let y := x.cleared
    { y with
      shared := x.shared.map (fun s => if s.load.isSome then { s with drop := true } else s)
      hreg := x.hreg, str := x.str.map (fun o => { o with zeroAtEnd := true })
      stSrc := if x.str.isSome then x.stSrc else 0
      stDst := if x.str.isSome then x.stDst else 0
      stLen := if x.str.isSome then x.stLen else 0
      haltReq := x.haltReq, stepping := x.stepping
      g := if keep then x.g else y.g
      p1 := keep && x.p1, p2 := keep && x.p2, p3 := keep && x.p3 })
  let d := ((d.wrB p Reg.LE_SWAP_CTL 8 false).wrN p Reg.LE_SWAP_FRAME f).irq p 2
  d.redirect e d.cyc (d.rdN p Reg.LE_SWAP_ENTRY)

/-! ### Issue -/

/-- A move that a performed instruction makes: destination and value. -/
abbrev Performed := List (Nat × Word)

/-- The moves that the instruction performs with the values read in the issue cycle (R189, R191). -/
def Dev.performed (d : Dev) (e : Nat) (i : LeInstr) : Performed :=
  if (d.eng e).guard i then
    i.moves.map (fun m => (m.dst, if m.imm then word m.src else d.portRead e m.src))
  else []

/-- What the performed moves' source reads do. -/
def Dev.readEffects (d : Dev) (e : Nat) (i : LeInstr) : Dev :=
  if (d.eng e).guard i then forL (i.moves.filter (fun m => !m.imm)) (fun m d => d.portLatch e m.src) d else d

/-- The first cycle in which the instruction may issue for what has completed (R201, R202, R204, R227). -/
def Dev.issueFrom (d : Dev) (e : Nat) (i : LeInstr) : Nat :=
  let x := d.eng e
  if x.guard i then
    (((d.performed e i).map (fun m => d.writeFrom e m.1 m.2))
      ++ (i.moves.map (fun m => if !m.imm && m.src == 0x59 then x.sharedAt else 0))).foldl max 0
  else 0

/-- A stall that another command must end (R183); beam waits apart. -/
def Dev.instrStalls (d : Dev) (e : Nat) (i : LeInstr) : Bool :=
  let x := d.eng e
  x.guard i && (i.moves.any (fun m => !m.imm && m.src == 0x59) && !x.shared.isEmpty
    || (d.performed e i).any (fun m => d.portStall e m.1 m.2))

/-- The lowest cause that the performed moves meet, with its move and address (R235). -/
def Dev.moveFault (d : Dev) (e pc : Nat) (ms : Performed) : Option (Nat × Bool × Nat) :=
  match ms with
  | [a] => (d.portFault e pc a.1 a.2).map (fun f => (f.1, false, f.2))
  | [a, b] =>
    match d.portFault e pc a.1 a.2, d.portFault e pc b.1 b.2 with
    | some f, some g => if g.1 < f.1 then some (g.1, true, g.2) else some (f.1, false, f.2)
    | some f, none => some (f.1, false, f.2)
    | none, some g => some (g.1, true, g.2)
    | none, none => none
  | _ => none

/-- The writes of an instruction: move A's, then move B's, in the same cycle, or in the next in deterministic mode (R191,
R193). -/
def Dev.doWrites (d : Dev) (e pc : Nat) (w : Word) (ms : Performed) : Dev :=
  match ms with
  | [a] => d.portWrite e pc w false a.1 a.2
  | [a, b] =>
    let d := d.portWrite e pc w false a.1 a.2
    let d := if d.det e then (d.pass 1).settle e else d
    d.portWrite e pc w true b.1 b.2
  | _ => d

/-- The address that the fetch path goes on with after the instruction at LE_PC (R248): of the next word that it holds, or of its
next fetch. -/
def Engine.pathNext (x : Engine) : Nat :=
  match x.fq.drop 1 with
  | w :: _ => w.1
  | [] => x.fpc

/-- Execution goes on at next in the cycle after c with no redirect: the words fetched ahead stay where they are of that path; else
the fetch unit has followed the loop unit there (R250). -/
def Dev.follow (d : Dev) (e c next : Nat) : Dev :=
  let same := decide ((d.eng e).pathNext = next)
  (d.setPc e next).onEng e (fun x => { x with
    ready := c + 1, fq := if same then x.fq.drop 1 else [], fpc := if same then x.fpc else next
    fcyc := if same then x.fcyc else c - 1 })

/-- A performed branch as the fetch path sees it (R247, R252): recorded, and the loop buffer ends where it leaves the body. -/
def Engine.branched (x : Engine) (det : Bool) (pc target : Nat) (guarded : Bool) : Engine :=
  let x := if x.inBody target then x else x.dropLbuf
  if det then x else x.record pc target guarded

/-- An instruction issues in the present cycle (R245 to R257). -/
def Dev.issue (d : Dev) (e pc : Nat) (w : Word) (fromLbuf : Bool) (i : LeInstr) : Dev :=
  let p := pgLE e
  let det := d.det e
  let c := d.cyc
  let d := d.endStall e
  let ms := d.performed e i
  let d := (d.readEffects e i).add64 p Reg.LE_ISSUED 1
  let d := if fromLbuf then d.add32 p Reg.LE_LBUF 1 else d
  let x := d.eng e
  let branch := (ms.filterMap (fun m => branchTarget x.blink pc m.1 m.2)).head?
  let start := ms.find? (fun m => m.1 == 0x69)
  let tret := ms.any (fun m => m.1 == 0x96)
  let sync := ms.any (fun m => m.1 == 0x7E)
  let skip := start.isSome && x.lpCount == 0
  let next := match branch with
    | some t => t
    | none =>
      if tret then x.epc.toNat / 4 * 4
      else match start with
        | some m => if skip then (pc + 4 * (m.2.toNat + 1)) % 2 ^ 32 else (pc + 4) % 2 ^ 32
        | none => seqNext x.lpCount x.lpState pc
  let taken := x.fq.head?.any (fun w => w.2.2.2.1)
  let loop := decide (next = (if start.isSome then (pc + 4) % 2 ^ 32 else x.loopNext c pc x.lpCount x.lpState))
  let fetched := decide (next = x.pathNext) || (branch.isNone && !taken && !skip && loop)
  let d := d.onEng e (fun x =>
    let x := x.capture pc w
    let x := match branch with
      | some t => x.branched det pc t (i.pred != 0)
      | none => x.loopAction pc
    { x with wait := none, useHeld := false, skipBp := false })
  let d := d.doWrites e pc w ms
  let last := if det && i.moves.length == 2 then c + 1 else c
  let d := if tret || !fetched || det && (branch.isSome || skip) then d.redirect e last next else d.follow e last next
  let d := if sync then (d.onEng e (fun x => { x with syncAt := some c })).trySync e else d
  let d := if (d.eng e).invalReq then d.invalNow e else d
  if (d.eng e).stepping then d.leHalt e 2 else d

/-- The instruction at LE_PC, where fetch holds it: its word, and whether the loop buffer gave it. -/
def Dev.nextInstr (d : Dev) (e : Nat) : Option (Word × Bool) :=
  match (d.eng e).fq.head? with
  | some (_, w, lb, _, f2) => if f2 < d.cyc then some (w, lb) else none
  | none => none

/-- The instruction at LE_PC stalls, or nothing issues yet for a FETCH_SYNC, or half of a split access is outstanding: nothing is
taken in its place (R233, R254, R261). -/
def Dev.heldUp (d : Dev) (e : Nat) : Bool :=
  let x := d.eng e
  (x.syncAt.isSome && !x.storesDone) || x.midSplit || decide (d.cyc < x.halfAt)
  || (match d.nextInstr e with
      | some (w, _) =>
        let i := leDecode w
        (encodingFault w i).isNone && x.wait.isNone && (d.instrStalls e i || decide (d.cyc < d.issueFrom e i))
      | none => false)

/-- What acts in place of the next instruction (R214, R261, R266, R271): a swap, a stop, a halt, the fault of a string operation, an
event; none: nothing. -/
def Dev.interrupt (d : Dev) (e : Nat) : Option Dev :=
  let x := d.eng e
  match d.swapDue e with
  | some f => some (d.leSwap e f)
  | none =>
    if d.heldUp e then none
    else if !d.rdB (pgLE e) Reg.LE_CTL 0 then some (d.leLeave e .stopped)
    else match x.haltReq with
      | some why => some (d.leHalt e why)
      | none =>
        match d.strBarred e, x.str with
        | some (c, a), some o =>
          some ((d.onEng e (fun x => { x with str := none })).leFault e c o.moveB o.pc o.iword (if c = 5 then a else 0))
        | _, _ => if x.takeable && (!x.stepping || d.rdB (pgLE e) Reg.LE_DBG 3) then some (d.eventEnter e) else none

/-- A stop or halt acts now where the engine is at an instruction boundary (R266). -/
def Dev.stopHere (d : Dev) (e : Nat) : Dev :=
  let x := d.eng e
  if x.st ≠ .running ∨ (d.rdB (pgLE e) Reg.LE_CTL 0 ∧ x.haltReq.isNone) then d
  else if d.heldUp e then d
  else if !d.rdB (pgLE e) Reg.LE_CTL 0 then d.leLeave e .stopped
  else d.leHalt e (x.haltReq.getD 0)

/-- A stop or halt acts now where the engine is at an instruction boundary (R266), after a swap that is due (R271). -/
def Dev.leBoundary (d : Dev) (e : Nat) : Dev :=
  match d.swapDue e with
  | some f => ((d.leSwap e f).prefetch e).stopHere e
  | none => (d.prefetch e).stopHere e

/-- LE_CTL.INVAL (R255): at the next instruction boundary of a running engine, at once in another state. -/
def Dev.leInval (d : Dev) (e : Nat) : Dev :=
  let d := d.prefetch e
  let x := d.eng e
  if x.st = .running ∧ (x.wait.isSome ∨ d.heldUp e) then d.onEng e (fun x => { x with invalReq := true }) else d.invalNow e

/-- The instruction at LE_PC stalls from now on. -/
def Dev.leStall (d : Dev) (e : Nat) : Dev :=
  (d.onEng e (fun x => { x with stallAt := some (x.stallAt.getD d.cyc) })).reply .waits

/-- A breakpoint matches (R266, R267). -/
def Dev.bpHit (d : Dev) (e pc : Nat) : Bool :=
  let x := d.eng e
  !x.skipBp && !x.stepping && x.wait.isNone &&
    (List.range 4).any (fun k => d.rdB (pgLE e) Reg.LE_DBG (4 + k) && d.rdN (pgLE e) (Reg.LE_BP + 4 * k) == pc)

/-- The instruction at LE_PC, fetched, with no fault of its encoding: it faults, waits for the beam, or issues. toEnd: a wait
is awaited here. -/
def Dev.issueOrWait (d : Dev) (e pc : Nat) (w : Word) (fromLbuf : Bool) (i : LeInstr) (toEnd : Bool) : Dev :=
  let ms := d.performed e i
  match d.moveFault e pc ms with
  | some (c, mv, a) => d.leFault e c mv pc w a
  | none =>
    match ms.find? (fun m => m.1 == 0x73 || m.1 == 0x74) with
    | none => d.issue e pc w fromLbuf i
    | some m =>
      let x := d.eng e
      let wt := x.wait.getD (d.waitOf e m.1 m.2 false)
      let d := d.onEng e (fun x => { x with
        wait := some wt, evWait := x.evWait && !(x.useHeld && !x.evIn), useHeld := false })
      match d.waitTarget wt with
      | none => d.leStall e
      | some t =>
        if t ≤ d.ft then d.issue e pc w fromLbuf i
        else if toEnd then ((d.leStall e).reply .none |>.toFt t).settle e |>.issue e pc w fromLbuf i
        else d.leStall e

/-- STRING_DONE (R211, R212, R258, R271): the operation runs to its end, which its accesses' times set; one that stops before a
byte that it may not touch does not end. -/
def Dev.stringDone (d : Dev) (e : Nat) : Dev :=
  match (d.eng e).str with
  | none => d
  | some o =>
    let t := (d.toCyc (o.trig + d.strTime e)).strRun e (d.eng e).stLen.toNat
    match t with
    | (t, none) =>
      t.onEng e (fun x => { x with str := none, storeDone := max x.storeDone t.cyc
                                   stSrc := if o.zeroAtEnd then 0 else x.stSrc
                                   stDst := if o.zeroAtEnd then 0 else x.stDst })
    | (_, some _) => d

/-- An operation moves on with the clock (R212); in deterministic mode one between local memories is complete in its cycle
(R258). -/
def Dev.strDue (d : Dev) (e : Nat) : Dev :=
  let d := d.strAdvance e
  match (d.eng e).str with
  | none => d
  | some o => if d.det e && d.strLocal e && decide (o.trig + d.strTime e ≤ d.cyc) then d.stringDone e else d

/-- A running engine at the cycle in which its next instruction could issue: results have come, fetch and its string operation
have gone on. -/
def Dev.leReady (d : Dev) (e : Nat) : Dev :=
  let d := d.trySync e
  (((d.toCyc (d.eng e).ready).settle e).strDue e).prefetch e

/-- The instruction at LE_PC fetched: the clock moves on to the cycle after its F2 where fetch is under way. -/
def Dev.leFetch (d : Dev) (e : Nat) : Dev :=
  let x := d.eng e
  match x.fq.head? with
  | some (_, _, _, _, f2) => (d.toCyc (f2 + 1)).settle e
  | none =>
    if x.missing.isSome ∨ (d.fetchFault e (d.lePc e)).isSome then d else ((d.toCyc (x.fcyc + 2)).settle e).prefetch e

/-- The next instruction of a running engine issues, or what acts in its place (LE_MOVE, WAIT_END). -/
def Dev.leNext (d : Dev) (e : Nat) (toEnd : Bool) : Dev :=
  if (d.eng e).st ≠ .running then d
  else
    let d := d.leReady e
    match d.interrupt e with
    | some t => t
    | none =>
      if (d.eng e).syncAt.isSome then d.leStall e
      else if (match (d.eng e).wait with
          | some w => w.row
          | none => false) then d.leStall e
      else
        let pc := d.lePc e
        if d.bpHit e pc then d.leHalt e 1
        else
          let d := d.leFetch e
          match (d.eng e).fq.head? with
          | none =>
            match d.fetchFault e pc with
            | some c => d.leFault e c false pc 0 (if c = 9 then pc else 0)
            | none => d.reply .waits
          | some (_, w, fromLbuf, _, _) =>
            let i := leDecode w
            match encodingFault w i with
            | some (c, mv) => d.leFault e c mv pc w 0
            | none =>
              if (d.eng e).wait.isNone && d.instrStalls e i then d.leStall e
              else
                let from_ := d.issueFrom e i
                if d.cyc < from_ then
                  let d := ((d.onEng e (fun x => { x with stallAt := some (x.stallAt.getD d.cyc) })).toCyc from_).settle e
                  match d.interrupt e with
                  | some t => t
                  | none => d.issueOrWait e pc w fromLbuf i toEnd
                else d.issueOrWait e pc w fromLbuf i toEnd

/-- WAIT_END (R218): the clock moves on to the target and the waiting instruction issues. -/
def Dev.waitEnd (d : Dev) (e : Nat) : Dev :=
  match (d.eng e).wait with
  | none => d
  | some w =>
    if w.row then
      match d.waitTarget w with
      | none => d.reply .waits
      | some t =>
        let d := d.toFt t
        d.onEng e (fun x => { x with wait := none, ready := max x.ready (d.cyc + 1) })
    else d.leNext e true

/-! ### A trigger alone (the trigger rows) -/

/-- A write of v to trigger port p by the instruction at LE_PC, at the engine's next issue cycle (R181): its fault, its stall,
or its effect, with where execution goes on. -/
def Dev.leTrig (d : Dev) (e p : Nat) (v : Word) : Dev :=
  let d := ((d.toCyc (d.eng e).ready).settle e).prefetch e
  let pc := d.lePc e
  let w := match (d.eng e).fq.head? with
    | some w => w.2.1
    | none => 0
  match d.portFault e pc p v with
  | some (c, a) => d.leFault e c false pc w a
  | none =>
    if d.portStall e p v then d.leStall e
    else
      let d := ((d.toCyc (d.writeFrom e p v)).settle e).endStall e
      let x := d.eng e
      let c := d.cyc
      if p = 0x73 ∨ p = 0x74 then
        let wt := d.waitOf e p v true
        if d.waitDue wt then d.onEng e (fun x => { x with ready := c + 1, useHeld := false })
        else (d.onEng e (fun x => { x with wait := some wt, useHeld := false })).reply .waits
      else
        let d := d.portWrite e pc w false p v
        match branchTarget x.blink pc p v with
        | some t =>
          let d' := d.onEng e (fun x => x.branched (d.det e) pc t false)
          if x.pathNext = t ∧ !d.det e then d'.follow e c t else d'.redirect e c t
        | none =>
          if p = 0x96 then d.redirect e c (x.epc.toNat / 4 * 4)
          else if p = 0x69 then
            if x.lpCount = 0 then d.redirect e c ((pc + 4 * (v.toNat + 1)) % 2 ^ 32)
            else (d.setPc e ((pc + 4) % 2 ^ 32)).onEng e (fun x => { x with ready := c + 1 })
          else
            let d := d.onEng e (fun x => { x with ready := c + 1 })
            if p = 0x7E then (d.onEng e (fun x => { x with syncAt := some c })).trySync e else d

/-- A read of L.WAIT at the engine's next issue cycle (R202). -/
def Dev.leLWait (d : Dev) (e : Nat) : Dev :=
  let d := (d.toCyc (d.eng e).ready).settle e
  if !(d.eng e).shared.isEmpty then d.leStall e
  else
    let d := ((d.toCyc (d.eng e).sharedAt).settle e).endStall e
    (d.onEng e (fun x => { x with ready := d.cyc + 1 })).reply (.data 0)

/-! ### String operations, head-register writes -/

/-- STRING_FAULT (R214, R234): the operation goes on to a byte that it may not touch, and the fault acts in place of the next
instruction of the running engine. -/
def Dev.stringFault (d : Dev) (e : Nat) : Dev :=
  match (d.eng e).str with
  | none => d
  | some _ =>
    if (d.eng e).st ≠ .running then d
    else match d.strRun e (d.eng e).stLen.toNat with
      | (_, none) => d
      | (t, some _) =>
        let t := ((t.trySync e).toCyc ((t.trySync e).eng e).ready).settle e |>.prefetch e
        match t.interrupt e with
        | some u => u
        | none => t.leStall e

/-- The cycle in which the engine's oldest queued head-register write, to a word of head h and triggered in cycle c, commits
(R222, R223). -/
def Dev.hregCycle (d : Dev) (e c h off : Nat) : Nat :=
  let now := max d.cyc ((d.eng e).hregFrom c)
  if d.hregTaken h off now then now + 1 else now

/-- A lower-numbered engine's oldest queued write goes to the same word and may commit by then: it commits first (R223). -/
def Dev.hregYields (d : Dev) (e : Nat) : Bool :=
  match (d.eng e).hreg with
  | [] => false
  | (c, h, off, _) :: _ => d.engines.any (fun y => decide (y.1 < e) && y.2.hregDue h off (d.hregCycle e c h off))

/-- HREG_COMMIT (R222, R223): the oldest queued write commits, 3 cycles after its trigger at the earliest, one a cycle, and in
the next cycle where another engine has written the word in this one. -/
def Dev.hregCommit (d : Dev) (e : Nat) : Dev :=
  match (d.eng e).hreg with
  | [] => d
  | (c, h, off, _) :: _ =>
    if d.hregYields e then d.reply .waits else (d.toCyc (d.hregCycle e c h off)).commitHreg e

/-! ### LINE events, resets, freezes -/

/-- LINE_EVENT (R260): the sample instant of LE_EVLINE's line in the frame in progress of its head. -/
def Dev.lineEvent (d : Dev) (e : Nat) : Dev :=
  let h := d.rdF (pgLE e) Reg.LE_EVLINE 23 16
  let l := d.rdF (pgLE e) Reg.LE_EVLINE 11 0
  if h ≤ 131 ∧ l < d.vtotal h ∧ d.runs h then
    match (d.head h).cur with
    | none => d
    | some f =>
      if (d.eng e).lineAt = some (h, f) then d
      else
        let d := d.toFt (d.sampleFt h f l)
        (d.onEng e (fun x => { x with lineAt := some (h, f) })).lePend e 0
  else d

/-- An engine reset (R240, R269); LE_CTL.RUN as it stands. -/
def Dev.engReset (d : Dev) (e : Nat) : Dev :=
  let p := pgLE e
  let d := d.onEng e (fun x => { x.cleared with st := .stopped })
  let d := (((d.wr64 p Reg.LE_ISSUED 0).wrN p Reg.LE_STALLS 0).wrN p Reg.LE_REDIRECTS 0).wrN p Reg.LE_FILLS 0
  let d := (d.wrN p Reg.LE_LBUF 0).setPc e (d.rdN p Reg.LE_ENTRY)
  if d.rdB p Reg.LE_CTL 0 then d.leRun e false false else d

/-- BLK_CTL.FREEZE while a core is halted (R17, R265): a running engine halts with cause 3, and resumes when the freeze ends. -/
def Dev.leFreeze (d : Dev) (e : Nat) : Dev :=
  let x := d.eng e
  if d.frozen (pgLE e) then
    if x.st = .running ∧ x.haltReq = none then (d.onEng e (fun x => { x with haltReq := some 3 })).leBoundary e else d
  else if x.st = .halted ∧ x.why = 3 then d.leRun e true false
  else if x.haltReq = some 3 then d.onEng e (fun x => { x with haltReq := none })
  else d

/-! ### Writes to the engine page -/

/-- LE_CTL.PMEM written (R242): only while STOPPED; what local program memory holds after a change to LOCKED is free. -/
def Dev.setPmem (d : Dev) (e : Nat) (locked : Bool) : Dev :=
  if (d.eng e).st ≠ .stopped ∨ d.pmemLocked e = locked then d
  else
    let d := (d.wrB (pgLE e) Reg.LE_CTL 2 locked).onEng e Engine.invalidate
    if locked then forN 4096 (fun i d => (d.store (progBase e + 4 * i) (leBytes 4 d.free.toNat)).drew) d else d

/-- A write to LE_CTL (R242, R255, R256, R265, R269, R272). -/
def Dev.leCtl (d : Dev) (e : Nat) (v : Word) : Dev :=
  let p := pgLE e
  let st := (d.eng e).st
  let d := d.setPmem e (bit v 2)
  let d := if st = .running then d else d.wrB p Reg.LE_CTL 1 (bit v 1)
  let run := bit v 0 && d.rdB p Reg.BLK_CTL 0
  let was := d.rdB p Reg.LE_CTL 0
  let d := d.wrB p Reg.LE_CTL 0 run
  let d := if bit v 3 then d.leInval e else d
  if bit v 4 then d.engReset e
  else if run && !was && st = .stopped then d.leRun e false false
  else if !run && st = .running then d.leBoundary e
  else if !run && st ≠ .stopped then d.leLeave e .stopped
  else d

/-- BLK_CTL.ENABLE of an engine's page written 0 (R19, R265): RUN clears and the engine stops. -/
def Dev.leDisable (d : Dev) (e : Nat) : Dev :=
  let d := d.wrB (pgLE e) Reg.LE_CTL 0 false
  if (d.eng e).st = .running then d.leBoundary e
  else if (d.eng e).st = .stopped then d else d.leLeave e .stopped

/-- A write to LE_DBG (R265 to R267). -/
def Dev.leDbg (d : Dev) (e : Nat) (v : Word) : Dev :=
  let d := d.wr (pgLE e) Reg.LE_DBG (v &&& 0xF8)
  let st := (d.eng e).st
  if bit v 1 && (st == .halted || st == .faulted) then
    let d := d.leRun e true true
    if bit v 0 then (d.onEng e (fun x => { x with haltReq := some 0 })).leBoundary e else d
  else if bit v 2 && st == .halted then
    let d := d.leRun e true true
    if (d.eng e).st = .running then (d.onEng e (fun x => { x with stepping := true })).leNext e false else d
  else if bit v 0 && st == .running then (d.onEng e (fun x => { x with haltReq := some 0 })).leBoundary e
  else d

/-- ARM (R270): fabric time as it becomes 1. -/
def Dev.leArm (d : Dev) (e : Nat) : Dev :=
  if d.rdB (pgLE e) Reg.LE_SWAP_CTL 8 then d
  else (d.wrB (pgLE e) Reg.LE_SWAP_CTL 8 true).onEng e (fun x => { x with armedAt := d.ft })

/-- CANCEL (R270): ARM is cleared; a swap whose cycle has come takes place. -/
def Dev.leCancel (d : Dev) (e : Nat) : Dev :=
  match d.swapDue e with
  | some f => d.leSwap e f
  | none => d.wrB (pgLE e) Reg.LE_SWAP_CTL 8 false

/-- A write to LE_SWAP_CTL (R270): CANCEL wins over ARM. -/
def Dev.leSwapCtl (d : Dev) (e : Nat) (v : Word) : Dev :=
  let p := pgLE e
  let d := if d.rdB p Reg.LE_SWAP_CTL 8 then d else d.wr p Reg.LE_SWAP_CTL (v &&& 0x2FF)
  if bit v 10 then d.leCancel e else if bit v 8 then d.leArm e else d

/-- A write of a port through the page's window (R268). -/
def Dev.portWindow (d : Dev) (e port : Nat) (v : Word) : Dev :=
  if (d.eng e).st = .running ∨ portSettable port = false then d
  else (d.settle e).portWrite e (d.lePc e) 0 false port v

/-- A write to LE_MBOX (R260). -/
def Dev.leMbox (d : Dev) (e : Nat) (v : Word) : Dev :=
  ((d.wr (pgLE e) Reg.LE_MBOX v).onEng e (fun x => { x with mbox := v })).lePend e 1

/-- A write to LE_EVLINE (R260): no LINE event of the frame in progress is due any more. -/
def Dev.leEvline (d : Dev) (e : Nat) (v : Word) : Dev :=
  let d := d.regStore (pgLE e) Reg.LE_EVLINE v
  let h := d.rdF (pgLE e) Reg.LE_EVLINE 23 16
  d.onEng e (fun x => { x with lineAt := (d.head h).cur.map (fun f => (h, f)) })

/-- A write to LE_FAULT (R236, R238): VALID clears; a fault of this cycle that found it 1 is recorded then. -/
def Dev.leFaultWrite (d : Dev) (e : Nat) (v : Word) : Dev :=
  let d := d.regStore (pgLE e) Reg.LE_FAULT v
  match (d.eng e).lateFault with
  | some (c, what, pc, w, a) => if bit v 31 ∧ c = d.cyc then d.recordFault e what pc w a else d
  | none => d

/-- A write to a word of an engine page from 0x040 on, in the direct view. -/
def Dev.leWrite (d : Dev) (e off : Nat) (v : Word) : Dev :=
  let p := pgLE e
  if off = Reg.LE_CTL then d.leCtl e v
  else if off = Reg.LE_PC then (if (d.eng e).st = .running then d else d.regStore p off v)
  else if off = Reg.LE_EVLINE then d.leEvline e v
  else if off = Reg.LE_FAULT then d.leFaultWrite e v
  else if off = Reg.LE_MBOX then d.leMbox e v
  else if off = Reg.LE_DBG then d.leDbg e v
  else if off = Reg.LE_SWAP_CTL then d.leSwapCtl e v
  else if 0x400 ≤ off ∧ off < 0x800 then d.portWindow e ((off - 0x400) / 4) v
  else d.regStore p off v

/-- LE_STAT (R272). -/
def Dev.leStat (d : Dev) (e : Nat) : Word :=
  let x := d.eng e
  let st := match x.st with
    | .stopped => 0
    | .running => 1
    | .halted => 2
    | .faulted => 3
  word (st + x.evIn.toNat * 4 + (x.st == .running && x.wait.isSome).toNat * 8 + x.waitHeld.toNat * 16 + x.lbufOn.toNat * 32
    + (d.rdB (pgLE e) Reg.LE_SWAP_CTL 8).toNat * 64 + x.why * 128)

/-- A word of an engine page from 0x040 on as read (R236, R268, R272). -/
def Dev.leRead (d : Dev) (e off : Nat) : Word :=
  if off = Reg.LE_STAT then d.leStat e
  else if off = Reg.LE_STALLS then d.rd (pgLE e) off + word (((d.eng e).stallAt.map (fun c => d.cyc - c)).getD 0)
  else if 0x400 ≤ off ∧ off < 0x800 then
    if (d.eng e).st = .running then 0 else ((d.settle e).strAdvance e).portValue e ((off - 0x400) / 4)
  else d.rd (pgLE e) off

/-- The engines in a state, one bit each (R274). -/
def Dev.poolBits (d : Dev) (st : LeState) : Word :=
  word (((List.range 32).map (fun e => if (d.eng e).st = st then 2 ^ e else 0)).sum)

/-- A word of the LEPOOL page (R274). -/
def Dev.poolRead (d : Dev) (off : Nat) : Word :=
  if off = Reg.POOL_RUNNING then d.poolBits .running
  else if off = Reg.POOL_HALTED then d.poolBits .halted
  else if off = Reg.POOL_FAULTED then d.poolBits .faulted
  else 0

/-- A write to POOL_SWAP_GO (R270, R274). -/
def Dev.poolGo (d : Dev) (v : Word) : Dev := forN 32 (fun e d => if bit v e then d.leArm e else d) d

end Sys2Proof.Machine
end

