-- ==== Sys2Proof/Machine/LineEngine.lean ====
section
/-! DEFINITION. The commands of the line engines: moves and triggers (R180 to R229), fetch (R241 to R256), events (R259 to
R264), debug (R265 to R268) and program swaps (R270, R271, R274). A trigger row is a move into that port issued by the
engine (assumption log 38); LE_MOVE issues the instruction at LE_PC. -/
namespace Sys2Proof.Machine

/-- A unit's trigger port (R194): k counts from its OP port. -/
def aluPort (u : Alu) (k : Nat) : Nat := (if u = .a0 then 0x30 else 0x40) + k

/-- LE_MOVE (R181 to R194, R206, R210, R235, R245 to R253, R266). -/
def execLeMove (e : Le) (s : State) : Host.Outcome State Fault Refusal := s.run (fun d => d.leNext e false)
/-- TADD (R195, R196). -/
def execTadd (e : Le) (u : Alu) (t : Word) (s : State) : Host.Outcome State Fault Refusal :=
  s.run (fun d => d.leTrig e (aluPort u 1) t)
/-- TSUB (R195, R196). -/
def execTsub (e : Le) (u : Alu) (t : Word) (s : State) : Host.Outcome State Fault Refusal :=
  s.run (fun d => d.leTrig e (aluPort u 2) t)
/-- TAND (R195, R196). -/
def execTand (e : Le) (u : Alu) (t : Word) (s : State) : Host.Outcome State Fault Refusal :=
  s.run (fun d => d.leTrig e (aluPort u 3) t)
/-- TOR (R195, R196). -/
def execTor (e : Le) (u : Alu) (t : Word) (s : State) : Host.Outcome State Fault Refusal :=
  s.run (fun d => d.leTrig e (aluPort u 4) t)
/-- TXOR (R195, R196). -/
def execTxor (e : Le) (u : Alu) (t : Word) (s : State) : Host.Outcome State Fault Refusal :=
  s.run (fun d => d.leTrig e (aluPort u 5) t)
/-- TSHL (R195, R196). -/
def execTshl (e : Le) (u : Alu) (t : Word) (s : State) : Host.Outcome State Fault Refusal :=
  s.run (fun d => d.leTrig e (aluPort u 6) t)
/-- TSHR (R195, R196). -/
def execTshr (e : Le) (u : Alu) (t : Word) (s : State) : Host.Outcome State Fault Refusal :=
  s.run (fun d => d.leTrig e (aluPort u 7) t)
/-- TSAR (R195, R196). -/
def execTsar (e : Le) (u : Alu) (t : Word) (s : State) : Host.Outcome State Fault Refusal :=
  s.run (fun d => d.leTrig e (aluPort u 8) t)
/-- TCMPEQ (R195, R196). -/
def execTcmpeq (e : Le) (u : Alu) (t : Word) (s : State) : Host.Outcome State Fault Refusal :=
  s.run (fun d => d.leTrig e (aluPort u 9) t)
/-- TCMPLT (R195, R196). -/
def execTcmplt (e : Le) (u : Alu) (t : Word) (s : State) : Host.Outcome State Fault Refusal :=
  s.run (fun d => d.leTrig e (aluPort u 10) t)
/-- TCMPLTU (R195, R196). -/
def execTcmpltu (e : Le) (u : Alu) (t : Word) (s : State) : Host.Outcome State Fault Refusal :=
  s.run (fun d => d.leTrig e (aluPort u 11) t)
/-- TMIN (R195, R196). -/
def execTmin (e : Le) (u : Alu) (t : Word) (s : State) : Host.Outcome State Fault Refusal :=
  s.run (fun d => d.leTrig e (aluPort u 12) t)
/-- TMAX (R195, R196). -/
def execTmax (e : Le) (u : Alu) (t : Word) (s : State) : Host.Outcome State Fault Refusal :=
  s.run (fun d => d.leTrig e (aluPort u 13) t)
/-- TMUL (R197). -/
def execTmul (e : Le) (t : Word) (s : State) : Host.Outcome State Fault Refusal := s.run (fun d => d.leTrig e 0x51 t)
/-- TMAC (R197). -/
def execTmac (e : Le) (t : Word) (s : State) : Host.Outcome State Fault Refusal := s.run (fun d => d.leTrig e 0x52 t)
/-- TLDB (R199 to R201, R233). -/
def execTldb (e : Le) (t : Word) (s : State) : Host.Outcome State Fault Refusal := s.run (fun d => d.leTrig e 0x58 t)
/-- TLDBU (R199 to R201). -/
def execTldbu (e : Le) (t : Word) (s : State) : Host.Outcome State Fault Refusal := s.run (fun d => d.leTrig e 0x59 t)
/-- TLDH (R199 to R201, R233). -/
def execTldh (e : Le) (t : Word) (s : State) : Host.Outcome State Fault Refusal := s.run (fun d => d.leTrig e 0x5A t)
/-- TLDHU (R199 to R201, R233). -/
def execTldhu (e : Le) (t : Word) (s : State) : Host.Outcome State Fault Refusal := s.run (fun d => d.leTrig e 0x5B t)
/-- TLDW (R199 to R201, R233). -/
def execTldw (e : Le) (t : Word) (s : State) : Host.Outcome State Fault Refusal := s.run (fun d => d.leTrig e 0x5C t)
/-- TSTB (R199 to R201, R230). -/
def execTstb (e : Le) (t : Word) (s : State) : Host.Outcome State Fault Refusal := s.run (fun d => d.leTrig e 0x5D t)
/-- TSTH (R199 to R201, R233). -/
def execTsth (e : Le) (t : Word) (s : State) : Host.Outcome State Fault Refusal := s.run (fun d => d.leTrig e 0x5E t)
/-- TSTW (R199 to R201, R233). -/
def execTstw (e : Le) (t : Word) (s : State) : Host.Outcome State Fault Refusal := s.run (fun d => d.leTrig e 0x5F t)
/-- TJMP (R205). -/
def execTjmp (e : Le) (t : Word) (s : State) : Host.Outcome State Fault Refusal := s.run (fun d => d.leTrig e 0x60 t)
/-- TREL (R205). -/
def execTrel (e : Le) (t : Word) (s : State) : Host.Outcome State Fault Refusal := s.run (fun d => d.leTrig e 0x61 t)
/-- TCALL (R205, R207). -/
def execTcall (e : Le) (t : Word) (s : State) : Host.Outcome State Fault Refusal := s.run (fun d => d.leTrig e 0x62 t)
/-- TRET (R205). -/
def execTret (e : Le) (t : Word) (s : State) : Host.Outcome State Fault Refusal := s.run (fun d => d.leTrig e 0x63 t)
/-- TSTART (R208, R209). -/
def execTstart (e : Le) (t : Word) (s : State) : Host.Outcome State Fault Refusal := s.run (fun d => d.leTrig e 0x69 t)
/-- TMOVE (R211 to R214). -/
def execTmove (e : Le) (t : Word) (s : State) : Host.Outcome State Fault Refusal := s.run (fun d => d.leTrig e 0x6F t)
/-- TFILL (R211 to R214). -/
def execTfill (e : Le) (t : Word) (s : State) : Host.Outcome State Fault Refusal := s.run (fun d => d.leTrig e 0x70 t)
/-- TWAITL (R217 to R219). -/
def execTwaitl (e : Le) (t : Word) (s : State) : Host.Outcome State Fault Refusal := s.run (fun d => d.leTrig e 0x73 t)
/-- TWAITP (R217 to R219). -/
def execTwaitp (e : Le) (t : Word) (s : State) : Host.Outcome State Fault Refusal := s.run (fun d => d.leTrig e 0x74 t)
/-- TWR (R220 to R222). -/
def execTwr (e : Le) (t : Word) (s : State) : Host.Outcome State Fault Refusal := s.run (fun d => d.leTrig e 0x79 t)
/-- TLO (R198). -/
def execTlo (e : Le) (t : Word) (s : State) : Host.Outcome State Fault Refusal := s.run (fun d => d.leTrig e 0x7B t)
/-- TRAISE (R225). -/
def execTraise (e : Le) (t : Word) (s : State) : Host.Outcome State Fault Refusal := s.run (fun d => d.leTrig e 0x7D t)
/-- FETCH_SYNC (R226, R254). -/
def execFetchSync (e : Le) (t : Word) (s : State) : Host.Outcome State Fault Refusal := s.run (fun d => d.leTrig e 0x7E t)
/-- LE_FENCE (R203, R227). -/
def execLeFence (e : Le) (t : Word) (s : State) : Host.Outcome State Fault Refusal := s.run (fun d => d.leTrig e 0x7F t)
/-- TRET_EVENT (R264). -/
def execTretEvent (e : Le) (t : Word) (s : State) : Host.Outcome State Fault Refusal := s.run (fun d => d.leTrig e 0x96 t)
/-- HEAD_WINDOW_WRITE (R221, R222). -/
def execHeadWindowWrite (e : Le) (w : BitVec 10) (t : Word) (s : State) : Host.Outcome State Fault Refusal :=
  s.run (fun d => d.leTrig e (0x400 + w.toNat) t)
/-- LOAD_COMPLETE (R201). -/
def execLoadComplete (e : Le) (s : State) : Host.Outcome State Fault Refusal := s.run (fun d => d.completeLoad e)
/-- STORE_TAKES_EFFECT (R201, R231, R232). -/
def execStoreTakesEffect (e : Le) (s : State) : Host.Outcome State Fault Refusal := s.run (fun d => d.storeEffect e)
/-- L_WAIT (R202). -/
def execLWait (e : Le) (s : State) : Host.Outcome State Fault Refusal := s.run (fun d => d.leLWait e)
/-- STRING_DONE (R211, R212). -/
def execStringDone (e : Le) (s : State) : Host.Outcome State Fault Refusal := s.run (fun d => d.stringDone e)
/-- STRING_FAULT (R214). -/
def execStringFault (e : Le) (s : State) : Host.Outcome State Fault Refusal := s.run (fun d => d.stringFault e)
/-- WAIT_END (R218). -/
def execWaitEnd (e : Le) (s : State) : Host.Outcome State Fault Refusal := s.run (fun d => d.waitEnd e)
/-- HREG_COMMIT (R222, R224). -/
def execHregCommit (e : Le) (s : State) : Host.Outcome State Fault Refusal := s.run (fun d => d.hregCommit e)
/-- FETCH_FILL (R243). -/
def execFetchFill (e : Le) (s : State) : Host.Outcome State Fault Refusal := s.run (fun d => d.fetchFill e)
/-- LINE_EVENT (R260). -/
def execLineEvent (e : Le) (s : State) : Host.Outcome State Fault Refusal := s.run (fun d => d.lineEvent e)

/-- EVENT_ENTRY (R261, R262): at the cycle in which the next instruction would issue, or during its beam wait. -/
def Dev.eventRow (d : Dev) (e : Nat) : Dev :=
  if (d.eng e).takeable then
    let d := d.trySync e
    let d := ((if (d.eng e).wait.isSome then d else d.toCyc (d.eng e).ready).settle e).prefetch e
    match d.interrupt e with
    | some t => t
    | none => d.reply .waits
  else d

/-- EVENT_ENTRY (R261 to R263). -/
def execEventEntry (e : Le) (s : State) : Host.Outcome State Fault Refusal := s.run (fun d => d.eventRow e)
/-- MBOX_WRITE (R260). -/
def execMboxWrite (r : Req) (e : Le) (v : Word) (s : State) : Host.Outcome State Fault Refusal :=
  s.onPage r (pgLE e) (fun d => d.leMbox e v)
/-- RUN (R246, R265). -/
def execRun (r : Req) (e : Le) (s : State) : Host.Outcome State Fault Refusal :=
  s.onPage r (pgLE e) (fun d => d.leCtl e (d.rd (pgLE e) Reg.LE_CTL ||| 1))
/-- LE_STOP (R265, R266). -/
def execLeStop (r : Req) (e : Le) (s : State) : Host.Outcome State Fault Refusal :=
  s.onPage r (pgLE e) (fun d => d.leCtl e (putBit (d.rd (pgLE e) Reg.LE_CTL) 0 false))
/-- INVAL (R255). -/
def execInval (r : Req) (e : Le) (s : State) : Host.Outcome State Fault Refusal :=
  s.onPage r (pgLE e) (fun d => d.leCtl e (d.rd (pgLE e) Reg.LE_CTL ||| 8))
/-- LE_RESET (R240, R269). -/
def execLeReset (r : Req) (e : Le) (s : State) : Host.Outcome State Fault Refusal :=
  s.onPage r (pgLE e) (fun d => d.leCtl e (d.rd (pgLE e) Reg.LE_CTL ||| 16))
/-- HALT (R266). -/
def execHalt (r : Req) (e : Le) (s : State) : Host.Outcome State Fault Refusal :=
  s.onPage r (pgLE e) (fun d => d.leDbg e (d.rd (pgLE e) Reg.LE_DBG ||| 1))
/-- RESUME (R266). -/
def execResume (r : Req) (e : Le) (s : State) : Host.Outcome State Fault Refusal :=
  s.onPage r (pgLE e) (fun d => d.leDbg e (d.rd (pgLE e) Reg.LE_DBG ||| 2))
/-- STEP (R267). -/
def execStepOne (r : Req) (e : Le) (s : State) : Host.Outcome State Fault Refusal :=
  s.onPage r (pgLE e) (fun d => d.leDbg e (d.rd (pgLE e) Reg.LE_DBG ||| 4))
/-- PORT_WINDOW_WRITE (R268). -/
def execPortWindowWrite (r : Req) (e : Le) (port : BitVec 8) (v : Word) (s : State) : Host.Outcome State Fault Refusal :=
  s.onPage r (pgLE e) (fun d => d.portWindow e port.toNat v)
/-- ARM (R270). -/
def execArm (r : Req) (e : Le) (s : State) : Host.Outcome State Fault Refusal := s.onPage r (pgLE e) (fun d => d.leArm e)
/-- CANCEL (R270). -/
def execCancel (r : Req) (e : Le) (s : State) : Host.Outcome State Fault Refusal :=
  s.onPage r (pgLE e) (fun d => d.leCancel e)
/-- POOL_SWAP_GO (R274). -/
def execPoolSwapGo (r : Req) (mask : Word) (s : State) : Host.Outcome State Fault Refusal :=
  s.onPage r pgLEPOOL (fun d => d.poolGo mask)
/-- SWAPPED (R271). -/
def execSwapped (e : Le) (s : State) : Host.Outcome State Fault Refusal :=
  s.run (fun d => match d.swapDue e with
    | some f => d.leSwap e f
    | none => d)

end Sys2Proof.Machine
end

