-- ==== Sys2Proof/Machine/Eth.lean ====
section
/-! DEFINITION. The stream ports ETH0 and ETH1 and the management port's MAC (R336 to R340, R540, R541): descriptors,
segmentation, checksums, PAUSE and receive status. Frames are bytes from the destination address to the last byte of the
payload (R338). -/
namespace Sys2Proof.Machine

/-- The page of a port. -/
def portPage : Port → Nat
  | .eth0 => pgETH 0
  | .eth1 => pgETH 1
  | .mgmt => pgMGMT

/-- The key of a port in the maps by port. -/
def portKey : Port → Nat
  | .eth0 => 0
  | .eth1 => 1
  | .mgmt => 2

/-- The longest frame (R337, R338): 9,216 bytes for MTU 0 and above 144. -/
def Dev.portLimit (d : Dev) (p : Port) : Nat :=
  let m := d.rdF (portPage p) Reg.ETH_CTL 15 8
  64 * (if m = 0 ∨ 144 < m then 144 else m)

/-- A port carries frames: EN is 1 and its link is up. -/
def Dev.portOn (d : Dev) (p : Port) : Bool := d.rdB (portPage p) Reg.ETH_CTL 0 && d.rdB (portPage p) Reg.ETH_STAT 0

/-- The number of descriptors of a ring, log2 6 to 14. -/
def Dev.portRing (d : Dev) (p : Port) (off : Nat) : Nat := 2 ^ max 6 (min 14 (d.rdF (portPage p) off 3 0))

/-- A ring's base address, [47:12]. -/
def Dev.portBase (d : Dev) (p : Port) (off : Nat) : Nat := d.rdN (portPage p) off + d.rdF (portPage p) (off + 4) 15 0 * 2 ^ 32

/-! ### Bytes of frames -/

/-- A big-endian number of two bytes in a frame. -/
def be16 (f : List Byte) (i : Nat) : Nat := (f.getD i 0).toNat * 256 + (f.getD (i + 1) 0).toNat
/-- A big-endian number of four bytes in a frame. -/
def be32 (f : List Byte) (i : Nat) : Nat := be16 f i * 65536 + be16 f (i + 2)
/-- Two big-endian bytes. -/
def beBytes2 (n : Nat) : List Byte := [byteOf n 1, byteOf n 0]
/-- Bytes put into a frame over those at a place. -/
def patch (f : List Byte) (i : Nat) (bs : List Byte) : List Byte := f.take i ++ bs ++ f.drop (i + bs.length)

/-- The sum of 16-bit big-endian words, an odd last byte padded with 0. -/
def sum16 : List Byte → Nat
  | a :: b :: l => a.toNat * 256 + b.toNat + sum16 l
  | [a] => a.toNat * 256
  | [] => 0

/-- A sum folded to 16 bits with end-around carry. -/
def fold16 (n : Nat) : Nat := if n = 0 then 0 else (n - 1) % 65535 + 1

/-- The Internet checksum of a sum. -/
def inetSum (n : Nat) : Nat := 65535 - fold16 n

/-- A frame's IP version, from the first byte of its network header. -/
def ipVer (f : List Byte) (l3 : Nat) : Nat := (f.getD l3 0).toNat / 16

/-- IPv4's header length in bytes. -/
def ipHdr (f : List Byte) (l3 : Nat) : Nat := (f.getD l3 0).toNat % 16 * 4

/-- The transport protocol and its offset behind IPv6's extension headers (hop-by-hop, routing, destination options). -/
def ip6Walk (f : List Byte) : Nat → Nat → Nat → Nat × Nat
  | 0, next, at_ => (next, at_)
  | k + 1, next, at_ =>
    if next = 0 ∨ next = 43 ∨ next = 60 then
      ip6Walk f k (f.getD at_ 0).toNat (at_ + 8 + 8 * (f.getD (at_ + 1) 0).toNat)
    else (next, at_)

/-- The transport protocol and its offset. -/
def l4Of (f : List Byte) (l3 : Nat) : Nat × Nat :=
  if ipVer f l3 = 4 then ((f.getD (l3 + 9) 0).toNat, l3 + ipHdr f l3)
  else ip6Walk f 8 (f.getD (l3 + 6) 0).toNat (l3 + 40)

/-- The end of the packet in the frame by the length field of its network header. -/
def ipEnd (f : List Byte) (l3 : Nat) : Nat :=
  if ipVer f l3 = 4 then l3 + be16 f (l3 + 2) else l3 + 40 + be16 f (l3 + 4)

/-- The sum of the pseudo header and the transport segment from l4 to the frame's end. -/
def l4Sum (f : List Byte) (l3 l4 proto : Nat) : Nat :=
  let seg := f.drop l4
  let addrs := if ipVer f l3 = 4 then (f.drop (l3 + 12)).take 8 else (f.drop (l3 + 8)).take 32
  sum16 addrs + proto + seg.length + sum16 seg

/-- The place of a protocol's checksum from its header's start: TCP 16, UDP 6. -/
def csumAt (proto : Nat) : Option Nat := if proto = 6 then some 16 else if proto = 17 then some 6 else none

/-- The IPv4 header checksum inserted (R336). -/
def ipCsum (f : List Byte) (l3 : Nat) : List Byte :=
  if ipVer f l3 ≠ 4 then f
  else
    let f := patch f (l3 + 10) [0, 0]
    patch f (l3 + 10) (beBytes2 (inetSum (sum16 ((f.drop l3).take (ipHdr f l3)))))

/-- The TCP or UDP checksum inserted (R336); a UDP checksum that computes to 0 is sent as all ones. -/
def l4Csum (f : List Byte) (l3 l4 : Nat) : List Byte :=
  let proto := (l4Of f l3).1
  match csumAt proto with
  | none => f
  | some k =>
    let f := patch f (l4 + k) [0, 0]
    let c := inetSum (l4Sum f l3 l4 proto)
    patch f (l4 + k) (beBytes2 (if proto = 17 ∧ c = 0 then 65535 else c))

/-- One IEEE 802.1Q tag inserted after the addresses (R336). -/
def vlanTag (f : List Byte) (tag : Nat) : List Byte := f.take 12 ++ [0x81, 0x00] ++ beBytes2 tag ++ f.drop 12

/-- Segment i of n under TSO (R336, R338): the frame's headers and its part of the payload, with the lengths, IPv4's
identification, the sequence number and the flags that TCP gives it (the fields' rules are TCP's and IP's own,
assumption log 30). -/
def tsoSegment (f : List Byte) (l3 l4 mss i n : Nat) : List Byte :=
  let h := l4 + (f.getD (l4 + 12) 0).toNat / 16 * 4
  let part := ((f.drop h).drop (mss * i)).take mss
  let g := f.take h ++ part
  let g := if ipVer f l3 = 4 then
      patch (patch g (l3 + 2) (beBytes2 (g.length - l3))) (l3 + 4) (beBytes2 ((be16 f (l3 + 4) + i) % 65536))
    else patch g (l3 + 4) (beBytes2 (g.length - l3 - 40))
  let seq := (be32 f (l4 + 4) + mss * i) % 2 ^ 32
  let g := patch g (l4 + 4) (beBytes2 (seq / 65536) ++ beBytes2 (seq % 65536))
  let fl := (f.getD (l4 + 13) 0)
  let fl := if i + 1 < n then fl &&& 0xF6 else fl
  patch g (l4 + 13) [if i = 0 then fl else fl &&& 0x7F]

/-- The segments of a frame under TSO; a frame that is not TCP, and an MSS of 0, give one. -/
def segments (f : List Byte) (l3 l4 mss : Nat) : List (List Byte) :=
  let h := l4 + (f.getD (l4 + 12) 0).toNat / 16 * 4
  if (l4Of f l3).1 ≠ 6 ∨ mss = 0 ∨ f.length ≤ h then [f]
  else
    let n := ceilDiv (f.length - h) mss
    (List.range n).map (fun i => tsoSegment f l3 l4 mss i n)

/-! ### Transmit (R339) -/

/-- The address of transmit descriptor i. -/
def Dev.txDesc (d : Dev) (p : Port) (i : Nat) : Nat :=
  d.portBase p Reg.TXQ_BASE_LO + i % d.portRing p Reg.TXQ_SIZE * 32

/-- FLAGS of transmit descriptor i. -/
def Dev.txFlags (d : Dev) (p : Port) (i : Nat) : Word := word (d.num (d.txDesc p i + 12) 4)

/-- How many descriptors from i on make the next frame, of n posted; none where EOP is still to be posted. -/
def Dev.chainLen (d : Dev) (p : Port) (i : Nat) : Nat → Nat → Option Nat
  | 0, _ => none
  | n + 1, k => if bit (d.txFlags p (i + k)) 1 then some (k + 1) else d.chainLen p i n (k + 1)

/-- FLAGS bits set in transmit descriptor i. -/
def Dev.txMark (d : Dev) (p : Port) (i m : Nat) : Dev :=
  d.storeBy (d.txDesc p i + 12) (leBytes 1 ((d.txFlags p i).toNat % 256 ||| m))

/-- A frame put on the wire: with an inverted FCS where its data was poisoned (R433). -/
def Dev.sendFrame (d : Dev) (p : Port) (bad : Bool) (f : List Byte) : Dev :=
  let d := d.add64 (portPage p) Reg.TX_FRAMES 1
  if bad then
    let d := { d with mgmt := { d.mgmt with
      errors := spPut (fun _ => 0) d.mgmt.errors (portKey p) (spGet (fun _ => 0) d.mgmt.errors (portKey p) + 1) } }
    d.out (.badFcsFrame p f)
  else d.out (.frame p f)

/-- The next frame of a port's transmit queue is sent (R338, R339). -/
def Dev.txDone (d : Dev) (p : Port) : Dev :=
  let pg := portPage p
  let cons := d.rdN pg Reg.TXQ_CONS
  let posted := min (d.portRing p Reg.TXQ_SIZE) ((d.rdN pg Reg.TXQ_PROD + 2 ^ 32 - cons) % 2 ^ 32)
  if !d.portOn p then d
  else
    match d.chainLen p cons posted 0 with
    | none => d
    | some n =>
      let d := d.toBase (spGet (fun _ => 0) d.mgmt.pauseEnd (portKey p))
      let parts := (List.range n).map (fun k => (d.num (d.txDesc p (cons + k)) 8, d.num (d.txDesc p (cons + k) + 8) 4 % 2 ^ 24))
      let bad := parts.any (fun e => d.poisoned e.1 e.2)
      let d := forL parts (fun e d => if d.poisoned e.1 e.2 then d.poisonRead (d.poisonAddr e.1 e.2) else d) d
      let f := parts.flatMap (fun e => d.bytes e.1 e.2)
      let flags := d.txFlags p cons
      let a := d.txDesc p cons
      let l3 := (d.byte (a + 16)).toNat
      let l4 := (d.byte (a + 17)).toNat
      let tso := bit flags 2 && decide (p ≠ .mgmt)
      let segs := if tso then segments f l3 l4 (field flags 31 16) else [f]
      let segs := segs.map (fun g =>
        let g := if bit flags 3 then ipCsum g l3 else g
        let g := if bit flags 4 then l4Csum g l3 l4 else g
        if bit flags 5 then vlanTag g (d.num (a + 18) 2) else g)
      let long := segs.any (fun g => decide (d.portLimit p < g.length))
      let d := forL (segs.filter (fun g => decide (g.length ≤ d.portLimit p))) (fun g d => d.sendFrame p bad g) d
      let d := if long then d.txMark p cons 0x41 else forN n (fun k d => d.txMark p (cons + k) 1) d
      (d.wrN pg Reg.TXQ_CONS (cons + n)).irq pg 0

/-! ### Receive (R338, R339) -/

/-- Where the network header of a received frame starts, and its type: behind one 802.1Q tag where there is one. -/
def frameL3 (f : List Byte) : Nat × Nat := if be16 f 12 = 0x8100 then (18, be16 f 16) else (14, be16 f 12)

/-- The IPv4 header checksum verifies. -/
def ipGood (f : List Byte) : Bool :=
  let (l3, ty) := frameL3 f
  ty == 0x0800 && ipVer f l3 == 4 && decide (20 ≤ ipHdr f l3) && decide (l3 + ipHdr f l3 ≤ f.length)
    && inetSum (sum16 ((f.drop l3).take (ipHdr f l3))) == 0

/-- The TCP or UDP checksum verifies. -/
def l4Good (f : List Byte) : Bool :=
  let (l3, ty) := frameL3 f
  if (ty = 0x0800 ∧ ipVer f l3 = 4) ∨ (ty = 0x86DD ∧ ipVer f l3 = 6) then
    let g := f.take (ipEnd f l3)
    let (proto, l4) := l4Of g l3
    (csumAt proto).isSome && decide (ipEnd f l3 ≤ f.length) && decide (l4 < g.length) && inetSum (l4Sum g l3 l4 proto) == 0
  else false

/-- A PAUSE frame's time in quanta of 512 bit times; none for another frame. -/
def pauseQuanta (f : List Byte) : Option Nat :=
  if be16 f 12 = 0x8808 ∧ be16 f 14 = 1 then some (be16 f 16) else none

/-- Full-rate PCLK periods of PAUSE quanta: 24.576 each at 25 Gbit/s, 614.4 at 1 Gbit/s. -/
def pausePeriods (p : Port) (q : Nat) : Nat := if p = .mgmt then ceilDiv (q * 6144) 10 else ceilDiv (q * 24576) 1000

/-- A PAUSE frame of a port (R336, Clause 31): to the MAC control address, from its own, padded to 60 bytes. -/
def Dev.pauseFrame (d : Dev) (p : Port) (q : Nat) : List Byte :=
  let pg := portPage p
  [0x01, 0x80, 0xC2, 0x00, 0x00, 0x01] ++ leBytes 4 (d.rdN pg Reg.MAC_LO) ++ leBytes 2 (d.rdN pg Reg.MAC_HI)
    ++ [0x88, 0x08, 0x00, 0x01] ++ beBytes2 q ++ List.replicate 42 0

/-- PAUSE is sent while PAUSE_EN is 1 when a frame has found no receive buffer: when to send one and for how long is not stated,
and its time is free (assumption log 30). -/
def Dev.pauseSend (d : Dev) (p : Port) : Dev :=
  if d.rdB (portPage p) Reg.ETH_CTL 2 then (d.drew).out (.frame p (d.pauseFrame p (field d.free 15 0))) else d

/-- A frame dropped for want of a buffer or for its length (R337, R338). -/
def Dev.rxDrop (d : Dev) (p : Port) : Dev := (d.add64 (portPage p) Reg.RX_DROPS 1).irq (portPage p) 3

/-- A frame received by a port. A PAUSE frame is taken by the MAC while PAUSE_EN is 1. -/
def Dev.ethRx (d : Dev) (p : Port) (f : List Byte) : Dev :=
  let pg := portPage p
  let cons := d.rdN pg Reg.RXQ_CONS
  if !d.portOn p then d
  else
    match (if d.rdB pg Reg.ETH_CTL 2 then pauseQuanta f else none) with
    | some q => { d with mgmt := { d.mgmt with
        pauseEnd := spPut (fun _ => 0) d.mgmt.pauseEnd (portKey p) (d.clock.base + pausePeriods p q) } }
    | none =>
      if d.portLimit p < f.length then d.rxDrop p
      else if d.rdN pg Reg.RXQ_PROD = cons then (d.pauseSend p).rxDrop p
      else
        let a := d.portBase p Reg.RXQ_BASE_LO + cons % d.portRing p Reg.RXQ_SIZE * 16
        let tagged := be16 f 12 == 0x8100
        let status := 1 + 2 * (ipGood f).toNat + 4 * (l4Good f).toNat + 8 * tagged.toNat
        let d := d.storeBy (d.num a 8) f
        let d := d.storeBy (a + 8) (leBytes 2 f.length ++ leBytes 2 status ++ leBytes 2 (if tagged then be16 f 14 else 0))
        ((d.add64 pg Reg.RX_FRAMES 1).wrN pg Reg.RXQ_CONS (cons + 1)).irq pg 1

/-! ### Links and registers -/

/-- A port's link state changes (R337). A port without FEC shows no FEC lock. No link comes up while the ports are off. -/
def Dev.linkChange (d : Dev) (p : Port) (on fec : Bool) : Dev :=
  let pg := portPage p
  let up := on && !d.portsOff
  let d := d.wrB pg Reg.ETH_STAT 0 up
  (if p = .mgmt then d else d.wrB pg Reg.ETH_STAT 1 (fec && d.rdB pg Reg.ETH_CTL 1)).irq pg 2

/-- SGMII auto-negotiation ends (R540): only a PHY at 1,000 Mbit/s brings the port up. -/
def Dev.sgmii (d : Dev) (up : Bool) (speed : Nat) (duplex : Bool) : Dev :=
  let d := d.wrN pgMGMT Reg.SGMII_STAT (1 + 2 * up.toNat + 4 * speed + 16 * duplex.toNat)
  let was := d.rdB pgMGMT Reg.ETH_STAT 0
  let now := up && speed == 2
  let d := if up && speed != 2 then d.irq pgMGMT 4 else d
  if was == now then d else d.linkChange .mgmt now false

/-- A port's word as it reads: ETH_STAT.PAUSED while a received PAUSE runs. -/
def Dev.ethRead (d : Dev) (p : Port) (off : Nat) : Word :=
  let w := d.rd (portPage p) off
  if off = Reg.ETH_STAT then putBit w 2 (decide (d.clock.base < spGet (fun _ => 0) d.mgmt.pauseEnd (portKey p))) else w

/-! ### Commands -/

/-- ETH_TX_POST (R339): TXQ_PROD advances. -/
def execEthTxPost (p : Port) (prod : Word) (s : State) : Host.Outcome State Fault Refusal :=
  s.run (fun d => (d.disarm (portPage p)).wr (portPage p) Reg.TXQ_PROD prod)

/-- TX_DONE (R339). -/
def execTxDone (p : Port) (s : State) : Host.Outcome State Fault Refusal := 
  s.run (fun d => d.thawed (portPage p) (fun d => d.txDone p))

/-- ETH_RX (R338, R339). -/
def execEthRx (p : Port) (frame : List Byte) (s : State) : Host.Outcome State Fault Refusal := s.run (fun d => d.ethRx p frame)

/-- LINK_CHANGE (R337). -/
def execLinkChange (p : Port) (up fecLock : Bool) (s : State) : Host.Outcome State Fault Refusal :=
  s.run (fun d => d.linkChange p up fecLock)

/-- SGMII_AN (R540). -/
def execSgmiiAn (linkUp : Bool) (speed : Fin 3) (duplex : Bool) (s : State) : Host.Outcome State Fault Refusal :=
  s.run (fun d => d.sgmii linkUp speed duplex)

end Sys2Proof.Machine
end

