-- ==== Sys2Proof/Machine/Evc.lean ====
section
/-! DEFINITION. The event controller (R505 to R513) and the cores' timer and software interrupts (R501). -/
namespace Sys2Proof.Machine

/-- Bit n of (IRQ_STAT AND IRQ_EN) of a page. -/
def Dev.irqOn (d : Dev) (p n : Nat) : Bool := d.rdB p Reg.IRQ_STAT n && d.rdB p Reg.IRQ_EN n

/-- Any head of a range has its event output at 1 (R176). -/
def Dev.anyHead (d : Dev) (lo n : Nat) : Bool := (List.range n).any (fun i => d.event (pgHD (lo + i)))

/-- Any of bits lo to lo + 7 of a page set and enabled (R535). -/
def Dev.irqGroup (d : Dev) (p lo : Nat) : Bool := field (d.rd p Reg.IRQ_STAT &&& d.rd p Reg.IRQ_EN) (lo + 7) lo ≠ 0

/-- The level of a source (R505). -/
def Dev.level (d : Dev) (s : Nat) : Bool :=
  if s = 0 then false
  else if s ≤ 4 then d.event (s - 1)
  else if s = 5 then d.event pgEVC
  else if s < 16 then false
  else if s < 32 then d.irqOn pgTMR (s - 16)
  else if s = 32 then d.irqOn pgGPIO 0 || d.irqOn pgGPIO 8
  else if s < 40 then d.irqOn pgGPIO (s - 32)
  else if s = 40 then d.irqOn pgDMA 0 || d.irqOn pgDMA 16 || d.irqOn pgDMA 31
  else if s < 56 then d.irqOn pgDMA (s - 40)
  else if s = 56 then d.event pgBLT
  else if s < 63 then d.event (pgDDR (s - 57))
  else if s = 63 then d.event pgMARCH || d.event pgMRAM
  else if s < 96 then d.event (pgLE (s - 64))
  else if s = 96 then d.event pgCOMPOSE
  else if s = 97 then d.event pgLEAD
  else if s = 98 then d.anyHead 0 64
  else if s = 99 then d.anyHead 64 64
  else if s = 100 then d.anyHead 128 4
  else if s < 104 then false
  else if s = 104 then d.event pgENC
  else if s = 105 then d.event pgDICT
  else if s = 106 then d.event pgSESS
  else if s < 112 then false
  else if s = 112 then d.event pgAUD
  else if s = 113 then d.event pgJACK
  else if s = 114 then d.event pgI2S
  else if s < 120 then false
  else if s = 120 then d.event pgFAB
  else if s < 129 then d.event (pgAL (s - 121))
  else if s = 129 then d.event pgTIME
  else if s = 130 then d.event pgLOG
  else if s < 136 then false
  else if s < 138 then d.event (pgETH (s - 136))
  else if s = 138 then d.event pgMGMT
  else if s = 139 then d.event pgUSB
  else if s < 143 then d.irqGroup pgLSP (8 * (s - 140))
  else if s = 143 then false
  else if s < 272 then d.event (pgHP (s - 144))
  else false

/-- EN[s] (R506, R513). -/
def Dev.srcEn (d : Dev) (s : Nat) : Bool := d.rdB pgEVC (Reg.EVC_EN + 4 * (s / 32)) (s % 32)

/-- TGT[s] names hart c (R506, R513). -/
def Dev.srcTgt (d : Dev) (s c : Nat) : Bool := d.rdB pgEVC (Reg.EVC_TGT + 4 * (s / 8)) (4 * (s % 8) + c)

/-- The state of a source: none idle, else its hart and whether it is in service (R506). -/
def Dev.owner (d : Dev) (s : Nat) : Option (Nat × Bool) := spGet (fun _ => none) d.evc.owner s

def Dev.setOwner (d : Dev) (s : Nat) (o : Option (Nat × Bool)) : Dev :=
  { d with evc := { d.evc with owner := spPut (fun _ => none) d.evc.owner s o } }

/-- R506. -/
def Dev.eligible (d : Dev) (s : Nat) : Bool := (d.owner s).isNone && d.level s && d.srcEn s

/-- CURPRI of a hart. -/
def Dev.curpri (d : Dev) (c : Nat) : Nat := d.rdF pgEVC (Reg.CURPRI + 64 * c) 3 0

/-- A hart is held in reset. -/
def Dev.hartHeld (d : Dev) (c : Nat) : Bool := d.sys.resetHarts.testBit c

/-- R506: a hart to which a source may be delivered. -/
def Dev.hartFree (d : Dev) (c : Nat) : Bool :=
  !(d.evc.owner.any (fun e => e.2.any (fun o => o.1 == c))) && decide (d.curpri c < 15) && !d.hartHeld c

/-- The source delivered to a hart (serv false) or in service with it (serv true); 0 for none. -/
def Dev.sourceOf (d : Dev) (c : Nat) (serv : Bool) : Nat :=
  match d.evc.owner.find? (fun e => e.2 == some (c, serv)) with
  | some e => e.1
  | none => 0

/-- The better of two harts for R507: the lowest CURPRI, ties to the lowest number. -/
def Dev.bestHart (d : Dev) : List Nat → Option Nat
  | [] => none
  | c :: l =>
    match d.bestHart l with
    | none => some c
    | some x => if d.curpri c ≤ d.curpri x then some c else some x

/-- The hart's external interrupt pending bit (R507): SMODE chooses MEIP or SEIP. -/
def Dev.pendBit (d : Dev) (c : Nat) (on : Bool) : Dev :=
  d.out (.coreIrq c (if d.rdB pgEVC (Reg.EVC_CCTL + 64 * c) 0 then 1 else 0) on)

/-- Routing of one source (R507). -/
def Dev.route (d : Dev) (s : Nat) : Dev :=
  match d.bestHart ((List.range 4).filter (fun c => d.hartFree c && d.srcTgt s c)) with
  | none => d
  | some c => (d.setOwner s (some (c, false))).pendBit c true

/-- R507: one pass from the state at its start. -/
def Dev.deliver (d : Dev) : Dev :=
  forL ((List.range 272).filter d.eligible) (fun s d => d.route s) d

/-- R508: a read of CLAIM by hart c. -/
def Dev.claim (d : Dev) (c : Nat) : Dev × Word :=
  let s := d.sourceOf c false
  if s = 0 then (d, 0) else ((d.setOwner s (some (c, true))).pendBit c false, word s)

/-- R510: a write to COMPLETE by hart c. -/
def Dev.complete (d : Dev) (c : Nat) (v : Word) : Dev :=
  let s := field v 8 0
  if d.owner s = some (c, true) then d.setOwner s none
  else (d.add32 pgEVC Reg.EVC_CERRS 1).irq pgEVC 0

/-- R509: a delivered source whose level, enable or target has gone. -/
def Dev.withdraw (d : Dev) (s : Nat) : Dev :=
  match d.owner s with
  | some (c, false) =>
    if d.level s && d.srcEn s && d.srcTgt s c then d else (d.setOwner s none).pendBit c false
  | _ => d

/-- R512: a hart is reset. -/
def Dev.evcHartReset (d : Dev) (c : Nat) : Dev :=
  let del := decide (d.sourceOf c false ≠ 0)
  let d := { d with evc := { d.evc with owner := d.evc.owner.filter (fun (e : Nat × Option (Nat × Bool)) => !(e.2.any (fun (o : Nat × Bool) => o.1 == c))) } }
  let d := d.wrF pgEVC (Reg.CURPRI + 64 * c) 3 0 15
  if del then d.pendBit c false else d

/-- MTIMECMP of a hart. -/
def Dev.mtimecmp (d : Dev) (c : Nat) : Nat := d.rd64 pgEVC (Reg.MTIMECMP_LO + 64 * c)

/-- MTIP of a hart (R501). -/
def Dev.mtip (d : Dev) (c : Nat) : Bool := decide (d.mtimecmp c ≤ d.timeCsr)

/-- The time CSR reaches a hart's MTIMECMP (R501). -/
def Dev.mtipRise (d : Dev) (c : Nat) : Dev :=
  let d := if d.mtip c then d else d.toBase ((d.mtimecmp c - d.clock.timeAdj) * 12)
  d.out (.coreIrq c 2 true)

/-- A write to a word of the EVC page beyond the common ones (R501, R511, R513). -/
def Dev.evcWrite (d : Dev) (r : Req) (off : Nat) (v : Word) : Dev :=
  if 0x400 ≤ off ∧ off < 0x500 then
    let c := (off - 0x400) / 64
    let w := (off - 0x400) % 64
    if w = 0x0C then match r with
      | .hart h => if h.val = c then d.complete c v else d
      | _ => d
    else
      let was := d.mtip c
      let d := d.regStore pgEVC off v
      if w = 0x14 then d.out (.coreIrq c 3 (bit v 0))
      else if (w = 0x18 ∨ w = 0x1C) ∧ d.mtip c ≠ was then d.out (.coreIrq c 2 (d.mtip c))
      else if w = 0x04 ∧ d.hartHeld c then d.wrF pgEVC off 3 0 15
      else d
  else d.regStore pgEVC off v

/-- A read of a word of the EVC page: EVC_LEVEL, EVC_SVC, CLAIM, COMPLETE and EVC_CSTAT are computed (R508, R513). -/
def Dev.evcRead (d : Dev) (r : Option Req) (off : Nat) : Dev × Word :=
  let bits := fun (f : Nat → Bool) (w : Nat) =>
    word ((List.range 32).foldl (fun a j => if f (32 * w + j) then a + 2 ^ j else a) 0)
  if 0x080 ≤ off ∧ off < 0x0C0 then (d, bits d.level ((off - 0x080) / 4))
  else if 0x100 ≤ off ∧ off < 0x140 then (d, bits (fun s => (d.owner s).isSome) ((off - 0x100) / 4))
  else if 0x400 ≤ off ∧ off < 0x500 then
    let c := (off - 0x400) / 64
    let w := (off - 0x400) % 64
    if w = 0x08 then match r with
      | some (.hart h) => if h.val = c then d.claim c else (d, 0)
      | _ => (d, 0)
    else if w = 0x0C then (d, 0)
    else if w = 0x10 then (d, word (d.sourceOf c false + d.sourceOf c true * 65536))
    else (d, d.rd pgEVC off)
  else (d, d.rd pgEVC off)

/-! ### Commands -/

/-- DELIVER (R507). -/
def execDeliver (s : State) : Host.Outcome State Fault Refusal := s.run (fun d => d.gpioSettle.deliver)

/-- CLAIM (R508). -/
def execClaim (c : Hart) (s : State) : Host.Outcome State Fault Refusal :=
  s.run (fun d => let (d, v) := d.claim c; d.reply (.data (v.setWidth 64)))

/-- COMPLETE (R510). -/
def execComplete (c : Hart) (v : Word) (s : State) : Host.Outcome State Fault Refusal :=
  s.onPage (.hart c) pgEVC (fun d => d.complete c v)

/-- WITHDRAW (R509). -/
def execWithdraw (src : Fin 512) (s : State) : Host.Outcome State Fault Refusal := s.run (fun d => d.withdraw src)

/-- MTIP (R501). -/
def execMtip (c : Hart) (s : State) : Host.Outcome State Fault Refusal := s.run (fun d => d.mtipRise c)

end Sys2Proof.Machine
end

