-- ==== Sys2Proof/Machine/Sys.lean ====
section
/-! DEFINITION. Modes, chip reset, boot, core restart, the watchdog and management features (R542 to R567, R587 to R589). -/
namespace Sys2Proof.Machine

abbrev secureEnd : Nat := 0x01100000
/-- The SEC command buffers (R551). -/
abbrev secBufBase : Nat := 0x010E0000
/-- The boot record's place in MRAM: the first word of the persistent counters (R567). -/
abbrev bootRecord : Nat := 0x11000
/-- Word 1 of the persistent counters holds the boot count (R557; assumption log 39). -/
abbrev bootCountWord : Nat := 1

def Dev.onSys (d : Dev) (f : SysSt → SysSt) : Dev := { d with sys := f d.sys }

/-! ### Harts held and halted -/

/-- The harts that the debugger halts, and what begins or ends with the first and last of them (R17). -/
def Dev.setHalted (d : Dev) (mask : Nat) : Dev :=
  let d := (d.gpioSettle.onSys (fun s => { s with haltedHarts := mask })).tmrFreezeEdge
  forN 32 (fun e d => d.leFreeze e) d

/-- Harts are held in reset (R512): the given mask joins those held. -/
def Dev.holdHarts (d : Dev) (mask : Nat) : Dev :=
  let d := forN 4 (fun c d => if mask.testBit c && !d.hartHeld c then d.evcHartReset c else d) d
  let d := d.onSys (fun s => { s with resetHarts := s.resetHarts ||| mask })
  let d := { d with resv := d.resv.filter (fun r => !mask.testBit r.1) }
  if d.sys.haltedHarts &&& mask = 0 then d else d.setHalted (d.sys.haltedHarts &&& (15 ^^^ mask))

/-- Harts leave reset. -/
def Dev.freeHarts (d : Dev) (mask : Nat) : Dev := d.onSys (fun s => { s with resetHarts := s.resetHarts &&& (15 ^^^ mask) })

/-- SYS_CORE_CTL.HART_EN releases harts 1 to 3, and holds those whose bit is 0 (R564, R573); in REST and LOCKOUT every
hart stays held. -/
def Dev.hartEn (d : Dev) : Dev :=
  if d.portsOff then d
  else
    let on := d.rdF pgSYS Reg.SYS_CORE_CTL 4 2 * 2
    (d.freeHarts on).holdHarts (14 ^^^ on)

/-! ### The boot record and the boot count -/

/-- The slot that the boot record names ACTIVE. -/
def Dev.bootActive (d : Dev) : Bool := (d.mramByte bootRecord).getLsbD 0
/-- TRIAL in the boot record. -/
def Dev.bootTrial (d : Dev) : Bool := (d.mramByte bootRecord).getLsbD 1
/-- The boot record written when ACTIVE or TRIAL changes (R567). -/
def Dev.setBoot (d : Dev) (active trial : Bool) : Dev :=
  if active = d.bootActive ∧ trial = d.bootTrial then d
  else d.mramWrite bootRecord [BitVec.ofNat 8 (active.toNat + 2 * trial.toNat)]

/-- The boot count: a persistent counter (R455, R557). -/
def Dev.bootCount (d : Dev) : Nat :=
  match spGet (fun _ => (none : Option Nat)) d.ram.persist bootCountWord with
  | some v => v
  | none => ofLe ((d.mramWord ((bootRecord + 64 * bootCountWord) / 64)).take 8)

def Dev.countBoot (d : Dev) : Dev :=
  let n := (d.bootCount + 1) % 2 ^ 64
  { d with ram := { d.ram with persist := spPut (fun _ => none) d.ram.persist bootCountWord (some n) } }

/-! ### MEAS (R550) -/

/-- MEAS as its 32 bytes. -/
def Dev.meas (d : Dev) : List Byte := (List.range 8).flatMap (fun i => leBytes 4 (d.rdN pgSEC (Reg.MEAS + 4 * i)))

/-- MEAS set from 32 bytes. -/
def Dev.setMeas (d : Dev) (bs : List Byte) : Dev :=
  forN 8 (fun i d => d.wrN pgSEC (Reg.MEAS + 4 * i) (ofLe ((bs.drop (4 * i)).take 4))) d

/-- An extend with 32 bytes. -/
def Dev.extend (d : Dev) (x : List Byte) : Dev := d.setMeas ((Config.sm3 (d.meas ++ x)).take 32)

/-- An event value of R550: its first bytes, padded with zeros to 32. -/
def measEvent (bs : List Byte) : List Byte := (bs ++ List.replicate 32 0).take 32

/-- A new challenge (R560): random, so free words. -/
def Dev.newChallenge (d : Dev) : Dev := forN 8 (fun i d => (d.wr pgSEC (Reg.DBG_CHAL + 4 * i) d.free).drew) d

/-! ### Images (R548, R549) -/

/-- Flash offset of a slot, as an address (R422). -/
def slotAddr (b : Bool) : Nat := flashBase + (if b then 0x1000000 else 0)

/-- The failure code of R549 for an image, 0 for a good one: header, key, signature, digest, epoch. -/
def Dev.imageFail (d : Dev) (hdr payload : List Byte) : Nat :=
  let len := ofLe ((hdr.drop 8).take 4)
  let entry := ofLe ((hdr.drop 12).take 4)
  let key := (hdr.drop 48).take 64
  if ofLe (hdr.take 2) ≠ 1 ∨ len < 4 ∨ 917504 < len ∨ entry % 4 ≠ 0 ∨ len ≤ entry then 1
  else if (Config.sm3 key).take 32 ≠ Config.otpVendorHash.take 32 then 2
  else if Config.sm2Verify key (hdr.take 112) ((hdr.drop 112).take 64) = false then 3
  else if payload.length < len ∨ (Config.sm3 (payload.take len)).take 32 ≠ (hdr.drop 16).take 32 then 4
  else if ofLe ((hdr.drop 4).take 4) / 2 ^ 26 < d.rdF pgSEC Reg.SEC_STAT 21 16 then 5
  else 0

/-- A slot's header and payload. -/
def Dev.slotImage (d : Dev) (b : Bool) : List Byte × List Byte :=
  let hdr := d.bytes (slotAddr b) 256
  (hdr, d.bytes (slotAddr b + 256) (min 917504 (ofLe ((hdr.drop 8).take 4))))

/-- A verified image's payload is loaded to 0x0000_0100_0000. -/
def Dev.loadImage (d : Dev) (hdr payload : List Byte) : Dev :=
  (d.store scratchBase (payload.take (ofLe ((hdr.drop 8).take 4)))).onSys (fun s => { s with image := word (ofLe ((hdr.drop 4).take 4)) })

/-- Profile selection (R552): the strapped slot if valid, else the lowest valid one. -/
def Dev.bootProfile (d : Dev) (strap : Nat) : Dev :=
  let ok := (List.range 4).filter (fun k => blobOk (d.profBlob k))
  let d := (d.wrN pgPROF Reg.PROF_STRAP strap).wrN pgPROF Reg.PROF_VALID (ok.foldl (fun a k => a + 2 ^ k) 0)
  let d := (d.wrF pgPROF Reg.PROF_STAT 2 0 0)
  match if ok.contains strap then some strap else ok.head? with
  | none => (d.wrN pgPROF Reg.PROF_ACTIVE 8).applyProfile []
  | some k =>
    let b := d.profBlob k
    (d.wrN pgPROF Reg.PROF_ACTIVE (k + 4 * (k == strap).toNat + 65536 * (ofLe ((b.drop 8).take 4) % 65536))).applyProfile b

/-- R549, step 7: DIGEST, the profile, the pending events of R550. -/
def Dev.measureBoot (d : Dev) (entry : Nat) (digest : List Byte) : Dev :=
  let d := d.extend digest
  let b := d.activeBlob
  let d := d.extend (if b.isEmpty then List.replicate 32 0 else (Config.sm3 b).take 32)
  let d := if d.rd pgSEC Reg.SEC_TAMP_REC ≠ 0 then d.extend (measEvent [1]) else d
  let d := if d.sys.dbgWas || d.dbgOpen then d.extend (measEvent [2]) else d
  if 3 ≤ entry then d.extend (measEvent [3, byteOf entry 0]) else d

/-- R549, steps 6 to 8, with a verified image. -/
def Dev.startImage (d : Dev) (entry strap : Nat) (hdr payload : List Byte) : Dev :=
  let d := d.loadImage hdr payload
  let d := if entry < 3 then d.bootProfile strap else d
  let d := (d.measureBoot entry ((hdr.drop 16).take 32)).wrB pgSYS Reg.SYS_STAT 1 false
  let d := d.onSys (fun s => { s with dbgWas := false })
  if entry < 3 then { d.setMode 2 with ram := { d.ram with hardDone := false } } else d

/-- SYS_BOOT_STAT (R573). -/
def Dev.bootStat (d : Dev) (entry : Nat) (slot trial other fail : Bool) (code : Nat) : Dev :=
  d.wrN pgSYS Reg.SYS_BOOT_STAT (entry + 8 * slot.toNat + 16 * trial.toNat + 32 * other.toNat + 64 * fail.toNat + 256 * code)

/-- The boot ROM (R549). Its work is done when the command ends; entries 3 to 5 are core restarts, which clear no memory,
derive no key and choose no profile (R565). -/
def Dev.bootRom (d : Dev) (entry strap : Nat) : Dev :=
  let d := if entry < 3 then
      let d := if entry = 0 ∧ d.rdB pgSYS Reg.SYS_RESET_CAUSE 0 then d.clear scratchBase secureEnd else d
      (d.clear 0x80000000 0x88500000).wrB pgSEC Reg.SEC_STAT 0 true
    else d
  let d := (d.setMeas (List.replicate 32 0)).countBoot
  let d := if entry < 3 ∧ d.rd pgSEC Reg.SEC_TAMP_REC ≠ 0 then (d.irq pgSEC 3).alarm pgSEC 3 else d
  let trial := d.bootTrial
  let slot := d.bootActive != trial
  let d := (d.setBoot d.bootActive false).onSys (fun s => { s with trialAt := none })
  let (h1, p1) := d.slotImage slot
  let c1 := d.imageFail h1 p1
  if c1 = 0 then
    let d := (d.bootStat entry slot trial false false 0).startImage entry strap h1 p1
    if trial then d.onSys (fun s => { s with trialAt := some d.clock.base }) else d
  else
    let (h2, p2) := d.slotImage (!slot)
    if d.imageFail h2 p2 = 0 then (d.bootStat entry (!slot) false true false c1).startImage entry strap h2 p2
    else (d.bootStat entry slot false false true c1).wrN pgPROF Reg.PROF_STRAP strap

/-- The chip enters ROOT with an entry (R543, R549, R589): hart 0 runs the boot ROM. -/
def Dev.enterRoot (d : Dev) (entry strap : Nat) : Dev :=
  let d := if entry < 2 then
      ((d.wrN pgSYS Reg.SYS_RESET_CAUSE d.sys.causes).onSys (fun s => { s with causes := 0, hold := 0 })).newChallenge
    else d
  ((d.irq pgSYS 0).freeHarts 1).bootRom entry strap

/-- UART_IMAGE (R549): while both slots have failed, an image over the UART is checked as a slot is, and runs. -/
def Dev.uartImage (d : Dev) (img : List Byte) : Dev :=
  if !d.rdB pgSYS Reg.SYS_BOOT_STAT 6 then d
  else
    let hdr := img.take 256
    let payload := img.drop 256
    let code := d.imageFail hdr payload
    if code ≠ 0 then d.wrF pgSYS Reg.SYS_BOOT_STAT 11 8 code
    else (d.wrB pgSYS Reg.SYS_BOOT_STAT 6 false).startImage (d.rdF pgSYS Reg.SYS_BOOT_STAT 2 0) (d.rdF pgPROF Reg.PROF_STRAP 1 0)
      hdr payload

/-! ### Chip reset (R543, R587 to R589) -/

/-- A word carried over a chip reset. -/
def Dev.carry (old : Dev) (p off : Nat) (d : Dev) : Dev := d.wr p off (old.rd p off)

/-- What a chip reset leaves. Every register takes its reset value but those of the always-on domain, the pins' and
sensors' readings and the OTP epoch; memories keep their cells, but the initialisation map is cleared, so DRAM reads zeros
(R428). A supply reset loses MRAM words not begun (R570). -/
def Dev.resetDev (d : Dev) (cause holdBit : Nat) (supply : Bool) : Dev :=
  let d := if supply ∧ !d.mramBlocked then d.mramDrain else d
  let prev := if d.sys.hold = 0 then d.mode else d.rdF pgSYS Reg.SYS_MODE 6 4
  let new : Dev :=
    { mem := d.mem
      wlog := .clear dramBase dramEnd :: d.wlog
      clock := { aon := d.aonAt d.clock.base, aonReady := d.clock.aonReady }
      ram := { repairRows := d.ram.repairRows, spares := d.ram.spares
               mramBuf := if supply then [] else d.ram.mramBuf
               persist := if supply then [] else d.ram.persist }
      log := { appended := d.log.appended }
      gpio := { level := d.gpio.level }
      sys := { hold := d.sys.hold ||| holdBit, causes := d.sys.causes ||| cause ||| (if d.mode = 7 then 32 else 0)
               dbgWas := d.sys.dbgWas || d.dbgOpen }
      outs := d.outs
      draws := d.draws }
  let new := new.wrN pgSYS Reg.SYS_MODE (1 + 16 * prev)
  let new := forL [Reg.SEC_TAMP_EN, Reg.SEC_TAMP_REC, Reg.SEC_TAMP_TIME_LO, Reg.SEC_TAMP_TIME_HI] (fun o n => d.carry pgSEC o n) new
  let new := new.wr pgSEC Reg.SEC_STAT (d.rd pgSEC Reg.SEC_STAT &&& 0x3F0004)
  let new := forL [Reg.PWR_VCORE, Reg.PWR_VSRAM, Reg.PWR_TEMP] (fun o n => d.carry pgPWR o n) new
  let new := new.wr pgPWR Reg.PWR_STAT (d.rd pgPWR Reg.PWR_STAT &&& (if supply then 8 else 15))
  let new := d.carry pgPROF Reg.PROF_STRAP new
  (forN 128 (fun n x => if d.rdB (pgHP n) Reg.HP_STAT 0 then x else x.wrB (pgHP n) Reg.HP_STAT 0 false) new).gpioNote

/-- Causes of R573 that a supply failure brings: SUPPLY, and POWER_ON where VDD_CORE was below its reset level (R589). -/
def Dev.supplyCause (d : Dev) : Nat := if d.rdF pgPWR Reg.PWR_VCORE 11 0 < 660 then 3 else 2

/-- The power-on sequence ends (R587). -/
def Dev.powerOnEnd (d : Dev) (strap : Nat) : Dev := if d.sys.hold = 1 then d.enterRoot 0 strap else d

/-- One thing that held the chip in reset ends; with the last of them the chip leaves reset. -/
def Dev.unhold (d : Dev) (bit strap : Nat) : Dev :=
  if !d.sys.hold.testBit bit then d
  else
    let d := d.onSys (fun s => { s with hold := s.hold ^^^ 2 ^ bit })
    if d.sys.hold = 0 then d.enterRoot 1 strap else d

/-- RESET_RELEASE (R589). -/
def Dev.resetRelease (d : Dev) (strap : Nat) : Dev := d.unhold 1 strap

/-- The straps as sampled last. -/
def Dev.lastStrap (d : Dev) : Nat := d.rdF pgPROF Reg.PROF_STRAP 1 0

/-- A software chip reset (R573): its cause, then ROOT. LOCKOUT is not left by it (R569). -/
def Dev.softChipReset (d : Dev) : Dev :=
  if d.mode = 7 ∨ d.sys.hold ≠ 0 then d else (d.resetDev 16 0 false).enterRoot 1 d.lastStrap

/-! ### Core restart and watchdog (R564 to R567) -/

/-- A core restart (R564, R565). -/
def Dev.coreRestart (d : Dev) (entry : Nat) : Dev :=
  let d := d.holdHarts 15
  let d := (d.wrF pgSYS Reg.SYS_CORE_CTL 4 2 0).add32 pgSYS Reg.SYS_RESTARTS 1
  let d := forL [Reg.MF_CHOICE_LO, Reg.MF_CHOICE_HI, Reg.MF_CTL, Reg.MF_STAT, Reg.MF_NEG_LO, Reg.MF_NEG_HI, Reg.SYS_WDOG]
    (fun o d => d.wrReset pgSYS o) d
  let d := (d.wrB pgSYS Reg.SYS_STAT 1 true).freeHarts 1
  d.bootRom entry d.lastStrap

/-- A management feature is negotiated (R559). -/
def Dev.mf (d : Dev) (i : Nat) : Bool := d.rdB pgSYS Reg.MF_NEG_LO i

/-- The watchdog counts (R567): not while the cores are off or held. -/
def Dev.wdogOn (d : Dev) : Bool := d.mf 0 && d.rdF pgSYS Reg.SYS_WDOG 15 0 != 0 && !d.portsOff

/-- The watchdog's count restarts. -/
def Dev.wdogRestart (d : Dev) : Dev := d.onSys (fun s => { s with wdogAt := d.clock.base, wdogWarned := false })

/-- WDOG_WARN (R567): half the timeout. -/
def Dev.wdogWarn (d : Dev) : Dev :=
  if !d.wdogOn || d.sys.wdogWarned then d
  else ((d.toBase (d.sys.wdogAt + d.rdF pgSYS Reg.SYS_WDOG 15 0 * 600000)).onSys (fun s => { s with wdogWarned := true })).irq pgSYS 4

/-- WDOG_EXPIRY (R567): the full timeout. -/
def Dev.wdogExpiry (d : Dev) : Dev :=
  if !d.wdogOn then d
  else (d.wdogWarn.toBase (d.sys.wdogAt + d.rdF pgSYS Reg.SYS_WDOG 15 0 * 1200000)).coreRestart 4

/-- TRIAL_TIMEOUT (R567): 60 s after a trial boot. In REST and LOCKOUT no core restarts. -/
def Dev.trialTimeout (d : Dev) : Dev :=
  match d.sys.trialAt with
  | none => d
  | some t => if d.portsOff then d else (d.toBase (t + msBase 60000)).coreRestart 5

/-- SYS_BOOT_SEL.BOOT_OK (R567): the running slot becomes ACTIVE. -/
def Dev.bootOk (d : Dev) : Dev :=
  (d.setBoot (d.rdB pgSYS Reg.SYS_BOOT_STAT 3) d.bootTrial).onSys (fun s => { s with trialAt := none })

/-- SYS_BOOT_SEL.TRIAL: ignored without LIVE_UPDATE (R559). -/
def Dev.bootTrialSet (d : Dev) : Dev := if d.mf 1 then d.setBoot d.bootActive true else d

/-- MF_CTL.OK (R52 to R54, R559): subset, then LIVE_UPDATE's dependency on WATCHDOG. -/
def Dev.mfOk (d : Dev) : Dev :=
  if d.rdB pgSYS Reg.MF_CTL 0 then d
  else
    let c := d.rd64 pgSYS Reg.MF_CHOICE_LO
    let o := d.rd64 pgSYS Reg.MF_OFFER_LO
    let code := if c &&& o ≠ c then 1 else if c.testBit 1 && !c.testBit 0 then 2 else 0
    let d := if code = 0 then
        (((d.wrB pgSYS Reg.MF_CTL 0 true).wrN pgSYS Reg.MF_STAT 1).wr64 pgSYS Reg.MF_NEG_LO c).wdogRestart
      else d.wrN pgSYS Reg.MF_STAT (2 + 256 * code)
    d.irq pgSYS 5

/-! ### Mode requests (R543, R544, R562) -/

/-- A request refused (R544). -/
def Dev.refuseMode (d : Dev) (code : Nat) : Dev := (d.wrF pgSYS Reg.SYS_STAT 11 8 code).irq pgSYS 1

/-- R543's DDR condition. -/
def Dev.ddrReady (d : Dev) : Bool :=
  (List.range 6).all (fun c => d.rdB (pgDDR c) Reg.DDR_CTL 0 && field (d.rd (pgDDR c) Reg.DDR_STAT) 1 0 == 1)

/-- R562's conditions but the first. -/
def Dev.restReady (d : Dev) : Bool :=
  d.heads.all (fun e => e.2.adm == .off) && d.rdN pgSESS Reg.SESS_OPEN == 0
    && d.fab.migs.all (fun e => !e.2.active) && d.ram.initOp.isNone

/-- Every Auver link, stream port, the management port and USB turned off. -/
def Dev.portsDown (d : Dev) : Dev :=
  let d := forN 8 (fun l d => (d.linkLoss l).setLinkSt l .down) d
  let d := forL [Port.eth0, Port.eth1, Port.mgmt] (fun p d =>
    if d.rdB (portPage p) Reg.ETH_STAT 0 then d.linkChange p false false else d) d
  forN 2 (fun k d => d.usbDetach k) d

/-- The lanes' transmitters idle or off (R105). -/
def Dev.lanesDown (d : Dev) : Dev :=
  forN 128 (fun n d => if d.linkLive n then d.laneLinkDown n else d.wrB (pgHP n) Reg.HP_STAT 10 false) d

/-- Entry to REST (R562). -/
def Dev.enterRest (d : Dev) : Dev :=
  let d := (d.portsDown.lanesDown.setMode 6).holdHarts 15
  { d with clock := { d.clock with restAt := d.clock.base } }

/-- A request for a mode (R543, R544). -/
def Dev.requestMode (d : Dev) (q : Nat) : Dev :=
  let m := d.mode
  let deg := d.rd pgSYS Reg.SYS_DEG_CAUSE ≠ 0
  match q with
  | 3 =>
    if m = 2 then if !d.ddrReady then d.refuseMode 2 else if deg then d.setMode 4 else d.setMode 3
    else if m = 4 then if deg then d.refuseMode 3 else d.setMode 3
    else if m = 5 then if deg then d.setMode 4 else d.setMode 3
    else d.refuseMode 1
  | 4 =>
    if m = 2 then if !d.ddrReady then d.refuseMode 2 else (d.degrade 4).setMode 4
    else if m = 3 then d.degrade 4
    else if m = 5 then (d.degrade 4).setMode 4
    else d.refuseMode 1
  | 5 => if m = 3 ∨ m = 4 then d.setMode 5 else d.refuseMode 1
  | 6 =>
    if ¬(m = 3 ∨ m = 4 ∨ m = 5) then d.refuseMode 1
    else if !d.mf 3 then d.refuseMode 5
    else if !d.restReady then d.refuseMode 4
    else d.enterRest
  | _ => d.refuseMode 1

/-! ### Wake (R563) -/

/-- An enabled source wakes the chip from REST. -/
def Dev.wake (d : Dev) (src : WakeSrc) (strap : Nat) : Dev :=
  let bit := match src with
    | .perst _ => 0
    | .wakePin => 1
    | .alarm => 2
  if d.mode ≠ 6 ∨ !d.rdB pgPWR Reg.PWR_WAKE_EN bit then d
  else
    let d := match src with
      | .alarm =>
        let n := d.rd64 pgPWR Reg.REST_ALARM_LO
        if d.clock.aonReady then d.toBase (ceilDiv (n * 1200000000) 32768 + d.clock.aonFrom - d.clock.aon) else d
      | _ => d
    let d := d.wrN pgPWR Reg.PWR_WAKE_CAUSE (2 ^ bit)
    let e := d.aonCnt - sclkTicks (d.aonAt d.clock.restAt)
    let d := (d.timersWake e).gpioNote
    let d := { d with clock := { d.clock with
      timeAdj := (d.clock.timeAdj + e * 100000000 / 32768 + 2 ^ 64 - (d.clock.base / 12 - d.clock.restAt / 12)) % 2 ^ 64
      started := false, locked := false, ft := 0, ftAcc := 0, timeFrom := d.clock.base } }
    let d := forL [Reg.TIME_STAT, Reg.TIME_OFFSET, Reg.TIME_CORR] (fun o d => d.wrReset pgTIME o) d
    let d := { d with fab := { d.fab with servoI := 0, servoC := 0, parent := none, goodRun := 0, badRun := 0, lastSync := 0 } }
    let d := forN 32 (fun e d => (d.wrB (pgLE e) Reg.LE_CTL 0 false).engReset e) d.dictReset
    let d := (d.wrF pgJACK Reg.JACK_STAT 1 0 0).onSnd (fun s => { s with nodes := [], detLast := none })
    (d.wrF pgSYS Reg.SYS_MODE 6 4 6).wrF pgSYS Reg.SYS_MODE 2 0 1 |>.enterRoot 2 strap

/-! ### The SYS page -/

/-- A write to SYS_CORE_CTL (R564, R573). -/
def Dev.coreCtl (d : Dev) (v : Word) : Dev :=
  let d := (d.regStore pgSYS Reg.SYS_CORE_CTL v).hartEn
  if field v 31 24 ≠ 0xA5 then d
  else if bit v 1 then d.softChipReset
  else if bit v 0 ∧ !d.portsOff then d.coreRestart 3
  else d

/-- A write to SYS_BOOT_SEL (R573). -/
def Dev.bootSel (d : Dev) (v : Word) : Dev :=
  let d := if bit v 1 then d.bootTrialSet else d
  if bit v 2 then d.bootOk else d

/-- A write to a word of the SYS page beyond the common ones and the accounting words (R573). -/
def Dev.sysWrite (d : Dev) (off : Nat) (v : Word) : Dev :=
  if off = Reg.SYS_MODE_REQ then d.requestMode (field v 2 0)
  else if off = Reg.SYS_CORE_CTL then d.coreCtl v
  else if off = Reg.SYS_BOOT_SEL then d.bootSel v
  else if off = Reg.SYS_WDOG then if d.mf 0 then (d.regStore pgSYS off v).wdogRestart else d
  else if off = Reg.SYS_WDOG_KICK then d.wdogRestart
  else if (off = Reg.MF_CHOICE_LO ∨ off = Reg.MF_CHOICE_HI) ∧ d.rdB pgSYS Reg.MF_CTL 0 then d
  else if off = Reg.MF_CTL then if bit v 0 then d.mfOk else d
  else d.regStore pgSYS off v

/-- A read of a word of the SYS page (R573). -/
def Dev.sysRead (d : Dev) (off : Nat) : Word :=
  if off = Reg.SYS_STAT then putBit (d.rd pgSYS off) 0 d.drained
  else if off = Reg.SYS_BOOT_SEL then word (d.bootActive.toNat + 2 * d.bootTrial.toNat)
  else if off = Reg.SYS_SERIAL_LO then word ownSerial
  else if off = Reg.SYS_SERIAL_HI then word (ownSerial / 2 ^ 32)
  else if off = Reg.SYS_WDOG ∧ !d.mf 0 then 0
  else d.rd pgSYS off

/-! ### Commands -/

/-- REQUEST_SERVICE (R543). -/
def execRequestService (r : Req) (s : State) : Host.Outcome State Fault Refusal := s.onPage r pgSYS (fun d => d.requestMode 3)
/-- REQUEST_DEGRADED (R543). -/
def execRequestDegraded (r : Req) (s : State) : Host.Outcome State Fault Refusal := s.onPage r pgSYS (fun d => d.requestMode 4)
/-- REQUEST_DRAIN (R543). -/
def execRequestDrain (r : Req) (s : State) : Host.Outcome State Fault Refusal := s.onPage r pgSYS (fun d => d.requestMode 5)
/-- REQUEST_REST (R562). -/
def execRequestRest (r : Req) (s : State) : Host.Outcome State Fault Refusal := s.onPage r pgSYS (fun d => d.requestMode 6)
/-- POWER_ON_END (R587). -/
def execPowerOnEnd (strap : BitVec 2) (s : State) : Host.Outcome State Fault Refusal := s.run (fun d => d.powerOnEnd strap.toNat)
/-- UART_IMAGE (R549). -/
def execUartImage (img : List Byte) (s : State) : Host.Outcome State Fault Refusal := s.run (fun d => d.uartImage img)
/-- RESET_PIN (R589). -/
def execResetPin (s : State) : Host.Outcome State Fault Refusal := s.run (fun d => d.resetDev 8 2 false)
/-- RESET_RELEASE (R589). -/
def execResetRelease (strap : BitVec 2) (s : State) : Host.Outcome State Fault Refusal :=
  s.run (fun d => d.resetRelease strap.toNat)
/-- PWRGOOD_FALL (R589). -/
def execPwrgoodFall (s : State) : Host.Outcome State Fault Refusal := s.run (fun d => d.resetDev d.supplyCause 1 false)
/-- CHIP_RESET (R573). -/
def execChipReset (r : Req) (v : Word) (s : State) : Host.Outcome State Fault Refusal := s.onPage r pgSYS (fun d => d.coreCtl v)
/-- RESTART (R564). -/
def execRestart (r : Req) (v : Word) (s : State) : Host.Outcome State Fault Refusal := s.onPage r pgSYS (fun d => d.coreCtl v)
/-- WDOG_KICK (R567). -/
def execWdogKick (r : Req) (_v : Word) (s : State) : Host.Outcome State Fault Refusal := s.onPage r pgSYS Dev.wdogRestart
/-- WDOG_WARN (R567). -/
def execWdogWarn (s : State) : Host.Outcome State Fault Refusal := s.run Dev.wdogWarn
/-- WDOG_EXPIRY (R567). -/
def execWdogExpiry (s : State) : Host.Outcome State Fault Refusal := s.run Dev.wdogExpiry
/-- TRIAL_TIMEOUT (R567). -/
def execTrialTimeout (s : State) : Host.Outcome State Fault Refusal := s.run Dev.trialTimeout
/-- TRIAL (R567). -/
def execTrial (r : Req) (s : State) : Host.Outcome State Fault Refusal := s.onPage r pgSYS Dev.bootTrialSet
/-- BOOT_OK (R567). -/
def execBootOk (r : Req) (s : State) : Host.Outcome State Fault Refusal := s.onPage r pgSYS Dev.bootOk
/-- MF_OK (R559). -/
def execMfOk (r : Req) (s : State) : Host.Outcome State Fault Refusal := s.onPage r pgSYS Dev.mfOk
/-- WAKE (R563). -/
def execWake (src : WakeSrc) (strap : BitVec 2) (s : State) : Host.Outcome State Fault Refusal := s.run (fun d => d.wake src strap.toNat)

end Sys2Proof.Machine
end

