-- ==== Sys2Proof/Machine/Power.lean ====
section
/-! DEFINITION. Profile commands (R554, R555, R576), supplies and temperature (R570 to R572, R574), and the always-on domain
(R591). -/
namespace Sys2Proof.Machine

/-! ### PROF_CMD -/

/-- PROF_STAT.STATE. -/
def Dev.profState (d : Dev) : Nat := d.rdF pgPROF Reg.PROF_STAT 1 0

/-- A profile command refused, or done, with a result (R576). -/
def Dev.profEnd (d : Dev) (result : Nat) : Dev :=
  (d.wrF pgPROF Reg.PROF_STAT 7 4 result).irq pgPROF (if result = 0 ∨ result = 6 then 0 else 2)

/-- The active slot; none while no profile is active. -/
def Dev.activeSlot (d : Dev) : Option Nat :=
  if d.rdB pgPROF Reg.PROF_ACTIVE 3 then none else some (d.rdF pgPROF Reg.PROF_ACTIVE 1 0)

/-- PROF_CMD WRITE (R554). A length or a source that no blob can have installs nothing. -/
def Dev.profWrite (d : Dev) (slot : Nat) : Dev :=
  let n := d.rdN pgPROF Reg.PROF_LEN
  let a := d.rd64 pgPROF Reg.PROF_SRC_LO
  if d.profState ≠ 0 then d.profEnd 1
  else if d.activeSlot = some slot then d.profEnd 4
  else if !profLenOk n || !d.inDram a n then d.profEnd 2
  else if d.poisoned a n then (d.poisonRead (d.poisonAddr a n)).profEnd 2
  else
    let d := d.mramBulk (profOff slot) (d.bytes a n)
    let ok := blobOk (d.profBlob slot)
    (d.wrB pgPROF Reg.PROF_VALID slot ok).profEnd (if ok then 0 else 2)

/-- Lanes whose items differ between two blobs (R555). -/
def profDiff (a b : List Byte) : List Nat :=
  if profHeads a ≠ profHeads b then List.range 128 else (List.range 128).filter (fun n => profLane a n != profLane b n)

/-- A chip-scope difference. -/
def profChipDiff (a b : List Byte) : Bool := profChip a != profChip b

/-- A field that a switch must change is frozen. -/
def Dev.switchFrozen (d : Dev) (a b : List Byte) : Bool :=
  let x := profChip a
  let y := profChip b
  (x.fabCtl != y.fabCtl && d.frozenField pgFAB Reg.FAB_CTL) || (x.offer != y.offer && d.frozenField pgFAB Reg.FAB_OFFER_LO)
    || (x.root != y.root && d.frozenField pgTIME Reg.TIME_CTL) || (x.acqWait != y.acqWait && d.frozenField pgTIME Reg.TIME_ACQ_WAIT)
    || (List.range 128).any (fun n =>
      ((profLane a n).1 != (profLane b n).1 && d.frozenField (pgHP n) Reg.HP_CTL)
        || ((profLane a n).2 != (profLane b n).2 && d.frozenField (pgHD n) Reg.HB_SUBSYS))

/-- PROF_AFFECT from the heads affected. -/
def Dev.setAffect (d : Dev) (hs : List Nat) : Dev :=
  forN 5 (fun w d => d.wrN pgPROF (Reg.PROF_AFFECT + 4 * w)
    (hs.foldl (fun a h => if h / 32 = w then a + 2 ^ (h % 32) else a) 0)) d

/-- Heads that PROF_AFFECT names. -/
def Dev.affected (d : Dev) : List Nat := (List.range 132).filter (fun h => d.rdB pgPROF (Reg.PROF_AFFECT + 4 * (h / 32)) (h % 32))

/-- PROF_CMD SWITCH (R555). -/
def Dev.profSwitch (d : Dev) (slot : Nat) : Dev :=
  let b := d.profBlob slot
  let a := d.activeBlob
  if !d.mf 2 then d.profEnd 5
  else if d.profState ≠ 0 then d.profEnd 1
  else if !blobOk b then d.profEnd 2
  else if d.switchFrozen a b then d.profEnd 3
  else
    let chip := profChipDiff a b
    let d := (d.setAffect (if chip then List.range 132 else profDiff a b)).onSys (fun s => { s with profSlot := slot })
    d.wrN pgPROF Reg.PROF_STAT (2 + 4 * chip.toNat)

/-- PROF_CMD CANCEL (R555). -/
def Dev.profCancel (d : Dev) : Dev :=
  if d.profState = 2 then (d.wrF pgPROF Reg.PROF_STAT 1 0 0).profEnd 6 else d.profEnd 1

/-- R555's conditions. -/
def Dev.switchReady (d : Dev) : Bool :=
  d.affected.all (fun h => (d.head h).adm == .off && (decide (128 ≤ h) || d.nameState h == 0))
    && (!d.rdB pgPROF Reg.PROF_STAT 2 || (d.mode == 5 && d.drained))

/-- APPLIED (R555). -/
def Dev.applied (d : Dev) : Dev :=
  if d.profState ≠ 2 || !d.switchReady then d
  else
    let a := d.activeBlob
    let b := d.profBlob d.sys.profSlot
    let lanes := d.affected.filter (fun h => decide (h < 128))
    let d := if d.rdB pgPROF Reg.PROF_STAT 2 then d.applyChip (some (profChip a)) (profChip b) else d
    let d := forL lanes (fun n d => d.applyLane (some a) b n) (d.onSys (fun s => { s with rom := profRom b }))
    let d := forL lanes (fun n d => if !d.rdB (pgHP n) Reg.HP_CTL 0 then d.laneLinkDown n else d) d
    let d := forL lanes (fun n d => forL [Fn.display, .input, .audio] (fun f d => d.fnLevelReset n f) d) d
    let d := d.wrN pgPROF Reg.PROF_ACTIVE (d.sys.profSlot + 65536 * (ofLe ((b.drop 8).take 4) % 65536))
    (d.wrN pgPROF Reg.PROF_STAT 0).irq pgPROF 1

/-- A write to a word of the PROF page (R576). -/
def Dev.profPage (d : Dev) (off : Nat) (v : Word) : Dev :=
  if off = Reg.PROF_CMD then
    match field v 7 4 with
    | 1 => d.profWrite (field v 1 0)
    | 2 => d.profSwitch (field v 1 0)
    | 3 => d.profCancel
    | _ => d
  else d.regStore pgPROF off v

/-! ### Supplies (R570, R571) -/

/-- PWR_WARN (R571): a rail is below its warning level, 700 mV or 795 mV; the core rail's level is mv. -/
def Dev.pwrWarn (d : Dev) (core sram : Bool) (mv : Nat) : Dev :=
  let core := core && decide (mv < 700)
  if !core && !sram then d
  else
    let was := d.rdB pgPWR Reg.PWR_STAT 0
    let d := d.wrN pgPWR Reg.PWR_VCORE mv
    let d := if sram then (d.wrN pgPWR Reg.PWR_VSRAM (min 794 (field d.free 11 0))).drew else d
    let d := if core then d.wrB pgPWR Reg.PWR_STAT 1 true else d
    let d := if sram then d.wrB pgPWR Reg.PWR_STAT 2 true else d
    let d := d.onSys (fun s => { s with dipMin := if was then min s.dipMin mv else mv })
    if was then d else ((d.wrB pgPWR Reg.PWR_STAT 0 true).irq pgPWR 0).irq pgMRAM 0

/-- PWR_RECOVER (R571). -/
def Dev.pwrRecover (d : Dev) : Dev :=
  if !d.rdB pgPWR Reg.PWR_STAT 0 then d
  else
    let sram := d.rdB pgPWR Reg.PWR_STAT 2
    let d := d.wrF pgPWR Reg.PWR_STAT 2 0 0
    let d := (d.wrN pgPWR Reg.PWR_VCORE (max 715 (field d.free 11 0))).drew
    let d := if sram then (d.wrN pgPWR Reg.PWR_VSRAM (max 810 (field d.free 11 0))).drew else d
    let d := ((d.add32 pgPWR Reg.PWR_DIPS 1).wrN pgPWR Reg.PWR_DIP_MIN d.sys.dipMin).irq pgPWR 1
    let d := d.irq pgMRAM 1
    if d.rdB pgFAB Reg.RT_CTL 5 then d.switchNow else d

/-- A word of the PWR page as read: AON_CNT (R574). -/
def Dev.pwrRead (d : Dev) (off : Nat) : Word :=
  if off = Reg.AON_CNT_LO then word d.aonCnt
  else if off = Reg.AON_CNT_HI then word (d.aonCnt / 2 ^ 32)
  else d.rd pgPWR off

/-! ### Temperature (R572): eighths of a degree -/

/-- THERM_WARN at 115 °C. -/
def Dev.thermWarn (d : Dev) (temp : BitVec 16) : Dev :=
  if d.rdB pgPWR Reg.PWR_STAT 3 || decide (temp.toInt < 920) then d
  else ((d.wrN pgPWR Reg.PWR_TEMP temp.toNat).wrB pgPWR Reg.PWR_STAT 3 true).irq pgPWR 2

/-- THERM_OK below 110 °C. -/
def Dev.thermOk (d : Dev) (temp : BitVec 16) : Dev :=
  if !d.rdB pgPWR Reg.PWR_STAT 3 || decide (880 ≤ temp.toInt) then d
  else ((d.wrN pgPWR Reg.PWR_TEMP temp.toNat).wrB pgPWR Reg.PWR_STAT 3 false).irq pgPWR 3

/-- THERMAL_TRIP at 125 °C: LOCKOUT is not left by it (R569). -/
def Dev.thermalTrip (d : Dev) (temp : BitVec 16) : Dev :=
  if temp.toInt < 1000 ∨ d.mode = 7 then d else (d.wrN pgPWR Reg.PWR_TEMP temp.toNat).resetDev 4 4 false

/-- THERMTRIP# is low (R593): a thermal trip holds the chip in reset. -/
def Dev.thermtripLow (d : Dev) : Bool := d.sys.hold.testBit 2

/-- TRIP_END below 115 °C. -/
def Dev.tripEnd (d : Dev) (temp : BitVec 16) : Dev :=
  if 920 ≤ temp.toInt ∨ !d.thermtripLow then d else (d.wrN pgPWR Reg.PWR_TEMP temp.toNat).unhold 2 d.lastStrap

/-! ### The always-on domain (R591) -/

/-- 256 good SCLK ticks. -/
def Dev.aonReady (d : Dev) : Dev :=
  if d.clock.aonReady then d
  else { d with clock := { d.clock with aonReady := true, aon := 0, aonFrom := d.clock.base } }

/-- The crystal has not started within 2 s: the chip is held in reset. -/
def Dev.crystalTimeout (d : Dev) : Dev := if d.clock.aonReady then d else d.onSys (fun s => { s with hold := s.hold ||| 8 })

/-! ### Commands -/

/-- PROF_WRITE (R554). -/
def execProfWrite (r : Req) (slot : Fin 4) (s : State) : Host.Outcome State Fault Refusal := s.onPage r pgPROF (fun d => d.profWrite slot)
/-- PROF_SWITCH (R555). -/
def execProfSwitch (r : Req) (slot : Fin 4) (s : State) : Host.Outcome State Fault Refusal :=
  s.onPage r pgPROF (fun d => d.profSwitch slot)
/-- PROF_CANCEL (R555). -/
def execProfCancel (r : Req) (s : State) : Host.Outcome State Fault Refusal := s.onPage r pgPROF Dev.profCancel
/-- APPLIED (R555). -/
def execApplied (s : State) : Host.Outcome State Fault Refusal := s.run Dev.applied
/-- PWR_WARN (R571). -/
def execPwrWarn (core sram : Bool) (mv : BitVec 12) (s : State) : Host.Outcome State Fault Refusal :=
  s.run (fun d => d.pwrWarn core sram mv.toNat)
/-- PWR_RECOVER (R571). -/
def execPwrRecover (s : State) : Host.Outcome State Fault Refusal := s.run Dev.pwrRecover
/-- SUPPLY_RESET (R570): a chip reset, held until the power-on sequence has ended (R587). -/
def execSupplyReset (s : State) : Host.Outcome State Fault Refusal := s.run (fun d => d.resetDev d.supplyCause 1 true)
/-- THERM_WARN (R572). -/
def execThermWarn (temp : BitVec 16) (s : State) : Host.Outcome State Fault Refusal := s.run (fun d => d.thermWarn temp)
/-- THERM_OK (R572). -/
def execThermOk (temp : BitVec 16) (s : State) : Host.Outcome State Fault Refusal := s.run (fun d => d.thermOk temp)
/-- THERMAL_TRIP (R572). -/
def execThermalTrip (temp : BitVec 16) (s : State) : Host.Outcome State Fault Refusal := s.run (fun d => d.thermalTrip temp)
/-- TRIP_END (R572). -/
def execTripEnd (temp : BitVec 16) (s : State) : Host.Outcome State Fault Refusal := s.run (fun d => d.tripEnd temp)
/-- AON_READY (R591). -/
def execAonReady (s : State) : Host.Outcome State Fault Refusal := s.run Dev.aonReady
/-- CRYSTAL_TIMEOUT (R591). -/
def execCrystalTimeout (s : State) : Host.Outcome State Fault Refusal := s.run Dev.crystalTimeout

end Sys2Proof.Machine
end

