-- ==== Sys2Proof/Machine/Secure.lean ====
section
/-! DEFINITION. The SEC page: measurement, quotes, debug unlock, tamper (R550, R556 to R561, R568, R569), and the debugger's
hold on harts (R502, R504). -/
namespace Sys2Proof.Machine

/-- A SEC command ends with a result (R575). -/
def Dev.secDone (d : Dev) (result : Nat) : Dev := (d.wrN pgSEC Reg.SEC_CMD_STAT (result * 16)).irq pgSEC 0

/-- The command buffer's offset, and n bytes of it; none where they run past the area (R551, R575). -/
def Dev.secBuf (d : Dev) (n : Nat) : Option Nat :=
  let off := d.rdF pgSEC Reg.SEC_BUF 15 6 * 64
  if off + n ≤ 0x10000 then some (secBufBase + off) else none

/-- SEC_CMD EXTEND (R550). -/
def Dev.secExtend (d : Dev) : Dev :=
  (d.extend ((List.range 8).flatMap (fun i => leBytes 4 (d.rdN pgSEC (Reg.MEAS_IN + 4 * i))))).secDone 0

/-- The quote's first 96 bytes (R557). -/
def Dev.quoteBytes (d : Dev) (nonce : List Byte) : List Byte :=
  let flags := d.mode + 8 * d.dbgOpen.toNat + 16 * (d.rd pgSEC Reg.SEC_TAMP_REC != 0).toNat
  let prof := if d.rdB pgPROF Reg.PROF_ACTIVE 3 then 0xFF else d.rdF pgPROF Reg.PROF_ACTIVE 1 0
  leBytes 4 1 ++ leBytes 4 flags ++ leBytes 8 ownSerial ++ nonce ++ d.meas ++ leBytes 8 d.bootCount ++ leBytes 1 prof
    ++ List.replicate 7 0

/-- SEC_CMD QUOTE (R557). -/
def Dev.secQuote (d : Dev) : Dev :=
  if !d.canQuote then d.secDone 2
  else match d.secBuf 160 with
    | none => d.secDone 3
    | some a =>
      let q := d.quoteBytes (d.bytes a 32)
      let sig := (Config.sm2Sign d.draws q ++ List.replicate 64 0).take 64
      ((d.drew).store a (q ++ sig)).secDone 0

/-- SEC_CMD EPOCH (R558): the OTP epoch never falls. -/
def Dev.secEpoch (d : Dev) : Dev :=
  (d.wrF pgSEC Reg.SEC_STAT 21 16 (max (d.rdF pgSEC Reg.SEC_STAT 21 16) (field d.sys.image 31 26))).secDone 0

/-- The working keys and the session secrets end (R556, R561): KEY_VALID falls, keys are gone, and every OPEN session becomes
ENDING with END_REASON 2 and no further record. -/
def Dev.zeroise (d : Dev) : Dev :=
  let d := d.wrB pgSEC Reg.SEC_STAT 0 false
  let open_ := (d.enc.sessions.map (fun e => e.1)).filter (fun s => d.sessState s == 1)
  let d := d.onEnc (fun e => { e with
    keyStage := List.replicate 8 0
    sessions := e.sessions.map (fun p => (p.1, { p.2 with txKey := [], rxKey := [], txStaged := none, rxStaged := none })) })
  let d := forL open_ (fun s d =>
    let d := ((d.loseControl s).setSd s dREASON 1 2).setSd s dSTATE 1 2
    d.onMirror s (fun m => { m with head := 255 })) d
  if open_.isEmpty then d else (d.irq pgSESS 1).freeIndexes

/-- A token's checks (R560). -/
def Dev.tokenOk (d : Dev) (t : List Byte) : Bool :=
  let key := (t.drop 48).take 64
  t.length == 176 && ofLe (t.take 2) == 1 && (t.drop 2).take 6 == List.replicate 6 0
    && ofLe ((t.drop 8).take 8) == ownSerial
    && (t.drop 16).take 32 == (List.range 8).flatMap (fun i => leBytes 4 (d.rdN pgSEC (Reg.DBG_CHAL + 4 * i)))
    && (Config.sm3 key).take 32 == Config.otpOwnerHash.take 32
    && Config.sm2Verify key (t.take 112) ((t.drop 112).take 64)

/-- A token arrives (R560, R561), with its result: 0 opened, 2 refused unchecked, 3 failed. -/
def Dev.token (d : Dev) (t : List Byte) : Dev × Nat :=
  if d.rdB pgSEC Reg.SEC_STAT 3 ∨ d.mode = 7 then (d, 2)
  else if d.tokenOk t then
    let d := d.zeroise.clear secBufBase (secBufBase + 0x10000)
    ((((d.extend (measEvent [2])).wrB pgSEC Reg.SEC_STAT 1 true).irq pgSEC 1), 0)
  else
    let n := d.rdF pgSEC Reg.SEC_STAT 11 8 + 1
    let d := (d.wrF pgSEC Reg.SEC_STAT 11 8 (min n 15)).wrB pgSEC Reg.SEC_STAT 3 (decide (8 ≤ n))
    ((d.irq pgSEC 2).newChallenge, 3)

/-- SEC_CMD UNLOCK (R560). -/
def Dev.secUnlock (d : Dev) : Dev :=
  match d.secBuf 176 with
  | none => d.secDone 3
  | some a => let (d, r) := d.token (d.bytes a 176); d.secDone r

/-- A write to a word of the SEC page (R575). -/
def Dev.secWrite (d : Dev) (off : Nat) (v : Word) : Dev :=
  if off = Reg.SEC_CMD then
    match field v 3 0 with
    | 1 => d.secExtend
    | 2 => d.secQuote
    | 3 => d.secUnlock
    | 4 => d.secEpoch
    | _ => d.secDone 3
  else if off = Reg.SEC_TAMP_EN then d.wr pgSEC off (d.rd pgSEC off ||| (v &&& 0xF))
  else if off = Reg.SEC_TAMP_REC then
    let d := d.regStore pgSEC off v
    d.wrB pgSEC Reg.SEC_STAT 2 (d.rd pgSEC off != 0)
  else d.regStore pgSEC off v

/-- LOCKOUT (R569). -/
def Dev.lockout (d : Dev) : Dev :=
  let d := if d.mode = 7 then d else d.setMode 7
  let d := d.holdHarts 15
  let d := d.portsDown.lanesDown
  forL (d.heads.map (fun e => e.1)) (fun h d => if (d.head h).adm = .off then d else d.leaveRun h) d

/-- TAMPER (R568, R569): the sensors that are armed fire. -/
def Dev.tamper (d : Dev) (sensors : Nat) : Dev :=
  let fired := sensors &&& (d.rdF pgSEC Reg.SEC_TAMP_EN 3 0 + (if d.clock.aonReady then 0x70 else 0))
  if fired = 0 then d
  else
    let d := d.zeroise.clear scratchBase secureEnd
    let d := d.wr pgSEC Reg.SEC_TAMP_REC (d.rd pgSEC Reg.SEC_TAMP_REC ||| word fired)
    ((d.wr64 pgSEC Reg.SEC_TAMP_TIME_LO d.aonCnt).wrB pgSEC Reg.SEC_STAT 2 true).lockout

/-! ### Commands -/

/-- EXTEND (R550). -/
def execExtend (r : Req) (s : State) : Host.Outcome State Fault Refusal := s.onPage r pgSEC Dev.secExtend
/-- QUOTE (R557). -/
def execQuote (r : Req) (s : State) : Host.Outcome State Fault Refusal := s.onPage r pgSEC Dev.secQuote
/-- UNLOCK (R561). -/
def execUnlock (r : Req) (s : State) : Host.Outcome State Fault Refusal := s.onPage r pgSEC Dev.secUnlock
/-- EPOCH (R558). -/
def execEpoch (r : Req) (s : State) : Host.Outcome State Fault Refusal := s.onPage r pgSEC Dev.secEpoch
/-- UNLOCK_TOKEN (R560): 1,408 bits shifted in. A shift of another length is no valid token. -/
def execUnlockToken (token : List Byte) (s : State) : Host.Outcome State Fault Refusal :=
  s.run (fun d => (d.token token).1)
/-- UNLOCK_CHAL (R560). -/
def execUnlockChal (s : State) : Host.Outcome State Fault Refusal :=
  s.run (fun d => d.out (.tap ((List.range 8).flatMap (fun i => leBytes 4 (d.rdN pgSEC (Reg.DBG_CHAL + 4 * i))))))
/-- TAMPER (R569). -/
def execTamper (sensors : BitVec 7) (s : State) : Host.Outcome State Fault Refusal := s.run (fun d => d.tamper sensors.toNat)
/-- DEBUG_HALT (R504): while debug access is closed nothing is halted (R503); a hart in reset does not run. -/
def execDebugHalt (c : Hart) (s : State) : Host.Outcome State Fault Refusal :=
  s.run (fun d => d.asReq .debug (fun d => if d.hartHeld c then d else d.setHalted (d.sys.haltedHarts ||| 2 ^ c.val)))
/-- DEBUG_RESUME (R502): the hart runs on, or runs one instruction and halts again. -/
def execDebugResume (c : Hart) (stepOnly : Bool) (s : State) : Host.Outcome State Fault Refusal :=
  s.run (fun d => d.asReq .debug (fun d =>
    if d.sys.haltedHarts.testBit c then
      let m := d.sys.haltedHarts
      let d := d.setHalted (m ^^^ 2 ^ c.val)
      if stepOnly then d.setHalted m else d
    else d))

end Sys2Proof.Machine
end

