-- ==== Sys2Proof/Machine/Bus.lean ====
section
/-! DEFINITION. Register pages as a bus: what a read of any word returns and what a write to any word does (R6 to R27), and
soft reset (R17, R18). -/
namespace Sys2Proof.Machine

/-! ### The fabric's pages -/

/-- The table that the shadow is: that of the bit which is not active (R392). -/
def Dev.shadowWord (d : Dev) (w : Nat) : Word := word (spGet (fun _ => 0xFFFFFFFF) (d.rtTable (!d.rtActive)) w)

/-- A word of the shadow written; ignored while SWAP_STATE is not IDLE (R392). -/
def Dev.setShadow (d : Dev) (w : Nat) (v : Word) : Dev :=
  if d.swapState ≠ 0 then d
  else if d.rtActive then d.onFab (fun f => { f with table0 := spPut (fun _ => 0xFFFFFFFF) f.table0 w v.toNat })
  else d.onFab (fun f => { f with table1 := spPut (fun _ => 0xFFFFFFFF) f.table1 w v.toNat })

/-- MIG_SRC to MIG_FRAME without MIG_CMD: words of the selected slot (R418). -/
def migWord (off : Nat) : Bool :=
  off == Reg.MIG_SRC || off == Reg.MIG_DST || off == Reg.MIG_STAT || off == Reg.MIG_DIRTY || off == Reg.MIG_FRAME

/-- A word of the FAB page as read. -/
def Dev.fabRead (d : Dev) (off : Nat) : Word :=
  if off = Reg.FAB_SERIAL_LO then word ownSerial
  else if off = Reg.FAB_SERIAL_HI then word (ownSerial / 2 ^ 32)
  else if off = Reg.RT_READ then
    let a := d.rdF pgFAB off 11 0
    word (a + d.rtEntry d.rtActive a * 65536)
  else if migWord off then d.migRead off
  else if 0x800 ≤ off then d.shadowWord ((off - 0x800) / 4)
  else d.rd pgFAB off

/-- A write to a word of the FAB page. -/
def Dev.fabWrite (d : Dev) (off : Nat) (v : Word) : Dev :=
  if off = Reg.RT_CTL then
    let d := if bit v 0 then d.loadDone else d
    if bit v 1 then d.go else d
  else if off = Reg.FSR_TX_PROD then d.fsrSend v
  else if off = Reg.MIG_CMD then d.migCmd v
  else if migWord off then (if off = Reg.MIG_SRC ∨ off = Reg.MIG_DST then d.migWrite off v else d)
  else if 0x800 ≤ off then d.setShadow ((off - 0x800) / 4) v
  else d.regStore pgFAB off v

/-- A word of the TIME page as read (R419). -/
def Dev.timeRead (d : Dev) (off : Nat) : Word :=
  if off = Reg.TIME_FT_LO then word d.ft
  else if off = Reg.TIME_FT_HI then word (d.ft / 2 ^ 32)
  else if off = Reg.TIME_CORR then word (unsign 32 d.fab.servoC)
  else d.rd pgTIME off

/-- A word of the LOG page as read: LOG_STAT is computed (R415, R420). -/
def Dev.logRead (d : Dev) (off : Nat) : Word :=
  if off = Reg.LOG_STAT then
    let n := d.log.general
    word (n + d.log.reserved * 65536 + (decide (d.rdN pgLOG Reg.LOG_TRACE_LVL ≤ n)).toNat * 2 ^ 28
      + (decide (d.rdN pgLOG Reg.LOG_COAL_LVL ≤ n)).toNat * 2 ^ 29)
  else d.rd pgLOG off

/-- A write to a word of the LOG page. -/
def Dev.logWrite (d : Dev) (off : Nat) (v : Word) : Dev :=
  if off = Reg.LOG_SW2 then d.logSw2
  else if off = Reg.LOG_RING_CONS then (d.regStore pgLOG off v).freeMail
  else d.regStore pgLOG off v

/-- A write to a word of an AL page (R376, R417): a link whose EN becomes 0 is lost (R19). -/
def Dev.alWrite (d : Dev) (p off : Nat) (v : Word) : Dev :=
  let d := d.regStore p off v
  if off = Reg.AL_CTL ∧ (bit v 2 ∨ !d.rdB p Reg.AL_CTL 0) then d.linkLoss (p - 0x020) else d

/-- A write to a word of a lane page (R100): a lane whose LINK_EN becomes 0 loses its link (R19). -/
def Dev.hpWrite (d : Dev) (p off : Nat) (v : Word) : Dev :=
  let d := d.regStore p off v
  if off = Reg.HP_CTL ∧ !d.rdB p Reg.HP_CTL 0 then d.laneLinkDown (p - 0x080)
  else if off = Reg.HP_SHARE_CAP then d.borrow else d

/-- HEAD_PEND word w (R176, R177). -/
def Dev.headPend (d : Dev) (w : Nat) : Word :=
  word ((List.range 32).foldl (fun a i => if 32 * w + i < 132 ∧ d.event (pgHD (32 * w + i)) then a + 2 ^ i else a) 0)

/-! ### Reads -/

/-- A word of a page in the direct view, without what a read does. -/
def Dev.pageWord (d : Dev) (p off : Nat) : Word :=
  if off < 0x040 then d.commonRead p off
  else match pageKind p with
    | .sys => d.sysRead off
    | .pwr => d.pwrRead off
    | .evc => (d.evcRead none off).2
    | .gpio => d.gpioRead off
    | .lsp => (d.lspRead false off).2
    | .dma => d.dmaRead off
    | .mram => d.mramRead off
    | .ddr => d.ddrRead p off
    | .ddr0 => d.ddrRead p off
    | .compose => if Reg.HEAD_PEND ≤ off ∧ off < Reg.HEAD_PEND + 20 then d.headPend ((off - Reg.HEAD_PEND) / 4) else d.rd p off
    | .eth => d.ethRead (if p = pgETH 0 then .eth0 else .eth1) off
    | .mgmt => d.ethRead .mgmt off
    | .aud => d.audRead off
    | .fab => d.fabRead off
    | .dict => if off = Reg.DICT_STAT then d.dictStat else d.rd p off
    | .time => d.timeRead off
    | .log => d.logRead off
    | .lepool => d.poolRead off
    | .le => d.leRead (p - 0x040) off
    | .vhead => d.headRead (p - 0x100) off
    | .phead => d.headRead (p - 0x100) off
    | .none => 0
    | _ => d.rd p off

/-- A read of a word of a page in the direct view, with what the read does. -/
def Dev.directRead (d : Dev) (r : Req) (p off : Nat) : Dev × Word :=
  if p = pgEVC ∧ 0x040 ≤ off then d.evcRead (some r) off
  else if p = pgLSP ∧ 0x040 ≤ off then d.lspRead true off
  else d.readLatch p off (d.pageWord p off) (d.pageWord p (off + 4))

/-- A read of a word of a page through a view (R9, R11): an alias returns what the direct view would, and nothing else
comes of it. -/
def Dev.pageRead (d : Dev) (r : Req) (p view off : Nat) : Dev × Word :=
  let d := d.gpioSettle
  let off := off / 4 * 4
  if view = 3 then (d, 0)
  else if view ≠ 0 then (d, (d.directRead r p off).2)
  else d.directRead r p off

/-! ### Soft reset (R17, R18, R158, R269, R324, R477, R498, R600) -/

/-- A word after a soft reset: kept where its block's file keeps it, RWL bits kept while the page is locked, else reset. -/
def Dev.softWord (d : Dev) (p off : Nat) : Word :=
  match rowAt p off with
  | none => 0
  | some row =>
    if row.keep then d.rd p off
    else
      let m := if d.isLocked p then word row.rwl else 0
      let m := if p = pgGPIO then m ||| (match gpioFields off with
        | some (first, w) => word (d.lockedMask first w)
        | none => 0) else m
      (d.rd p off &&& m) ||| (resetWord (regKey p off) &&& ~~~ m)

/-- The words of a page after a soft reset. -/
def Dev.softWords (d : Dev) (p : Nat) : Dev :=
  forL ((d.regs.filter (fun e => e.1 / 4096 == p && e.1 % 4096 != Reg.BLK_CTL)).map (fun e => e.1 % 4096))
    (fun off x => x.wr p off (d.softWord p off)) d

/-- The event controller forgets its deliveries, and the levels to the harts follow. -/
def Dev.evcSoft (old d : Dev) : Dev :=
  forN 4 (fun c d =>
    let d := if old.sourceOf c false = 0 then d else d.out (.coreIrq c (if old.rdB pgEVC (Reg.EVC_CCTL + 64 * c) 0 then 1 else 0) false)
    let d := if old.rdB pgEVC (Reg.MSIP + 64 * c) 0 then d.out (.coreIrq c 3 false) else d
    if old.mtip c = d.mtip c then d else d.out (.coreIrq c 2 (d.mtip c))) { d with evc := {} }

/-- What a soft reset does beside the words of the page. -/
def Dev.softBlock (old d : Dev) (p : Nat) : Dev :=
  match pageKind p with
  | .sys => d.hartEn.wdogRestart
  | .evc => d.evcSoft (old := old)
  | .tmr => { d with tmrs := [] }.gpioNote
  | .gpio => d.gpioNote
  | .lsp => { d with lsp := {} }
  | .dma => { d with dma := {} }
  | .blt => { d with blt := {} }
  | .mgmt => { d with mgmt := { d.mgmt with mdio := none } }
  | .usb => { d with usb := {} }.gpioNote
  | .aud => d.onSnd (fun s => { s with hpf := [] })
  | .jack => d.onSnd (fun s => { s with detLast := none, clsLast := 0, btnLast := none })
  | .fab =>
    let c := profChip d.activeBlob
    let d := if d.isLocked p then d else (d.wrN p Reg.FAB_CTL c.fabCtl).wrN p Reg.FAB_OFFER_LO (c.offer % 32)
    let d := forN 8 (fun k d => d.onMig k (fun m => { m with src := 0, dst := 0, dirtyKiB := 0 })) d
    if d.swapState ≠ 0 then d
    else if d.rtActive then d.onFab (fun f => { f with table0 := [] }) else d.onFab (fun f => { f with table1 := [] })
  | .le => ((d.setPmem (p - 0x040) false).onEng (p - 0x040) (fun x => { x with mbox := 0, lineAt := none, why := 0 })).engReset (p - 0x040)
  | .dict => d.lagAll.rebuildLevel
  | .vhead => if d.isLocked p then d else d.wrN p Reg.HB_SUBSYS (profLane d.activeBlob (p - 0x100)).2
  | _ => d

/-- What ends before the words of the page are reset: an engine stops; a head's console is unbound and its pending frames
are skipped, so that its identity holds (R18, R311). -/
def Dev.softBefore (d : Dev) (p : Nat) : Dev :=
  match pageKind p with
  | .le => d.leLeave (p - 0x040) .stopped
  | .vhead =>
    (((if d.nameState (p - 0x100) = 0 then d else d.unbind (p - 0x100)).skipPending (p - 0x100)).setDetached (p - 0x100) false)
  | .phead => d.setDetached (p - 0x100) false
  | _ => d

/-- BLK_CTL.SOFT_RESET written 1: the soft reset's effect; SOFT_RESET and IN_RESET read 1 until it is complete. A head that
is not OFF is not reset (R158). -/
def Dev.softReset (d : Dev) (p : Nat) : Dev :=
  let offHead := match pageKind p with
    | .vhead => !d.live (p - 0x100)
    | .phead => !d.live (p - 0x100)
    | _ => true
  if pageKind p = .none ∨ d.inReset.contains p ∨ !offHead then d
  else
    let d := d.softBefore p
    let d' := d.softBlock (d.softWords p) p
    { d'.wrB p Reg.BLK_CTL 1 true with inReset := p :: d'.inReset }

/-- SOFT_RESET_DONE (R17). -/
def Dev.softDone (d : Dev) (p : Nat) : Dev :=
  if d.inReset.contains p then { d.wrB p Reg.BLK_CTL 1 false with inReset := d.inReset.filter (fun q => q != p) } else d

/-! ### Writes -/

/-- BLK_CTL written (R17 to R20). -/
def Dev.blkCtlWrite (d : Dev) (p : Nat) (v : Word) : Dev :=
  let d := (if p = pgGPIO then d.gpioSettle else d).regStore p Reg.BLK_CTL v
  let d := match pageKind p with
    | .le =>
      let e := p - 0x040
      (if d.rdB p Reg.BLK_CTL 0 then d else d.leDisable e).leFreeze e
    | .tmr => d.tmrFreezeEdge
    | _ => d
  if bit v 1 then d.softReset p else d

/-- LOCK written by r, with what was armed before (R26). -/
def Dev.lockWrite (d : Dev) (r : Req) (p : Nat) (was : Option Req) (v : Word) : Dev :=
  if pageKind p = .none then d
  else if field v 31 24 = 0x3C ∧ was = some r then
    if d.isLocked p then d else { d with locked := p :: d.locked }
  else if field v 31 24 = 0xC3 ∧ was ≠ some r then { d with armed := spPut (fun _ => none) d.armed p (some r) }
  else d

/-- A common word written (R14). FENCE marks the GPIO writes that take effect later; on every other page each write takes
effect at once (R24). A bit of IRQ_STAT that hardware sets in the same cycle ends it as 1 (R23). -/
def Dev.commonWrite (d : Dev) (r : Req) (p off : Nat) (was : Option Req) (v : Word) : Dev :=
  if off = Reg.BLK_CTL then d.blkCtlWrite p v
  else if off = Reg.IRQ_SET then d.irqSet p v
  else if off = Reg.LOCK then d.lockWrite r p was v
  else if off = Reg.FENCE then (if p = pgGPIO then d.gpioMark else d)
  else
    let d := d.regStore p off v
    if p = pgTMR then d.tmrIrq else if p = pgGPIO then d.pmLevels else d

/-- A word of a page written in the direct view; was and pins: what was armed before the write. -/
def Dev.wordWrite (d : Dev) (r : Req) (p off : Nat) (was : Option Req) (pins : Sparse (Option (Req × Nat))) (v : Word) : Dev :=
  if off < 0x040 then d.commonWrite r p off was v
  else if (acctAt (pageKind p)).any (fun a => a.1 == off) then d.acctWrite p off v
  else match pageKind p with
    | .sys => d.sysWrite off v
    | .sec => d.secWrite off v
    | .prof => d.profPage off v
    | .evc => d.evcWrite r off v
    | .tmr => (d.tmrWrite off v).gpioNote
    | .gpio => d.gpioWrite r pins off v
    | .lsp => d.lspWrite off v
    | .dma => d.dmaWrite off v
    | .blt => d.bltWrite off v
    | .march => d.marchWrite off v
    | .mram => if off = Reg.MRAM_CTL then (if bit v 0 then d.persistWrite else d) else d.regStore p off v
    | .ddr => d.ddrWrite p off v
    | .ddr0 => d.ddrWrite p off v
    | .dict => d.dictWrite off v
    | .sess => d.sessWrite off v
    | .mgmt => if off = Reg.MDIO_CMD then d.mdioStart v else d.regStore p off v
    | .jack => d.jackWrite off v
    | .aud => d.audWrite off v
    | .i2s => d.i2sWrite off v
    | .fab => d.fabWrite off v
    | .log => d.logWrite off v
    | .al => d.alWrite p off v
    | .usb => d.usbWrite off v
    | .lepool => if off = Reg.POOL_SWAP_GO then d.poolGo v else d
    | .le => d.leWrite (p - 0x040) off v
    | .hp => d.hpWrite p off v
    | .vhead => d.headWrite (p - 0x100) byMgmt off v
    | .phead => d.headWrite (p - 0x100) byMgmt off v
    | .none => d
    | _ => d.regStore p off v

/-- A write to a page through a view (R9 to R11). Any write disarms the page's lock (R26). -/
def Dev.pageWrite (d : Dev) (r : Req) (p view off : Nat) (v : Word) : Dev :=
  let was := spGet (fun _ => (none : Option Req)) d.armed p
  let pins := d.gpio.armed
  let d := (if p = pgGPIO then d.gpioFenced else d).disarm p
  let off := off / 4 * 4
  match view with
  | 0 => d.wordWrite r p off was pins v
  | 1 => match d.aliasWord true p off (d.pageWord p off) v with
    | some w => d.wordWrite r p off none [] w
    | none => d
  | 2 => match d.aliasWord false p off (d.pageWord p off) v with
    | some w => d.wordWrite r p off none [] w
    | none => d
  | _ => d

/-! ### Accesses by address (R8, R9, R12) -/

/-- A register access read: 4 or 8 bytes, the lower word first. -/
def Dev.regRead (d : Dev) (r : Req) (a size : Nat) : Dev × Nat :=
  match pageAddr a with
  | none => (d, 0)
  | some (p, off) =>
    let (d, lo) := d.pageRead r p (off / 4096) (off % 4096)
    if size = 8 then
      let (d, hi) := d.pageRead r p (off / 4096) (off % 4096 + 4)
      (d, lo.toNat + hi.toNat * 2 ^ 32)
    else (d, lo.toNat)

/-- A register access written: 4 or 8 bytes, the lower word first. -/
def Dev.regWrite (d : Dev) (r : Req) (a size v : Nat) : Dev :=
  match pageAddr a with
  | none => d
  | some (p, off) =>
    let d := d.pageWrite r p (off / 4096) (off % 4096) (word v)
    if size = 8 then d.pageWrite r p (off / 4096) (off % 4096 + 4) (word (v / 2 ^ 32)) else d

/-- A PCLK cycle in which no command comes (assumption log 1): the pattern-match units settle, lanes short of credits borrow
(R83), and every page checks its identities (R47). -/
def Dev.idle (d : Dev) : Dev :=
  let d := (d.pass 1).gpioSettle
  (if d.lanes.isEmpty then d else d.borrow).acctCheck

end Sys2Proof.Machine
end

