-- ==== Sys2Proof/Machine/Access.lean ====
section
/-! DEFINITION. Accesses of the application cores and of the debug module to the 48-bit space (R422 to R424, R456, R551), and
the debug module (R502 to R504). -/
namespace Sys2Proof.Machine

/-! ### Loads and stores -/

/-- A read of memory that meets no poison (R433): its value. -/
def Dev.loadSpot (d : Dev) (s : Spot) (n : Nat) : Dev × Answer :=
  if d.poisoned s.phys n then (d.poisonRead (d.poisonAddr s.phys n), .accessFault)
  else (d, .data (BitVec.ofNat 64 (ofLe (d.spotBytes s n))))

/-- A load (R422, R423): misaligned accesses are performed in DRAM only. -/
def Dev.cpuLoad (d : Dev) (r : Req) (a n : Nat) : Dev × Answer :=
  match d.spotN a n with
  | none => (d, .accessFault)
  | some s =>
    if s.area = .regs then
      if regAccessOk a n then let (d, v) := d.regRead r a n; (d, .data (BitVec.ofNat 64 v)) else (d, .accessFault)
    else if a % n ≠ 0 ∧ s.area ≠ .dram then (d, .misaligned)
    else d.loadSpot s n

/-- An instruction fetch (R422, R551): from the boot ROM, the secure scratch's image area, the flash and DRAM. -/
def Dev.cpuFetch (d : Dev) (a n : Nat) : Dev × Answer :=
  match d.spotN a n with
  | none => (d, .accessFault)
  | some s =>
    let ok := s.area == .rom || s.area == .flash || s.area == .dram || (s.area == .secure && decide (a + n ≤ secBufBase))
    if ok then d.loadSpot s n else (d, .accessFault)

/-- A core's store to MRAM (R452, R454, R456): the software area, by chunks of 704 KiB that MRAM_PROT guards. -/
def Dev.mramStore (d : Dev) (off : Nat) (bs : List Byte) : Dev × Answer :=
  if off < 0x500000 ∨ d.rdB pgMRAM Reg.MRAM_PROT ((off - 0x500000) / 0xB0000) then (d.irq pgMRAM 4, .accessFault)
  else if 64 ≤ d.ram.mramBuf.length then (d, .waits)
  else (d.mramWrite off bs, .done)

/-- A store (R422, R423). -/
def Dev.cpuStore (d : Dev) (r : Req) (a n v : Nat) : Dev × Answer :=
  match d.spotN a n with
  | none => (d, .accessFault)
  | some s =>
    if s.area = .regs then
      if regAccessOk a n then
        let d := d.regWrite r a n v
        (d, if d.answer = .waits then .waits else .done)
      else (d, .accessFault)
    else if ¬(s.area = .dram ∨ s.area = .secure ∨ s.area = .mram ∨ s.area.scratchWritable) then (d, .accessFault)
    else if a % n ≠ 0 ∧ s.area ≠ .dram then (d, .misaligned)
    else if s.area = .mram then d.mramStore (s.phys - mramBase) (leBytes n v)
    else (d.spotStore s (leBytes n v), .done)

/-! ### Atomic operations (R424) -/

/-- The value that an atomic operation stores, on n bytes (RISC-V A extension). -/
def amoValue (op : AmoOp) (n old v : Nat) : Nat :=
  let k := 8 * n
  let s := fun (x : Nat) => signed k x
  match op with
  | .swap => v
  | .add => (old + v) % 2 ^ k
  | .and => old &&& v
  | .or => old ||| v
  | .xor => old ^^^ v
  | .min => if s old ≤ s v then old else v
  | .max => if s v ≤ s old then old else v
  | .minu => min old v
  | .maxu => max old v

/-- An atomic memory operation (R424, R444): in DRAM, and in the plain scratchpads that the core may write. -/
def Dev.cpuAmo (d : Dev) (op : AmoOp) (a n v : Nat) : Dev × Answer :=
  match d.spotN a n with
  | none => (d, .accessFault)
  | some s =>
    if ¬(s.area = .dram ∨ (s.area.scratchWritable ∧ s.view = 0)) then (d, .accessFault)
    else if a % n ≠ 0 then (d, .misaligned)
    else match d.loadSpot s n with
      | (d, .data old) => (d.spotStore s (leBytes n (amoValue op n old.toNat (v % 2 ^ (8 * n)))), .data old)
      | x => x

/-- LR (R424): DRAM only. The reservation is of the 64-byte block (assumption log 40). -/
def Dev.cpuLr (d : Dev) (c a n : Nat) : Dev × Answer :=
  match d.spotN a n with
  | none => (d, .accessFault)
  | some s =>
    if s.area ≠ .dram then (d, .accessFault)
    else if a % n ≠ 0 then (d, .misaligned)
    else
      let (d, x) := d.loadSpot s n
      ({ d with resv := (c, a / 64) :: d.resv.filter (fun r => r.1 != c) }, x)

/-- SC (R424): stores while the hart's reservation stands, which it ends; answers 0 where it stored, 1 where not. -/
def Dev.cpuSc (d : Dev) (c a n v : Nat) : Dev × Answer :=
  match d.spotN a n with
  | none => (d, .accessFault)
  | some s =>
    if s.area ≠ .dram then (d, .accessFault)
    else if a % n ≠ 0 then (d, .misaligned)
    else
      let ok := d.resv.contains (c, a / 64)
      let d := { d with resv := d.resv.filter (fun r => r.1 != c) }
      if ok then (d.spotStore s (leBytes n v), .data 0) else (d, .data 1)

/-- One access of a core. -/
def Dev.coreAccess (d : Dev) (c : Hart) (a n : Nat) : CoreAcc → Dev × Answer
  | .load => d.cpuLoad (.hart c) a n
  | .fetch => d.cpuFetch a n
  | .store v => d.cpuStore (.hart c) a n v.toNat
  | .amo op v => d.cpuAmo op a n v.toNat
  | .lr => d.cpuLr c a n
  | .sc v => d.cpuSc c a n v.toNat

/-! ### The debug module (R502): RISC-V External Debug Support 0.13.2, assumption log 41 -/

abbrev dmData0 : Nat := 0x04
abbrev dmControl : Nat := 0x10
abbrev dmStatus : Nat := 0x11
abbrev dmHawindow : Nat := 0x15
abbrev dmAbstractcs : Nat := 0x16
abbrev dmCommand : Nat := 0x17
abbrev dmProgbuf : Nat := 0x20
abbrev dmSbcs : Nat := 0x38
abbrev dmSbaddr0 : Nat := 0x39
abbrev dmSbaddr1 : Nat := 0x3A
abbrev dmSbdata0 : Nat := 0x3C
abbrev dmSbdata1 : Nat := 0x3D
abbrev dmHaltsum : Nat := 0x40
/-- The model's own word: harts whose resume request has been acknowledged. -/
abbrev dmResumed : Nat := 0x80

def Dev.dm (d : Dev) (i : Nat) : Word := spGet (fun _ => 0) d.sys.dm i
def Dev.setDm (d : Dev) (i : Nat) (v : Word) : Dev := d.onSys (fun s => { s with dm := spPut (fun _ => 0) s.dm i v })

/-- Debug module active. -/
def Dev.dmActive (d : Dev) : Bool := bit (d.dm dmControl) 0

/-- The harts that dmcontrol selects: hartsel, and with hasel those of the hart array mask. -/
def Dev.dmHarts (d : Dev) (ctl : Word) : List Nat :=
  let sel := field ctl 25 16 + field ctl 15 6 * 1024
  (List.range 4).filter (fun c => c == sel || (bit ctl 26 && (d.dm dmHawindow).toNat.testBit c))

/-- dmcontrol written. -/
def Dev.dmControlWrite (d : Dev) (v : Word) : Dev :=
  if !bit v 0 then d.onSys (fun s => { s with dm := [] })
  else
    let d := d.setDm dmControl (v &&& 0x07FFFFC3)
    forL (d.dmHarts v) (fun c d =>
      if d.hartHeld c then d
      else if bit v 31 then d.setHalted (d.sys.haltedHarts ||| 2 ^ c)
      else if bit v 30 then
        let d := d.setDm dmResumed (putBit (d.dm dmResumed) c true)
        if d.sys.haltedHarts.testBit c then d.setHalted (d.sys.haltedHarts ^^^ 2 ^ c) else d
      else d) d

/-- dmstatus: version 2, authenticated, halt-on-reset, implicit ebreak, and what holds of all and of any selected hart. -/
def Dev.dmStatusWord (d : Dev) : Word :=
  let ctl := d.dm dmControl
  let hs := d.dmHarts ctl
  let none_ := decide (4 ≤ field ctl 25 16 + field ctl 15 6 * 1024) && hs.isEmpty
  let two := fun (n : Nat) (p : Nat → Bool) => (hs.any p).toNat * 2 ^ n + (!hs.isEmpty && hs.all p).toNat * 2 ^ (n + 1)
  let halted := fun c => d.sys.haltedHarts.testBit c
  word (2 + 0x20 + 0x80 + two 8 halted + two 10 (fun c => !halted c && !d.hartHeld c) + two 12 (fun c => d.hartHeld c)
    + none_.toNat * 0xC000 + two 16 (fun c => (d.dm dmResumed).toNat.testBit c) + 2 ^ 22)

/-- sberror. -/
def Dev.sbError (d : Dev) (code : Nat) : Dev := d.setDm dmSbcs (putField (d.dm dmSbcs) 14 12 code)

/-- Whether the bus may be used: no error stands; the size is 32 or 64 bits (else sberror 4), the address aligned (else 3). -/
def Dev.sbBegin (d : Dev) : Dev × Option (Nat × Nat) :=
  let cs := d.dm dmSbcs
  let n := 2 ^ field cs 19 17
  let a := (d.dm dmSbaddr0).toNat + field (d.dm dmSbaddr1) 15 0 * 2 ^ 32
  if field cs 14 12 ≠ 0 then (d, none)
  else if n ≠ 4 ∧ n ≠ 8 then (d.sbError 4, none)
  else if a % n ≠ 0 then (d.sbError 3, none)
  else (d, some (a, n))

/-- The address moves on with autoincrement. -/
def Dev.sbStep (d : Dev) (a n : Nat) : Dev :=
  if bit (d.dm dmSbcs) 16 then (d.setDm dmSbaddr0 (word (a + n))).setDm dmSbaddr1 (word ((a + n) / 2 ^ 32 % 65536)) else d

/-- A system bus read into sbdata. -/
def Dev.sbRead (d : Dev) : Dev :=
  match d.sbBegin with
  | (d, none) => d
  | (d, some (a, n)) =>
    match d.cpuLoad .debug a n with
    | (d, .data v) => ((d.setDm dmSbdata0 (v.setWidth 32)).setDm dmSbdata1 (word (v.toNat / 2 ^ 32))).sbStep a n
    | (d, _) => d.sbError 2

/-- A system bus write of sbdata. -/
def Dev.sbWrite (d : Dev) : Dev :=
  match d.sbBegin with
  | (d, none) => d
  | (d, some (a, n)) =>
    match d.cpuStore .debug a n ((d.dm dmSbdata0).toNat + (d.dm dmSbdata1).toNat * 2 ^ 32) with
    | (d, .done) => d.sbStep a n
    | (d, _) => d.sbError 2

/-- An abstract command: Access Register of a halted hart; the harts' registers are outside this model, so a read gives free
words. Other commands are not supported (cmderr 2); a hart that is not halted gives cmderr 4. -/
def Dev.dmCommandWrite (d : Dev) (v : Word) : Dev :=
  let cs := d.dm dmAbstractcs
  if field cs 10 8 ≠ 0 then d
  else
    let sel := field (d.dm dmControl) 25 16
    if field v 31 24 ≠ 0 then d.setDm dmAbstractcs (putField cs 10 8 2)
    else if !d.sys.haltedHarts.testBit sel then d.setDm dmAbstractcs (putField cs 10 8 4)
    else if bit v 17 && !bit v 16 then
      (((d.setDm dmData0 d.free).drew.setDm (dmData0 + 1) d.drew.free).drew)
    else d

/-- A dmi write. -/
def Dev.dmiWrite (d : Dev) (i : Nat) (v : Word) : Dev :=
  if i = dmControl then d.dmControlWrite v
  else if !d.dmActive then d
  else if i = dmAbstractcs then d.setDm i (d.dm i &&& ~~~ (v &&& 0x700))
  else if i = dmCommand then d.dmCommandWrite v
  else if i = dmData0 ∨ i = dmData0 + 1 ∨ i = dmHawindow ∨ (dmProgbuf ≤ i ∧ i < dmProgbuf + 8) then d.setDm i v
  else if i = dmSbcs then d.setDm i ((v &&& 0x1F8000) ||| (d.dm i &&& ~~~ v &&& 0x407000))
  else if i = dmSbaddr0 then
    let d := d.setDm i v
    if bit (d.dm dmSbcs) 20 then d.sbRead else d
  else if i = dmSbaddr1 then d.setDm i (v &&& 0xFFFF)
  else if i = dmSbdata0 then (d.setDm i v).sbWrite
  else if i = dmSbdata1 then d.setDm i v
  else d

/-- A dmi read. -/
def Dev.dmiRead (d : Dev) (i : Nat) : Dev × Word :=
  if i = dmControl then (d, d.dm i)
  else if !d.dmActive then (d, 0)
  else if i = dmStatus then (d, d.dmStatusWord)
  else if i = dmAbstractcs then (d, word (8 * 2 ^ 24 + 2) ||| d.dm i)
  else if i = dmSbcs then (d, word (2 ^ 29 + 48 * 32 + 12) ||| d.dm i)
  else if i = dmHaltsum then (d, word d.sys.haltedHarts)
  else if i = dmSbdata0 then
    let v := d.dm i
    (if bit (d.dm dmSbcs) 15 then d.sbRead else d, v)
  else (d, if i = dmCommand then 0 else d.dm i)

/-- A dmi operation (R503). -/
def Dev.dmi (d : Dev) (op : DmiOp) (i : Nat) (v : Word) : Dev :=
  match op with
  | .nop => d.reply .done
  | .read => let (d, w) := d.dmiRead i; d.reply (.data (w.setWidth 64))
  | .write => (d.dmiWrite i v).reply .done

/-! ### Commands -/

/-- CORE_MEMORY_ACCESS (R424). An access of a size that no instruction has is not performed, as R423 has it of an access that
is not allowed. -/
def execCoreMemoryAccess (c : Hart) (addr : BitVec 48) (size : Nat) (acc : CoreAcc) (s : State) :
    Host.Outcome State Fault Refusal :=
  s.run (fun d =>
    if accSize size acc then let (d, x) := d.coreAccess c addr.toNat size acc; d.reply x else d.reply .accessFault)
/-- DMI_OPERATION (R503): while debug access is closed every operation fails. -/
def execDmiOperation (op : DmiOp) (addr : BitVec 7) (v : Word) (s : State) : Host.Outcome State Fault Refusal :=
  s.run (fun d => d.asReq .debug (fun d => d.dmi op addr.toNat v))

end Sys2Proof.Machine
end

