-- ==== Sys2Proof/Machine/DmaRun.lean ====
section
/-! DEFINITION. DMA's bursts and descriptor fetches (R458, R481 to R486, R489, R491 to R494). -/
namespace Sys2Proof.Machine

/-! ### Accesses and bus errors -/

/-- Why DMA may not make an access of n bytes at a (R458, R491); 0 where it may. -/
def Dev.dmaCause (d : Dev) (write : Bool) (a n : Nat) : Nat :=
  match d.spotN a n with
  | none => 1
  | some s =>
    match s.area with
    | .regs => if n = 4 ∨ n = 8 then 0 else 3
    | .rom => 2
    | .secure => 2
    | .dram => if !write && d.poisoned s.phys n then 4 else 0
    | x => if write && !x.scratchWritable then 2 else if !write && d.poisoned s.phys n then 4 else 0

/-- A bus error (R491, R492). The model's bursts leave no other channel's memory read outstanding, so the suspect is the
channel itself (assumption log 42). -/
def Dev.busError (d : Dev) (c a : Nat) (write : Bool) (cause : Nat) : Dev :=
  let d := if cause = 4 then d.poisonRead (d.poisonAddr a 64) else d
  let d := forN 16 (fun i d => if d.chState i = 1 then d.setChState i 2 else d) d
  let d := (d.wrB pgDMA Reg.DMA_STAT 0 true).wrN pgDMA Reg.DMA_ERR_LO a
  let d := d.wrN pgDMA Reg.DMA_ERR_HI (a / 2 ^ 32 % 65536 + write.toNat * 65536 + cause * 131072)
  ((d.wrN pgDMA Reg.DMA_SUSPECT (2 ^ c)).add32 pgDMA Reg.DMA_ERRS 1).irq pgDMA 16

/-- Bytes read by DMA: memory, or a register page with what its read does. -/
def Dev.dmaFetch (d : Dev) (a n : Nat) : Dev × List Byte :=
  match d.spotN a n with
  | none => (d, [])
  | some s =>
    if s.area = .regs then let (d, v) := d.regRead .dma a n; (d, leBytes n v) else (d, d.spotBytes s n)

/-- Bytes written by DMA. -/
def Dev.dmaPut (d : Dev) (a : Nat) (bs : List Byte) : Dev :=
  match d.spotN a bs.length with
  | none => d
  | some s => if s.area = .regs then d.regWrite .dma a bs.length (ofLe bs) else d.spotStore s bs

/-- The byte funnel (R481): the largest power of two that is at most 2^w, divides the address, and is at most n. -/
def funnel (a n : Nat) : Nat → Nat
  | 0 => 1
  | w + 1 => if a % 2 ^ (w + 1) = 0 ∧ 2 ^ (w + 1) ≤ n then 2 ^ (w + 1) else funnel a n w

/-! ### Bursts -/

/-- The bytes of the next burst (R485). -/
def Dev.burstBytes (d : Dev) (c : Nat) : Nat :=
  let a := (d.chan c).active
  let r := descReq a
  let rest := descTotal a - (d.chan c).dpos
  let side := if r % 2 = 1 then descWidth a 5 else descWidth a 0
  if 1 ≤ r ∧ r ≤ 6 then min (min (descBurst a) (d.reqCount r * 2 ^ side)) rest else min (descBurst a) rest

/-- The channel may start or go on with a burst (R485, R491, R498). -/
def Dev.burstReady (d : Dev) (c : Nat) : Bool :=
  let x := d.chan c
  d.chState c == 1 && !d.dmaErr && !d.frozen pgDMA && decide (x.dpos < descTotal x.active)
    && (x.left != 0 || d.reqOn (descReq x.active))

/-- The base from which SHARE lets the channel start (R486): 64 b ÷ SHARE ns after its previous burst. -/
def Dev.shareAt (d : Dev) (c : Nat) : Nat :=
  let share := d.rdF pgDMA (chCtl c) 15 8
  match (d.chan c).lastBurst with
  | some t => if share = 0 ∨ (d.chan c).left ≠ 0 then 0 else t + ceilDiv (768 * d.burstBytes c) (10 * share)
  | none => 0

/-- The channel is ready now. -/
def Dev.burstNow (d : Dev) (c : Nat) : Bool := d.burstReady c && decide (d.shareAt c ≤ d.clock.base)

/-- Channel i is served before channel c (R486): by PRIO, then in round robin after the channel served last. -/
def Dev.servedBefore (d : Dev) (i c : Nat) : Bool :=
  let pr := fun k => d.rdF pgDMA (chCtl k) 5 4
  let turn := fun k => (k + 15 - d.dma.lastServed) % 16
  decide (pr c < pr i) || (pr i == pr c && decide (turn i < turn c))

/-- One access of a burst: a destination access once its bytes are held, else a source access; or a bus error. The counters
move in the cycle of the write (R46), before what a write to a register page does. -/
def Dev.burstStep (d : Dev) (c : Nat) : Dev :=
  let x := d.chan c
  let a := x.active
  let dst := descByte a 5 x.dpos
  let k := funnel dst (min (descLine a 5 - x.dpos % descLine a 5) x.left) (descWidth a 5)
  if k ≤ x.held.length then
    let cause := d.dmaCause true dst k
    if cause ≠ 0 then d.busError c dst true cause
    else
      let bs := x.held.take k
      let d := d.onChan c (fun x => { x with held := x.held.drop k, dpos := x.dpos + k, left := x.left - k })
      let d := (d.add64 pgDMA (chCount c 1) k).wr64 pgDMA (chCount c 2) (d.rd64 pgDMA (chCount c 2) - k)
      d.dmaPut dst bs
  else
    let src := descByte a 0 x.spos
    let most := descLine a 0 - x.spos % descLine a 0
    let n := funnel src (if descReq a = 0 then most else min most (x.left - x.held.length)) (descWidth a 0)
    let cause := d.dmaCause false src n
    if cause ≠ 0 then d.busError c src false cause
    else
      let (d, bs) := d.dmaFetch src n
      d.onChan c (fun x => { x with held := x.held ++ bs, spos := x.spos + n })

/-- The accesses of a burst, until it is complete or an error stops it. -/
def Dev.burstRun (d : Dev) (c : Nat) : Nat → Dev
  | 0 => d
  | n + 1 => if (d.chan c).left = 0 ∨ d.dmaErr then d else (d.burstStep c).burstRun c n

/-- A burst of the channel (R485, R494), with the hand-over that follows the descriptor's last byte (R487). -/
def Dev.doBurst (d : Dev) (c : Nat) : Dev :=
  let x := d.chan c
  let r := descReq x.active
  let d := if x.left ≠ 0 then d
    else
      let b := d.burstBytes c
      let d := d.onChan c (fun x => { x with left := b, lastBurst := some d.clock.base })
      if 8 ≤ r ∧ d.dma.flags.testBit r then { d with dma := { d.dma with flags := d.dma.flags - 2 ^ r } } else d
  let d := { d with dma := { d.dma with lastServed := c } }
  let d := d.burstRun c 256
  let x := d.chan c
  if x.dpos = descTotal x.active ∧ d.chState c ≠ 0 then d.onChan c (fun x => { x with ended := true, handAt := some (d.cyc + 1) }) else d

/-- BURST (R485, R486): another channel may come first. -/
def Dev.burst (d : Dev) (c : Nat) : Dev :=
  if !d.burstReady c then d
  else
    let t := d.toBase (d.shareAt c)
    if (List.range 16).any (fun i => i != c && t.burstNow i && t.servedBefore i c) then d.reply .waits else t.doBurst c

/-- DESC_FETCH (R489): the descriptor at NEXT lands in the shadow, and ARM is set. -/
def Dev.descFetch (d : Dev) (c : Nat) : Dev :=
  let x := d.chan c
  if !x.fetching || d.dmaErr || d.chState c == 2 then d
  else
    let a := descNext x.active
    let cause := d.dmaCause false a 64
    if cause ≠ 0 then d.busError c a false cause
    else
      let (d, bs) := d.dmaFetch a 64
      let d := forN 13 (fun i d => d.wrN pgDMA (Reg.CH_SHADOW + 64 * c + 4 * i) (ofLe ((bs.drop (4 * i)).take 4))) d
      (d.wrB pgDMA (chCtl c) 0 true).onChan c (fun x =>
        { x with fetching := false, handAt := x.handAt.map (fun h => max h (d.cyc + 1)) })

/-! ### Commands -/

/-- BURST (R485). -/
def execBurst (c : Chan) (s : State) : Host.Outcome State Fault Refusal := s.run (fun d => d.burst c)
/-- DESC_FETCH (R489). -/
def execDescFetch (c : Chan) (s : State) : Host.Outcome State Fault Refusal := s.run (fun d => d.descFetch c)

end Sys2Proof.Machine
end

