-- ==== Sys2Proof/Machine/Pages.lean ====
section
/-! DEFINITION. Commands on register pages (R6, R10, R14, R17 to R27, R49). -/
namespace Sys2Proof.Machine

/-- REGISTER_WRITE (R6, R12): a naturally aligned access of 4 or 8 bytes to the register region; any other size or alignment
faults and writes nothing, and so does an address
outside the region (R423). -/
def execRegisterWrite (r : Req) (addr : BitVec 48) (size : Nat) (v : DWord) (s : State) : Host.Outcome State Fault Refusal :=
  s.onRead r (fun d =>
    if (pageAddr addr.toNat).isSome && regAccessOk addr.toNat size then d.regWrite r addr.toNat size v.toNat
    else d.reply .accessFault)
/-- REGISTER_READ (R6, R12). -/
def execRegisterRead (r : Req) (addr : BitVec 48) (size : Nat) (s : State) : Host.Outcome State Fault Refusal :=
  s.onRead r (fun d =>
    if (pageAddr addr.toNat).isSome && regAccessOk addr.toNat size then
      let (d, v) := d.regRead r addr.toNat size
      d.reply (.data (BitVec.ofNat 64 v))
    else d.reply .accessFault)
/-- SET_ALIAS_WRITE (R10). -/
def execSetAliasWrite (r : Req) (p : Page) (off : Offset) (v : Word) (s : State) : Host.Outcome State Fault Refusal :=
  s.onRead r (fun d => d.pageWrite r p 1 off.toNat v)
/-- CLEAR_ALIAS_WRITE (R10). -/
def execClearAliasWrite (r : Req) (p : Page) (off : Offset) (v : Word) (s : State) : Host.Outcome State Fault Refusal :=
  s.onRead r (fun d => d.pageWrite r p 2 off.toNat v)
/-- IRQ_SET (R14). -/
def execIrqSet (r : Req) (p : Page) (v : Word) (s : State) : Host.Outcome State Fault Refusal := s.onPage r p (fun d => d.irqSet p v)
/-- SOFT_RESET (R18). -/
def execSoftReset (r : Req) (p : Page) (s : State) : Host.Outcome State Fault Refusal := s.onPage r p (fun d => d.softReset p)
/-- SOFT_RESET_DONE (R17). -/
def execSoftResetDone (p : Page) (s : State) : Host.Outcome State Fault Refusal := s.run (fun d => d.softDone p)
/-- BLK_ENABLE_WRITE (R19): the page's other controls keep their values. -/
def execBlkEnableWrite (r : Req) (p : Page) (en : Bool) (s : State) : Host.Outcome State Fault Refusal :=
  s.onPage r p (fun d => d.blkCtlWrite p (putBit (d.rd p Reg.BLK_CTL &&& 4) 0 en))
/-- FENCE_WRITE (R24). -/
def execFenceWrite (r : Req) (p : Page) (v : Word) (s : State) : Host.Outcome State Fault Refusal :=
  s.onRead r (fun d => d.pageWrite r p 0 Reg.FENCE v)
/-- LOCK_ARM (R26): bits [23:0] are ignored. -/
def execLockArm (r : Req) (p : Page) (low : BitVec 24) (s : State) : Host.Outcome State Fault Refusal :=
  s.onRead r (fun d => d.pageWrite r p 0 Reg.LOCK (word (0xC3000000 + low.toNat)))
/-- LOCK_BLOCK (R26). -/
def execLockBlock (r : Req) (p : Page) (low : BitVec 24) (s : State) : Host.Outcome State Fault Refusal :=
  s.onRead r (fun d => d.pageWrite r p 0 Reg.LOCK (word (0x3C000000 + low.toNat)))
/-- SNAP (R49). -/
def execSnap (r : Req) (p : Page) (s : State) : Host.Outcome State Fault Refusal := s.onPage r p (fun d => d.snap p)
/-- INJECT_MISMATCH (R49). -/
def execInjectMismatch (r : Req) (p : Page) (s : State) : Host.Outcome State Fault Refusal := s.onPage r p (fun d => d.inject p)

end Sys2Proof.Machine
end

