-- ==== Sys2Proof/Machine/Dispatch.lean ====
section
/-! DEFINITION. The commands: one arm per row of spec/opcode_table.json, in its order, each one call of the command's meaning. -/
namespace Sys2Proof.Machine

/-- What a command does to everything but the queue. -/
def exec (i : Instr) (s : State) : Host.Outcome State Fault Refusal :=
  match i with
  | .registerWrite r addr size v => Sys2Proof.Machine.execRegisterWrite r addr size v s
  | .setAliasWrite r p off v => Sys2Proof.Machine.execSetAliasWrite r p off v s
  | .clearAliasWrite r p off v => Sys2Proof.Machine.execClearAliasWrite r p off v s
  | .irqSet r p v => Sys2Proof.Machine.execIrqSet r p v s
  | .softReset r p => Sys2Proof.Machine.execSoftReset r p s
  | .softResetDone p => Sys2Proof.Machine.execSoftResetDone p s
  | .blkEnableWrite r p en => Sys2Proof.Machine.execBlkEnableWrite r p en s
  | .fenceWrite r p v => Sys2Proof.Machine.execFenceWrite r p v s
  | .lockArm r p low => Sys2Proof.Machine.execLockArm r p low s
  | .lockBlock r p low => Sys2Proof.Machine.execLockBlock r p low s
  | .snap r p => Sys2Proof.Machine.execSnap r p s
  | .injectMismatch r p => Sys2Proof.Machine.execInjectMismatch r p s
  | .debugHalt c => Sys2Proof.Machine.execDebugHalt c s
  | .debugResume c stepOnly => Sys2Proof.Machine.execDebugResume c stepOnly s
  | .dmiOperation op addr v => Sys2Proof.Machine.execDmiOperation op addr v s
  | .perstAssert n => Sys2Proof.Machine.execPerstAssert n s
  | .perstRelease n => Sys2Proof.Machine.execPerstRelease n s
  | .hotReset n => Sys2Proof.Machine.execHotReset n s
  | .laneLinkDown n => Sys2Proof.Machine.execLaneLinkDown n s
  | .laneLinkUp n speed => Sys2Proof.Machine.execLaneLinkUp n speed s
  | .cfgReady n => Sys2Proof.Machine.execCfgReady n s
  | .configRequest n f off wr => Sys2Proof.Machine.execConfigRequest n f off wr s
  | .functionLevelReset n f => Sys2Proof.Machine.execFunctionLevelReset n f s
  | .d3hotToD0 n f => Sys2Proof.Machine.execD3hotToD0 n f s
  | .hostWrite n f bar off data relaxed flaw => Sys2Proof.Machine.execHostWrite n f bar off data relaxed flaw s
  | .commit n f k => Sys2Proof.Machine.execCommit n f k s
  | .hostRead n f bar off len bad => Sys2Proof.Machine.execHostRead n f bar off len bad s
  | .featOk n f => Sys2Proof.Machine.execFeatOk n f s
  | .featDone n f => Sys2Proof.Machine.execFeatDone n f s
  | .present n tag => Sys2Proof.Machine.execPresent n tag s
  | .irEnable n => Sys2Proof.Machine.execIrEnable n s
  | .irConsWrite n v => Sys2Proof.Machine.execIrConsWrite n v s
  | .irLedWrite n v => Sys2Proof.Machine.execIrLedWrite n v s
  | .inputDeliver n => Sys2Proof.Machine.execInputDeliver n s
  | .plEnable n => Sys2Proof.Machine.execPlEnable n s
  | .playBlockRead n host => Sys2Proof.Machine.execPlayBlockRead n host s
  | .cpEnable n => Sys2Proof.Machine.execCpEnable n s
  | .captureBlock n => Sys2Proof.Machine.execCaptureBlock n s
  | .bind n => Sys2Proof.Machine.execBind n s
  | .unbind n => Sys2Proof.Machine.execUnbind n s
  | .bindAnswer n grant => Sys2Proof.Machine.execBindAnswer n grant s
  | .bindTimeout n => Sys2Proof.Machine.execBindTimeout n s
  | .allocClear n => Sys2Proof.Machine.execAllocClear n s
  | .admissionRequest h => Sys2Proof.Machine.execAdmissionRequest h s
  | .admitHead h => Sys2Proof.Machine.execAdmitHead h s
  | .headDisable h => Sys2Proof.Machine.execHeadDisable h s
  | .headStop h => Sys2Proof.Machine.execHeadStop h s
  | .consistWrite h mode => Sys2Proof.Machine.execConsistWrite h mode s
  | .consistEffect h => Sys2Proof.Machine.execConsistEffect h s
  | .detachWrite h on_ => Sys2Proof.Machine.execDetachWrite h on_ s
  | .frameStart h => Sys2Proof.Machine.execFrameStart h s
  | .composeLine h => Sys2Proof.Machine.execComposeLine h s
  | .lineFinal h => Sys2Proof.Machine.execLineFinal h s
  | .lineTake h => Sys2Proof.Machine.execLineTake h s
  | .late h => Sys2Proof.Machine.execLate h s
  | .frameIncomplete h => Sys2Proof.Machine.execFrameIncomplete h s
  | .leMove e => Sys2Proof.Machine.execLeMove e s
  | .tadd e u t => Sys2Proof.Machine.execTadd e u t s
  | .tsub e u t => Sys2Proof.Machine.execTsub e u t s
  | .tand e u t => Sys2Proof.Machine.execTand e u t s
  | .tor e u t => Sys2Proof.Machine.execTor e u t s
  | .txor e u t => Sys2Proof.Machine.execTxor e u t s
  | .tshl e u t => Sys2Proof.Machine.execTshl e u t s
  | .tshr e u t => Sys2Proof.Machine.execTshr e u t s
  | .tsar e u t => Sys2Proof.Machine.execTsar e u t s
  | .tcmpeq e u t => Sys2Proof.Machine.execTcmpeq e u t s
  | .tcmplt e u t => Sys2Proof.Machine.execTcmplt e u t s
  | .tcmpltu e u t => Sys2Proof.Machine.execTcmpltu e u t s
  | .tmin e u t => Sys2Proof.Machine.execTmin e u t s
  | .tmax e u t => Sys2Proof.Machine.execTmax e u t s
  | .tmul e t => Sys2Proof.Machine.execTmul e t s
  | .tmac e t => Sys2Proof.Machine.execTmac e t s
  | .tldb e t => Sys2Proof.Machine.execTldb e t s
  | .tldbu e t => Sys2Proof.Machine.execTldbu e t s
  | .tldh e t => Sys2Proof.Machine.execTldh e t s
  | .tldhu e t => Sys2Proof.Machine.execTldhu e t s
  | .tldw e t => Sys2Proof.Machine.execTldw e t s
  | .tstb e t => Sys2Proof.Machine.execTstb e t s
  | .tsth e t => Sys2Proof.Machine.execTsth e t s
  | .tstw e t => Sys2Proof.Machine.execTstw e t s
  | .loadComplete e => Sys2Proof.Machine.execLoadComplete e s
  | .lWait e => Sys2Proof.Machine.execLWait e s
  | .tjmp e t => Sys2Proof.Machine.execTjmp e t s
  | .trel e t => Sys2Proof.Machine.execTrel e t s
  | .tcall e t => Sys2Proof.Machine.execTcall e t s
  | .tret e t => Sys2Proof.Machine.execTret e t s
  | .tstart e t => Sys2Proof.Machine.execTstart e t s
  | .tmove e t => Sys2Proof.Machine.execTmove e t s
  | .tfill e t => Sys2Proof.Machine.execTfill e t s
  | .stringDone e => Sys2Proof.Machine.execStringDone e s
  | .stringFault e => Sys2Proof.Machine.execStringFault e s
  | .twaitl e t => Sys2Proof.Machine.execTwaitl e t s
  | .twaitp e t => Sys2Proof.Machine.execTwaitp e t s
  | .waitEnd e => Sys2Proof.Machine.execWaitEnd e s
  | .twr e t => Sys2Proof.Machine.execTwr e t s
  | .headWindowWrite e w t => Sys2Proof.Machine.execHeadWindowWrite e w t s
  | .hregCommit e => Sys2Proof.Machine.execHregCommit e s
  | .tlo e t => Sys2Proof.Machine.execTlo e t s
  | .traise e t => Sys2Proof.Machine.execTraise e t s
  | .fetchSync e t => Sys2Proof.Machine.execFetchSync e t s
  | .leFence e t => Sys2Proof.Machine.execLeFence e t s
  | .tretEvent e t => Sys2Proof.Machine.execTretEvent e t s
  | .fetchFill e => Sys2Proof.Machine.execFetchFill e s
  | .lineEvent e => Sys2Proof.Machine.execLineEvent e s
  | .mboxWrite r e v => Sys2Proof.Machine.execMboxWrite r e v s
  | .eventEntry e => Sys2Proof.Machine.execEventEntry e s
  | .run r e => Sys2Proof.Machine.execRun r e s
  | .leStop r e => Sys2Proof.Machine.execLeStop r e s
  | .inval r e => Sys2Proof.Machine.execInval r e s
  | .leReset r e => Sys2Proof.Machine.execLeReset r e s
  | .halt r e => Sys2Proof.Machine.execHalt r e s
  | .resume r e => Sys2Proof.Machine.execResume r e s
  | .stepOne r e => Sys2Proof.Machine.execStepOne r e s
  | .portWindowWrite r e port v => Sys2Proof.Machine.execPortWindowWrite r e port v s
  | .arm r e => Sys2Proof.Machine.execArm r e s
  | .cancel r e => Sys2Proof.Machine.execCancel r e s
  | .poolSwapGo r mask => Sys2Proof.Machine.execPoolSwapGo r mask s
  | .swapped e => Sys2Proof.Machine.execSwapped e s
  | .codeFrame h => Sys2Proof.Machine.execCodeFrame h s
  | .skipWhileCoding => Sys2Proof.Machine.execSkipWhileCoding s
  | .frameCommit h => Sys2Proof.Machine.execFrameCommit h s
  | .rebuild r => Sys2Proof.Machine.execRebuild r s
  | .rebuildPeriod => Sys2Proof.Machine.execRebuildPeriod s
  | .bankClear => Sys2Proof.Machine.execBankClear s
  | .compact => Sys2Proof.Machine.execCompact s
  | .dictSwap => Sys2Proof.Machine.execDictSwap s
  | .tlsRecordRx s1 => Sys2Proof.Machine.execTlsRecordRx s1 s
  | .ack s1 frame64 evictEpoch => Sys2Proof.Machine.execAck s1 frame64 evictEpoch s
  | .keyReq s1 => Sys2Proof.Machine.execKeyReq s1 s
  | .openSess s1 => Sys2Proof.Machine.execOpenSess s1 s
  | .closeSess s1 => Sys2Proof.Machine.execCloseSess s1 s
  | .grant s1 => Sys2Proof.Machine.execGrant s1 s
  | .revoke s1 => Sys2Proof.Machine.execRevoke s1 s
  | .keyframe s1 => Sys2Proof.Machine.execKeyframe s1 s
  | .inject s1 => Sys2Proof.Machine.execInject s1 s
  | .keyLoad s1 dir => Sys2Proof.Machine.execKeyLoad s1 dir s
  | .sessDoorbell s1 => Sys2Proof.Machine.execSessDoorbell s1 s
  | .iduSubmit p2 => Sys2Proof.Machine.execIduSubmit p2 s
  | .ethTxPost p prod => Sys2Proof.Machine.execEthTxPost p prod s
  | .txDone p => Sys2Proof.Machine.execTxDone p s
  | .ethRx p frame => Sys2Proof.Machine.execEthRx p frame s
  | .linkChange p up fecLock => Sys2Proof.Machine.execLinkChange p up fecLock s
  | .audioTick pins => Sys2Proof.Machine.execAudioTick pins s
  | .toneMs => Sys2Proof.Machine.execToneMs s
  | .toneEnable h c ctl => Sys2Proof.Machine.execToneEnable h c ctl s
  | .tonePeriodWrite h c v => Sys2Proof.Machine.execTonePeriodWrite h c v s
  | .sound => Sys2Proof.Machine.execSound s
  | .fabAudioSend k => Sys2Proof.Machine.execFabAudioSend k s
  | .fabAudioBlock src k i1 tick frames => Sys2Proof.Machine.execFabAudioBlock src k i1 tick frames s
  | .srcLock k => Sys2Proof.Machine.execSrcLock k s
  | .srcUnlock k => Sys2Proof.Machine.execSrcUnlock k s
  | .jackDetectSample low => Sys2Proof.Machine.execJackDetectSample low s
  | .jackClassify micMv tipMv => Sys2Proof.Machine.execJackClassify micMv tipMv s
  | .buttonSample micMv => Sys2Proof.Machine.execButtonSample micMv s
  | .clkLoss k => Sys2Proof.Machine.execClkLoss k s
  | .signalDetect l => Sys2Proof.Machine.execSignalDetect l s
  | .trainDone l laneSwap => Sys2Proof.Machine.execTrainDone l laneSwap s
  | .trainTimeout l => Sys2Proof.Machine.execTrainTimeout l s
  | .hello l m => Sys2Proof.Machine.execHello l m s
  | .attest l m => Sys2Proof.Machine.execAttest l m s
  | .attestTimeout l => Sys2Proof.Machine.execAttestTimeout l s
  | .quarantineExpiry l => Sys2Proof.Machine.execQuarantineExpiry l s
  | .linkLoss l => Sys2Proof.Machine.execLinkLoss l s
  | .retrain r l => Sys2Proof.Machine.execRetrain r l s
  | .flitSend l => Sys2Proof.Machine.execFlitSend l s
  | .flitRx l flit => Sys2Proof.Machine.execFlitRx l flit s
  | .replay l lack => Sys2Proof.Machine.execReplay l lack s
  | .elect l serial hops => Sys2Proof.Machine.execElect l serial hops s
  | .coordChange => Sys2Proof.Machine.execCoordChange s
  | .claimAddress serial claim => Sys2Proof.Machine.execClaimAddress serial claim s
  | .assign addr coord => Sys2Proof.Machine.execAssign addr coord s
  | .membersChange members roots => Sys2Proof.Machine.execMembersChange members roots s
  | .beacon => Sys2Proof.Machine.execBeacon s
  | .report => Sys2Proof.Machine.execReport s
  | .beaconMiss => Sys2Proof.Machine.execBeaconMiss s
  | .chipLost addr => Sys2Proof.Machine.execChipLost addr s
  | .loadDone r => Sys2Proof.Machine.execLoadDone r s
  | .go r => Sys2Proof.Machine.execGo r s
  | .switched => Sys2Proof.Machine.execSwitched s
  | .epCollect inj ended => Sys2Proof.Machine.execEpCollect inj ended s
  | .retired => Sys2Proof.Machine.execRetired s
  | .acqTimeout => Sys2Proof.Machine.execAcqTimeout s
  | .syncReq => Sys2Proof.Machine.execSyncReq s
  | .syncAnswer l t1 t2 => Sys2Proof.Machine.execSyncAnswer l t1 t2 s
  | .syncResp l t1 t2 t3 t4 hops => Sys2Proof.Machine.execSyncResp l t1 t2 t3 t4 hops s
  | .holdover => Sys2Proof.Machine.execHoldover s
  | .locBind name chip head => Sys2Proof.Machine.execLocBind name chip head s
  | .mirrorSlotRequest chip s1 name snd => Sys2Proof.Machine.execMirrorSlotRequest chip s1 name snd s
  | .streamRelay s1 slot record => Sys2Proof.Machine.execStreamRelay s1 slot record s
  | .inputPacket src name ev => Sys2Proof.Machine.execInputPacket src name ev s
  | .inputCounter name next => Sys2Proof.Machine.execInputCounter name next s
  | .migStart r auto => Sys2Proof.Machine.execMigStart r auto s
  | .reserve m => Sys2Proof.Machine.execReserve m s
  | .precopyRound k => Sys2Proof.Machine.execPrecopyRound k s
  | .migCutover r => Sys2Proof.Machine.execMigCutover r s
  | .copyComplete k c => Sys2Proof.Machine.execCopyComplete k c s
  | .scheduleAck k m => Sys2Proof.Machine.execScheduleAck k m s
  | .cutOver k inbound => Sys2Proof.Machine.execCutOver k inbound s
  | .forwardEnd k => Sys2Proof.Machine.execForwardEnd k s
  | .migAbort r => Sys2Proof.Machine.execMigAbort r s
  | .ackDeadline k => Sys2Proof.Machine.execAckDeadline k s
  | .abortReceived k inbound => Sys2Proof.Machine.execAbortReceived k inbound s
  | .logSw2 r v => Sys2Proof.Machine.execLogSw2 r v s
  | .logDeliver => Sys2Proof.Machine.execLogDeliver s
  | .logPacket rec_ => Sys2Proof.Machine.execLogPacket rec_ s
  | .fsrSend r prod => Sys2Proof.Machine.execFsrSend r prod s
  | .fsrRx src payload => Sys2Proof.Machine.execFsrRx src payload s
  | .ddrInit r => Sys2Proof.Machine.execDdrInit r s
  | .ddrDiscard r => Sys2Proof.Machine.execDdrDiscard r s
  | .initDone => Sys2Proof.Machine.execInitDone s
  | .patrolScrub ch found => Sys2Proof.Machine.execPatrolScrub ch found s
  | .marchStart r => Sys2Proof.Machine.execMarchStart r s
  | .marchAbort r => Sys2Proof.Machine.execMarchAbort r s
  | .marchDone fails => Sys2Proof.Machine.execMarchDone fails s
  | .marchPeriod => Sys2Proof.Machine.execMarchPeriod s
  | .flush r => Sys2Proof.Machine.execFlush r s
  | .counterPersist => Sys2Proof.Machine.execCounterPersist s
  | .ringProd r v => Sys2Proof.Machine.execRingProd r v s
  | .fill => Sys2Proof.Machine.execFill s
  | .copy => Sys2Proof.Machine.execCopy s
  | .convert => Sys2Proof.Machine.execConvert s
  | .note => Sys2Proof.Machine.execNote s
  | .setclip => Sys2Proof.Machine.execSetclip s
  | .bltGo r => Sys2Proof.Machine.execBltGo r s
  | .retry r => Sys2Proof.Machine.execRetry r s
  | .skip r => Sys2Proof.Machine.execSkip r s
  | .chArm r c => Sys2Proof.Machine.execChArm r c s
  | .disarm r c => Sys2Proof.Machine.execDisarm r c s
  | .chAbort r c => Sys2Proof.Machine.execChAbort r c s
  | .handover c => Sys2Proof.Machine.execHandover c s
  | .descFetch c => Sys2Proof.Machine.execDescFetch c s
  | .burst c => Sys2Proof.Machine.execBurst c s
  | .dmaResume r mask => Sys2Proof.Machine.execDmaResume r mask s
  | .deliver => Sys2Proof.Machine.execDeliver s
  | .claim c => Sys2Proof.Machine.execClaim c s
  | .complete c v => Sys2Proof.Machine.execComplete c v s
  | .withdraw src => Sys2Proof.Machine.execWithdraw src s
  | .mtip c => Sys2Proof.Machine.execMtip c s
  | .tmrGo r mask => Sys2Proof.Machine.execTmrGo r mask s
  | .tmrStop r mask => Sys2Proof.Machine.execTmrStop r mask s
  | .tick n => Sys2Proof.Machine.execTick n s
  | .cmpArm r n k hi => Sys2Proof.Machine.execCmpArm r n k hi s
  | .perWrite r n hi => Sys2Proof.Machine.execPerWrite r n hi s
  | .funcChange p => Sys2Proof.Machine.execFuncChange p s
  | .pinChange p level => Sys2Proof.Machine.execPinChange p level s
  | .gpioLockArm r b mask => Sys2Proof.Machine.execGpioLockArm r b mask s
  | .gpioLock r b mask => Sys2Proof.Machine.execGpioLock r b mask s
  | .uartTx4 r v => Sys2Proof.Machine.execUartTx4 r v s
  | .uartTx1 r v => Sys2Proof.Machine.execUartTx1 r v s
  | .uartRx4 r => Sys2Proof.Machine.execUartRx4 r s
  | .uartRx1 r => Sys2Proof.Machine.execUartRx1 r s
  | .uartRxByte b parityErr framingErr brk => Sys2Proof.Machine.execUartRxByte b parityErr framingErr brk s
  | .uartTxByte => Sys2Proof.Machine.execUartTxByte s
  | .xspiCmd r v => Sys2Proof.Machine.execXspiCmd r v s
  | .xspiDataPush r v => Sys2Proof.Machine.execXspiDataPush r v s
  | .xspiDataPop r => Sys2Proof.Machine.execXspiDataPop r s
  | .xspiDone rx => Sys2Proof.Machine.execXspiDone rx s
  | .i3cCmd r v => Sys2Proof.Machine.execI3cCmd r v s
  | .i3cDataPush r v => Sys2Proof.Machine.execI3cDataPush r v s
  | .i3cDataPop r => Sys2Proof.Machine.execI3cDataPop r s
  | .i3cDone nack arbLost rx => Sys2Proof.Machine.execI3cDone nack arbLost rx s
  | .ibiRx addr payload => Sys2Proof.Machine.execIbiRx addr payload s
  | .i3cIbi r => Sys2Proof.Machine.execI3cIbi r s
  | .attach p speed dev => Sys2Proof.Machine.execAttach p speed dev s
  | .detach p => Sys2Proof.Machine.execDetach p s
  | .usbReport p rep => Sys2Proof.Machine.execUsbReport p rep s
  | .overcurrent p => Sys2Proof.Machine.execOvercurrent p s
  | .mdioCmd r v => Sys2Proof.Machine.execMdioCmd r v s
  | .mdioDone data => Sys2Proof.Machine.execMdioDone data s
  | .sgmiiAn linkUp speed duplex => Sys2Proof.Machine.execSgmiiAn linkUp speed duplex s
  | .requestService r => Sys2Proof.Machine.execRequestService r s
  | .requestDegraded r => Sys2Proof.Machine.execRequestDegraded r s
  | .requestDrain r => Sys2Proof.Machine.execRequestDrain r s
  | .requestRest r => Sys2Proof.Machine.execRequestRest r s
  | .powerOnEnd strap => Sys2Proof.Machine.execPowerOnEnd strap s
  | .uartImage img => Sys2Proof.Machine.execUartImage img s
  | .resetPin => Sys2Proof.Machine.execResetPin s
  | .pwrgoodFall => Sys2Proof.Machine.execPwrgoodFall s
  | .chipReset r v => Sys2Proof.Machine.execChipReset r v s
  | .restart r v => Sys2Proof.Machine.execRestart r v s
  | .wdogKick r v => Sys2Proof.Machine.execWdogKick r v s
  | .wdogWarn => Sys2Proof.Machine.execWdogWarn s
  | .wdogExpiry => Sys2Proof.Machine.execWdogExpiry s
  | .trialTimeout => Sys2Proof.Machine.execTrialTimeout s
  | .trial r => Sys2Proof.Machine.execTrial r s
  | .bootOk r => Sys2Proof.Machine.execBootOk r s
  | .mfOk r => Sys2Proof.Machine.execMfOk r s
  | .extend r => Sys2Proof.Machine.execExtend r s
  | .quote r => Sys2Proof.Machine.execQuote r s
  | .unlock r => Sys2Proof.Machine.execUnlock r s
  | .epoch r => Sys2Proof.Machine.execEpoch r s
  | .unlockToken token => Sys2Proof.Machine.execUnlockToken token s
  | .unlockChal => Sys2Proof.Machine.execUnlockChal s
  | .profWrite r slot => Sys2Proof.Machine.execProfWrite r slot s
  | .profSwitch r slot => Sys2Proof.Machine.execProfSwitch r slot s
  | .profCancel r => Sys2Proof.Machine.execProfCancel r s
  | .applied => Sys2Proof.Machine.execApplied s
  | .wake src strap => Sys2Proof.Machine.execWake src strap s
  | .tamper sensors => Sys2Proof.Machine.execTamper sensors s
  | .pwrWarn core sram mv => Sys2Proof.Machine.execPwrWarn core sram mv s
  | .pwrRecover => Sys2Proof.Machine.execPwrRecover s
  | .supplyReset => Sys2Proof.Machine.execSupplyReset s
  | .thermWarn temp => Sys2Proof.Machine.execThermWarn temp s
  | .thermOk temp => Sys2Proof.Machine.execThermOk temp s
  | .thermalTrip temp => Sys2Proof.Machine.execThermalTrip temp s
  | .aonReady => Sys2Proof.Machine.execAonReady s
  | .crystalTimeout => Sys2Proof.Machine.execCrystalTimeout s
  | .resend cls dst => Sys2Proof.Machine.execResend cls dst s
  | .coreMemoryAccess c addr size acc => Sys2Proof.Machine.execCoreMemoryAccess c addr size acc s
  | .registerRead r addr size => Sys2Proof.Machine.execRegisterRead r addr size s
  | .storeTakesEffect e => Sys2Proof.Machine.execStoreTakesEffect e s
  | .trained ch spd => Sys2Proof.Machine.execTrained ch spd s
  | .mramWordWrite => Sys2Proof.Machine.execMramWordWrite s
  | .tripEnd temp => Sys2Proof.Machine.execTripEnd temp s
  | .resetRelease strap => Sys2Proof.Machine.execResetRelease strap s
  | .inL1 n on_ => Sys2Proof.Machine.execInL1 n on_ s
  | .clkOk k hz => Sys2Proof.Machine.execClkOk k hz s
  | .locatorUnbind name => Sys2Proof.Machine.execLocatorUnbind name s

end Sys2Proof.Machine
end

