-- ==== Sys2Proof/WellFormed.lean ====
section
/-! DEFINITION. Well-formed commands: those whose operands have the shape that the spec gives the item they stand for. Exec
answers a command that is not well formed as the hardware answers an item that it does not take (assumption log 7). -/
namespace Sys2Proof.Machine

/-- A requester of a register page reaches register pages (R12, R481, R502); a core's access has a size that the instruction
set has; a register access lies in the register region (R8); a posted write carries 1 to 256 bytes and a read asks for 1 to
4,096 (R57); a flit has 64 bytes (R377), a software message 1 to 1,020 (R418), an unlock token 176 (R560); an audio tick
presents eight slot pairs (R358), and an audio block has 48 frames (R359). -/
def wellFormed : Instr → Bool
  | .registerWrite r addr _ _ => reqReaches r && (pageAddr addr.toNat).isSome
  | .setAliasWrite r _ _ _ => reqReaches r
  | .clearAliasWrite r _ _ _ => reqReaches r
  | .irqSet r _ _ => reqReaches r
  | .softReset r _ => reqReaches r
  | .softResetDone _ => true
  | .blkEnableWrite r _ _ => reqReaches r
  | .fenceWrite r _ _ => reqReaches r
  | .lockArm r _ _ => reqReaches r
  | .lockBlock r _ _ => reqReaches r
  | .snap r _ => reqReaches r
  | .injectMismatch r _ => reqReaches r
  | .debugHalt _ => true
  | .debugResume _ _ => true
  | .dmiOperation _ _ _ => true
  | .perstAssert _ => true
  | .perstRelease _ => true
  | .hotReset _ => true
  | .laneLinkDown _ => true
  | .laneLinkUp _ _ => true
  | .cfgReady _ => true
  | .configRequest _ _ _ _ => true
  | .functionLevelReset _ _ => true
  | .d3hotToD0 _ _ => true
  | .hostWrite _ _ _ _ data _ _ => 1 ≤ data.length && data.length ≤ 256
  | .commit _ _ _ => true
  | .hostRead _ _ _ _ len _ => 1 ≤ len && len ≤ 4096
  | .featOk _ _ => true
  | .featDone _ _ => true
  | .present _ _ => true
  | .irEnable _ => true
  | .irConsWrite _ _ => true
  | .irLedWrite _ _ => true
  | .inputDeliver _ => true
  | .plEnable _ => true
  | .playBlockRead _ _ => true
  | .cpEnable _ => true
  | .captureBlock _ => true
  | .bind _ => true
  | .unbind _ => true
  | .bindAnswer _ _ => true
  | .bindTimeout _ => true
  | .allocClear _ => true
  | .admissionRequest _ => true
  | .admitHead _ => true
  | .headDisable _ => true
  | .headStop _ => true
  | .consistWrite _ _ => true
  | .consistEffect _ => true
  | .detachWrite _ _ => true
  | .frameStart _ => true
  | .composeLine _ => true
  | .lineFinal _ => true
  | .lineTake _ => true
  | .late _ => true
  | .frameIncomplete _ => true
  | .leMove _ => true
  | .tadd _ _ _ => true
  | .tsub _ _ _ => true
  | .tand _ _ _ => true
  | .tor _ _ _ => true
  | .txor _ _ _ => true
  | .tshl _ _ _ => true
  | .tshr _ _ _ => true
  | .tsar _ _ _ => true
  | .tcmpeq _ _ _ => true
  | .tcmplt _ _ _ => true
  | .tcmpltu _ _ _ => true
  | .tmin _ _ _ => true
  | .tmax _ _ _ => true
  | .tmul _ _ => true
  | .tmac _ _ => true
  | .tldb _ _ => true
  | .tldbu _ _ => true
  | .tldh _ _ => true
  | .tldhu _ _ => true
  | .tldw _ _ => true
  | .tstb _ _ => true
  | .tsth _ _ => true
  | .tstw _ _ => true
  | .loadComplete _ => true
  | .lWait _ => true
  | .tjmp _ _ => true
  | .trel _ _ => true
  | .tcall _ _ => true
  | .tret _ _ => true
  | .tstart _ _ => true
  | .tmove _ _ => true
  | .tfill _ _ => true
  | .stringDone _ => true
  | .stringFault _ => true
  | .twaitl _ _ => true
  | .twaitp _ _ => true
  | .waitEnd _ => true
  | .twr _ _ => true
  | .headWindowWrite _ _ _ => true
  | .hregCommit _ => true
  | .tlo _ _ => true
  | .traise _ _ => true
  | .fetchSync _ _ => true
  | .leFence _ _ => true
  | .tretEvent _ _ => true
  | .fetchFill _ => true
  | .lineEvent _ => true
  | .mboxWrite r _ _ => reqReaches r
  | .eventEntry _ => true
  | .run r _ => reqReaches r
  | .leStop r _ => reqReaches r
  | .inval r _ => reqReaches r
  | .leReset r _ => reqReaches r
  | .halt r _ => reqReaches r
  | .resume r _ => reqReaches r
  | .stepOne r _ => reqReaches r
  | .portWindowWrite r _ _ _ => reqReaches r
  | .arm r _ => reqReaches r
  | .cancel r _ => reqReaches r
  | .poolSwapGo r _ => reqReaches r
  | .swapped _ => true
  | .codeFrame _ => true
  | .skipWhileCoding => true
  | .frameCommit _ => true
  | .rebuild r => reqReaches r
  | .rebuildPeriod => true
  | .bankClear => true
  | .compact => true
  | .dictSwap => true
  | .tlsRecordRx _ => true
  | .ack _ _ _ => true
  | .keyReq _ => true
  | .openSess _ => true
  | .closeSess _ => true
  | .grant _ => true
  | .revoke _ => true
  | .keyframe _ => true
  | .inject _ => true
  | .keyLoad _ _ => true
  | .sessDoorbell _ => true
  | .iduSubmit _ => true
  | .ethTxPost _ _ => true
  | .txDone _ => true
  | .ethRx _ _ => true
  | .linkChange _ _ _ => true
  | .audioTick pins => pins.i2s.length == 8
  | .toneMs => true
  | .toneEnable _ _ _ => true
  | .tonePeriodWrite _ _ _ => true
  | .sound => true
  | .fabAudioSend _ => true
  | .fabAudioBlock _ _ _ _ frames => frames.length == 48
  | .srcLock _ => true
  | .srcUnlock _ => true
  | .jackDetectSample _ => true
  | .jackClassify _ _ => true
  | .buttonSample _ => true
  | .clkLoss _ => true
  | .signalDetect _ => true
  | .trainDone _ _ => true
  | .trainTimeout _ => true
  | .hello _ _ => true
  | .attest _ _ => true
  | .attestTimeout _ => true
  | .quarantineExpiry _ => true
  | .linkLoss _ => true
  | .retrain r _ => reqReaches r
  | .flitSend _ => true
  | .flitRx _ flit => flit.length == 64
  | .replay _ _ => true
  | .elect _ _ _ => true
  | .coordChange => true
  | .claimAddress _ _ => true
  | .assign _ _ => true
  | .membersChange _ _ => true
  | .beacon => true
  | .report => true
  | .beaconMiss => true
  | .chipLost _ => true
  | .loadDone r => reqReaches r
  | .go r => reqReaches r
  | .switched => true
  | .epCollect _ _ => true
  | .retired => true
  | .acqTimeout => true
  | .syncReq => true
  | .syncAnswer _ _ _ => true
  | .syncResp _ _ _ _ _ _ => true
  | .holdover => true
  | .locBind _ _ _ => true
  | .mirrorSlotRequest _ _ _ _ => true
  | .streamRelay _ _ _ => true
  | .inputPacket _ _ _ => true
  | .inputCounter _ _ => true
  | .migStart r _ => reqReaches r
  | .reserve _ => true
  | .precopyRound _ => true
  | .migCutover r => reqReaches r
  | .copyComplete _ _ => true
  | .scheduleAck _ _ => true
  | .cutOver _ _ => true
  | .forwardEnd _ => true
  | .migAbort r => reqReaches r
  | .ackDeadline _ => true
  | .abortReceived _ _ => true
  | .logSw2 r _ => reqReaches r
  | .logDeliver => true
  | .logPacket _ => true
  | .fsrSend r _ => reqReaches r
  | .fsrRx _ payload => 1 ≤ payload.length && payload.length ≤ 1020
  | .ddrInit r => reqReaches r
  | .ddrDiscard r => reqReaches r
  | .initDone => true
  | .patrolScrub _ _ => true
  | .marchStart r => reqReaches r
  | .marchAbort r => reqReaches r
  | .marchDone _ => true
  | .marchPeriod => true
  | .flush r => reqReaches r
  | .counterPersist => true
  | .ringProd r _ => reqReaches r
  | .fill => true
  | .copy => true
  | .convert => true
  | .note => true
  | .setclip => true
  | .bltGo r => reqReaches r
  | .retry r => reqReaches r
  | .skip r => reqReaches r
  | .chArm r _ => reqReaches r
  | .disarm r _ => reqReaches r
  | .chAbort r _ => reqReaches r
  | .handover _ => true
  | .descFetch _ => true
  | .burst _ => true
  | .dmaResume r _ => reqReaches r
  | .deliver => true
  | .claim _ => true
  | .complete _ _ => true
  | .withdraw _ => true
  | .mtip _ => true
  | .tmrGo r _ => reqReaches r
  | .tmrStop r _ => reqReaches r
  | .tick _ => true
  | .cmpArm r _ _ _ => reqReaches r
  | .perWrite r _ _ => reqReaches r
  | .funcChange _ => true
  | .pinChange _ _ => true
  | .gpioLockArm r _ _ => reqReaches r
  | .gpioLock r _ _ => reqReaches r
  | .uartTx4 r _ => reqReaches r
  | .uartTx1 r _ => reqReaches r
  | .uartRx4 r => reqReaches r
  | .uartRx1 r => reqReaches r
  | .uartRxByte _ _ _ _ => true
  | .uartTxByte => true
  | .xspiCmd r _ => reqReaches r
  | .xspiDataPush r _ => reqReaches r
  | .xspiDataPop r => reqReaches r
  | .xspiDone _ => true
  | .i3cCmd r _ => reqReaches r
  | .i3cDataPush r _ => reqReaches r
  | .i3cDataPop r => reqReaches r
  | .i3cDone _ _ _ => true
  | .ibiRx _ _ => true
  | .i3cIbi r => reqReaches r
  | .attach _ _ _ => true
  | .detach _ => true
  | .usbReport _ _ => true
  | .overcurrent _ => true
  | .mdioCmd r _ => reqReaches r
  | .mdioDone _ => true
  | .sgmiiAn _ _ _ => true
  | .requestService r => reqReaches r
  | .requestDegraded r => reqReaches r
  | .requestDrain r => reqReaches r
  | .requestRest r => reqReaches r
  | .powerOnEnd _ => true
  | .uartImage _ => true
  | .resetPin => true
  | .pwrgoodFall => true
  | .chipReset r _ => reqReaches r
  | .restart r _ => reqReaches r
  | .wdogKick r _ => reqReaches r
  | .wdogWarn => true
  | .wdogExpiry => true
  | .trialTimeout => true
  | .trial r => reqReaches r
  | .bootOk r => reqReaches r
  | .mfOk r => reqReaches r
  | .extend r => reqReaches r
  | .quote r => reqReaches r
  | .unlock r => reqReaches r
  | .epoch r => reqReaches r
  | .unlockToken token => token.length == 176
  | .unlockChal => true
  | .profWrite r _ => reqReaches r
  | .profSwitch r _ => reqReaches r
  | .profCancel r => reqReaches r
  | .applied => true
  | .wake _ _ => true
  | .tamper _ => true
  | .pwrWarn _ _ _ => true
  | .pwrRecover => true
  | .supplyReset => true
  | .thermWarn _ => true
  | .thermOk _ => true
  | .thermalTrip _ => true
  | .aonReady => true
  | .crystalTimeout => true
  | .resend _ _ => true
  | .coreMemoryAccess _ _ size acc => accSize size acc
  | .registerRead r addr _ => reqReaches r && (pageAddr addr.toNat).isSome
  | .storeTakesEffect _ => true
  | .trained _ _ => true
  | .mramWordWrite => true
  | .tripEnd _ => true
  | .resetRelease _ => true
  | .inL1 _ _ => true
  | .clkOk _ _ => true
  | .locatorUnbind _ => true

end Sys2Proof.Machine
end

