-- ==== Sys2Proof/Safety.lean ====
section
/-! DEFINITION. What claims mean by a sound state, a safe step, a command that completes, and what a command leaves alone. -/
namespace Sys2Proof.Machine

/-- Between commands: memory is in canonical form, and no write of a command is on its way. -/
def State.sound (s : State) : Prop := memWf s.dev.mem = true ∧ s.dev.wlog = []

/-- Every command that waits is well formed. -/
def State.queueOk (s : State) : Prop := ∀ i ∈ s.pending, wellFormed i = true

/-- A step is safe: it answers a next state. -/
def State.safeStep (s : State) : Prop := ∃ t, step s = .next t

/-- The requester has a path to register pages, and it is open if it is the debug module's (R12, R503). -/
def State.reaches (s : State) (r : Req) : Prop := reqReaches r = true ∧ (r = .debug → s.dev.dbgOpen = true)

/-- The command completes: exec answers a next state, which holds the same queue and of whose device post is true. -/
def Does (i : Instr) (s : State) (post : Dev → Prop) : Prop :=
  ∃ t, exec i s = .next t ∧ t.pending = s.pending ∧ post t.dev

/-- Every byte of memory reads as before. -/
def Dev.sameMem (d t : Dev) : Prop := ∀ a, t.byte a = d.byte a

/-- Every byte of memory outside the n bytes from a on reads as before. -/
def Dev.sameMemBut (a n : Nat) (d t : Dev) : Prop := ∀ x, x < a ∨ a + n ≤ x → t.byte x = d.byte x

/-- Every register word but those that k names (page, offset) reads as before. -/
def Dev.regsBut (k : Nat → Nat → Prop) (d t : Dev) : Prop := ∀ p off, off < 4096 → ¬k p off → t.rd p off = d.rd p off

/-- What the device holds beside registers, memory, armed locks, the outputs and answer of the latest command, and the note
of the bits set in this cycle (R23). -/
def Dev.hidden (d : Dev) : Dev :=
  { d with regs := [], mem := [], wlog := [], armed := [], outs := [], answer := .none, setNow := [] }

/-- Nothing but the register words that k names, armed locks, the command's outputs and answer, and the note of the bits set
in this cycle differs. -/
def Dev.onlyRegs (k : Nat → Nat → Prop) (d t : Dev) : Prop := d.regsBut k t ∧ d.sameMem t ∧ t.hidden = d.hidden

/-- The address of a word of a page in the direct view (R8, R9). -/
def regAddr (p off : Nat) : BitVec 48 := BitVec.ofNat 48 (0x40000000 + p * 0x4000 + off)

/-- Bit b of a word after a write of v by its access codes (R6, R27): RW and, on an unlocked page, RWL bits take v's bit, a
W1C bit that v sets is cleared, every other bit stays. -/
def bitAfter (d : Dev) (p off : Nat) (v : Word) (b : Nat) : Bool :=
  let keep := if bit (d.wmask p off) b then bit v b else bit (d.rd p off) b
  if bit (w1cMask p off) b && bit v b then false else keep

end Sys2Proof.Machine
end

