-- ==== Sys2Proof/Certificates/Slice0/Obligations.lean ====
section
/-! DEFINITION. Statements for the provers, family by family. `Does i s post` says that command i completes in s with post
true of the device after it. -/
open Sys2Proof Sys2Proof.Machine

/-! ### The machine as a whole -/

/-- A step takes the command at the front of the queue and is exec of it on the rest. -/
def Obligations.StepTakesFront : Prop :=
  ∀ (i : Instr) (rest : List Instr) (d : Dev), step ⟨d, i :: rest⟩ = exec i ⟨d, rest⟩

/-- Every identity that is checked holds (R47). -/
def identitiesHold (d : Dev) : Prop :=
  ∀ p c i, acctAt (pageKind p) = some c → d.rdB p c.1 1 = true → hasIdentity (pageKind p) i = true → d.identityHolds p i = true

/-- The model's choice (assumption log 1): on an empty queue one PCLK cycle passes; memory and the queue keep what they hold.
While every checked identity holds and no lane has state of its own, the registers of every page but GPIO's keep their values. -/
def Claims.IdleStep : Prop :=
  ∀ s : State, s.pending = [] → s.sound → ∃ t, step s = .next t ∧ t.pending = [] ∧ t.dev.clock.cyc = s.dev.clock.cyc + 1
    ∧ s.dev.sameMem t.dev
    ∧ (s.dev.lanes = [] → identitiesHold s.dev → s.dev.regsBut (fun p _ => p = pgGPIO) t.dev)

/-- Every command completes: for every constructor of Instr, every operand and every sound state, exec answers a next state, which
holds the same queue and is sound. No command faults or is refused. -/
def Obligations.EveryCommandCompletes : Prop :=
  ∀ (i : Instr) (s : State), s.sound → ∃ t, exec i s = .next t ∧ t.pending = s.pending ∧ t.sound

/-- Every step keeps memory in its canonical form and leaves no write of a command on its way. -/
def Obligations.StepKeepsSound : Prop := ∀ s t : State, s.sound → step s = .next t → t.sound

/-- The state after reset is sound: the invariant of StepKeepsSound starts there. -/
def Claims.ResetSound : Prop := State.reset.sound ∧ State.reset.queueOk

/-- What reset leaves: mode ROOT, cause POWER_ON, all tokens free, no lane up, every head OFF, every engine stopped with
its registers and predicates 0, every link DOWN, no command waiting.
The model's own readings and choices in it: assumption log 6. -/
def Claims.ResetValues : Prop :=
  State.reset.dev.mode = 1 ∧ State.reset.dev.rd pgSYS Reg.SYS_RESET_CAUSE = 1
    ∧ State.reset.dev.rdF pgSYS Reg.ING_SH_FREE 15 0 = 4096
    ∧ State.reset.dev.rdF pgCOMPOSE Reg.TOK_FREE 15 0 = 24000 ∧ State.reset.dev.rdF pgLEAD Reg.LTOK_FREE 15 0 = 3072
    ∧ (∀ h : Head, (State.reset.dev.head h).adm = .off) ∧ (∀ e : Le, (State.reset.dev.eng e).st = .stopped)
    ∧ (∀ l : Al, (State.reset.dev.link l).st = .down) ∧ (∀ n : Lane, State.reset.dev.rdB (pgHP n) Reg.HP_STAT 1 = false)
    ∧ State.reset.pending = []

/-- A register access by a requester without a path to register pages, a lane or an engine (R12): it answers an access fault,
and nothing changes.
The model's own readings and choices in it: assumption log 7. Commands it says complete: irqSet, setAliasWrite. -/
def Claims.NoPath : Prop :=
  ∀ (r : Req) (p : Page) (v : Word) (s : State), s.sound → reqReaches r = false →
    Does (.irqSet r p v) s (fun t => t.answer = .accessFault ∧ s.dev.onlyRegs (fun _ _ => False) t ∧ t.armed = s.dev.armed)
    ∧ (∀ off, Does (.setAliasWrite r p off v) s (fun t =>
        t.answer = .accessFault ∧ s.dev.onlyRegs (fun _ _ => False) t ∧ t.armed = s.dev.armed))

/-- While debug access is closed (SEC_STAT.DBG_OPEN 0) a debugger's command fails and changes nothing: a dmi operation, a
halt, a resume, a register write.
The model's own readings and choices in it: assumption log 41. -/
def Claims.DebugClosed : Prop :=
  ∀ (s : State), s.sound → s.dev.dbgOpen = false → ∀ i : Instr,
    ((∃ op a v, i = .dmiOperation op a v) ∨ (∃ c, i = .debugHalt c) ∨ (∃ c b, i = .debugResume c b)
      ∨ (∃ p v, i = .irqSet .debug p v)) →
    Does i s (fun t => t.answer = .dmiFailed ∧ s.dev.onlyRegs (fun _ _ => False) t ∧ t.armed = s.dev.armed)

/-- The work of a block whose page is frozen (R17, R19) waits and changes nothing: a lane's commits, the transmitter, the log,
pin functions, the low-speed controllers, MDIO, DRAM initialisation and scrub, march tests, MRAM, the jack, USB reports.
Commands it says complete: commit, txDone, logDeliver, funcChange, uartTxByte, xspiDone, i3cDone, mdioDone, initDone,
patrolScrub, marchPeriod, marchDone, counterPersist, mramWordWrite, jackDetectSample, jackClassify, buttonSample, usbReport. -/
def Claims.FrozenBlocksWait : Prop :=
  ∀ s : State, s.sound →
    let waits := fun (t : Dev) => t.answer = .waits ∧ s.dev.onlyRegs (fun _ _ => False) t
    (∀ (n : Lane) f k, s.dev.frozen (pgHP n) = true → Does (.commit n f k) s waits)
    ∧ (∀ p, s.dev.frozen (portPage p) = true → Does (.txDone p) s waits)
    ∧ (s.dev.frozen pgLOG = true → Does .logDeliver s waits)
    ∧ (s.dev.frozen pgGPIO = true → ∀ p, Does (.funcChange p) s waits)
    ∧ (s.dev.frozen pgLSP = true → Does .uartTxByte s waits ∧ (∀ rx, Does (.xspiDone rx) s waits) ∧ ∀ a b rx, Does (.i3cDone a b rx) s waits)
    ∧ (s.dev.frozen pgMGMT = true → ∀ v, Does (.mdioDone v) s waits)
    ∧ (s.dev.frozen (pgDDR 0) = true → Does .initDone s waits)
    ∧ (∀ (ch : Fin 6) f, s.dev.frozen (pgDDR ch) = true → Does (.patrolScrub ch f) s waits)
    ∧ (s.dev.frozen pgMARCH = true → Does .marchPeriod s waits ∧ ∀ l, Does (.marchDone l) s waits)
    ∧ (s.dev.frozen pgMRAM = true → Does .counterPersist s waits ∧ Does .mramWordWrite s waits)
    ∧ (s.dev.frozen pgJACK = true → (∀ b, Does (.jackDetectSample b) s waits) ∧ (∀ a b, Does (.jackClassify a b) s waits) ∧ ∀ a, Does (.buttonSample a) s waits)
    ∧ (s.dev.frozen pgUSB = true → ∀ k r, Does (.usbReport k r) s waits)

/-! ### Register pages -/

/-- Pages whose block-specific words have no behaviour of their own. -/
def plainPage (p : Nat) : Bool := pageKind p == .lead || pageKind p == .enc || pageKind p == .time

/-- REGISTER_WRITE of a word (R6): each bit as its access code says, every other word, memory and the rest as before; an
access of another size or alignment faults and writes nothing; and REGISTER_READ of such a word answers what is stored.
The model's own readings and choices in it: assumption log 58. Commands it says complete: registerWrite, registerRead. -/
def Obligations.RegisterAccess : Prop :=
  ∀ (r : Req) (p : Page) (off : Nat) (v : DWord) (s : State), s.sound → s.reaches r → off < 4096 →
    (plainPage p = true → off % 4 = 0 → 0x040 ≤ off → off ≠ Reg.LEAD_ACCT_CTL →
      Does (.registerWrite r (regAddr p off) 4 v) s (fun t =>
        (∀ b < 32, bit (t.rd p off) b = bitAfter s.dev p off (v.setWidth 32) b)
        ∧ s.dev.onlyRegs (fun q o => q = p ∧ o = off) t))
    ∧ ((off % 4 ≠ 0) → ∀ size, Does (.registerWrite r (regAddr p off) size v) s (fun t =>
        t.answer = .accessFault ∧ s.dev.onlyRegs (fun _ _ => False) t))
    ∧ (plainPage p = true → pageKind p ≠ .time → off % 4 = 0 → 0x040 ≤ off →
        spGet (fun _ => none) s.dev.latches (regKey p off) = none →
      Does (.registerRead r (regAddr p off) 4) s (fun t => t.answer = .data ((s.dev.rd p off).setWidth 64)
        ∧ s.dev.sameMem t ∧ (s.dev.gpio.unseen = 0 → s.dev.onlyRegs (fun _ _ => False) t)))

/-- Writes through the set and clear aliases (R10): bits of the word that are RW or RWL and 1 in the value are set or
cleared, every other bit stays, and nothing else changes.
The model's own readings and choices in it: assumption log 58. Commands it says complete: setAliasWrite, clearAliasWrite. -/
def Claims.AliasWrites : Prop :=
  ∀ (r : Req) (p : Page) (off : Offset) (v : Word) (s : State), s.sound → s.reaches r → off.toNat % 4 = 0 →
    (plainPage p = true ∧ pageKind p ≠ .time ∧ 0x040 ≤ off.toNat ∧ off.toNat ≠ Reg.LEAD_ACCT_CTL
      ∨ off.toNat = Reg.IRQ_EN ∧ pageKind p ≠ .none ∧ p.val ≠ pgTMR ∧ p.val ≠ pgGPIO) →
    Does (.setAliasWrite r p off v) s (fun t =>
        t.rd p off.toNat = s.dev.rd p off.toNat ||| (v &&& s.dev.wmask p off.toNat)
        ∧ s.dev.onlyRegs (fun q o => q = p ∧ o = off.toNat) t)
    ∧ Does (.clearAliasWrite r p off v) s (fun t =>
        t.rd p off.toNat = s.dev.rd p off.toNat &&& ~~~(v &&& s.dev.wmask p off.toNat)
        ∧ s.dev.onlyRegs (fun q o => q = p ∧ o = off.toNat) t)

/-- IRQ_SET sets the matching bits of IRQ_STAT that the page has; FENCE has no effect of its own, since every write has
taken effect before the next command. Either disarms a lock that was armed.
The model's own readings and choices in it: assumption log 1, 54. Commands it says complete: irqSet, fenceWrite. -/
def Claims.IrqSetAndFence : Prop :=
  ∀ (r : Req) (p : Page) (v : Word) (s : State), s.sound → s.reaches r → p.val ≠ pgGPIO →
    Does (.irqSet r p v) s (fun t =>
      t.rd p Reg.IRQ_STAT = s.dev.rd p Reg.IRQ_STAT ||| (v &&& word (irqBits (pageKind p)))
      ∧ s.dev.onlyRegs (fun q o => q = p ∧ o = Reg.IRQ_STAT) t ∧ spGet (fun _ => none) t.armed p = none)
    ∧ Does (.fenceWrite r p v) s (fun t =>
      s.dev.onlyRegs (fun _ _ => False) t ∧ spGet (fun _ => none) t.armed p = none)

/-- LOCK (R26): 0xC3 arms for its requester; 0x3C from the requester that armed locks the page, and from any other it
disarms without locking; bits [23:0] are ignored. No register, no memory and nothing else changes.
The model's own readings and choices in it: assumption log 54. Commands it says complete: lockArm, lockBlock. -/
def Obligations.PageLock : Prop :=
  ∀ (r : Req) (p : Page) (low : BitVec 24) (s : State), s.sound → s.reaches r → pageKind p ≠ .none → p.val ≠ pgGPIO →
    (spGet (fun _ => none) s.dev.armed p ≠ some r →
      Does (.lockArm r p low) s (fun t => spGet (fun _ => none) t.armed p = some r
        ∧ s.dev.onlyRegs (fun _ _ => False) t))
    ∧ (spGet (fun _ => none) s.dev.armed p = some r →
      Does (.lockBlock r p low) s (fun t => t.isLocked p = true ∧ spGet (fun _ => none) t.armed p = none
        ∧ (∀ q, q ≠ p.val → t.isLocked q = s.dev.isLocked q)
        ∧ s.dev.regsBut (fun _ _ => False) t ∧ s.dev.sameMem t
        ∧ { t.hidden with locked := [] } = { s.dev.hidden with locked := [] }))
    ∧ (spGet (fun _ => none) s.dev.armed p ≠ some r →
      Does (.lockBlock r p low) s (fun t => t.locked = s.dev.locked ∧ spGet (fun _ => none) t.armed p = none
        ∧ s.dev.onlyRegs (fun _ _ => False) t))

/-- SOFT_RESET of a page without a block behind it: every stored word returns to its reset value but those kept (R18, R600)
and the RWL bits of a locked page; SOFT_RESET and IN_RESET read 1 until SOFT_RESET_DONE.
The model's own readings and choices in it: assumption log 11. Commands it says complete: softReset, softResetDone. -/
def Obligations.SoftReset : Prop :=
  ∀ (r : Req) (p : Page) (s : State), s.sound → s.reaches r → plainPage p = true →
    (s.dev.inReset.contains p.val = false →
      Does (.softReset r p) s (fun t => t.inReset.contains p.val = true ∧ t.rdB p Reg.BLK_CTL 1 = true
        ∧ (∀ off < 4096, off ≠ Reg.BLK_CTL → (∀ row, rowAt p off = some row → row.keep = false ∧ (row.rwl = 0 ∨ s.dev.isLocked p = false)) →
            t.rd p off = resetWord (regKey p off))
        ∧ s.dev.regsBut (fun q _ => q = p) t ∧ s.dev.sameMem t
        ∧ { t.hidden with inReset := [] } = { s.dev.hidden with inReset := [] }))
    ∧ (s.dev.inReset.contains p.val = true →
      Does (.softResetDone p) s (fun t => t.inReset.contains p.val = false ∧ t.rdB p Reg.BLK_CTL 1 = false
        ∧ s.dev.regsBut (fun q o => q = p ∧ o = Reg.BLK_CTL) t ∧ s.dev.sameMem t
        ∧ { t.hidden with inReset := [] } = { s.dev.hidden with inReset := [] }))

/-- BLK_CTL.ENABLE of DMA and BLT: the bit takes the value written, and nothing else changes.
The model's own readings and choices in it: assumption log 53. Commands it says complete: blkEnableWrite. -/
def Claims.BlockEnable : Prop :=
  ∀ (r : Req) (p : Page) (en : Bool) (s : State), s.sound → s.reaches r → p.val = pgDMA ∨ p.val = pgBLT →
    Does (.blkEnableWrite r p en) s (fun t => (s.dev.isLocked p = false → t.rdB p Reg.BLK_CTL 0 = en)
      ∧ s.dev.onlyRegs (fun q o => q = p ∧ o = Reg.BLK_CTL) t)

/-- SNAP of the ingress page copies both terms into the snapshot word and counts; INJECT makes a checked identity fail: its
error bit and the page's ACCT_ERR bit become 1.
The model's own readings and choices in it: assumption log 9. Commands it says complete: snap, injectMismatch. -/
def Claims.Accounting : Prop :=
  ∀ (r : Req) (s : State), s.sound → s.reaches r →
    Does (.snap r 0) s (fun t =>
      t.rdF pgSYS Reg.ING_SH_SNAP 15 0 = s.dev.rdF pgSYS Reg.ING_SH_USED 15 0
      ∧ t.rdF pgSYS Reg.ING_SH_SNAP 31 16 = s.dev.rdF pgSYS Reg.ING_SH_FREE 15 0
      ∧ t.rdF pgSYS Reg.SYS_ACCT_STAT 31 16 = (s.dev.rdF pgSYS Reg.SYS_ACCT_STAT 31 16 + 1) % 65536
      ∧ s.dev.onlyRegs (fun q o => q = pgSYS ∧ (o = Reg.ING_SH_SNAP ∨ o = Reg.SYS_ACCT_STAT)) t)
    ∧ (s.dev.rdB pgSYS Reg.SYS_ACCT_CTL 1 = true → s.dev.rdF pgSYS Reg.SYS_ACCT_CTL 11 8 = 0 →
      Does (.injectMismatch r 0) s (fun t => t.rdB pgSYS Reg.SYS_ACCT_STAT 0 = true ∧ t.rdB pgSYS Reg.IRQ_STAT 31 = true))

/-! ### Host lanes: links and resets -/

/-- What a reset of all three functions of a lane leaves: no write of any function waits, no input event is pending, and no
function has features negotiated or READY. -/
def laneCleared (n : Lane) (t : Dev) : Prop :=
  (t.lane n).queue = [] ∧ (t.lane n).pendingIn = []
    ∧ ∀ f : Fn, t.rd (pgFn n (fnIx f)) Reg.HF_NEG_LO = 0 ∧ t.rd (pgFn n (fnIx f)) Reg.HF_DRV_FEAT_LO = 0
      ∧ t.rdB (pgFn n (fnIx f)) Reg.HF_STAT 0 = false

/-- The lane's link goes down with the effects of R106: PERST# asserted on a lane where it was not, and the loss of a live
link; a hot reset keeps the link up and ends CFG_READY.
The model's own readings and choices in it: assumption log 36. Commands it says complete: perstAssert, hotReset,
laneLinkDown. -/
def Claims.LaneResets : Prop :=
  ∀ (n : Lane) (s : State),
    (s.dev.rdB (pgHP n) Reg.HP_STAT 0 = false → Does (.perstAssert n) s (fun t =>
      t.rdB (pgHP n) Reg.HP_STAT 0 = true ∧ t.linkLive n = false ∧ t.cfgReady n = false ∧ t.rdB (pgHP n) Reg.IRQ_STAT 0 = true
      ∧ laneCleared n t))
    ∧ (s.dev.linkLive n = true → Does (.hotReset n) s (fun t =>
      t.linkLive n = true ∧ t.cfgReady n = false ∧ laneCleared n t))
    ∧ (s.dev.linkLive n = true → Does (.laneLinkDown n) s (fun t =>
      t.linkLive n = false ∧ t.cfgReady n = false ∧ t.rdB (pgHP n) Reg.IRQ_STAT 3 = true ∧ laneCleared n t))

/-- PERST# released begins training; a trained lane that is enabled, out of reset and in an operating mode comes up at the
lower of its speed and MAX_SPEED; L1 shows in IN_L1, and its change may let lanes borrow (R83); nothing else changes (the LTSSM
code of a change is a free value).
The model's own readings and choices in it: assumption log 3. Commands it says complete: perstRelease, laneLinkUp, inL1. -/
def Claims.LaneLinkUp : Prop :=
  ∀ (n : Lane) (s : State), s.sound →
    (s.dev.rdB (pgHP n) Reg.HP_STAT 0 = true → Does (.perstRelease n) s (fun t =>
      t.rdB (pgHP n) Reg.HP_STAT 0 = false ∧ t.rdB (pgHP n) Reg.IRQ_STAT 1 = true
      ∧ s.dev.onlyRegs (fun p o => p = pgHP n ∧ (o = Reg.HP_STAT ∨ o = Reg.IRQ_STAT)) t))
    ∧ (∀ speed : Fin 4, s.dev.rdB (pgHP n) Reg.HP_STAT 0 = false → s.dev.linkLive n = false →
        s.dev.rdB (pgHP n) Reg.HP_CTL 0 = true → s.dev.portsOff = false → Does (.laneLinkUp n speed) s (fun t =>
      t.linkLive n = true ∧ t.rdF (pgHP n) Reg.HP_STAT 3 2 = min speed.val (s.dev.rdF (pgHP n) Reg.HP_CTL 2 1)
      ∧ t.rdB (pgHP n) Reg.IRQ_STAT 2 = true
      ∧ s.dev.regsBut (fun p o => p = pgHP n ∧ (o = Reg.HP_STAT ∨ o = Reg.IRQ_STAT)) t ∧ s.dev.sameMem t
      ∧ { t.hidden with draws := 0 } = { s.dev.hidden with draws := 0 }))
    ∧ (∀ on : Bool, s.dev.linkLive n = true → Does (.inL1 n on) s (fun t => t.rdB (pgHP n) Reg.HP_STAT 13 = on
      ∧ t.linkLive n = true ∧ s.dev.regsBut (fun p o => p = pgHP n ∧ o = Reg.HP_STAT
          ∨ (∃ k < 128, p = pgHP k) ∧ o = Reg.HP_SHARE_USED ∨ p = pgSYS ∧ (o = Reg.ING_SH_USED ∨ o = Reg.ING_SH_FREE)) t
      ∧ s.dev.sameMem t))

/-- Configuration (R104, R105): the lane becomes ready when PERST# is released and the mode is SERVICE, DEGRADED or DRAIN. A
configuration request is answered with Retry Status before, and outside those modes; after, a read answers the word, the
device's identity at offset 0; a write of a word that shows something fixed changes nothing, and one of a plain word follows its
access codes.
The model's own readings and choices in it: assumption log 8. Commands it says complete: cfgReady, configRequest. -/
def Obligations.Configuration : Prop :=
  ∀ (n : Lane) (s : State), s.sound →
    let up := s.dev.mode = 3 ∨ s.dev.mode = 4 ∨ s.dev.mode = 5
    (s.dev.rdB (pgHP n) Reg.HP_STAT 0 = false → up → Does (.cfgReady n) s (fun t => t.cfgReady n = true))
    ∧ (s.dev.linkLive n = true → ∀ f off,
      let o := off.toNat / 4 * 4
      let p := pgCfg n (fnIx f)
      (s.dev.cfgReady n = false ∨ ¬up → ∀ wr, Does (.configRequest n f off wr) s (fun t =>
        t.answer = .retryStatus ∧ s.dev.onlyRegs (fun _ _ => False) t))
      ∧ (s.dev.cfgReady n = true → up →
        Does (.configRequest n f off none) s (fun t =>
          t.answer = .data ((s.dev.cfgRead n f o).setWidth 64) ∧ s.dev.onlyRegs (fun _ _ => False) t)
        ∧ Does (.configRequest n f 0 none) s (fun t =>
          t.answer = .data (BitVec.ofNat 64 (0x1E4C + (0x0128 + fnIx f) * 65536)))
        ∧ ∀ v : Word,
          ((s.dev.cfgFixed n f o).isSome = true → Does (.configRequest n f off (some v)) s (fun t =>
            t.answer = .done ∧ s.dev.onlyRegs (fun _ _ => False) t))
          ∧ ((s.dev.cfgFixed n f o).isSome = false → o ≠ Reg.CFG_PMCSR → o ≠ Reg.CFG_DEVCTL → o ≠ Reg.CFG_MSIX →
            o ≠ Reg.CFG_BAR0_LO → s.dev.heldSet p o = 0 → Does (.configRequest n f off (some v)) s (fun t =>
              t.answer = .done ∧ (∀ b < 32, bit (t.rd p o) b = bitAfter s.dev p o v b)
              ∧ s.dev.onlyRegs (fun q w => q = p ∧ w = o) t))))

/-- A reset of one function (R106): its waiting writes go and the other functions' stay, its negotiation ends, FN_RESET is
raised; the change from D3hot to D0 is one too, and does nothing to a function that is in D0.
Commands it says complete: functionLevelReset, d3hotToD0. -/
def Claims.FunctionResets : Prop :=
  ∀ (n : Lane) (f : Fn) (s : State),
    Does (.functionLevelReset n f) s (fun t =>
      (t.lane n).queue = (s.dev.lane n).queue.filter (fun x => !(x.fn == f))
      ∧ t.rd (pgFn n (fnIx f)) Reg.HF_NEG_LO = 0 ∧ t.rdB (pgFn n (fnIx f)) Reg.HF_STAT 0 = false
      ∧ t.rdB (pgHP n) Reg.IRQ_STAT 4 = true)
    ∧ (s.dev.inD0 n (fnIx f) = false → Does (.d3hotToD0 n f) s (fun t =>
      (t.lane n).queue = (s.dev.lane n).queue.filter (fun x => !(x.fn == f)) ∧ t.inD0 n (fnIx f) = true
      ∧ t.rd (pgFn n (fnIx f)) Reg.HF_NEG_LO = 0 ∧ t.rdB (pgHP n) Reg.IRQ_STAT 4 = true))
    ∧ (s.dev.inD0 n (fnIx f) = true → s.sound → Does (.d3hotToD0 n f) s (fun t => s.dev.onlyRegs (fun _ _ => False) t))

/-! ### Host lanes: reads and writes -/

/-- A good write that fits its BAR enters the queue when floor credits cover it and one of the 32 header credits is free; with
none it waits; a flawed one is discarded, counted and logged through AER.
Commands it says complete: hostWrite. -/
def Claims.HostWriteEnters : Prop :=
  ∀ (n : Lane) (f : Fn) (bar : Bar) (off : BitVec 29) (data : List (Option Byte)) (relaxed : Bool) (s : State),
    s.sound → 1 ≤ data.length → data.length ≤ 256 → s.dev.linkLive n = true →
    (s.dev.cfgReady n = true → s.dev.inD0 n (fnIx f) = true → bar ≠ .rom → off.toNat + data.length ≤ barSize f bar →
      (bar = .bar0 → bar0WriteOk off.toNat data = true) →
      ceilDiv data.length 64 ≤ s.dev.rdN (pgHP n) Reg.HP_FLOOR_FREE →
      (s.dev.lane n).shareBusy ≤ s.dev.rdN (pgHP n) Reg.HP_SHARE_USED → (s.dev.lane n).queue.length < 32 →
      Does (.hostWrite n f bar off data relaxed .good) s (fun t =>
        (t.lane n).queue = (s.dev.lane n).queue ++
          [{ fn := f, bar := bar, off := off.toNat, data := data, relaxed := relaxed, floor := ceilDiv data.length 64, share := 0 }]
        ∧ t.rd (pgHP n) Reg.HP_FLOOR_USED = word (s.dev.rdN (pgHP n) Reg.HP_FLOOR_USED + ceilDiv data.length 64)
        ∧ s.dev.sameMem t))
    ∧ (s.dev.cfgReady n = true → s.dev.inD0 n (fnIx f) = true → bar ≠ .rom → off.toNat + data.length ≤ barSize f bar →
      (bar = .bar0 → bar0WriteOk off.toNat data = true) → 32 ≤ (s.dev.lane n).queue.length →
      Does (.hostWrite n f bar off data relaxed .good) s (fun t => t.answer = .waits ∧ (t.lane n).queue = (s.dev.lane n).queue
        ∧ s.dev.sameMem t))
    ∧ (∀ flaw, flaw ≠ .good → Does (.hostWrite n f bar off data relaxed flaw) s (fun t =>
        t.rd64 (pgHP n) Reg.ING_DISCARDS = (s.dev.rd64 (pgHP n) Reg.ING_DISCARDS + 1) % 2 ^ 64
        ∧ t.rdB (pgHP n) Reg.IRQ_STAT 6 = true
        ∧ t.rdB (pgCfg n (fnIx f)) Reg.CFG_AER_UES (aerBit flaw) = true
        ∧ s.dev.regsBut (fun p o => p = pgHP n ∧ (o = Reg.IRQ_STAT ∨ o = Reg.ING_DISCARDS ∨ o = Reg.ING_DISCARDS + 4)
            ∨ p = pgCfg n (fnIx f) ∧ Reg.CFG_AER_UES ≤ o ∧ o < Reg.CFG_AER_HDR + 16) t ∧ s.dev.sameMem t
        ∧ { t.hidden with draws := 0 } = { s.dev.hidden with draws := 0 }))

/-- COMMIT of the oldest write of a lane (R66 to R68, R76, R79, R109): a display write to memory of the head's own allocation lands
there and nowhere else; one to a detached head, or outside the allocation, is discarded and counted; a register write is
counted and stamped in the lane and in its function. The write leaves the queue.
The model's own readings and choices in it: assumption log 12. Commands it says complete: commit. -/
def Claims.CommitLands : Prop :=
  ∀ (n : Lane) (s : State) (w : Tlp) (rest : List Tlp) (bs : List Byte) (a : Nat), s.sound →
    (s.dev.lane n).queue = w :: rest → w.fn = .display → w.bar = .bar2 → w.data = bs.map some → bs ≠ [] →
    (s.dev.begin.commitCycle n).detachedAtStart n = false → s.dev.bar2 n w.off = some a →
    s.dev.bar2 n (w.off + bs.length - 1) = some (a + bs.length - 1) →
    s.dev.frozen (pgHP n) = false → Does (.commit n .display 0) s (fun t => t.bytes a bs.length = bs ∧ s.dev.sameMemBut a bs.length t
      ∧ (t.lane n).queue = rest ∧ (t.lane n).lastCyc = some t.cyc)

/-- The other commits: discards, and register writes.
Commands it says complete: commit. -/
def Claims.CommitCounts : Prop :=
  ∀ (n : Lane) (s : State), s.sound → s.dev.frozen (pgHP n) = false →
    let d0 := s.dev.begin.commitCycle n
    (∀ w rest, (s.dev.lane n).queue = w :: rest →
    (w.fn = .display → w.bar = .bar2 → d0.detachedAtStart n = true ∨ (w.data ≠ [] ∧ (∀ b ∈ w.data, b.isSome = true)
        ∧ s.dev.bar2 n w.off = none) → Does (.commit n w.fn 0) s (fun t =>
      (t.lane n).queue = rest ∧ t.rd64 (pgHP n) Reg.ING_DISCARDS = (s.dev.rd64 (pgHP n) Reg.ING_DISCARDS + 1) % 2 ^ 64
      ∧ t.rdB (pgHP n) Reg.IRQ_STAT 8 = true ∧ s.dev.sameMem t))
    ∧ (w.bar ≠ .bar2 → w.fn ≠ .display → Does (.commit n w.fn 0) s (fun t =>
      (t.lane n).queue = rest ∧ t.rd64 (pgHP n) Reg.ING_COMMITS = (s.dev.rd64 (pgHP n) Reg.ING_COMMITS + 1) % 2 ^ 64
      ∧ t.rd64 (pgHP n) Reg.ING_BYTES = (s.dev.rd64 (pgHP n) Reg.ING_BYTES + w.data.length) % 2 ^ 64
      ∧ t.rd64 (pgFn n (fnIx w.fn)) Reg.HF_FENCE = t.ft)))
    ∧ (∀ f, (s.dev.lane n).queue.all (fun x => x.fn != f) = true → Does (.commit n f 0) s (fun t =>
      (t.lane n).queue = (s.dev.lane n).queue ∧ s.dev.onlyRegs (fun _ _ => False) t))

/-- HOST_READ of head memory answers the bytes stored there once no earlier write of the function waits, and changes no
memory and no register; while one waits, the read waits.
Commands it says complete: hostRead. -/
def Claims.HostReadAnswers : Prop :=
  ∀ (n : Lane) (off : BitVec 29) (len a : Nat) (s : State), s.sound → 1 ≤ len → len ≤ 4096 →
    s.dev.linkLive n = true → s.dev.cfgReady n = true → s.dev.inD0 n 0 = true → off.toNat + len ≤ 0x20000000 →
    ((s.dev.lane n).queue.any (fun t => t.fn == .display) = false → s.dev.rdB (pgHD n) Reg.HD_MODE 3 = false →
      s.dev.ram.poison = [] → (∀ i < len, s.dev.bar2 n (off.toNat + i) = some (a + i)) →
      Does (.hostRead n .display .bar2 off len false) s (fun t => t.answer = .bytes (s.dev.bytes a len)
        ∧ s.dev.onlyRegs (fun _ _ => False) t))
    ∧ ((s.dev.lane n).queue.any (fun t => t.fn == .display) = true →
      Does (.hostRead n .display .bar2 off len false) s (fun t => t.answer = .waits
        ∧ s.dev.onlyRegs (fun _ _ => False) t))

/-! ### Host functions -/

/-- Feature negotiation (R52, R74): FEAT_OK starts one; its answer accepts a choice within the offer that meets the
dependencies and makes it the negotiated set, and rejects any other.
Commands it says complete: featOk, featDone. -/
def Claims.Negotiation : Prop :=
  ∀ (n : Lane) (f : Fn) (s : State),
    (s.dev.rdB (pgFn n (fnIx f)) Reg.HF_CTL 0 = false → Does (.featOk n f) s (fun t =>
      t.rdB (pgFn n (fnIx f)) Reg.HF_CTL 0 = true ∧ t.rdB (pgFn n (fnIx f)) Reg.HF_STAT 1 = false))
    ∧ (s.dev.rdB (pgFn n (fnIx f)) Reg.HF_CTL 0 = true → s.dev.rdB (pgFn n (fnIx f)) Reg.HF_STAT 0 = false →
      Does (.featDone n f) s (fun t => t.rdB (pgFn n (fnIx f)) Reg.HF_EVT_STAT 0 = true ∧ t.rdB (pgHP n) Reg.IRQ_STAT 5 = true
        ∧ (s.dev.featCode n (fnIx f) = 0 → t.rdB (pgFn n (fnIx f)) Reg.HF_STAT 0 = true
          ∧ t.rd (pgFn n (fnIx f)) Reg.HF_NEG_LO = s.dev.rd (pgFn n (fnIx f)) Reg.HF_DRV_FEAT_LO
          ∧ t.rd (pgFn n (fnIx f)) Reg.HF_NEG_HI = s.dev.rd (pgFn n (fnIx f)) Reg.HF_DRV_FEAT_HI)
        ∧ (s.dev.featCode n (fnIx f) ≠ 0 → t.rdB (pgFn n (fnIx f)) Reg.HF_STAT 0 = false
          ∧ t.rdB (pgFn n (fnIx f)) Reg.HF_STAT 1 = true ∧ t.rdB (pgFn n (fnIx f)) Reg.HF_CTL 0 = false
          ∧ t.rdF (pgFn n (fnIx f)) Reg.HF_STAT 15 8 = s.dev.featCode n (fnIx f))))

/-- PRESENT: the tag is queued with the instant of its commit, after those before it.
Commands it says complete: present. -/
def Claims.PresentQueued : Prop :=
  ∀ (n : Lane) (tag : Word) (s : State), (s.dev.head n).fence = false →
    Does (.present n tag) s (fun t => ∃ p, (t.head n).presents = (s.dev.head n).presents ++ [p] ∧ p.tag = tag ∧ p.stamp = t.ft
      ∧ p.regs = s.dev.ownRegs n)

/-- The input ring (R89 to R96) of a function that has negotiated it: enabling resets its indexes; an IR_CONS beyond the ring is
ignored and raises RING_ERR; IR_LED keeps its five lamps; delivery advances IR_PROD, takes the event off the queue and
writes its 32 bytes to the host.
Commands it says complete: irEnable, irConsWrite, irLedWrite, inputDeliver. -/
def Obligations.InputRing : Prop :=
  ∀ (n : Lane) (v : Word) (s : State), 
    (s.dev.fnHas n 1 6 = true →
      (s.dev.rdB (pgFn n 1) Reg.IR_CTL 0 = false → Does (.irEnable n) s (fun t => t.rdB (pgFn n 1) Reg.IR_CTL 0 = true
        ∧ t.rd (pgFn n 1) Reg.IR_PROD = 0 ∧ t.rd (pgFn n 1) Reg.IR_CONS = 0))
      ∧ ((s.dev.rd (pgFn n 1) Reg.IR_PROD - v).toNat ≤ 2 ^ s.dev.irLog n → Does (.irConsWrite n v) s (fun t =>
        t.rd (pgFn n 1) Reg.IR_CONS = v))
      ∧ (2 ^ s.dev.irLog n < (s.dev.rd (pgFn n 1) Reg.IR_PROD - v).toNat → Does (.irConsWrite n v) s (fun t =>
        t.rd (pgFn n 1) Reg.IR_CONS = s.dev.rd (pgFn n 1) Reg.IR_CONS ∧ t.rdB (pgFn n 1) Reg.HF_EVT_STAT 3 = true))
      ∧ Does (.irLedWrite n v) s (fun t => t.rdF (pgFn n 1) Reg.IR_LED 4 0 = field v 4 0))
    ∧ (∀ e rest, (s.dev.lane n).pendingIn = e :: rest → s.dev.canDeliver n = true → Does (.inputDeliver n) s (fun t =>
        (t.lane n).pendingIn = rest ∧ (t.lane n).lastSeq = e.seq
        ∧ t.rd (pgFn n 1) Reg.IR_PROD = s.dev.rd (pgFn n 1) Reg.IR_PROD + 1
        ∧ t.rdB (pgFn n 1) Reg.HF_EVT_STAT 1 = true
        ∧ .hostWrite n (s.dev.rd64 (pgFn n 1) Reg.IR_BASE_LO + s.dev.rdN (pgFn n 1) Reg.IR_PROD % 2 ^ s.dev.irLog n * 32)
            (eventBytes e (decide (e.seq ≠ (s.dev.lane n).lastSeq + 1))) ∈ t.outs))

/-- A clearing of the allocations that waits for a frame (R602) takes place: no clearing waits, and every byte of both
allocations that nothing lists reads as such.
The model's own readings and choices in it: assumption log 2. Commands it says complete: allocClear. -/
def Claims.AllocClear : Prop :=
  ∀ (n : VHead) (s : State) (f : Nat), (s.dev.head n).clearAt = some f →
    Does (.allocClear n) s (fun t => (t.head n).clearAt = none ∧ t.rdF (pgHD n) Reg.HD_MODE 1 0 = 0
      ∧ ∀ a, ((s.dev.alloc n).1 ≤ a ∧ a < (s.dev.alloc n).1 + (s.dev.alloc n).2.1) → t.byte a = memDefault a)

/-! ### Binding -/

/-- BIND (R108) of a head without a console or with a refused request waits for an answer; the answer of a chip outside any
fabric refuses name 0 with code 1 and a name served here with code 2, and grants any other; without an answer for 1 s the
request is refused with code 3; each raises BIND_DONE.
The model's own readings and choices in it: assumption log 14. Commands it says complete: bind, bindAnswer, bindTimeout. -/
def Claims.Binding : Prop :=
  ∀ (n : VHead) (s : State), s.sound →
    (s.dev.nameState n ≠ 1 → s.dev.nameState n ≠ 2 → Does (.bind n) s (fun t => t.nameState n = 1
      ∧ (t.head n).bindAt = s.dev.clock.base))
    ∧ (s.dev.nameState n = 1 → s.dev.addrValid = false → ∀ grant, Does (.bindAnswer n grant) s (fun t =>
      (s.dev.nameOf n = 0 → t.nameState n = 3 ∧ t.rdF (pgHD n) Reg.HB_STAT 7 4 = 1)
      ∧ (s.dev.nameOf n ≠ 0 → s.dev.nameTaken n (s.dev.nameOf n) = true → t.nameState n = 3 ∧ t.rdF (pgHD n) Reg.HB_STAT 7 4 = 2)
      ∧ (s.dev.nameOf n ≠ 0 → s.dev.nameTaken n (s.dev.nameOf n) = false → t.nameState n = 2)
      ∧ t.rdB (pgHP n) Reg.IRQ_STAT 10 = true
      ∧ s.dev.onlyRegs (fun p o => p = pgHD n ∧ o = Reg.HB_STAT ∨ p = pgHP n ∧ o = Reg.IRQ_STAT) t))
    ∧ (s.dev.nameState n = 1 → Does (.bindTimeout n) s (fun t => t.nameState n = 3 ∧ t.rdF (pgHD n) Reg.HB_STAT 7 4 = 3
      ∧ t.rdB (pgHP n) Reg.IRQ_STAT 10 = true ∧ (s.dev.head n).bindAt + 1200000000 ≤ t.clock.base
      ∧ s.dev.regsBut (fun p o => p = pgHD n ∧ o = Reg.HB_STAT ∨ p = pgHP n ∧ o = Reg.IRQ_STAT) t ∧ s.dev.sameMem t))

/-- UNBIND (R108): the name becomes 0 and the head serves no console.
The model's own readings and choices in it: assumption log 14. Commands it says complete: unbind. -/
def Claims.Unbinding : Prop :=
  ∀ (n : VHead) (s : State), Does (.unbind n) s (fun t => t.nameState n = 0 ∧ t.nameOf n = 0 ∧ t.console n = 0)

/-- DETACHED (R109): the bit takes the value, and a change sets DETACH_CHANGE in the functions of a virtual head.
Commands it says complete: detachWrite. -/
def Claims.Detach : Prop :=
  ∀ (h : Head) (on : Bool) (s : State), Does (.detachWrite h on) s (fun t => t.rdB (pgHD h) Reg.HD_MODE 3 = on
    ∧ (isV h = true → s.dev.rdB (pgHD h) Reg.HD_MODE 3 ≠ on → ∀ f < 3, t.rdB (pgFn h f) Reg.HF_EVT_STAT 2 = true
        ∧ t.rdB (pgFn h f) Reg.HF_STAT 3 = on)
    ∧ (s.dev.rdB (pgHD h) Reg.HD_MODE 3 = on → ∀ p off, t.rd p off = s.dev.rd p off))

/-! ### Admission and the life of a head -/

/-- A request (R152) waits for its answer and ENABLE reads 1; an answer with code 1 takes the tokens that R153 asks for,
puts the head in WAITING and gives it its first frame; any other code leaves ENABLE 0, unless a further request waits, and the pools as they were. Requests of one
PCLK cycle are answered in ascending page index: while a lower page's waits, the answer does too.
Commands it says complete: admissionRequest, admitHead. -/
def Claims.Admission : Prop :=
  ∀ (h : Head) (s : State),
    ((s.dev.head h).adm = .off → (s.dev.head h).reqAt = [] → Does (.admissionRequest h) s (fun t =>
      (t.head h).reqAt = [(false, s.dev.ft, s.dev.cyc)] ∧ t.rdB (pgHD h) Reg.HD_MODE 2 = true ∧ (t.head h).adm = .off))
    ∧ (∀ a rest, (s.dev.head h).reqAt = a :: rest →
      (s.dev.earlierAsk h a.2.2 = true → Does (.admitHead h) s (fun t => t.answer = .waits ∧ t.head h = s.dev.head h
        ∧ s.dev.regsBut (fun _ _ => False) t ∧ s.dev.sameMem t))
      ∧ (s.dev.earlierAsk h a.2.2 = false → a.1 = true ∨ s.dev.live h = false → Does (.admitHead h) s (fun t =>
      (t.head h).reqAt = rest ∧ (t.head h).code = s.dev.admitCode h a.1 ∧ t.rdB (pgHD h) Reg.IRQ_STAT 0 = true
      ∧ (s.dev.admitCode h a.1 = 1 → (t.head h).adm = .waiting ∧ t.rdB (pgHD h) Reg.HD_MODE 2 = true
        ∧ (t.head h).scan = (s.dev.scanNeed h).getD 0 ∧ (t.head h).line = s.dev.lineNeed h
        ∧ (t.head h).first = (s.dev.runOrigin h a.2.1).2 ∧ (t.head h).eff = s.dev.leadLines h
        ∧ t.rd pgCOMPOSE Reg.TOK_HELD = word (s.dev.rdN pgCOMPOSE Reg.TOK_HELD + (s.dev.scanNeed h).getD 0)
        ∧ t.rd pgLEAD Reg.LTOK_HELD = word (s.dev.rdN pgLEAD Reg.LTOK_HELD + s.dev.lineNeed h))
      ∧ (s.dev.admitCode h a.1 ≠ 1 → (t.head h).adm = (s.dev.head h).adm ∧ t.rdB (pgHD h) Reg.HD_MODE 2 = decide (rest ≠ [])
        ∧ t.rd pgCOMPOSE Reg.TOK_HELD = s.dev.rd pgCOMPOSE Reg.TOK_HELD
        ∧ t.rd pgLEAD Reg.LTOK_HELD = s.dev.rd pgLEAD Reg.LTOK_HELD))))

/-- A write of 0 to ENABLE (R155) ends a wait at once and returns its tokens, and makes a running head STOPPING; a stopping
head whose frame in progress began before the stop becomes OFF at the next start instant and its tokens return.
The model's own readings and choices in it: assumption log 10, 57. Commands it says complete: headDisable, headStop. -/
def Claims.HeadStops : Prop :=
  ∀ (h : Head) (s : State),
    ((s.dev.head h).adm = .waiting → Does (.headDisable h) s (fun t => (t.head h).adm = .off ∧ (t.head h).scan = 0
      ∧ (t.head h).line = 0 ∧ t.rdB (pgHD h) Reg.HD_MODE 2 = false))
    ∧ ((s.dev.head h).adm = .running → Does (.headDisable h) s (fun t => (t.head h).adm = .stopping
      ∧ (t.head h).stopAt = some s.dev.ft ∧ t.rdB (pgHD h) Reg.HD_MODE 2 = false ∧ (t.head h).scan = (s.dev.head h).scan))
    ∧ ((s.dev.head h).adm = .stopping → s.dev.stopLate h = false → Does (.headStop h) s (fun t => (t.head h).adm = .off
      ∧ (t.head h).scan = 0 ∧ (t.head h).line = 0 ∧ (t.head h).lines = []))

/-- HD_MODE.CONSIST (R157): a write of a mode that the features allow is stored; a mode that waits takes effect at the start
instant of its frame.
The model's own readings and choices in it: assumption log 21. Commands it says complete: consistWrite, consistEffect. -/
def Claims.Consistency : Prop :=
  ∀ (h : Head) (s : State),
    (∀ mode : BitVec 2, mode.toNat = 0 ∨ (mode.toNat = 1 ∧ bit (s.dev.feats h) 1 = true) →
      Does (.consistWrite h mode) s (fun t => t.rdF (pgHD h) Reg.HD_MODE 1 0 = mode.toNat
        ∧ (mode.toNat ≠ s.dev.rdF (pgHD h) Reg.HD_MODE 1 0 → (t.head h).consAt = some s.dev.ft)))
    ∧ (∀ c, (s.dev.head h).consAt = some c → (s.dev.head h).adm = .waiting ∨ (s.dev.head h).adm = .running →
      Does (.consistEffect h) s (fun t => (t.head h).consAt = none ∧ (t.head h).fence = decide (s.dev.rdF (pgHD h) Reg.HD_MODE 1 0 = 1)
        ∧ (t.head h).fenceAt = s.dev.startFt h (s.dev.consistFrame h c)))

/-- FRAME_START (R149, R150) of a waiting or running head: the next frame is in progress, the head RUNNING, the frame counted,
FRAME_START raised.
The model's own readings and choices in it: assumption log 10, 57. Commands it says complete: frameStart. -/
def Claims.FrameStarts : Prop :=
  ∀ (h : Head) (s : State), (s.dev.head h).adm = .waiting ∨ (s.dev.head h).adm = .running → (s.dev.head h).reserved = 0 →
    Does (.frameStart h) s (fun t => (t.head h).cur = some (s.dev.nextFrame h) ∧ (t.head h).last = some (s.dev.nextFrame h)
      ∧ (t.head h).adm = .running ∧ t.rdB (pgHD h) Reg.IRQ_STAT 6 = true
      ∧ t.rd64 (pgHD h) Reg.FRAMES_STARTED = (s.dev.rd64 (pgHD h) Reg.FRAMES_STARTED + 1) % 2 ^ 64)

/-- A head that holds fewer than EFF lines composes its next line (R161): it joins the window with the pixels that the layers
give, not final.
Commands it says complete: composeLine. -/
def Claims.ComposeLine : Prop :=
  ∀ (h : Head) (s : State), s.dev.live h = true → (s.dev.head h).reserved ≠ 1 → (s.dev.head h).lines.length < (s.dev.head h).eff →
    Does (.composeLine h) s (fun t => ∃ b, (t.head h).lines = (s.dev.head h).lines ++ [b] ∧ b.frame = (s.dev.head h).next.1
      ∧ b.line = (s.dev.head h).next.2 ∧ b.final = false
      ∧ b.pixels = (s.dev.begin.composeLine h (s.dev.begin.composeRegs h b.frame) (s.dev.hactive h) b.frame b.line).pixels
      ∧ (t.head h).next = if b.line + 1 < s.dev.vactive h then (b.frame, b.line + 1) else (b.frame + 1, 0))

/-- A composed line of the frame in progress becomes final (R163) and no register changes but a virtual head's count of
complete frames; the oldest line, once final, leaves the window: the encoder keeps it with its frame, or it counts as
written to the back output frame (R161, R171).
The model's own readings and choices in it: assumption log 22. Commands it says complete: lineFinal, lineTake. -/
def Claims.LinesLeave : Prop :=
  ∀ (h : Head) (s : State), s.sound →
    (∀ f l, (s.dev.head h).fin = (f, l) → (s.dev.head h).cur = some f →
      (s.dev.head h).lines.any (fun b => decide (b.frame = f ∧ b.line = l)) = true → Does (.lineFinal h) s (fun t =>
        (t.head h).lines = markFinal f l (s.dev.head h).lines
        ∧ (t.head h).fin = (if s.dev.vactive h ≤ l + 1 then (f + 1, 0) else (f, l + 1))
        ∧ s.dev.regsBut (fun p o => p = pgHD h ∧ (o = Reg.FRAMES_COMPLETE ∨ o = Reg.FRAMES_COMPLETE + 4)) t ∧ s.dev.sameMem t))
    ∧ (∀ b rest, (s.dev.head h).lines = b :: rest → b.final = true → Does (.lineTake h) s (fun t =>
        (t.head h).lines = rest
        ∧ (isV h = true → (t.head h).frames = (s.dev.head h).frames.map (fun e =>
            if e.num = b.frame then { e with lines := e.lines ++ [b] } else e))
        ∧ (isV h = false → (t.head h).written = (s.dev.head h).written + 1)
        ∧ s.dev.regsBut (fun _ _ => False) t))

/-- A missed deadline (R168) withholds the virtual head's frame and counts it; a physical head's frame that is not written by
its last sample instant is spoiled and its lines leave the window (R171).
Commands it says complete: late, frameIncomplete. -/
def Claims.MissedLines : Prop :=
  (∀ (h : VHead) (s : State) f l, (s.dev.head h).fin = (f, l) → (s.dev.head h).cur = some f → l < s.dev.vactive h →
    (s.dev.head h).lines.any (fun b => decide (b.frame = f ∧ b.line = l)) = false → Does (.late h) s (fun t =>
      (t.head h).spoiled = some f ∧ t.rdB (pgHD h) Reg.IRQ_STAT 1 = true ∧ t.rdB (pgHD h) Reg.IRQ_STAT 2 = true
      ∧ t.rd64 (pgHD h) Reg.WITHHELD_FRAMES = (s.dev.rd64 (pgHD h) Reg.WITHHELD_FRAMES + 1) % 2 ^ 64
      ∧ (t.head h).frames.any (fun e => e.num == f) = false))
  ∧ (∀ (k : PHead) (s : State) f, s.sound → (s.dev.head (128 + k)).cur = some f →
      (s.dev.head (128 + k)).written ≠ s.dev.vactive (128 + k) → Does (.frameIncomplete k) s (fun t =>
        (t.head (128 + k)).spoiled = some f ∧ (∀ b ∈ (t.head (128 + k)).lines, f < b.frame)
        ∧ s.dev.regsBut (fun _ _ => False) t ∧ s.dev.sameMem t))

/-! ### Line engines -/

/-- The ports of an engine that only its own moves set: registers, predicates, operands, and the like. -/
def engineOperands (x : Engine) : Engine :=
  { g := x.g, p1 := x.p1, p2 := x.p2, p3 := x.p3, op0 := x.op0, op1 := x.op1, mop := x.mop, ldata := x.ldata, blink := x.blink
    lpCount := x.lpCount, lpState := x.lpState, stSrc := x.stSrc, stDst := x.stDst, stLen := x.stLen, bmHead := x.bmHead
    hrSel := x.hrSel, khi := x.khi, epc := x.epc, emask := x.emask, epend := x.epend, mbox := x.mbox }

/-- Beside engine e, the clock, the command's answer, and the words of e's page that l lists, nothing differs; memory is said
apart. -/
def engineOnly (e : Nat) (l : List Nat) (d t : Dev) : Prop :=
  d.regsBut (fun p o => p = pgLE e ∧ o ∈ l) t ∧ (∀ j, j ≠ e → t.eng j = d.eng j)
    ∧ { t.hidden with clock := {}, engines := [] } = { d.hidden with clock := {}, engines := [] }

/-- An engine that runs is at an instruction boundary (R266): no swap is due, no wait is in progress, nothing stalls it. -/
def boundary (d : Dev) (e : Nat) : Prop :=
  (d.eng e).st = .running → d.swapDue e = none ∧ ((d.begin.prefetch e).eng e).wait = none ∧ (d.begin.prefetch e).heldUp e = false

/-- The ALU triggers (R195): the result of T and the unit's operand is in the unit's RES from the next cycle on, the first in
which an instruction may read it, whatever RES held; the other unit, every register and operand port, LE_PC, memory and
all else stay.
The model's own readings and choices in it: assumption log 38. Commands it says complete: tadd, tsub, tand, tor, txor, tshl,
tshr, tsar, tcmpeq, tcmplt, tcmpltu, tmin, tmax. -/
def Obligations.AluTriggers : Prop :=
  ∀ (e : Le) (u : Alu) (t : Word) (s : State), s.sound →
    let o := if u = .a0 then (s.dev.eng e).op0 else (s.dev.eng e).op1
    let did := fun (v : Word) (d : Dev) => (if u = .a0 then (d.eng e).res0 else (d.eng e).res1) = v ∧ (d.eng e).ready = d.cyc + 1
      ∧ (if u = .a0 then (d.eng e).res1 = (s.dev.eng e).res1 else (d.eng e).res0 = (s.dev.eng e).res0)
      ∧ engineOperands (d.eng e) = engineOperands (s.dev.eng e) ∧ engineOnly e [Reg.LE_STALLS] s.dev d ∧ s.dev.sameMem d
    Does (.tadd e u t) s (did (t + o)) ∧ Does (.tsub e u t) s (did (t - o)) ∧ Does (.tand e u t) s (did (t &&& o))
      ∧ Does (.tor e u t) s (did (t ||| o)) ∧ Does (.txor e u t) s (did (t ^^^ o))
      ∧ Does (.tshl e u t) s (did (t <<< (o.toNat % 32))) ∧ Does (.tshr e u t) s (did (t >>> (o.toNat % 32)))
      ∧ Does (.tsar e u t) s (did (t.sshiftRight (o.toNat % 32)))
      ∧ Does (.tcmpeq e u t) s (did (if t = o then 1 else 0)) ∧ Does (.tcmplt e u t) s (did (if t.toInt < o.toInt then 1 else 0))
      ∧ Does (.tcmpltu e u t) s (did (if t.toNat < o.toNat then 1 else 0))
      ∧ Does (.tmin e u t) s (did (if t.toInt < o.toInt then t else o))
      ∧ Does (.tmax e u t) s (did (if t.toInt < o.toInt then o else t))

/-- The multiplier (R197): 2 cycles after its trigger TMUL's product is in M.RES, and TMAC's sum in M.ACC and M.RES. TLO joins
K.HI and T (R198). TRAISE raises soft bit T[3:0] (R225). Registers, operands and memory stay.
The model's own readings and choices in it: assumption log 38. Commands it says complete: tmul, tmac, tlo, traise. -/
def Claims.MultiplyConstantRaise : Prop :=
  ∀ (e : Le) (t : Word) (s : State), s.sound →
    let x := s.dev.eng e
    let kept := fun (d : Dev) => engineOperands (d.eng e) = engineOperands x ∧ s.dev.sameMem d
    Does (.tmul e t) s (fun d => (((d.pass 2).settle e).eng e).mres = t * x.mop ∧ kept d
        ∧ engineOnly e [Reg.LE_STALLS] s.dev d)
    ∧ Does (.tmac e t) s (fun d =>
        let y := ((d.pass 2).settle e).eng e
        y.mres = y.macc ∧ (x.flights = [] → y.macc = x.macc + t * x.mop) ∧ kept d ∧ engineOnly e [Reg.LE_STALLS] s.dev d)
    ∧ Does (.tlo e t) s (fun d => (d.eng e).kres = word (field x.khi 15 0 * 65536 + field t 15 0) ∧ kept d
        ∧ engineOnly e [Reg.LE_STALLS] s.dev d)
    ∧ Does (.traise e t) s (fun d => d.rdB (pgLE e) Reg.IRQ_STAT (16 + t.toNat % 16) = true ∧ kept d
        ∧ engineOnly e [Reg.LE_STALLS, Reg.IRQ_STAT] s.dev d)

/-- Loads and stores in local data memory (R199, R200, R233) while the string unit is idle: a load's value is in L.RES 3 cycles
after its trigger, 4 if it is split; a store changes its own bytes and no others.
The model's own readings and choices in it: assumption log 38. Commands it says complete: tldb, tldbu, tstb, tldh, tldhu,
tsth, tldw, tstw. -/
def Claims.LoadsAndStores : Prop :=
  ∀ (e : Le) (t : Word) (s : State), s.sound → (s.dev.eng e).str = none →
    let x := s.dev.eng e
    let a := dataBase e + t.toNat
    let load := fun (n : Nat) (sx : Bool) (d : Dev) =>
      (((d.pass (if isSplit t.toNat n then 4 else 3)).settle e).eng e).lres = loadValue sx (s.dev.bytes a n)
        ∧ engineOperands (d.eng e) = engineOperands x ∧ engineOnly e [Reg.LE_STALLS] s.dev d ∧ s.dev.sameMem d
    let stored := fun (n : Nat) (d : Dev) => d.bytes a n = leBytes n x.ldata.toNat ∧ s.dev.sameMemBut a n d
      ∧ engineOperands (d.eng e) = engineOperands x ∧ s.dev.regsBut (fun p o => p = pgLE e ∧ o = Reg.LE_STALLS) d
    (t.toNat + 1 ≤ 0x8000 → Does (.tldb e t) s (load 1 true) ∧ Does (.tldbu e t) s (load 1 false)
      ∧ Does (.tstb e t) s (stored 1))
    ∧ (t.toNat + 2 ≤ 0x8000 → Does (.tldh e t) s (load 2 true) ∧ Does (.tldhu e t) s (load 2 false)
      ∧ Does (.tsth e t) s (stored 2))
    ∧ (t.toNat + 4 ≤ 0x8000 → Does (.tldw e t) s (load 4 false) ∧ Does (.tstw e t) s (stored 4))

/-- Shared accesses (R201, R202): the oldest load completes 10 cycles after its trigger at the earliest and its value is in L.RES;
the oldest store reaches its memory through its view; L.WAIT and FENCE wait for what is outstanding (R227), and FETCH_SYNC
empties every fetch structure once no store is (R254).
The model's own readings and choices in it: assumption log 38. Commands it says complete: loadComplete, storeTakesEffect,
lWait, leFence, fetchSync. -/
def Claims.SharedAccesses : Prop :=
  ∀ (e : Le) (s : State), s.sound →
    let x := s.dev.eng e
    (∀ w rest n sx, x.shared = w :: rest → w.load = some (n, sx) → w.part = 0 → w.drop = false → w.bytes = [] →
      Does (.loadComplete e) s (fun d => (d.eng e).lres = loadValue sx (s.dev.sharedBytes w.phys w.len)
        ∧ (d.eng e).shared = rest ∧ w.trig + 10 ≤ d.cyc ∧ engineOnly e [] s.dev d ∧ s.dev.sameMem d))
    ∧ (∀ w rest, x.shared = w :: rest → w.load = none → s.dev.writable w.phys = true → w.bytes.length = w.len →
      Does (.storeTakesEffect e) s (fun d =>
        d.bytes w.phys w.len = (s.dev.bytes w.phys w.len).zipWith (viewByte w.view) w.bytes
        ∧ s.dev.sameMemBut w.phys w.len d ∧ (d.eng e).shared = rest))
    ∧ (x.shared = [] → Does (.lWait e) s (fun d => d.answer = .data 0 ∧ engineOperands (d.eng e) = engineOperands x
        ∧ engineOnly e [Reg.LE_STALLS] s.dev d ∧ s.dev.sameMem d))
    ∧ (x.shared ≠ [] → Does (.lWait e) s (fun d => d.answer = .waits ∧ (d.eng e).stallAt.isSome = true
        ∧ engineOnly e [] s.dev d ∧ s.dev.sameMem d))
    ∧ (∀ t, x.quiet = true → Does (.leFence e t) s (fun d => d.answer = .none ∧ engineOperands (d.eng e) = engineOperands x
        ∧ engineOnly e [Reg.LE_STALLS] s.dev d ∧ s.dev.sameMem d))
    ∧ (∀ t, x.quiet = false → Does (.leFence e t) s (fun d => d.answer = .waits ∧ engineOnly e [] s.dev d ∧ s.dev.sameMem d))
    ∧ (∀ t, x.shared = [] → Does (.fetchSync e t) s (fun d => (d.eng e).syncAt = none ∧ (d.eng e).cache = []
        ∧ (d.eng e).fbuf = none ∧ (d.eng e).btb = [] ∧ (d.eng e).lbuf = [] ∧ d.rd (pgLE e) Reg.LE_PC = s.dev.rd (pgLE e) Reg.LE_PC
        ∧ engineOnly e [Reg.LE_STALLS, Reg.LE_REDIRECTS] s.dev d ∧ s.dev.sameMem d))

/-- Branches (R205): execution goes on at T, at the instruction's address plus 4·T, or at B.LINK, aligned down; a call sets
B.LINK. TSTART sets up a body that fits (R208, R209) or skips it while LP.COUNT is 0; one that does not fit faults with
cause 7. TRET_EVENT leaves the handler (R264); outside one it faults with cause 4 (R235).
The model's own readings and choices in it: assumption log 38. Commands it says complete: tjmp, trel, tcall, tret, tstart,
tretEvent. -/
def Obligations.Branches : Prop :=
  ∀ (e : Le) (t : Word) (s : State), s.sound →
    let x := s.dev.eng e
    let pc := s.dev.rd (pgLE e) Reg.LE_PC
    let goes := fun (dest : Nat) (d : Dev) => d.rd (pgLE e) Reg.LE_PC = word dest
      ∧ engineOnly e [Reg.LE_STALLS, Reg.LE_REDIRECTS, Reg.LE_PC] s.dev d ∧ s.dev.sameMem d ∧ (d.eng e).g = x.g
    let faults := fun (cause : Nat) (d : Dev) => (d.eng e).st = .faulted ∧ d.rd (pgLE e) Reg.LE_PC = pc
      ∧ d.rdB (pgLE e) Reg.IRQ_STAT 0 = true ∧ d.rdB (pgLE e) Reg.LE_FAULT 31 = true
      ∧ (s.dev.rdB (pgLE e) Reg.LE_FAULT 31 = false → d.rdF (pgLE e) Reg.LE_FAULT 3 0 = cause
        ∧ d.rd (pgLE e) Reg.LE_FAULT_PC = pc) ∧ (d.eng e).g = x.g ∧ s.dev.sameMem d
    Does (.tjmp e t) s (fun d => goes (t.toNat / 4 * 4) d ∧ (d.eng e).blink = x.blink)
    ∧ Does (.trel e t) s (fun d => goes ((pc + 4 * t).toNat / 4 * 4) d ∧ (d.eng e).blink = x.blink)
    ∧ Does (.tcall e t) s (fun d => goes (t.toNat / 4 * 4) d ∧ (d.eng e).blink = pc + 4)
    ∧ Does (.tret e t) s (fun d => goes (x.blink.toNat / 4 * 4) d ∧ (d.eng e).blink = x.blink)
    ∧ (loopOk pc.toNat t.toNat = true → 0x10000 ≤ pc.toNat → pc.toNat % 4 = 0 → (pc.toNat < 0x14000 ∨ 0x18000000 ≤ pc.toNat) →
      Does (.tstart e t) s (fun d =>
        goes (if x.lpCount = 0 then pc.toNat + 4 * (t.toNat + 1) else pc.toNat + 4) d
        ∧ lpFirst (d.eng e).lpState = pc.toNat + 4 ∧ lpLast (d.eng e).lpState = pc.toNat + 4 * t.toNat
        ∧ (d.eng e).lpCount = x.lpCount))
    ∧ (loopOk pc.toNat t.toNat = false → Does (.tstart e t) s (faults 7))
    ∧ (x.evIn = true → Does (.tretEvent e t) s (fun d => goes (x.epc.toNat / 4 * 4) d ∧ (d.eng e).evIn = false
        ∧ ((d.eng e).p1, (d.eng e).p2, (d.eng e).p3) = (x.evPred % 2 == 1, x.evPred / 2 % 2 == 1, x.evPred / 4 % 2 == 1)))
    ∧ (x.evIn = false → Does (.tretEvent e t) s (faults 4))

/-- String operations (R211 to R214). A trigger with bytes to do starts the unit, at the value of its direction bit or its fill;
with none it does nothing. A fill, or an ascending move, within local data memory ends with its bytes written, and no others;
a byte that may not be touched stops it with cause 5, nothing written, at the next boundary of the engine's instructions.
The model's own readings and choices in it: assumption log 38. Commands it says complete: tmove, tfill, stringDone,
stringFault. -/
def Obligations.Strings : Prop :=
  ∀ (e : Le) (v : Word) (s : State), s.sound →
    let x := s.dev.eng e
    let n := x.stLen.toNat
    (x.str = none → x.stLen ≠ 0 →
      Does (.tmove e v) s (fun d => (∃ o, (d.eng e).str = some o ∧ o.fill = false ∧ o.down = bit v 0)
        ∧ engineOperands (d.eng e) = engineOperands x ∧ engineOnly e [Reg.LE_STALLS] s.dev d ∧ s.dev.sameMem d)
      ∧ Does (.tfill e v) s (fun d => (∃ o, (d.eng e).str = some o ∧ o.fill = true ∧ o.val = v)
        ∧ engineOperands (d.eng e) = engineOperands x ∧ engineOnly e [Reg.LE_STALLS] s.dev d ∧ s.dev.sameMem d))
    ∧ (x.str = none → x.stLen = 0 → Does (.tmove e v) s (fun d => (d.eng e).str = none ∧ s.dev.sameMem d)
      ∧ Does (.tfill e v) s (fun d => (d.eng e).str = none ∧ s.dev.sameMem d))
    ∧ (∀ o, x.str = some o → o.down = false → o.zeroAtEnd = false → x.stDst.toNat + n ≤ 0x8000 →
      (o.fill = true → Does (.stringDone e) s (fun d => (d.eng e).str = none ∧ (d.eng e).stLen = 0
        ∧ (d.eng e).stDst = x.stDst + x.stLen ∧ s.dev.sameMemBut (dataBase e + x.stDst.toNat) n d
        ∧ ∀ i < n, d.byte (dataBase e + (x.stDst.toNat + i)) = byteOf o.val.toNat ((x.stDst.toNat + i) % 4)))
      ∧ (o.fill = false → x.stSrc.toNat + n ≤ 0x8000 → x.stDst.toNat ≤ x.stSrc.toNat ∨ x.stSrc.toNat + n ≤ x.stDst.toNat →
        Does (.stringDone e) s (fun d => (d.eng e).str = none ∧ (d.eng e).stLen = 0
        ∧ (d.eng e).stDst = x.stDst + x.stLen ∧ (d.eng e).stSrc = x.stSrc + x.stLen
        ∧ s.dev.sameMemBut (dataBase e + x.stDst.toNat) n d
        ∧ ∀ i < n, d.byte (dataBase e + (x.stDst.toNat + i)) = s.dev.byte (dataBase e + (x.stSrc.toNat + i)))))
    ∧ (∀ o, x.str = some o → o.down = false → o.fill = true → x.stLen ≠ 0 → x.st = .running →
      let u := (s.dev.begin.strRun e n).1.trySync e
      let t := ((u.toCyc (u.eng e).ready).settle e).prefetch e
      t.swapDue e = none → t.heldUp e = false → s.dev.rdB (pgLE e) Reg.LE_CTL 0 = true → x.haltReq = none →
      s.dev.place e x.stDst.toNat = none → Does (.stringFault e) s (fun d => (d.eng e).st = .faulted ∧ (d.eng e).str = none
        ∧ (s.dev.rdB (pgLE e) Reg.LE_FAULT 31 = false → d.rdF (pgLE e) Reg.LE_FAULT 3 0 = 5
          ∧ d.rd (pgLE e) Reg.LE_FAULT_ADDR = x.stDst) ∧ s.dev.sameMem d))

/-- Beam waits (R217, R218): a wait whose target has come issues at once, any other waits until its target, which WAIT_END
brings. Head-register writes (R221 to R223): one that the engine may make joins the queue, with HR.SEL's word advanced if its
bit 31 says so; the oldest commits 3 cycles after its trigger at the earliest and sets the word's writable bits, but waits for a
lower-numbered engine's write to the same word that is due.
The model's own readings and choices in it: assumption log 38. Commands it says complete: twaitl, twaitp, waitEnd, twr,
headWindowWrite, hregCommit. -/
def Obligations.WaitsAndHeadWrites : Prop :=
  ∀ (e : Le) (v : Word) (s : State), s.sound →
    let x := s.dev.eng e
    let d0 := s.dev.toCyc x.ready
    let h := field x.bmHead 7 0
    let row := fun (i : Instr) (p : Nat) =>
      (d0.waitDue (d0.waitOf e p v true) = true → Does i s (fun d => d.answer = .none ∧ (d.eng e).wait = x.wait
        ∧ engineOnly e [Reg.LE_STALLS] s.dev d ∧ s.dev.sameMem d))
      ∧ (d0.waitDue (d0.waitOf e p v true) = false → Does i s (fun d => d.answer = .waits
        ∧ (d.eng e).wait = some (d0.waitOf e p v true) ∧ engineOnly e [Reg.LE_STALLS] s.dev d ∧ s.dev.sameMem d))
    (h ≤ 131 → field v 11 0 < s.dev.vtotal h → row (.twaitl e v) 0x73)
    ∧ (h ≤ 131 → field v 11 0 < s.dev.vtotal h → field v 27 16 < s.dev.htotal h → row (.twaitp e v) 0x74)
    ∧ (∀ w c, x.wait = some w → w.row = true → s.dev.waitTarget w = some c → Does (.waitEnd e) s (fun d =>
        (d.eng e).wait = none ∧ d.clock = (s.dev.toFt c).clock ∧ engineOnly e [] s.dev d ∧ s.dev.sameMem d))
    ∧ (x.hreg.length < 4 → s.dev.hregOk e (field x.hrSel 23 16) (4 * field x.hrSel 9 0) = true →
      Does (.twr e v) s (fun d => (∃ c, (d.eng e).hreg = x.hreg ++ [(c, field x.hrSel 23 16, 4 * field x.hrSel 9 0, v)])
        ∧ (bit x.hrSel 31 = false → (d.eng e).hrSel = x.hrSel)
        ∧ (bit x.hrSel 31 = true → (d.eng e).hrSel = putField x.hrSel 9 0 (field x.hrSel 9 0 + 1))
        ∧ engineOnly e [Reg.LE_STALLS] s.dev d ∧ s.dev.sameMem d))
    ∧ (∀ w : BitVec 10, x.hreg.length < 4 → s.dev.hregOk e (field x.hrSel 23 16) (4 * w.toNat) = true →
      Does (.headWindowWrite e w v) s (fun d => (∃ c, (d.eng e).hreg = x.hreg ++ [(c, field x.hrSel 23 16, 4 * w.toNat, v)])
        ∧ (d.eng e).hrSel = x.hrSel ∧ engineOnly e [Reg.LE_STALLS] s.dev d ∧ s.dev.sameMem d))
    ∧ (s.dev.hregYields e = true → Does (.hregCommit e) s (fun d => d.answer = .waits ∧ s.dev.onlyRegs (fun _ _ => False) d))
    ∧ (∀ c h off u rest, x.hreg = (c, h, off, u) :: rest → s.dev.hregYields e = false → 0x800 ≤ off → off ≤ 0xFFC →
      Does (.hregCommit e) s (fun d =>
        (d.eng e).hreg = rest ∧ c + 3 ≤ d.cyc ∧ s.dev.sameMem d
        ∧ d.rd (pgHD h) off = (s.dev.rd (pgHD h) off &&& ~~~(s.dev.wmask (pgHD h) off)) ||| (u &&& s.dev.wmask (pgHD h) off)))

/-- Issue (R181, R184, R190, R245) of the instruction 0100 0kkk kkkk kkkk iiii iiii iiii iiii with k below 32, in locked program
memory, by a running engine with nothing else to do: register k takes the sign-extended i, execution goes on at the next
word, and the instruction is counted. STEP (R267) of a halted engine issues it and halts again. A line that arrives enters
the fetch buffer or the cache (R241, R243).
The model's own readings and choices in it: assumption log 38. Commands it says complete: leMove, stepOne, fetchFill. -/
def Obligations.Instruction : Prop :=
  ∀ (e : Le) (k i : Nat) (s : State), s.sound → k < 32 → i < 65536 →
    let x := s.dev.eng e
    let pc := s.dev.rdN (pgLE e) Reg.LE_PC
    let ready := x.syncAt = none ∧ x.wait = none ∧ x.haltReq = none ∧ x.epend = 0 ∧ x.lbufOn = false ∧ x.stale = []
      ∧ x.btb = [] ∧ x.lpPrev = none ∧ x.lpCount = 0 ∧ x.shared = [] ∧ x.str = none ∧ x.invalReq = false ∧ s.dev.rdB (pgLE e) Reg.LE_CTL 0 = true
      ∧ s.dev.rdB (pgLE e) Reg.LE_CTL 2 = true ∧ s.dev.rdB (pgLE e) Reg.LE_SWAP_CTL 8 = false
      ∧ field (s.dev.rd (pgLE e) Reg.LE_DBG) 7 0 = 0 ∧ 0x10000 ≤ pc ∧ pc < 0x13FFC ∧ pc % 4 = 0
      ∧ s.dev.num (progBase e + (pc - 0x10000)) 4 = 0x40000000 + k * 65536 + i
    let issued := fun (d : Dev) => (d.eng e).g = x.g.set k (word (unsign 32 (signed 16 i))) ∧ d.rdN (pgLE e) Reg.LE_PC = pc + 4
      ∧ d.rd64 (pgLE e) Reg.LE_ISSUED = (s.dev.rd64 (pgLE e) Reg.LE_ISSUED + 1) % 2 ^ 64 ∧ s.dev.sameMem d
    (ready → x.st = .running → x.stepping = false → x.fq = [] → x.fpc = pc → x.missing = none → x.fcyc ≤ s.dev.cyc →
      x.halfAt ≤ s.dev.cyc → Does (.leMove e) s (fun d => issued d ∧ (d.eng e).st = .running
      ∧ engineOnly e [Reg.LE_STALLS, Reg.LE_PC, Reg.LE_ISSUED, Reg.LE_ISSUED + 4] s.dev d))
    ∧ (∀ r, s.reaches r → ready → x.st = .halted → s.dev.frozen (pgLE e) = false → x.halfAt ≤ s.dev.cyc → Does (.stepOne r e) s (fun d => issued d ∧ (d.eng e).st = .halted ∧ (d.eng e).why = 2
      ∧ d.rdB (pgLE e) Reg.IRQ_STAT 1 = true))
    ∧ (∀ line c, x.missing = some (line, c) → Does (.fetchFill e) s (fun d =>
      let bs := s.dev.bytes (storeBase + (line - 0x18000000)) 64
      (d.eng e).missing = none ∧ c + 12 ≤ d.cyc ∧ (s.dev.pmemLocked e = true → (d.eng e).fbuf = some (line, bs))
        ∧ (s.dev.pmemLocked e = false → (d.eng e).cache.head? = some (line, bs))
        ∧ engineOnly e [Reg.LE_FILLS] s.dev d ∧ s.dev.sameMem d))

/-- Events (R260 to R262): a LINE event and a mailbox write set their pending bits; event entry of an engine with no access
outstanding saves LE_PC and the predicates and goes on at LE_EVVEC. Swaps (R270, R271, R274): ARM and CANCEL set the bit,
POOL_SWAP_GO arms every engine of the mask; a swap goes on at LE_SWAP_ENTRY with LE_SWAP_FRAME and the registers kept or 0.
The model's own readings and choices in it: assumption log 38. Commands it says complete: lineEvent, mboxWrite, eventEntry,
arm, cancel, poolSwapGo, swapped. -/
def Claims.EventsAndSwaps : Prop :=
  ∀ (r : Req) (e : Le) (v : Word) (s : State), s.sound → s.reaches r →
    let x := s.dev.eng e
    let p := pgLE e
    let h := s.dev.rdF p Reg.LE_EVLINE 23 16
    let l := s.dev.rdF p Reg.LE_EVLINE 11 0
    (∀ f, h ≤ 131 → l < s.dev.vtotal h → s.dev.runs h = true → (s.dev.head h).cur = some f → x.lineAt ≠ some (h, f) →
      Does (.lineEvent e) s (fun d => (d.eng e).epend % 2 = 1 ∧ (d.eng e).lineAt = some (h, f) ∧ s.dev.sameMem d))
    ∧ Does (.mboxWrite r e v) s (fun d => (d.eng e).mbox = v ∧ d.rd p Reg.LE_MBOX = v ∧ (d.eng e).epend / 2 % 2 = 1
        ∧ engineOnly e [Reg.LE_MBOX, Reg.IRQ_STAT] s.dev d ∧ s.dev.sameMem d)
    ∧ (x.takeable = true → x.syncAt = none → x.haltReq = none → x.stepping = false → s.dev.rdB p Reg.LE_CTL 0 = true →
      s.dev.rdB p Reg.LE_SWAP_CTL 8 = false → x.shared = [] ∧ x.hreg = [] ∧ x.str = none →
      Does (.eventEntry e) s (fun d => (d.eng e).evIn = true ∧ (d.eng e).epc = s.dev.rd p Reg.LE_PC
        ∧ d.rd p Reg.LE_PC = s.dev.rd p Reg.LE_EVVEC ∧ (d.eng e).evPred = x.p1.toNat + x.p2.toNat * 2 + x.p3.toNat * 4
        ∧ (d.eng e).g = x.g ∧ engineOnly e [Reg.LE_STALLS, Reg.LE_PC, Reg.LE_REDIRECTS] s.dev d ∧ s.dev.sameMem d))
    ∧ Does (.arm r e) s (fun d => d.rdB p Reg.LE_SWAP_CTL 8 = true
        ∧ (s.dev.rdB p Reg.LE_SWAP_CTL 8 = false → (d.eng e).armedAt = d.ft) ∧ engineOnly e [Reg.LE_SWAP_CTL] s.dev d
        ∧ s.dev.sameMem d)
    ∧ (s.dev.swapDue e = none → Does (.cancel r e) s (fun d => d.rdB p Reg.LE_SWAP_CTL 8 = false
        ∧ engineOnly e [Reg.LE_SWAP_CTL] s.dev d ∧ s.dev.sameMem d))
    ∧ (∀ f, s.dev.swapDue e = some f → Does (.cancel r e) s (fun d => d.rd p Reg.LE_PC = s.dev.rd p Reg.LE_SWAP_ENTRY
        ∧ d.rdB p Reg.LE_SWAP_CTL 8 = false ∧ d.rd p Reg.LE_SWAP_FRAME = word f ∧ s.dev.sameMem d))
    ∧ Does (.poolSwapGo r v) s (fun d => (∀ k < 32, d.rdB (pgLE k) Reg.LE_SWAP_CTL 8 = (bit v k || s.dev.rdB (pgLE k) Reg.LE_SWAP_CTL 8))
        ∧ s.dev.regsBut (fun q o => (∃ k < 32, bit v k = true ∧ q = pgLE k) ∧ o = Reg.LE_SWAP_CTL) d ∧ s.dev.sameMem d)
    ∧ (∀ f, s.dev.swapDue e = some f → Does (.swapped e) s (fun d => d.rd p Reg.LE_PC = s.dev.rd p Reg.LE_SWAP_ENTRY
        ∧ d.rdB p Reg.LE_SWAP_CTL 8 = false ∧ d.rd p Reg.LE_SWAP_FRAME = word f ∧ d.rdB p Reg.IRQ_STAT 2 = true
        ∧ (s.dev.rdB p Reg.LE_SWAP_CTL 9 = true → (d.eng e).g = x.g)
        ∧ (s.dev.rdB p Reg.LE_SWAP_CTL 9 = false → (d.eng e).g = List.replicate 32 0 ∧ (d.eng e).p1 = false)
        ∧ (d.eng e).wait = none ∧ s.dev.sameMem d))

/-- Control (R240, R246, R255, R265, R266, R268): RUN, STOP, HALT and RESUME change the engine's state; INVAL empties the fetch
structures; RESET clears the ports and counters; the page's port window sets a register of an engine that does not run, and
nothing of one that runs.
The model's own readings and choices in it: assumption log 38. Commands it says complete: run, leStop, inval, leReset, halt,
resume, portWindowWrite. -/
def Claims.EngineControl : Prop :=
  ∀ (r : Req) (e : Le) (s : State), s.sound → s.reaches r →
    let x := s.dev.eng e
    let p := pgLE e
    (x.st = .stopped → s.dev.rdB p Reg.BLK_CTL 0 = true → s.dev.rdF p Reg.LE_CTL 4 3 = 0 → s.dev.rdB p Reg.LE_CTL 0 = false →
      s.dev.frozen p = false → Does (.run r e) s (fun d => (d.eng e).st = .running ∧ d.rdB p Reg.LE_CTL 0 = true
        ∧ d.rd p Reg.LE_PC = s.dev.rd p Reg.LE_PC ∧ engineOnly e [Reg.LE_CTL, Reg.LE_PC, Reg.LE_REDIRECTS] s.dev d ∧ s.dev.sameMem d))
    ∧ (s.dev.rdF p Reg.LE_CTL 4 3 = 0 → boundary s.dev e → Does (.leStop r e) s (fun d => (d.eng e).st = .stopped
        ∧ d.rdB p Reg.LE_CTL 0 = false ∧ (d.eng e).g = x.g ∧ d.rd p Reg.LE_PC = s.dev.rd p Reg.LE_PC ∧ s.dev.sameMem d))
    ∧ (s.dev.rdF p Reg.LE_CTL 4 3 = 0 → boundary s.dev e → Does (.inval r e) s (fun d => (d.eng e).cache = [] ∧ (d.eng e).fbuf = none
        ∧ (d.eng e).btb = [] ∧ (d.eng e).lbuf = [] ∧ (d.eng e).g = x.g ∧ s.dev.sameMem d))
    ∧ (s.dev.frozen p = false → Does (.leReset r e) s (fun d => (d.eng e).g = List.replicate 32 0 ∧ (d.eng e).p1 = false ∧ (d.eng e).macc = 0
        ∧ (d.eng e).lpCount = 0 ∧ (d.eng e).evIn = false ∧ d.rd p Reg.LE_PC = s.dev.rd p Reg.LE_ENTRY
        ∧ d.rd64 p Reg.LE_ISSUED = 0 ∧ (d.eng e).st = (if d.rdB p Reg.LE_CTL 0 = true then .running else .stopped)
        ∧ s.dev.sameMem d))
    ∧ (x.st = .running → s.dev.rdB p Reg.LE_CTL 0 = true → boundary s.dev e → Does (.halt r e) s (fun d => (d.eng e).st = .halted
        ∧ (d.eng e).why = 0 ∧ d.rdB p Reg.IRQ_STAT 1 = true ∧ (d.eng e).g = x.g ∧ d.rd p Reg.LE_PC = s.dev.rd p Reg.LE_PC
        ∧ s.dev.sameMem d))
    ∧ (x.st = .halted ∨ x.st = .faulted → s.dev.rdB p Reg.LE_DBG 0 = false → s.dev.frozen p = false → Does (.resume r e) s (fun d =>
        (d.eng e).st = .running ∧ (d.eng e).g = x.g ∧ d.rd p Reg.LE_PC = s.dev.rd p Reg.LE_PC
        ∧ engineOnly e [Reg.LE_DBG, Reg.LE_PC, Reg.LE_REDIRECTS] s.dev d ∧ s.dev.sameMem d))
    ∧ (∀ (k : BitVec 8) v, k.toNat < 32 →
      (x.st ≠ .running → Does (.portWindowWrite r e k v) s (fun d => (d.eng e).g = x.g.set k.toNat v ∧ (d.eng e).st = x.st
        ∧ engineOnly e [] s.dev d ∧ s.dev.sameMem d))
      ∧ (x.st = .running → Does (.portWindowWrite r e k v) s (fun d => s.dev.onlyRegs (fun _ _ => False) d)))

/-! ### Encoder and dictionary -/

/-- Coding (R283) of the oldest pending frame, whole and not coded: it holds a coded form, and its block-coded pixels join
ENC_BACKLOG. Its commit (R281, R311, R312) takes it off the pending frames and counts it; a skip (R317) of the victim while
ENC_BACKLOG is above its level does so too, and below it nothing changes.
The model's own readings and choices in it: assumption log 26. Commands it says complete: codeFrame, frameCommit,
skipWhileCoding. -/
def Claims.Encoding : Prop :=
  ∀ (h : VHead) (s : State), s.sound →
    (∀ e, s.dev.nextToCode h = some e → s.dev.ram.poison = [] → Does (.codeFrame h) s (fun t => ∃ e' rest n,
      (t.head h).frames = e' :: rest ∧ e'.num = e.num ∧ e'.lines = e.lines ∧ e'.coded.isSome = true ∧ e'.backlog = 256 * n
        ∧ t.rd pgENC Reg.ENC_BACKLOG = word (s.dev.rdN pgENC Reg.ENC_BACKLOG + 256 * n)))
    ∧ (∀ e rest, (s.dev.head h).frames = e :: rest → e.coded.isSome = true → Does (.frameCommit h) s (fun t =>
      (t.head h).frames = rest.filter (fun x => x.num != e.num) ∧ (t.head h).granted = false ∧ (t.head h).glyphDirty = 0
        ∧ t.rd64 (pgHD h) Reg.ENC_SENT = (s.dev.rd64 (pgHD h) Reg.ENC_SENT + 1) % 2 ^ 64))
    ∧ (∀ v e rest, s.dev.rdN pgENC Reg.ENC_ABORT_LVL < s.dev.rdN pgENC Reg.ENC_BACKLOG → s.dev.skipVictim = some v →
      (s.dev.head v).frames = e :: rest → Does .skipWhileCoding s (fun t =>
        (t.head v).frames = rest.filter (fun x => x.num != e.num)
        ∧ t.rd64 (pgHD v) Reg.ENC_SKIPPED = (s.dev.rd64 (pgHD v) Reg.ENC_SKIPPED + 1) % 2 ^ 64
        ∧ t.rdB (pgHD v) Reg.IRQ_STAT 8 = true))
    ∧ (s.dev.rdN pgENC Reg.ENC_BACKLOG ≤ s.dev.rdN pgENC Reg.ENC_ABORT_LVL → Does .skipWhileCoding s (fun t =>
        s.dev.onlyRegs (fun _ _ => False) t))

/-- The rebuild of the dictionary (R297, R298): IDLE, CLEAR, COMPACT, READY; clearing empties the inactive bank and no other
byte; compacting writes only that bank; the swap changes the active bank and the epoch, and waits while a supply warning is
in force.
Commands it says complete: rebuild, rebuildPeriod, bankClear, compact, dictSwap. -/
def Claims.Dictionary : Prop :=
  ∀ (s : State), s.sound →
    let b := 1 - s.dev.dictBank
    (∀ r, s.reaches r → s.dev.rebState = 0 → Does (.rebuild r) s (fun t => t.rebState = 1
      ∧ s.dev.onlyRegs (fun p o => p = pgDICT ∧ o = Reg.DICT_STAT) t))
    ∧ (s.dev.rdN pgDICT Reg.DICT_PERIOD ≠ 0 → s.dev.rdB pgDICT Reg.DICT_CTL 1 = true → s.dev.rebState = 0 →
      Does .rebuildPeriod s (fun t => t.rebState = 1
        ∧ s.dev.enc.swapAt + s.dev.rdN pgDICT Reg.DICT_PERIOD * 1200000 ≤ t.clock.base
        ∧ s.dev.regsBut (fun p o => p = pgDICT ∧ o = Reg.DICT_STAT) t ∧ s.dev.sameMem t))
    ∧ (s.dev.rebState = 1 → s.dev.heads.any (fun e => e.2.frames.any (fun f => f.bank == b)) = false →
      Does .bankClear s (fun t => t.rebState = 2 ∧ s.dev.sameMemBut (dictBase + b * 0x400000) 0x400000 t
        ∧ (∀ a, dictBase + b * 0x400000 ≤ a → a < dictBase + (b + 1) * 0x400000 → t.byte a = 0)
        ∧ s.dev.regsBut (fun p o => p = pgDICT ∧ o = Reg.DICT_STAT) t))
    ∧ (s.dev.rebState = 2 → Does .compact s (fun t => t.rebState = 3
        ∧ s.dev.sameMemBut (dictBase + b * 0x400000) 0x400000 t
        ∧ s.dev.regsBut (fun p o => p = pgDICT ∧ o = Reg.DICT_STAT) t))
    ∧ (s.dev.rebState = 3 → s.dev.rdB pgPWR Reg.PWR_STAT 0 = false → Does .dictSwap s (fun t => t.dictBank = b
        ∧ t.dictEpoch = (s.dev.dictEpoch + 1) % 2 ^ 32 ∧ t.rdB pgDICT Reg.IRQ_STAT 0 = true))
    ∧ (s.dev.rebState = 3 → s.dev.rdB pgPWR Reg.PWR_STAT 0 = true → Does .dictSwap s (fun t => t.dictBank = s.dev.dictBank
        ∧ t.rebState = 3 ∧ bit t.dictStat 3 = true ∧ t.answer = .waits ∧ s.dev.onlyRegs (fun _ _ => False) t))

/-! ### Sessions -/

/-- SESS_CMD (R329, R330, R333): each command ends with its RESULT in SESS_CMD_STAT and CMD_DONE raised. OPEN of a console of this
chip makes a mirror slot that needs a key; CLOSE removes it; GRANT and REVOKE move control; KEYFRAME asks for a key; KEY_LOAD
loads or stages the key; a session in the wrong state answers RESULT 1 and nothing else changes.
The model's own readings and choices in it: assumption log 27. Commands it says complete: openSess, closeSess, grant, revoke,
keyframe, inject, keyLoad. -/
def Claims.SessionCommands : Prop :=
  ∀ (n : Sess) (s : State), s.sound →
    let done := fun (r : Nat) (t : Dev) => t.rdF pgSESS Reg.SESS_CMD_STAT 7 4 = r ∧ t.rdB pgSESS Reg.IRQ_STAT 0 = true
    let only := fun (t : Dev) => s.dev.onlyRegs (fun p o => p = pgSESS ∧ (o = Reg.SESS_CMD_STAT ∨ o = Reg.IRQ_STAT)) t
    let key := s.dev.enc.keyStage.flatMap (fun w => leBytes 4 w.toNat)
    (∀ h, s.dev.sessState n = 0 → s.dev.headOf (s.dev.sessName n) = some h → s.dev.descOk n = true →
      Does (.openSess n) s (fun t => done 0 t ∧ (t.mirror n).any (fun m => m.head == h && m.needKey && m.chip.isNone) = true
        ∧ t.rdN pgSESS Reg.SESS_OPEN = (s.dev.rdN pgSESS Reg.SESS_OPEN + 1) % 2 ^ 32))
    ∧ (s.dev.sessState n ≠ 0 → Does (.openSess n) s (fun t => done 1 t ∧ only t))
    ∧ (s.dev.sessState n = 0 → s.dev.headOf (s.dev.sessName n) = none → s.dev.addrValid = false →
      Does (.openSess n) s (fun t => done 2 t ∧ only t))
    ∧ (s.dev.sessState n ≠ 0 → Does (.closeSess n) s (fun t => done 0 t ∧ t.mirror n = none ∧ (t.sess n).remoteSlot = none))
    ∧ (s.dev.sessState n = 0 → Does (.closeSess n) s (fun t => done 1 t ∧ only t))
    ∧ (∀ h, s.dev.sessState n = 1 → s.dev.headOf (s.dev.sessName n) = some h → Does (.grant n) s (fun t => done 0 t
      ∧ t.controller (s.dev.sessName n) = some n.val))
    ∧ (s.dev.sessState n = 1 → Does (.revoke n) s (fun t => done 0 t ∧ t.controller (s.dev.sessName n) ≠ some n.val))
    ∧ (∀ m, s.dev.sessState n = 1 → s.dev.mirror n = some m → Does (.keyframe n) s (fun t => done 0 t
      ∧ t.mirror n = some { m with needKey := true, needAt := s.dev.ft }))
    ∧ (s.dev.sessState n ≠ 1 → Does (.grant n) s (fun t => done 1 t ∧ only t) ∧ Does (.revoke n) s (fun t => done 1 t ∧ only t)
      ∧ Does (.keyframe n) s (fun t => done 1 t ∧ only t) ∧ Does (.inject n) s (fun t => done 1 t ∧ only t))
    ∧ (s.dev.sessState n = 0 → Does (.keyLoad n .tx) s (fun t => done 0 t ∧ (t.sess n).txKey = key)
      ∧ Does (.keyLoad n .rx) s (fun t => done 0 t ∧ (t.sess n).rxKey = key))
    ∧ (s.dev.sessState n = 1 → Does (.keyLoad n .tx) s (fun t => done 0 t ∧ (t.sess n).txStaged = some key
        ∧ (t.sess n).txKey = (s.dev.sess n).txKey)
      ∧ Does (.keyLoad n .rx) s (fun t => done 0 t ∧ (t.sess n).rxStaged = some key))

/-- Session traffic (R327, R328, R329, R334). INJECT puts one TLS record of the injected bytes at TX_PROD, or raises TX_FULL where it
does not fit; a received record advances RXC_CONS, and one that fails to open ends the session; ACK advances the slot's
epoch, KEY_REQ asks for a key; a doorbell reads software's indexes; a viewer's event is submitted for the session in control.
The model's own readings and choices in it: assumption log 5, 25. Commands it says complete: inject, tlsRecordRx, ack,
keyReq, sessDoorbell, iduSubmit. -/
def Claims.SessionTraffic : Prop :=
  ∀ (n : Sess) (s : State), s.sound →
    let d := s.dev
    let len := max 1 (min 16384 (d.sd n dINJLEN 2))
    let size := 2 ^ ringLog (d.sd n dTXLOG2 1)
    let at_ := d.sd n dTXBASE 8 + d.sd n dTXPROD 4 % size
    (d.sessState n = 1 → (d.sess n).injects = [] → d.txFree n < len + 22 → Does (.inject n) s (fun t =>
        t.rdB pgSESS Reg.IRQ_STAT 3 = true ∧ t.rdF pgSESS Reg.SESS_CMD_STAT 7 4 = 0 ∧ d.sameMem t
        ∧ ∃ w, (t.sess n).injects = (d.sess n).injects ++ [w] ∧ w.1 = d.sd n dINJTYPE 1 ∧ w.2.1 = d.bytes (d.sd n dINJADDR 8) len))
    ∧ (d.sessState n = 1 → (d.sess n).injects = [] → len + 22 ≤ d.txFree n → d.sd n dTXPROD 4 % size + len + 22 ≤ size → d.inDram at_ (len + 22) = true →
      (d.sessAddr n + 128 ≤ at_ ∨ at_ + len + 22 ≤ d.sessAddr n) → Does (.inject n) s (fun t =>
        t.bytes at_ (len + 22) = tlsRecord (d.sd n dSUITE 1) (d.sess n).txKey (d.sd n dTXSEQ 8)
          (d.bytes (d.sd n dINJADDR 8) len) (d.sd n dINJTYPE 1)
        ∧ t.rdF pgSESS Reg.SESS_CMD_STAT 7 4 = 0 ∧ t.rdB pgSESS Reg.IRQ_STAT 0 = true))
    ∧ (let cons := d.sd n dRXCCONS 4
       let ring := 2 ^ ringLog (d.sd n dRXCLOG2 1)
       let hd := d.ringLoad (d.sd n dRXCBASE 8) ring cons 5
       let rl := 5 + (hd.getD 3 0).toNat * 256 + (hd.getD 4 0).toNat
       let opened := tlsOpen (d.sd n dSUITE 1) (d.sess n).rxKey (d.sd n dRXSEQ 8)
         (d.ringLoad (d.sd n dRXCBASE 8) ring cons rl)
       d.sessState n = 1 → (d.sess n).rxBuf = [] → (d.sess n).rxStaged = none →
       rl ≤ ((d.sess n).rxcProd + 2 ^ 32 - cons) % 2 ^ 32 → d.inDram (d.sessAddr n) 128 = true →
       (opened = none → Does (.tlsRecordRx n) s (fun t => t.rdB pgSESS Reg.IRQ_STAT 4 = true
          ∧ ∀ m ∈ t.mirror n, m.head = 255))
       ∧ (∀ inner plain, opened = some inner → innerPlain inner = (0x17, plain) → plain.length < 8 →
          Does (.tlsRecordRx n) s (fun t => (t.sess n).rxBuf = plain ∧ t.sd n dRXCCONS 4 = (cons + rl) % 2 ^ 32
            ∧ t.sd n dRXSEQ 8 = (d.sd n dRXSEQ 8 + 1) % 2 ^ 64)))
    ∧ (∀ m f ep, d.sessState n = 1 → (d.sess n).remoteSlot = none → d.mirror n = some m → Does (.ack n f ep) s (fun t =>
        t.mirror n = some { m with ack := max m.ack ep.toNat }))
    ∧ (∀ m, d.sessState n = 1 → d.mirror n = some m → Does (.keyReq n) s (fun t => t.mirror n = some { m with needKey := true, needAt := s.dev.ft }))
    ∧ Does (.sessDoorbell n) s (fun t => (t.sess n).txCons = d.sd n dTXCONS 4 ∧ (t.sess n).rxcProd = d.sd n dRXCPROD 4
        ∧ (t.sess n).rxpCons = d.sd n dRXPCONS 4 ∧ d.regsBut (fun _ _ => False) t
        ∧ ((d.sess n).injects = [] → d.sameMem t))
    ∧ (∀ p2 h, d.rdF pgSESS Reg.IDU_SESSION 9 0 = n.val → d.sessState n = 1 → d.headOf (d.sessName n) = some h →
        d.controller (d.sessName n) = some n.val → d.counterHere (d.sessName n) = true → Does (.iduSubmit p2) s (fun t =>
          t.rd pgSESS Reg.IDU_STAT = 1 ∧ t.rd64 pgSESS Reg.IDU_SEQ = (d.lastSeq (d.sessName n) + 1) % 2 ^ 64
          ∧ t.rd64 pgSESS Reg.IN_SUBMITTED = (d.rd64 pgSESS Reg.IN_SUBMITTED + 1) % 2 ^ 64 ∧ d.sameMem t))
    ∧ (∀ p2, d.rdF pgSESS Reg.IDU_SESSION 9 0 = n.val → d.sessState n ≠ 1 → Does (.iduSubmit p2) s (fun t =>
          t.rd pgSESS Reg.IDU_STAT = 2 ∧ t.rd64 pgSESS Reg.IN_NOCTL = (d.rd64 pgSESS Reg.IN_NOCTL + 1) % 2 ^ 64 ∧ d.sameMem t))

/-! ### Ethernet -/

/-- ETH_TX_POST sets TXQ_PROD. TX_DONE (R338, R339) of one posted descriptor with no offload sends its bytes, counts the frame,
advances TXQ_CONS and marks the descriptor; other memory stays.
The model's own readings and choices in it: assumption log 30. Commands it says complete: ethTxPost, txDone. -/
def Claims.EthernetTransmit : Prop :=
  ∀ (p : Port) (s : State), s.sound →
    let d := s.dev
    let pg := portPage p
    let cons := d.rdN pg Reg.TXQ_CONS
    let a := d.txDesc p cons
    let len := d.num (a + 8) 4 % 2 ^ 24
    (∀ prod, Does (.ethTxPost p prod) s (fun t => t.rd pg Reg.TXQ_PROD = prod
      ∧ d.onlyRegs (fun q o => q = pg ∧ o = Reg.TXQ_PROD) t))
    ∧ (d.portOn p = true → d.rd pg Reg.TXQ_PROD ≠ d.rd pg Reg.TXQ_CONS → d.txFlags p cons = 2 → d.ram.poison = [] →
      len ≤ d.portLimit p → s.dev.frozen (portPage p) = false → Does (.txDone p) s (fun t => .frame p (d.bytes (d.num a 8) len) ∈ t.outs
        ∧ t.rd64 pg Reg.TX_FRAMES = (d.rd64 pg Reg.TX_FRAMES + 1) % 2 ^ 64 ∧ t.rd pg Reg.TXQ_CONS = d.rd pg Reg.TXQ_CONS + 1
        ∧ t.rdB pg Reg.IRQ_STAT 0 = true ∧ t.byte (a + 12) = 3 ∧ d.sameMemBut (a + 12) 1 t))

/-- ETH_RX (R338, R339): a frame that fits a posted buffer lands there and is counted; one without a buffer is dropped and
counted. A link change shows in ETH_STAT (R337), and only a gigabit PHY brings the management port up (R540).
The model's own readings and choices in it: assumption log 30. Commands it says complete: ethRx, linkChange, sgmiiAn. -/
def Claims.EthernetReceiveAndLinks : Prop :=
  ∀ (p : Port) (f : List Byte) (s : State), s.sound →
    let d := s.dev
    let pg := portPage p
    let a := d.portBase p Reg.RXQ_BASE_LO + d.rdN pg Reg.RXQ_CONS % d.portRing p Reg.RXQ_SIZE * 16
    let buf := d.num a 8
    (d.portOn p = true → d.rdB pg Reg.ETH_CTL 2 = false →
      (f.length ≤ d.portLimit p → d.rd pg Reg.RXQ_PROD ≠ d.rd pg Reg.RXQ_CONS →
        (buf + f.length ≤ a + 8 ∨ a + 14 ≤ buf) → Does (.ethRx p f) s (fun t => t.bytes buf f.length = f
          ∧ t.num (a + 8) 2 = f.length % 65536
          ∧ t.rd64 pg Reg.RX_FRAMES = (d.rd64 pg Reg.RX_FRAMES + 1) % 2 ^ 64
          ∧ t.rd pg Reg.RXQ_CONS = d.rd pg Reg.RXQ_CONS + 1 ∧ t.rdB pg Reg.IRQ_STAT 1 = true))
      ∧ (d.rd pg Reg.RXQ_PROD = d.rd pg Reg.RXQ_CONS → Does (.ethRx p f) s (fun t =>
          t.rd64 pg Reg.RX_DROPS = (d.rd64 pg Reg.RX_DROPS + 1) % 2 ^ 64 ∧ t.rdB pg Reg.IRQ_STAT 3 = true
          ∧ d.onlyRegs (fun q o => q = pg ∧ (o = Reg.IRQ_STAT ∨ o = Reg.RX_DROPS ∨ o = Reg.RX_DROPS + 4)) t)))
    ∧ (∀ on fec, Does (.linkChange p on fec) s (fun t => t.rdB pg Reg.ETH_STAT 0 = (on && !d.portsOff)
        ∧ t.rdB pg Reg.IRQ_STAT 2 = true
        ∧ d.onlyRegs (fun q o => q = pg ∧ (o = Reg.IRQ_STAT ∨ o = Reg.ETH_STAT)) t))
    ∧ (∀ (on : Bool) (speed : Fin 3) (dup : Bool), d.portsOff = false → Does (.sgmiiAn on speed dup) s (fun t =>
        t.rdN pgMGMT Reg.SGMII_STAT = 1 + 2 * on.toNat + 4 * speed.val + 16 * dup.toNat
        ∧ t.rdB pgMGMT Reg.ETH_STAT 0 = (on && speed.val == 2)
        ∧ d.onlyRegs (fun q o => q = pgMGMT ∧ (o = Reg.IRQ_STAT ∨ o = Reg.ETH_STAT ∨ o = Reg.SGMII_STAT)) t))

/-! ### Sound -/

/-- The audio rings (R97, R353 to R355) of a function that has negotiated them: enabling zeros the indexes, and playback fixes a
first tick at a multiple of 48; a playback block read advances the block and PL_CONS and writes PL_CONS back to the host,
and with the head detached advances the block alone; a capture block that fits goes to the host and advances CP_PROD.
The model's own readings and choices in it: assumption log 28. Commands it says complete: plEnable, cpEnable, playBlockRead,
captureBlock. -/
def Obligations.AudioRings : Prop :=
  ∀ (n : Lane) (s : State), s.sound →
    let d := s.dev
    let p := pgFn n 2
    let x := d.lane n
    (d.fnHas n 2 5 = true → d.rdB p Reg.PL_CTL 0 = false → Does (.plEnable n) s (fun t => t.rdB p Reg.PL_CTL 0 = true
      ∧ t.rd p Reg.PL_PROD = 0 ∧ t.rd p Reg.PL_CONS = 0 ∧ (t.lane n).block = 0 ∧ ∃ t0, (t.lane n).t0 = some t0 ∧ t0 % 48 = 0))
    ∧ (d.fnHas n 2 5 = true → d.rdB p Reg.CP_CTL 0 = false → Does (.cpEnable n) s (fun t => t.rdB p Reg.CP_CTL 0 = true
      ∧ t.rd p Reg.CP_PROD = 0 ∧ t.rd p Reg.CP_CONS = 0 ∧ (t.lane n).cap = [] ∧ ∃ j, (t.lane n).capNext = some j ∧ j % 48 = 0))
    ∧ (∀ t0 host, x.t0 = some t0 → d.rdB (pgHD n) Reg.HD_MODE 3 = false → Does (.playBlockRead n host) s (fun t =>
        let bytes := 48 * (if d.rdB p Reg.PL_CTL 1 = true then 8 else 4)
        let fin := bytes * (x.block + 1) % 2 ^ 32
        let at_ := bytes * x.block % 2 ^ 32 % d.ringSize n Reg.RG_SIZE
        .hostRead n (d.rd64 p Reg.RG_BASE_LO + at_) (min bytes (d.ringSize n Reg.RG_SIZE - at_)) ∈ t.outs
          ∧ (∃ fs, (t.lane n).play = x.play ++ fs) ∧ (t.lane n).block = x.block + 1 ∧ t.rdN p Reg.PL_CONS = fin
          ∧ .hostWrite n (d.rd64 p Reg.RG_WB_LO) (leBytes 8 fin) ∈ t.outs ∧ d.sameMem t))
    ∧ (∀ t0 host, x.t0 = some t0 → d.rdB (pgHD n) Reg.HD_MODE 3 = true → Does (.playBlockRead n host) s (fun t =>
        (t.lane n).block = x.block + 1 ∧ d.regsBut (fun _ _ => False) t ∧ d.sameMem t ∧ t.outs = []))
    ∧ (let len := if d.rdB p Reg.CP_CTL 1 = true then 384 else 192
       48 ≤ x.cap.length → d.rdB (pgHD n) Reg.HD_MODE 3 = false →
       (d.rdN p Reg.CP_PROD + 2 ^ 32 - d.rdN p Reg.CP_CONS) % 2 ^ 32 + len ≤ d.ringSize n (Reg.RG_SIZE + 0x20) →
       Does (.captureBlock n) s (fun t => (t.lane n).cap = x.cap.drop 48
        ∧ t.rd p Reg.CP_PROD = word (d.rdN p Reg.CP_PROD + len) ∧ d.sameMem t))

/-- AUDIO_TICK (R341): the tick advances, every output has its next frame, no page but AUD changes and no memory but audio memory;
before fabric time has started there are no ticks. TONE_MS (R345): an enabled channel's LEN counts down, and EN ends with it.
SOUND is sent once.
The model's own readings and choices in it: assumption log 28. Commands it says complete: audioTick, toneMs, sound. -/
def Obligations.AudioTicks : Prop :=
  ∀ (s : State), s.sound →
    let d := s.dev
    (∀ pins : AudioPins, pins.i2s.length = 8 →
      (d.clock.started = true → Does (.audioTick pins) s (fun t => t.snd.tick = d.snd.tick + 1 ∧ t.snd.outs.length = 256
        ∧ d.regsBut (fun p _ => p = pgAUD) t ∧ d.sameMemBut audioBase 0x100000 t))
      ∧ (d.clock.started = false → Does (.audioTick pins) s (fun t => d.onlyRegs (fun _ _ => False) t)))
    ∧ (d.clock.started = true → d.snd.tick % 48 = 0 → d.snd.msDone ≠ some d.snd.tick → Does .toneMs s (fun t =>
        t.snd.msDone = some d.snd.tick ∧ d.sameMem t
        ∧ ∀ (h : VHead) (c : Fin 4), d.rdB (pgHD h) (toneOff c) 0 = true → (d.tone h c).wrote = none →
          (d.rdF (pgHD h) (toneOff c + 8) 15 0 = 1 → t.rdB (pgHD h) (toneOff c) 0 = false)
          ∧ (1 < d.rdF (pgHD h) (toneOff c + 8) 15 0 → t.rdB (pgHD h) (toneOff c) 0 = true
            ∧ t.rdF (pgHD h) (toneOff c + 8) 15 0 = d.rdF (pgHD h) (toneOff c + 8) 15 0 - 1)))
    ∧ (∀ j, d.snd.sndTick = some j → Does .sound s (fun t => t.snd.sndTick = none))

/-- Tone registers of a head whose display function has TONE (R342, R344) take the value, and EN from 0 to 1 restarts the channel;
without TONE nothing changes. Fabric audio (R359, R408): a finished block is sent or discarded; a block for an input that is
not configured for it is rejected, one that is late counts as late, any other is kept.
The model's own readings and choices in it: assumption log 28. Commands it says complete: toneEnable, tonePeriodWrite,
fabAudioSend, fabAudioBlock. -/
def Claims.TonesAndFabricAudio : Prop :=
  ∀ (s : State), s.sound →
    let d := s.dev
    (∀ (h : VHead) (c : Fin 4) (v : Word),
      (d.toneOn h = true → Does (.toneEnable h c v) s (fun t => t.rdB (pgHD h) (toneOff c) 0 = bit v 0
          ∧ (d.rdB (pgHD h) (toneOff c) 0 = false → bit v 0 = true → (t.tone h c).start = true)
          ∧ d.regsBut (fun p o => p = pgHD h ∧ o = toneOff c) t ∧ d.sameMem t)
        ∧ Does (.tonePeriodWrite h c v) s (fun t => t.rdF (pgHD h) (toneOff c + 4) 15 0 = field v 15 0
          ∧ d.regsBut (fun p o => p = pgHD h ∧ o = toneOff c + 4) t ∧ d.sameMem t))
      ∧ (d.toneOn h = false → Does (.toneEnable h c v) s (fun t => d.onlyRegs (fun _ _ => False) t)
        ∧ Does (.tonePeriodWrite h c v) s (fun t => d.onlyRegs (fun _ _ => False) t)))
    ∧ (∀ (k : Fin 64) b, spGet (fun _ => none) d.snd.fabDone k = some b → Does (.fabAudioSend k) s (fun t =>
        spGet (fun _ => none) t.snd.fabDone k = none
        ∧ (d.streamCredit (d.rdF pgFAB (Reg.FA_OUT + 4 * k) 11 0) = false → d.regsBut (fun _ _ => False) t
          ∧ d.sameMemBut (audioBase + 0xF0000 + (256 + 173 + k) * 32) 32 t)))
    ∧ (∀ (src : BitVec 12) (k i : BitVec 8) (tick : DWord) (frames : List Frame24), frames.length = 48 →
        let w := d.rd pgFAB (Reg.FA_IN + 4 * i.toNat)
        let mine := i.toNat < 22 ∧ bit w 31 = true ∧ field w 11 0 = src.toNat ∧ field w 21 16 = k.toNat
        let late := tick.toNat + d.rdF pgAUD Reg.AUD_FAB_DELAY 11 0 < d.snd.tick
        (¬mine → Does (.fabAudioBlock src k i tick frames) s (fun t => t.rd pgFAB Reg.FA_REJECTS = d.rd pgFAB Reg.FA_REJECTS + 1
          ∧ d.onlyRegs (fun p o => p = pgFAB ∧ o = Reg.FA_REJECTS) t))
        ∧ (mine → late → Does (.fabAudioBlock src k i tick frames) s (fun t =>
          t.rd pgAUD Reg.AUD_FAB_LATE = d.rd pgAUD Reg.AUD_FAB_LATE + 1
          ∧ d.onlyRegs (fun p o => p = pgAUD ∧ o = Reg.AUD_FAB_LATE) t))
        ∧ (mine → ¬late → Does (.fabAudioBlock src k i tick frames) s (fun t =>
          spGet (fun _ => []) t.snd.fabIn i.toNat = spGet (fun _ => []) d.snd.fabIn i.toNat
            ++ frames.zipIdx.map (fun e => (tick.toNat + e.2, e.1))
          ∧ d.regsBut (fun _ _ => False) t ∧ d.sameMem t)))

/-- Converters and I2S clocks (R362, R374), and the headset jack (R366 to R368): two samples that agree set PRESENT, two readings
of one class set TYPE, two of one button set BTN, each with its interrupt; a lone sample changes none of them.
The model's own readings and choices in it: assumption log 28. Commands it says complete: srcLock, srcUnlock, clkLoss, clkOk,
jackDetectSample, jackClassify, buttonSample. -/
def Claims.ConvertersAndJack : Prop :=
  ∀ (s : State), s.sound →
    let d := s.dev
    (∀ k : Fin 68, (d.srcUsed k = true → Does (.srcLock k) s (fun t => t.srcLocked k = true ∧ d.sameMem t))
      ∧ (d.srcLocked k = true → Does (.srcUnlock k) s (fun t => t.srcLocked k = false ∧ t.rdB pgAUD Reg.IRQ_STAT 0 = true
        ∧ d.sameMem t)))
    ∧ (∀ k : Fin 2, (d.rdB pgI2S (Reg.I2S_STAT + 8 * k) 0 = true → Does (.clkLoss k) s (fun t =>
        t.rdB pgI2S (Reg.I2S_STAT + 8 * k) 0 = false ∧ t.rdB pgI2S Reg.IRQ_STAT k = true
        ∧ t.srcLocked (64 + 2 * k) = false ∧ t.srcLocked (65 + 2 * k) = false ∧ d.sameMem t))
      ∧ ∀ hz : BitVec 24, Does (.clkOk k hz) s (fun t => t.rdB pgI2S (Reg.I2S_STAT + 8 * k) 0 = true
        ∧ t.rdF pgI2S (Reg.I2S_STAT + 8 * k) 31 8 = hz.toNat ∧ d.onlyRegs (fun p o => p = pgI2S ∧ o = Reg.I2S_STAT + 8 * k) t))
    ∧ (d.rdB pgJACK Reg.JACK_CTL 0 = true → ∀ low : Bool,
        (d.snd.detLast ≠ some low → s.dev.frozen pgJACK = false → Does (.jackDetectSample low) s (fun t => t.snd.detLast = some low
          ∧ d.regsBut (fun _ _ => False) t ∧ d.sameMem t))
        ∧ (d.snd.detLast = some low → d.jackPresent ≠ (if low = true then 2 else 1) → s.dev.frozen pgJACK = false → Does (.jackDetectSample low) s (fun t =>
          t.jackPresent = (if low = true then 2 else 1) ∧ t.rdB pgJACK Reg.IRQ_STAT (if low = true then 0 else 1) = true
          ∧ d.regsBut (fun p o => p = pgJACK ∧ (o = Reg.JACK_STAT ∨ o = Reg.IRQ_STAT)) t ∧ d.sameMem t)))
    ∧ (∀ mic tip : BitVec 16, d.jackPresent = 2 → d.jackType = 0 → s.dev.frozen pgJACK = false → Does (.jackClassify mic tip) s (fun t =>
        t.rdF pgJACK Reg.JACK_STAT 31 16 = mic.toNat ∧ t.rdN pgJACK Reg.JACK_TIP = tip.toNat
        ∧ t.jackType = (if jackClass mic.toNat tip.toNat = d.snd.clsLast then jackClass mic.toNat tip.toNat else 0)
        ∧ d.regsBut (fun p o => p = pgJACK ∧ (o = Reg.JACK_STAT ∨ o = Reg.JACK_TIP ∨ o = Reg.IRQ_STAT)) t ∧ d.sameMem t))
    ∧ (∀ mic : BitVec 16, d.jackType = 2 → d.rdB pgJACK Reg.JACK_CTL 2 = true → d.rdB pgJACK Reg.JACK_CTL 1 = true →
        s.dev.frozen pgJACK = false → Does (.buttonSample mic) s (fun t => t.rdF pgJACK Reg.JACK_STAT 31 16 = mic.toNat
        ∧ t.rdF pgJACK Reg.JACK_STAT 11 8 = (if d.snd.btnLast = some (jackButton mic.toNat) then jackButton mic.toNat
          else d.rdF pgJACK Reg.JACK_STAT 11 8)
        ∧ d.regsBut (fun p o => p = pgJACK ∧ (o = Reg.JACK_STAT ∨ o = Reg.IRQ_STAT)) t ∧ d.sameMem t))

/-! ### Fabric -/

/-- The states of a link (R376, R384 to R387): a signal starts training; training ends in HELLO, or in DOWN after 100 ms; another
fabric's identity, a failed or missing proof, or 200 ms without one is QUARANTINE, left for TRAIN after 10 s; both checks
passed is UP; a choice within the offer is the negotiated set, any other QUARANTINE; a lost or retrained link is DOWN and counted.
The model's own readings and choices in it: assumption log 56. Commands it says complete: signalDetect, trainDone,
trainTimeout, hello, attest, attestTimeout, quarantineExpiry, linkLoss, retrain. -/
def Obligations.LinkStates : Prop :=
  ∀ (l : Al) (s : State), s.sound →
    let d := s.dev
    let x := d.link l
    let p := pgAL l
    let enters := fun (st : LinkState) (t : Dev) => (t.link l).st = st ∧ t.rdF p Reg.AL_STAT 2 0 = st.code
    (x.st = .down → d.rdB p Reg.AL_CTL 0 = true → d.portsOff = false → Does (.signalDetect l) s (fun t => enters .train t
      ∧ d.regsBut (fun q o => q = p ∧ o = Reg.AL_STAT) t ∧ d.sameMem t))
    ∧ (x.st = .train → (∀ c < 6, d.rxOcc l c = 0) → ∀ swap : Bool, Does (.trainDone l swap) s (fun t => enters .hello t
      ∧ t.rdB p Reg.AL_STAT 4 = swap ∧ (t.link l).txSeq = 0 ∧ (t.link l).rxSeq = 255 ∧ d.sameMem t))
    ∧ (x.st = .train → Does (.trainTimeout l) s (fun t => enters .down t ∧ x.enteredAt + msBase 100 ≤ t.clock.base ∧ d.sameMem t))
    ∧ (∀ m : HelloMsg, x.st = .hello → m.fabricId.toNat ≠ d.rd64 pgFAB Reg.FAB_ID_LO → Does (.hello l m) s (fun t =>
        enters .quarantine t ∧ t.rdB p Reg.IRQ_STAT 2 = true))
    ∧ (∀ m : HelloMsg, x.st = .hello → m.fabricId.toNat = d.rd64 pgFAB Reg.FAB_ID_LO → m.role = 1 → ownSerial ≤ m.serial.toNat →
        (m.feat.toNat &&& d.fabOffer = m.feat.toNat → fabDepsOk m.feat.toNat = true → Does (.hello l m) s (fun t => enters .attest t
          ∧ t.rd64 p Reg.AL_NEG_LO = m.feat.toNat ∧ t.rdB p Reg.IRQ_STAT 3 = true))
        ∧ (m.feat.toNat &&& d.fabOffer ≠ m.feat.toNat → Does (.hello l m) s (fun t => enters .quarantine t)))
    ∧ (x.st = .attest → x.passed = true → Does (.attest l .passed) s (fun t => enters .up t ∧ t.rdB p Reg.IRQ_STAT 0 = true
        ∧ d.sameMem t))
    ∧ (x.st = .attest → x.passed = false → Does (.attest l .passed) s (fun t => (t.link l).st = .attest
        ∧ (t.link l).peerPassed = true ∧ d.regsBut (fun _ _ => False) t ∧ d.sameMem t))
    ∧ (∀ nonce, x.st = .attest → d.canQuote = false → Does (.attest l (.nonce nonce)) s (fun t => enters .quarantine t))
    ∧ (x.st = .attest → Does (.attestTimeout l) s (fun t => enters .quarantine t ∧ x.enteredAt + msBase 200 ≤ t.clock.base
        ∧ t.rdB p Reg.IRQ_STAT 2 = true))
    ∧ (x.st = .quarantine → Does (.quarantineExpiry l) s (fun t => enters .train t ∧ x.enteredAt + msBase 10000 ≤ t.clock.base
        ∧ d.sameMem t))
    ∧ (x.st ≠ .down → x.st ≠ .quarantine → Does (.linkLoss l) s (fun t => enters .down t ∧ t.rdB p Reg.IRQ_STAT 1 = true
        ∧ t.rd p Reg.AL_DOWNS = d.rd p Reg.AL_DOWNS + 1 ∧ (t.link l).held = [] ∧ d.sameMem t)
      ∧ ∀ r, s.reaches r → Does (.retrain r l) s (fun t => enters .down t ∧ t.rd p Reg.AL_DOWNS = d.rd p Reg.AL_DOWNS + 1
        ∧ d.sameMem t))

/-- Flits (R375 to R382). A slot sends the next flit to be repeated, or with nothing queued an IDLE flit of 64 bytes whose CRC
covers the rest; a received flit with a bad CRC is discarded and counted and the receiver's sequence stays; a good one in
sequence advances it. REPLAY sends every held flit again; the eighth without progress loses the link. RESEND repeats a
LINK packet that is not acknowledged.
The model's own readings and choices in it: assumption log 24, 56. Commands it says complete: flitSend, flitRx, replay,
resend. -/
def Obligations.Flits : Prop :=
  ∀ (l : Al) (s : State), s.sound →
    let d := s.dev
    let x := d.link l
    let p := pgAL l
    (∀ f rest, x.st ≠ .down → x.st ≠ .train → x.resend = f :: rest → Does (.flitSend l) s (fun t => t.outs = [.flit l f]
      ∧ (t.link l).resend = rest ∧ t.rd64 p Reg.AL_FLITS_TX = (d.rd64 p Reg.AL_FLITS_TX + 1) % 2 ^ 64 ∧ d.sameMem t))
    ∧ (x.st ≠ .down → x.st ≠ .train → x.resend = [] → x.queue = [] → Does (.flitSend l) s (fun t => ∃ b,
        t.outs = [.flit l b] ∧ b.length = 64 ∧ ofLe (b.drop 60) = crc32c (b.take 60) % 2 ^ 32 ∧ flitClass b = 7
        ∧ t.rd64 p Reg.AL_FLITS_TX = (d.rd64 p Reg.AL_FLITS_TX + 1) % 2 ^ 64 ∧ d.sameMem t))
    ∧ (∀ f : List Byte, f.length = 64 → x.st ≠ .down → x.st ≠ .train →
        (crc32c (f.take 60) ≠ ofLe (f.drop 60) → Does (.flitRx l f) s (fun t => (t.link l).rxSeq = x.rxSeq
          ∧ t.rd p Reg.AL_CRC_ERRS = d.rd p Reg.AL_CRC_ERRS + 1
          ∧ d.regsBut (fun q o => q = p ∧ o = Reg.AL_CRC_ERRS) t ∧ d.sameMem t))
        ∧ (crc32c (f.take 60) = ofLe (f.drop 60) → flitClass f = 7 → (f.getD 8 0).toNat = 0 → (f.getD 3 0).toNat / 8 = 0 →
          Does (.flitRx l f) s (fun t => (t.link l).rxSeq = x.rxSeq
          ∧ t.rd64 p Reg.AL_FLITS_RX = (d.rd64 p Reg.AL_FLITS_RX + 1) % 2 ^ 64 ∧ d.sameMem t))
        ∧ (crc32c (f.take 60) = ofLe (f.drop 60) → flitClass f < 6 → x.st = .up → (f.getD 0 0).toNat = (x.rxSeq + 1) % 256 →
          (f.getD 2 0).getLsbD 5 = false → Does (.flitRx l f) s (fun t => (t.link l).rxSeq = (x.rxSeq + 1) % 256
          ∧ (∃ old, spGet (fun _ => []) (t.link l).asm (flitClass f) = old ++ [f])
          ∧ t.rd64 p Reg.AL_FLITS_RX = (d.rd64 p Reg.AL_FLITS_RX + 1) % 2 ^ 64 ∧ d.sameMem t)))
    ∧ (∀ lack : Byte, x.held.any (fun f => (f.getD 0 0).toNat == lack.toNat) = false →
        (x.replays < 7 → Does (.replay l lack) s (fun t => (t.link l).resend = x.held ∧ (t.link l).replays = x.replays + 1
          ∧ t.rdB p Reg.IRQ_STAT 4 = true ∧ t.rd p Reg.AL_REPLAYS = d.rd p Reg.AL_REPLAYS + 1 ∧ d.sameMem t))
        ∧ (7 ≤ x.replays → x.st = .up → Does (.replay l lack) s (fun t => (t.link l).st = .down
          ∧ t.rd p Reg.AL_REPLAYS = d.rd p Reg.AL_REPLAYS + 1 ∧ d.sameMem t)))
    ∧ (∀ (dst : BitVec 12) u, d.fab.unacked.find? (fun u => u.cls == 7 && u.dst == dst.toNat) = some u →
        Does (.resend 7 dst) s (fun t => (t.link dst.toNat).queue = (d.link dst.toNat).queue
          ++ (flitsOf u.packet).map (fun f => (u.packet.via, f)) ∧ u.due ≤ t.clock.base ∧ d.sameMem t))

/-- Discovery (R388 to R390, R404, R405): a lower serial is taken as coordinator's, the stable lowest one becomes coordinator; a claim
at the coordinator is recorded with what it gives; an assigned address is taken, a refusal raises its flag; membership shows
in MEMBER and FAB_MEMBERS; beacons and reports go every 10 ms; a silent coordinator is left out; a lost chip keeps no locator
entry and no mirror slot.
The model's own readings and choices in it: assumption log 23, 31, 56. Commands it says complete: elect, coordChange,
claimAddress, assign, membersChange, beacon, report, beaconMiss, chipLost. -/
def Obligations.Discovery : Prop :=
  ∀ (s : State), s.sound →
    let d := s.dev
    (∀ (l : Al) (serial c : DWord) (hops : Byte), d.fab.coordSerial = some c → serial.toNat < c.toNat →
      d.fab.silent.map BitVec.toNat ≠ some serial.toNat → Does (.elect l serial hops) s (fun t => t.fab.coordSerial = some serial
        ∧ t.fab.coordHops = hops.toNat + 1 ∧ t.fab.parentLink = some l.val ∧ t.rdB pgFAB Reg.FAB_STAT 15 = false ∧ d.sameMem t))
    ∧ (∀ (l : Al) (serial c : DWord) (hops : Byte), d.fab.coordSerial = some c → c.toNat < serial.toNat →
      Does (.elect l serial hops) s (fun t => d.onlyRegs (fun _ _ => False) t))
    ∧ (d.fab.coordSerial = none → d.rdB pgFAB Reg.FAB_STAT 13 = false → Does .coordChange s (fun t =>
        t.rdB pgFAB Reg.FAB_STAT 13 = true ∧ t.rdB pgFAB Reg.FAB_STAT 15 = true ∧ t.rdB pgFAB Reg.IRQ_STAT 2 = true
        ∧ d.fab.coordAt + msBase 100 ≤ t.clock.base ∧ d.sameMem t))
    ∧ (∀ (serial : DWord) (claim : Option (BitVec 12)), d.rdB pgFAB Reg.FAB_STAT 13 = true → Does (.claimAddress serial claim) s
        (fun t => { serial := serial, claim := claim.map BitVec.toNat
                    given := d.giveAddress serial.toNat (claim.map BitVec.toNat) } ∈ t.fab.claims))
    ∧ (∀ (a coord : BitVec 12), Does (.assign (some a) coord) s (fun t => t.myAddr = a.toNat ∧ t.addrValid = true
        ∧ t.coordAddr = coord.toNat ∧ t.rdB pgFAB Reg.IRQ_STAT 0 = true ∧ d.sameMem t))
    ∧ (∀ coord : BitVec 12, Does (.assign none coord) s (fun t => t.rdB pgFAB Reg.FAB_STAT 14 = true ∧ t.coordAddr = coord.toNat
        ∧ t.rdB pgFAB Reg.IRQ_STAT 1 = true ∧ d.sameMem t))
    ∧ (∀ members roots : List (BitVec 12), Does (.membersChange members roots) s (fun t =>
        t.fab.members = members.map BitVec.toNat ∧ t.rdB pgFAB Reg.IRQ_STAT 3 = true
        ∧ ∀ a : BitVec 12, t.rdB pgFAB (Reg.MEMBER + 4 * (a.toNat / 32)) (a.toNat % 32) = members.contains a))
    ∧ (d.rdB pgFAB Reg.FAB_STAT 13 = true → Does .beacon s (fun t => t.fab.nextBeacon = t.clock.base + msBase 10
        ∧ d.fab.nextBeacon ≤ t.clock.base))
    ∧ (d.addrValid = true → d.rdB pgFAB Reg.FAB_STAT 13 = false → Does .report s (fun t =>
        t.fab.nextReport = t.clock.base + msBase 10 ∧ d.fab.nextReport ≤ t.clock.base))
    ∧ (d.rdB pgFAB Reg.FAB_STAT 13 = false → Does .beaconMiss s (fun t => t.fab.coordSerial = none
        ∧ t.fab.silent = d.fab.coordSerial ∧ t.rdB pgFAB Reg.FAB_STAT 15 = false ∧ d.sameMem t))
    ∧ (∀ addr : BitVec 12, addr.toNat ≠ d.myAddr → Does (.chipLost addr) s (fun t =>
        (∀ e ∈ t.fab.locs, ∀ x, e.2 = some x → x.chip ≠ addr.toNat) ∧ (∀ k m, t.mirror k = some m → m.chip ≠ some addr.toNat)))

/-- The swap of routing tables (R394, R395): READY, ARMED, the switch at its instant unless a supply warning defers it, and
retirement when the old bit's packets have ended.
The model's own readings and choices in it: assumption log 56. Commands it says complete: loadDone, go, switched, epCollect,
retired. -/
def Claims.RoutingSwap : Prop :=
  ∀ (r : Req) (s : State), s.sound → s.reaches r →
    let d := s.dev
    (d.swapState = 0 → Does (.loadDone r) s (fun t => t.swapState = 1 ∧ t.rdB pgFAB Reg.RT_CTL 0 = true
      ∧ t.rtActive = d.rtActive))
    ∧ (d.swapState = 1 → d.rdB pgFAB Reg.FAB_STAT 13 = true → Does (.go r) s (fun t => t.swapState = 2
        ∧ t.rdB pgFAB Reg.RT_CTL 1 = true ∧ t.fab.goAt = some (d.rd64 pgFAB Reg.RT_GO_LO) ∧ t.rtActive = d.rtActive))
    ∧ (d.swapState = 2 → d.rdB pgPWR Reg.PWR_STAT 0 = false → Does .switched s (fun t => t.swapState = 3
        ∧ t.rtActive = !d.rtActive ∧ t.rdB pgFAB Reg.IRQ_STAT 4 = true))
    ∧ (d.swapState = 2 → d.rdB pgPWR Reg.PWR_STAT 0 = true → Does .switched s (fun t => t.swapState = 2
        ∧ t.rtActive = d.rtActive ∧ t.rdB pgFAB Reg.RT_CTL 5 = true ∧ d.sameMem t))
    ∧ (d.swapState = 3 → d.rdB pgFAB Reg.FAB_STAT 13 = true → ∀ inj ended : DWord,
        (inj = ended → Does (.epCollect inj ended) s (fun t => t.swapState = 0 ∧ t.rdB pgFAB Reg.IRQ_STAT 5 = true))
        ∧ (inj ≠ ended → d.fab.lostDraining = false → Does (.epCollect inj ended) s (fun t => t.swapState = 3
          ∧ t.fab.epSum = ended.toNat ∧ t.fab.nextCollect = t.clock.base + msBase 1 ∧ d.regsBut (fun _ _ => False) t
          ∧ d.sameMem t)))
    ∧ (d.swapState = 3 → Does .retired s (fun t => t.swapState = 0 ∧ t.fab.hold = [] ∧ t.rdF pgFAB Reg.RT_CTL 1 0 = 0
        ∧ t.rtActive = d.rtActive ∧ t.rdB pgFAB Reg.IRQ_STAT 5 = true))

/-- Time (R397 to R401): without an exchange the chip starts at 0 as root; an exchange asks every neighbour that is UP and no
other; an answer goes to its link; a response of the parent moves the servo by R400, or makes the chip an island; 8 ms
without one is HOLDOVER.
The model's own readings and choices in it: assumption log 23, 56. Commands it says complete: acqTimeout, syncReq,
syncAnswer, syncResp, holdover. -/
def Claims.FabricTime : Prop :=
  ∀ (s : State), s.sound →
    let d := s.dev
    (d.clock.started = false → Does .acqTimeout s (fun t => t.clock.started = true ∧ t.ft = 0 ∧ t.isRoot = true ∧ t.timeState = 2
      ∧ t.clock.locked = true ∧ t.rdB pgTIME Reg.IRQ_STAT 5 = true ∧ d.sameMem t))
    ∧ Does .syncReq s (fun t => (∀ l < 8, (d.link l).st = .up → ∃ f fs, (t.link l).queue = (d.link l).queue ++ f :: fs)
        ∧ (∀ l < 8, (d.link l).st ≠ .up → t.link l = d.link l) ∧ d.regsBut (fun _ _ => False) t ∧ d.sameMem t)
    ∧ (∀ (l : Al) (t1 t2 : DWord), Does (.syncAnswer l t1 t2) s (fun t =>
        (∃ f fs, (t.link l).queue = (d.link l).queue ++ f :: fs) ∧ (∀ k, k ≠ l.val → t.link k = d.link k)
        ∧ d.regsBut (fun _ _ => False) t ∧ d.sameMem t))
    ∧ (∀ (l : Al) (t1 t2 t3 t4 : DWord) (hops : BitVec 5),
        let o := syncOffset t1.toNat t2.toNat t3.toNat t4.toNat (signed 16 (d.rdF (pgAL l) Reg.AL_ASYM 15 0))
        (d.link l).st = .up → (∀ k < 8, k ≠ l.val → (d.link k).st ≠ .up) → d.fab.parent = some l.val →
        d.isRoot = false → d.timeState ≠ 4 → d.clock.started = true →
        (o.natAbs ≤ 2 ^ 32 → Does (.syncResp l t1 t2 t3 t4 (some hops)) s (fun t =>
          (t.fab.servoI, t.fab.servoC) = servo d.fab.servoI o
          ∧ t.rd pgTIME Reg.TIME_CORR = word (unsign 32 (servo d.fab.servoI o).2)
          ∧ t.rd64 pgTIME Reg.TIME_SYNCS = (d.rd64 pgTIME Reg.TIME_SYNCS + 1) % 2 ^ 64 ∧ d.sameMem t))
        ∧ (2 ^ 32 < o.natAbs → Does (.syncResp l t1 t2 t3 t4 (some hops)) s (fun t => t.timeState = 4
          ∧ t.rdB pgTIME Reg.IRQ_STAT 3 = true ∧ t.fab.servoC = d.fab.servoC ∧ d.sameMem t)))
    ∧ (d.isRoot = false → (d.timeState = 1 ∨ d.timeState = 2) → Does .holdover s (fun t => t.timeState = 3
        ∧ t.rdB pgTIME Reg.IRQ_STAT 2 = true ∧ d.fab.lastSync + msBase 8 ≤ t.clock.base ∧ d.sameMem t))

/-- The locator, remote viewers and remote input (R92, R95, R402 to R407): the home grants a free name, keeps one that is taken and
drops one that is unbound; a request for a slot takes a free one; relayed records gather from FRAME_BEGIN on; an event with a
new number joins the lane's queue; the input counter arrives.
The model's own readings and choices in it: assumption log 23, 32. Commands it says complete: locBind, locatorUnbind,
mirrorSlotRequest, streamRelay, inputPacket, inputCounter. -/
def Obligations.RemoteConsoles : Prop :=
  ∀ (s : State), s.sound →
    let d := s.dev
    (∀ (name : DWord) (chip : BitVec 12) (head : BitVec 7), d.homeOf name.toNat = some d.myAddr →
      Does (.locBind name chip head) s (fun t =>
        (d.loc name.toNat = none → t.loc name.toNat = some { chip := chip.toNat, head := head.toNat, moving := false })
        ∧ (d.loc name.toNat ≠ none → t.loc name.toNat = d.loc name.toNat))
      ∧ Does (.locatorUnbind name) s (fun t => t.loc name.toNat = none ∧ d.regsBut (fun _ _ => False) t ∧ d.sameMem t))
    ∧ (∀ (chip : BitVec 12) (k : Sess) (name : DWord) (snd : BitVec 16) h slot rest, d.headOf name.toNat = some h →
        d.freeSlots = slot :: rest → Does (.mirrorSlotRequest chip k name snd) s (fun t => ∃ m, t.mirror slot = some m
          ∧ m.head = h ∧ m.needKey = true ∧ m.chip = some chip.toNat ∧ m.sess = k.val))
    ∧ (∀ (k : Sess) (slot : BitVec 16) record chip, (d.sess k).remoteSlot = some (chip, slot.toNat) → d.sessState k ≠ 0 →
        (recType record = 2 → Does (.streamRelay k slot record) s (fun t => (t.sess k).relay = [record] ∧ d.sameMem t))
        ∧ (16 ≤ recType record → recType record < 48 → Does (.streamRelay k slot record) s (fun t =>
          (t.sess k).relay = (d.sess k).relay ++ [record] ∧ d.sameMem t)))
    ∧ (∀ (src : BitVec 12) (name : DWord) (ev : InputMsg) h, d.headOf name.toNat = some h →
        (d.lastSeq name.toNat < ev.seq → (d.lane h).pendingIn.length < 256 → Does (.inputPacket src name ev) s (fun t =>
          (t.lane h).pendingIn = insertEvent { ev with origin := fabOrigin ev } (d.lane h).pendingIn
          ∧ t.lastSeq name.toNat = ev.seq
          ∧ t.rd64 (pgHP h) Reg.IN_ACCEPTED = (d.rd64 (pgHP h) Reg.IN_ACCEPTED + 1) % 2 ^ 64)))
    ∧ (∀ name next : DWord, d.controller name.toNat = none → Does (.inputCounter name next) s (fun t =>
        t.lastSeq name.toNat = next.toNat - 1 ∧ t.counterHere name.toNat = true ∧ d.regsBut (fun _ _ => False) t
        ∧ d.sameMem t))

/-- R95: an event whose sequence number its console has accepted (it is not above the last accepted one, and is none of the
numbers still missing below that) is not accepted again; it is counted in IN_DUPLICATE.
Commands it says complete: inputPacket. -/
def Obligations.DuplicateInput : Prop :=
  ∀ (src : BitVec 12) (name : DWord) (ev : InputMsg) (h : Nat) (s : State), s.sound → s.dev.headOf name.toNat = some h →
    ev.seq ≤ s.dev.lastSeq name.toNat → ev.seq ∉ s.dev.gapsOf name.toNat → Does (.inputPacket src name ev) s (fun t =>
      (∀ n, t.lane n = s.dev.lane n) ∧ t.lastSeq name.toNat = s.dev.lastSeq name.toNat
        ∧ t.gapsOf name.toNat = s.dev.gapsOf name.toNat
        ∧ t.rd64 (pgHP h) Reg.IN_ACCEPTED = s.dev.rd64 (pgHP h) Reg.IN_ACCEPTED
        ∧ t.rd64 (pgHP h) Reg.IN_DUPLICATE = (s.dev.rd64 (pgHP h) Reg.IN_DUPLICATE + 1) % 2 ^ 64 ∧ s.dev.sameMem t)

/-- Migration (R409 to R412), step by step: START enters RESERVE or fails with its code; the peer reserves, or answers a code; a
round that is short enough CONVERGES; CUTOVER freezes the head; a copy in time is scheduled at its frame, a late one fails
with code 7; the acknowledged schedule cuts over on both sides; forwarding ends; ABORT and a missed deadline fail.
The model's own readings and choices in it: assumption log 33. Commands it says complete: migStart, reserve, precopyRound,
migCutover, copyComplete, scheduleAck, cutOver, forwardEnd, migAbort, ackDeadline, abortReceived. -/
def Obligations.Migration : Prop :=
  ∀ (r : Req) (k : Fin 8) (s : State), s.sound → s.reaches r →
    let d := s.dev
    let m := d.mig k
    let i := d.mig (8 + k)
    let failed := fun (slot code : Nat) (t : Dev) => (t.mig slot).st = .failed ∧ (t.mig slot).result = code
    let chip := ({ m with goSrc := m.src, goDst := m.dst } : Mig).chipB
    (∀ auto, d.migSel = k.val → m.active = false → m.forwarding = false → d.console (m.src.toNat % 128) ≠ 0 →
      (d.startCode chip = 0 → Does (.migStart r auto) s (fun t => (t.mig k).st = .reserve
        ∧ (t.mig k).name = BitVec.ofNat 64 (d.console (m.src.toNat % 128)) ∧ (t.mig k).auto = auto))
      ∧ (d.startCode chip ≠ 0 → Does (.migStart r auto) s (failed k (d.startCode chip))))
    ∧ (∀ code, m.st = .reserve → (code = 0 → Does (.reserve (.answer k code)) s (fun t => (t.mig k).st = .precopy
        ∧ d.regsBut (fun _ _ => False) t ∧ d.sameMem t)) ∧ (code ≠ 0 → Does (.reserve (.answer k code)) s (failed k code)))
    ∧ (∀ a (va vb : VHead) name ht vt fp origin dram glyph n al slot,
        let code := (d.takeTiming vb ht vt fp origin.toNat).reserveCode vb dram glyph n (decide (a.toNat = d.myAddr)) al
        ((List.range 8).map (fun i => 8 + i)).find? (fun i => !(d.mig i).active) = some slot →
        (code = 0 → Does (.reserve (.ask k a va vb name ht vt fp origin dram glyph n al)) s (fun t =>
          (t.mig slot).st = .precopy ∧ (t.mig slot).name = name ∧ (t.mig slot).vb = vb.val ∧ (t.head vb).reserved = 1
          ∧ (t.head vb).adm = .waiting ∧ t.rd (pgHD vb) Reg.HD_HTIME = ht))
        ∧ (code ≠ 0 → Does (.reserve (.ask k a va vb name ht vt fp origin dram glyph n al)) s (fun t =>
          t.mig slot = d.mig slot ∧ t.head vb = d.head vb ∧ t.rd (pgHD vb) Reg.HD_HTIME = d.rd (pgHD vb) Reg.HD_HTIME)))
    ∧ (m.st = .precopy → m.auto = false → Does (.precopyRound k) s (fun t =>
        (t.mig k).st = (if 4 * m.dirty.length ≤ d.rdN pgFAB Reg.MIG_DIRTY_LIM then .converged else .precopy)
        ∧ (t.mig k).round = (m.round + 1) % 256 ∧ (t.mig k).dirty = [] ∧ (t.mig k).dirtyKiB = 4 * m.dirty.length))
    ∧ (d.migSel = k.val → m.st = .converged → Does (.migCutover r) s (fun t => (t.mig k).st = .cutover
        ∧ (t.mig k).carried.isSome = true ∧ t.rdB (pgHD m.vaOf) Reg.HD_MODE 3 = true ∧ (t.mig k).s1 = t.ft))
    ∧ (∀ c : Carried, i.st = .precopy → i.peer ≠ d.myAddr →
        (d.startFt i.vb (d.cutFrame i.vb) ≤ c.s1 + 2 * d.fperiod i.vb → Does (.copyComplete k (some c)) s (fun t =>
          (t.mig (8 + k)).st = .cutover ∧ (t.mig (8 + k)).frame = d.cutFrame i.vb ∧ (t.head i.vb).first = d.cutFrame i.vb
          ∧ (t.head i.vb).reserved = 2))
        ∧ (c.s1 + 2 * d.fperiod i.vb < d.startFt i.vb (d.cutFrame i.vb) → Does (.copyComplete k (some c)) s
          (failed (8 + k) 7)))
    ∧ (∀ f slots, m.st = .cutover → Does (.scheduleAck k (.schedule f slots)) s (fun t => (t.mig k).acked = true
        ∧ (t.mig k).frame = f.toNat))
    ∧ (i.st = .cutover → d.ft + 0x400000 ≤ d.startFt i.vb i.frame → Does (.scheduleAck k .acknowledged) s (fun t =>
        (t.mig (8 + k)).acked = true ∧ d.regsBut (fun _ _ => False) t ∧ d.sameMem t))
    ∧ (m.st = .cutover → m.acked = true → d.live m.vaOf = false ∨ (d.head m.vaOf).last.map (fun f => f + 1) = some m.frame →
        Does (.cutOver k false) s (fun t => (t.mig k).st = .done ∧ (t.mig k).result = 1
        ∧ (t.mig k).forwarding = true ∧ (t.head m.vaOf).adm = .off ∧ t.nameState m.vaOf = 0 ∧ t.rdB pgFAB Reg.IRQ_STAT 6 = true))
    ∧ (m.st = .cutover → m.acked = true → d.live m.vaOf = true → (d.head m.vaOf).last.map (fun f => f + 1) ≠ some m.frame →
        Does (.cutOver k false) s (fun t => t.answer = .waits ∧ d.onlyRegs (fun _ _ => False) t))
    ∧ (i.st = .cutover → i.acked = true → Does (.cutOver k true) s (fun t => (t.mig (8 + k)).st = .done
        ∧ t.nameState i.vb = 2 ∧ t.nameOf i.vb = i.name.toNat ∧ (t.head i.vb).reserved = 0 ∧ t.rdB pgFAB Reg.IRQ_STAT 6 = true))
    ∧ (m.forwarding = true → Does (.forwardEnd k) s (fun t => (t.mig k).forwarding = false ∧ d.regsBut (fun _ _ => False) t
        ∧ d.sameMem t))
    ∧ (d.migSel = k.val → m.active = true → Does (.migAbort r) s (failed k 9))
    ∧ (i.st = .cutover → i.acked = false → Does (.ackDeadline k) s (failed (8 + k) 8))
    ∧ (i.active = true → Does (.abortReceived k true) s (failed (8 + k) 9))
    ∧ (m.active = true → Does (.abortReceived k false) s (failed k 8))

/-- Logs and the software rings (R413 to R416, R418, R420): software's record joins an empty queue, and KIND 3 makes none; delivery
takes the oldest record; a collector's ring takes a received record; FSR_SEND takes every posted slot; a received message
lands in the next slot, and one that finds the ring full changes nothing.
The model's own readings and choices in it: assumption log 13, 56. Commands it says complete: logSw2, logDeliver, logPacket,
fsrSend, fsrRx. -/
def Obligations.LogsAndMessages : Prop :=
  ∀ (s : State), s.sound →
    let d := s.dev
    let w := d.rd pgLOG Reg.LOG_SW0
    let prod := d.rdN pgLOG Reg.LOG_RING_PROD
    let rx := d.rdN pgFAB Reg.FSR_RX_PROD
    let full := 1024 ≤ (rx + 2 ^ 32 - d.rdN pgFAB Reg.FSR_RX_CONS) % 2 ^ 32
    (∀ r v, s.reaches r → field w 9 8 ≤ 1 → d.rdB pgLOG Reg.LOG_CTL 0 = true → d.log.queue = [] →
      0 < d.rdN pgLOG Reg.LOG_TRACE_LVL → Does (.logSw2 r v) s (fun t => ∃ q, t.log.queue = [(false, q)]
        ∧ q.source = 0x400 + field w 5 0 ∧ q.kind = field w 9 8 ∧ q.type = field w 23 16 ∧ q.data = d.rd pgLOG Reg.LOG_SW1
        ∧ q.firstFt = d.ft))
    ∧ (∀ r v, s.reaches r → field w 9 8 = 3 → Does (.logSw2 r v) s (fun t => d.onlyRegs (fun _ _ => False) t))
    ∧ (∀ e rest, d.log.queue = e :: rest → d.rdB pgLOG Reg.LOG_CTL 2 = false → s.dev.frozen pgLOG = false →
        (d.rdB pgLOG Reg.LOG_CTL 1 = false → Does .logDeliver s (fun t => t.log.queue = rest ∧ t.log.flying = none))
        ∧ (d.rdB pgLOG Reg.LOG_CTL 1 = true → d.log.flying = none → d.addrValid = false → Does .logDeliver s (fun t =>
            t.answer = .waits ∧ t.log.queue = d.log.queue ∧ d.onlyRegs (fun _ _ => False) t))
        ∧ (∀ n, d.rdB pgLOG Reg.LOG_CTL 1 = true → d.log.flying = some n →
            ((d.fab.unacked ++ d.fab.waiting).any (fun u => u.cls == 5 && u.seq == n) = true → Does .logDeliver s (fun t =>
              t.answer = .waits ∧ t.log.queue = d.log.queue ∧ d.onlyRegs (fun _ _ => False) t))
            ∧ ((d.fab.unacked ++ d.fab.waiting).any (fun u => u.cls == 5 && u.seq == n) = false → Does .logDeliver s (fun t =>
              t.log.queue = rest ∧ t.log.flying = none))))
    ∧ (∀ rec, d.rdB pgLOG Reg.LOG_CTL 3 = true → d.logRingFull = false → Does (.logPacket rec) s (fun t =>
        t.rd pgLOG Reg.LOG_RING_PROD = word (prod + 1)
        ∧ t.rd64 pgLOG Reg.LOG_RX_REMOTE = (d.rd64 pgLOG Reg.LOG_RX_REMOTE + 1) % 2 ^ 64
        ∧ (d.inDram (d.logArea + 0x100000 + prod % 32768 * 32) 32 = true →
          t.bytes (d.logArea + 0x100000 + prod % 32768 * 32) 32 = logBytes rec)
        ∧ d.sameMemBut (d.logArea + 0x100000 + prod % 32768 * 32) 32 t))
    ∧ (∀ r p, s.reaches r → Does (.fsrSend r p) s (fun t => t.rd pgFAB Reg.FSR_TX_PROD = p
        ∧ ((p.toNat + 2 ^ 32 - d.rdN pgFAB Reg.FSR_TX_CONS) % 2 ^ 32 ≤ 1024 → t.rd pgFAB Reg.FSR_TX_CONS = p)))
    ∧ (∀ (src : BitVec 12) (payload : List Byte), 1 ≤ payload.length → payload.length ≤ 1020 →
        (full → Does (.fsrRx src payload) s (fun t => d.onlyRegs (fun _ _ => False) t))
        ∧ (¬full → Does (.fsrRx src payload) s (fun t => t.rd pgFAB Reg.FSR_RX_PROD = word (rx + 1)
          ∧ t.rdB pgFAB Reg.IRQ_STAT 7 = true
          ∧ (d.inDram (d.fsrSlot true rx) (4 + payload.length) = true → t.bytes (d.fsrSlot true rx + 4) payload.length = payload)
          ∧ d.sameMemBut (d.fsrSlot true rx) (4 + payload.length) t)))

/-! ### Memories -/

/-- DRAM initialisation and training (R425, R428, R429, R439): INIT and DISCARD are ignored while a command runs; INIT_DONE
marks every block of an INIT's range initialised; a DISCARD makes its blocks uninitialised and zero at once and no other
byte; the first channel to train shows its size; modules that are not allowed raise POP_ERR in every channel and leave DRAM
disabled.
The model's own readings and choices in it: assumption log 19. Commands it says complete: ddrInit, ddrDiscard, initDone,
trained. -/
def Claims.DramInit : Prop :=
  ∀ (s : State), s.sound →
    let d := s.dev
    let p := pgDDR 0
    let lo := d.initRange.1
    let hi := d.initRange.2
    (∀ r, s.reaches r →
      (d.ram.initOp = none → Does (.ddrInit r) s (fun t => t.ram.initOp = some (1, lo, hi) ∧ t.rd p Reg.DDR_INIT_DONE = 0
          ∧ d.regsBut (fun q o => q = p ∧ o = Reg.DDR_INIT_DONE) t ∧ d.sameMem t)
        ∧ Does (.ddrDiscard r) s (fun t => t.ram.initOp = some (2, lo, hi)
          ∧ (∀ b, lo ≤ b → b < hi → t.blockInit b = false)
          ∧ ∀ a, t.byte a = if dramBase + lo * blockBytes ≤ a ∧ a < dramBase + hi * blockBytes then 0 else d.byte a))
      ∧ (d.ram.initOp ≠ none → Does (.ddrInit r) s (fun t => d.onlyRegs (fun _ _ => False) t)
        ∧ Does (.ddrDiscard r) s (fun t => d.onlyRegs (fun _ _ => False) t)))
    ∧ (∀ a b, d.ram.initOp = some (1, a, b) → s.dev.frozen (pgDDR 0) = false → Does .initDone s (fun t => t.ram.initOp = none
        ∧ (∀ k, a ≤ k → k < b → t.blockInit k = true) ∧ t.rdB p Reg.IRQ_STAT 7 = true
        ∧ d.regsBut (fun q o => q = p ∧ (o = Reg.DDR_INIT_DONE ∨ o = Reg.IRQ_STAT)) t ∧ d.sameMem t))
    ∧ (∀ (ch : Fin 6) (ms : List SpdInfo), d.rdB (pgDDR ch) Reg.DDR_CTL 0 = true → d.rdB (pgDDR ch) Reg.DDR_STAT 8 = false →
        (∀ m rest, ms = m :: rest → popOk ms = true → (∀ c < 6, d.rdB (pgDDR c) Reg.DDR_STAT 8 = false) →
          2 * d.rdF p Reg.DDR_MIR 7 0 ≤ ms.length * m.sizeGB → Does (.trained ch ms) s (fun t =>
            t.rdB (pgDDR ch) Reg.DDR_STAT 8 = true ∧ t.rdF (pgDDR ch) Reg.DDR_STAT 31 16 = ms.length * m.sizeGB
            ∧ d.regsBut (fun q o => q = pgDDR ch ∧ o = Reg.DDR_STAT) t ∧ d.sameMem t))
        ∧ (popOk ms = false → Does (.trained ch ms) s (fun t =>
            (∀ c < 6, t.rdB (pgDDR c) Reg.DDR_STAT 9 = true ∧ t.rdB (pgDDR c) Reg.DDR_STAT 8 = false
              ∧ t.rdB (pgDDR c) Reg.IRQ_STAT 6 = true)
            ∧ t.rd p Reg.DDR_TOTAL = 0
            ∧ d.onlyRegs (fun q o => ∃ c < 6, q = pgDDR c ∧ (o = Reg.DDR_STAT ∨ o = Reg.IRQ_STAT ∨ o = Reg.DDR_TOTAL)) t)))

/-- PATROL_SCRUB (R431 to R435, R439): a channel that is not trained or not scrubbed does nothing; a clean burst changes only
the scrub's place and passes; a corrected error and an uncorrectable burst are counted, raised and shown, and the latter is
stored back poisoned with DEGRADED's cause set.
The model's own readings and choices in it: assumption log 3, 19. Commands it says complete: patrolScrub. -/
def Claims.PatrolScrub : Prop :=
  ∀ (ch : Fin 6) (s : State), s.sound →
    let d := s.dev
    let p := pgDDR ch
    let on := d.rdB p Reg.DDR_STAT 8 && d.rdB p Reg.DDR_CTL 4
    (∀ found, on = false → s.dev.frozen (pgDDR ch) = false → Does (.patrolScrub ch found) s (fun t => d.onlyRegs (fun _ _ => False) t))
    ∧ (on = true → d.ram.rowErrs = [] → s.dev.frozen (pgDDR ch) = false → Does (.patrolScrub ch .clean) s (fun t =>
        d.regsBut (fun q o => q = p ∧ (o = Reg.DDR_SCRUB ∨ o = Reg.DDR_PASSES)) t ∧ d.sameMem t))
    ∧ (∀ a device sub rank row spare, on = true → s.dev.frozen (pgDDR ch) = false → Does (.patrolScrub ch (.corrected a device sub rank row spare)) s (fun t =>
        t.rd p Reg.DDR_CE = d.rd p Reg.DDR_CE + 1 ∧ t.rdB p Reg.IRQ_STAT 0 = true ∧ t.rd p Reg.DDR_ERR_LO = word a.toNat))
    ∧ (∀ a device sub rank, on = true → s.dev.frozen (pgDDR ch) = false → Does (.patrolScrub ch (.uncorrectable a device sub rank false)) s (fun t =>
        t.rd p Reg.DDR_UE = d.rd p Reg.DDR_UE + 1 ∧ t.rdB p Reg.IRQ_STAT 1 = true ∧ t.rd p Reg.DDR_ERR_LO = word a.toNat
        ∧ a.toNat / 64 ∈ t.ram.poison ∧ t.rdB pgSYS Reg.SYS_DEG_CAUSE 0 = true))

/-- March tests (R447, R449, R451): a start is refused in the wrong mode and ignored while one runs; ABORT and the end set DONE,
and a destructive test leaves its scratchpads as cleared; a failing cell shows; the period starts a preserving pass.
The model's own readings and choices in it: assumption log 19. Commands it says complete: marchStart, marchAbort, marchDone,
marchPeriod. -/
def Claims.MarchTests : Prop :=
  ∀ (s : State), s.sound →
    let d := s.dev
    let p := pgMARCH
    let running := d.rdF p Reg.MARCH_STAT 1 0 = 1
    let destr := d.rdB p Reg.MARCH_CTL 1
    let ends := fun (t : Dev) => t.rdF p Reg.MARCH_STAT 1 0 = 2 ∧ t.rdB p Reg.IRQ_STAT 0 = true
    (∀ r, s.reaches r →
      (running → Does (.marchStart r) s (fun t => d.onlyRegs (fun _ _ => False) t)
        ∧ Does (.marchAbort r) s (fun t => ends t
          ∧ (d.ram.marchMode = true → ∀ k < 8, d.marchPads.testBit k = true → ∀ a, (padRange k).1 ≤ a → a < (padRange k).2 →
              t.byte a = memDefault a)
          ∧ (d.ram.marchMode = false → d.onlyRegs (fun q o => q = p ∧ (o = Reg.MARCH_STAT ∨ o = Reg.IRQ_STAT)) t)))
      ∧ (¬running → Does (.marchAbort r) s (fun t => d.onlyRegs (fun _ _ => False) t)
        ∧ ((if destr = true then d.mode = 1 ∨ d.mode = 2 else d.mode ≠ 6 ∧ d.mode ≠ 7) → Does (.marchStart r) s (fun t =>
            t.rd p Reg.MARCH_STAT = 1 ∧ t.ram.marchMode = destr
            ∧ d.regsBut (fun q o => q = p ∧ o = Reg.MARCH_STAT) t ∧ d.sameMem t))
        ∧ (¬(if destr = true then d.mode = 1 ∨ d.mode = 2 else d.mode ≠ 6 ∧ d.mode ≠ 7) → Does (.marchStart r) s (fun t =>
            t.rdF p Reg.MARCH_STAT 1 0 = 3 ∧ t.rdF p Reg.MARCH_STAT 31 2 = d.rdF p Reg.MARCH_STAT 31 2 ∧ d.onlyRegs (fun q o => q = p ∧ o = Reg.MARCH_STAT) t))))
    ∧ (running → d.ram.marchMode = false → s.dev.frozen pgMARCH = false → Does (.marchDone []) s (fun t => ends t
        ∧ d.onlyRegs (fun q o => q = p ∧ (o = Reg.MARCH_STAT ∨ o = Reg.IRQ_STAT)) t))
    ∧ (∀ fails f, running → d.rdB p Reg.MARCH_CTL 2 = false → f ∈ fails → d.marchPads.testBit f.pad = true →
        s.dev.frozen pgMARCH = false → Does (.marchDone fails) s (fun t => ends t ∧ t.rdB p Reg.MARCH_STAT 2 = true ∧ t.rdB p Reg.IRQ_STAT 1 = true
          ∧ t.rdF p Reg.MARCH_STAT 31 16 = min (fails.filter (fun f => d.marchPads.testBit f.pad)).length 65535))
    ∧ (d.rdF p Reg.MARCH_CTL 15 8 = 0 → s.dev.frozen pgMARCH = false → Does .marchPeriod s (fun t => d.onlyRegs (fun _ _ => False) t))
    ∧ (d.rdF p Reg.MARCH_CTL 15 8 ≠ 0 → ¬running → d.mode ≠ 6 → d.mode ≠ 7 → s.dev.frozen pgMARCH = false → Does .marchPeriod s (fun t =>
        t.rd p Reg.MARCH_STAT = 1 ∧ t.ram.marchMode = false
        ∧ d.ram.marchAt + d.rdF p Reg.MARCH_CTL 15 8 * 4320000000000 ≤ t.clock.base
        ∧ d.regsBut (fun q o => q = p ∧ o = Reg.MARCH_STAT) t ∧ d.sameMem t))

/-- MRAM (R454, R455, R457): the oldest posted word reaches the array and is counted, unless a supply warning blocks it; FLUSH
writes the changed counters unless that was less than a second ago; the tick writes them.
The model's own readings and choices in it: assumption log 19. Commands it says complete: mramWordWrite, flush,
counterPersist. -/
def Claims.MramWrites : Prop :=
  ∀ (s : State), s.sound →
    let d := s.dev
    let recent := ∃ t0, d.ram.persistAt = some t0 ∧ d.clock.base < t0 + 1200000000
    (∀ w bs rest, d.ram.mramBuf = (w, bs) :: rest → d.mramBlocked = false → s.dev.frozen pgMRAM = false → Does .mramWordWrite s (fun t =>
        t.bytes (mramBase + w * 64) bs.length = bs ∧ t.ram.mramBuf = rest
        ∧ t.rd64 pgMRAM Reg.MRAM_WRITES = (d.rd64 pgMRAM Reg.MRAM_WRITES + 1) % 2 ^ 64
        ∧ d.regsBut (fun q o => q = pgMRAM ∧ (o = Reg.MRAM_WRITES ∨ o = Reg.MRAM_WRITES + 4)) t
        ∧ d.sameMemBut (mramBase + w * 64) bs.length t))
    ∧ (d.mramBlocked = true → s.dev.frozen pgMRAM = false → Does .mramWordWrite s (fun t => d.onlyRegs (fun _ _ => False) t))
    ∧ (∀ r, s.reaches r →
        (recent → Does (.flush r) s (fun t => d.onlyRegs (fun _ _ => False) t))
        ∧ (¬recent → Does (.flush r) s (fun t => t.ram.persist = [] ∧ d.regsBut (fun _ _ => False) t ∧ d.sameMem t))
        ∧ (∀ k v, ¬recent → d.ram.persist = [(k, some v)] → Does (.flush r) s (fun t =>
            (t.mramWord (0x440 + k)).take 8 = leBytes 8 v ∧ t.ram.persistAt = some d.clock.base)))
    ∧ (s.dev.frozen pgMRAM = false → Does .counterPersist s (fun t => t.ram.persist = [] ∧ d.regsBut (fun _ _ => False) t ∧ d.sameMem t))

/-! ### The rectangle engine -/

/-- The ring and the register path (R473 to R475): a producer value too far ahead is refused; GO latches a command or is refused;
RETRY runs the failed command again; SKIP drops it and the ring goes on.
The model's own readings and choices in it: assumption log 37. Commands it says complete: ringProd, bltGo, retry, skip. -/
def Claims.RectangleControl : Prop :=
  ∀ (r : Req) (s : State), s.sound → s.reaches r →
    let d := s.dev
    let p := pgBLT
    let stat := fun (q o : Nat) => q = p ∧ o = Reg.BLT_STAT
    (∀ v : Word, ((v - word d.bltCons).toNat ≤ 2 ^ d.bltLog → Does (.ringProd r v) s (fun t => t.rd p Reg.RING_PROD = v
          ∧ d.onlyRegs (fun q o => q = p ∧ o = Reg.RING_PROD) t))
      ∧ (2 ^ d.bltLog < (v - word d.bltCons).toNat → Does (.ringProd r v) s (fun t => t.rdB p Reg.BLT_STAT 9 = true
          ∧ d.onlyRegs stat t)))
    ∧ (d.bltState = 0 → Does (.bltGo r) s (fun t => t.rdF p Reg.BLT_STAT 2 0 = 5
        ∧ t.blt.cmd = (List.range 16).flatMap (fun i => leBytes 4 (d.rdN p (Reg.BLT_CMD + 4 * i)))
        ∧ d.regsBut stat t ∧ d.sameMem t))
    ∧ (d.bltState ≠ 0 → Does (.bltGo r) s (fun t => t.rdB p Reg.BLT_STAT 8 = true ∧ d.onlyRegs stat t))
    ∧ (d.bltState = 2 → Does (.retry r) s (fun t => t.bltState = 1 ∧ t.bltPath = d.bltPath ∧ t.rdF p Reg.BLT_STAT 7 4 = 0
        ∧ d.onlyRegs stat t))
    ∧ (d.bltState ≠ 2 → Does (.retry r) s (fun t => d.onlyRegs (fun _ _ => False) t)
        ∧ Does (.skip r) s (fun t => d.onlyRegs (fun _ _ => False) t))
    ∧ (d.bltState = 2 → d.bltPath = false → Does (.skip r) s (fun t => t.bltState = 0 ∧ t.rdF p Reg.BLT_STAT 7 4 = 0
        ∧ t.rd p Reg.RING_CONS = d.rd p Reg.RING_CONS + 1
        ∧ d.onlyRegs (fun q o => q = p ∧ (o = Reg.BLT_STAT ∨ o = Reg.RING_CONS ∨ o = Reg.IRQ_STAT)) t))
    ∧ (d.bltState = 2 → d.bltPath = true → Does (.skip r) s (fun t => t.bltState = 0 ∧ t.blt.cmd = [] ∧ d.regsBut stat t
        ∧ d.sameMem t))

/-- A rectangle command (R463 to R475): it runs only when the engine has it next; one that fails its checks stops the engine with
its code; one whose accesses all succeed is counted, and the ring advances. NOTE writes its 8 bytes; SETCLIP the masked
clip rectangles; an unclipped COPY of one row its source, as it was before.
The model's own readings and choices in it: assumption log 37. Commands it says complete: fill, copy, convert, note, setclip. -/
def Claims.RectangleCommands : Prop :=
  ∀ (i : Instr) (op : Nat) (s : State), s.sound →
    i = .fill ∧ op = opFill ∨ i = .copy ∧ op = opCopy ∨ i = .convert ∧ op = opConvert ∨ i = .note ∧ op = opNote
      ∨ i = .setclip ∧ op = opSetclip →
    let d := s.dev
    let p := pgBLT
    (d.bltReady = false → Does i s (fun t => d.onlyRegs (fun _ _ => False) t))
    ∧ (∀ c, d.bltReady = true → d.bltFetch = .ok c → c.length = 64 → cmdField c 0 1 = op →
      (bltCheck c ≠ 0 → Does i s (fun t => t.bltState = 2 ∧ t.rdF p Reg.BLT_STAT 7 4 = bltCheck c
        ∧ t.rdB p Reg.IRQ_STAT 2 = true
        ∧ d.onlyRegs (fun q o => q = p ∧ (o = Reg.BLT_STAT ∨ o = Reg.IRQ_STAT)) t))
      ∧ (bltCheck c = 0 → (d.begin.bltWork c).2 = none → Does i s (fun t => t.bltState = 0
        ∧ t.rd64 p Reg.BLT_CMDS = (d.rd64 p Reg.BLT_CMDS + 1) % 2 ^ 64
        ∧ (d.bltState = 0 → t.rd p Reg.RING_CONS = d.rd p Reg.RING_CONS + 1)
        ∧ (cmdFlag c 0 = true → t.rdB p Reg.IRQ_STAT 0 = true)))
      ∧ (op = opNote → bltCheck c = 0 → d.bltReach (cmdField c 8 6) 8 = true → Does i s (fun t => t.bltState = 0
        ∧ t.bytes (cmdField c 8 6) 8 = (c.drop 56).take 8 ∧ d.sameMemBut (cmdField c 8 6) 8 t))
      ∧ (op = opSetclip → Does i s (fun t => t.bltState = 0 ∧ d.sameMem t ∧ ∀ k < 4,
          t.rd p (Reg.BLT_CLIP_A + 8 * k) = (if (cmdField c 2 1).testBit k then word (cmdField c (8 + 8 * k) 4)
            else d.rd p (Reg.BLT_CLIP_A + 8 * k))
          ∧ t.rd p (Reg.BLT_CLIP_B + 8 * k) = (if (cmdField c 2 1).testBit k then word (cmdField c (12 + 8 * k) 4)
            else d.rd p (Reg.BLT_CLIP_B + 8 * k))))
      ∧ (let f := cmdField c 3 1 % 16
         let k := bltBpp f / 8
         let n := cmdField c 4 2 * k
         let src := cmdField c 24 6 + cmdField c 38 2 * cmdField c 32 4 + cmdField c 36 2 * k
         let dst := cmdField c 8 6 + cmdField c 22 2 * cmdField c 16 4 + cmdField c 20 2 * k
         op = opCopy → bltCheck c = 0 → f ≤ 4 → cmdField c 2 1 % 16 = 0 → cmdFlag c 3 = false → cmdField c 4 2 ≤ 2048 →
         cmdField c 6 2 = 1 → d.bltReach src n = true → d.bltReach dst n = true → d.ram.poison = [] →
         Does i s (fun t => t.bltState = 0 ∧ t.bytes dst n = d.bytes src n ∧ d.sameMemBut dst n t)))

/-- FILL (R463, R466) without clipping in a format of whole bytes, all of whose pixels the engine reaches: every pixel of the
rectangle is the command's colour, and every byte outside the rectangle stays.
The model's own readings and choices in it: assumption log 37. Commands it says complete: fill. -/
def Obligations.FillWrites : Prop :=
  ∀ (s : State) (c : List Byte), s.sound →
    let d := s.dev
    let k := bltBpp (cmdField c 3 1 / 16) / 8
    let px := fun x y => cmdField c 8 6 + (cmdField c 22 2 + y) * cmdField c 16 4 + (cmdField c 20 2 + x) * k
    d.bltReady = true → d.bltFetch = .ok c → c.length = 64 → cmdField c 0 1 = opFill → bltCheck c = 0 →
    cmdField c 3 1 / 16 ≤ 4 → cmdField c 2 1 % 16 = 0 →
    (∀ x < cmdField c 4 2, ∀ y < cmdField c 6 2, d.bltReach (px x y) k = true) →
    Does .fill s (fun t => t.bltState = 0
      ∧ (∀ x < cmdField c 4 2, ∀ y < cmdField c 6 2, t.num (px x y) k = cmdField c 40 4 % 2 ^ (8 * k))
      ∧ ∀ a, (∀ x < cmdField c 4 2, ∀ y < cmdField c 6 2, a < px x y ∨ px x y + k ≤ a) → t.byte a = d.byte a)

/-! ### DMA -/

/-- DMA channels (R479, R487 to R490, R493): ARM from IDLE or ERROR makes a hand-over due next cycle; DISARM and ABORT; a
hand-over without ARM ends in IDLE, one with a bad descriptor in ERROR with its code, else the channel runs and its total
joins CH_PROG and CH_REMAIN; a fetch loads the shadow and arms; RESUME starts the frozen channels again.
The model's own readings and choices in it: assumption log 42. Commands it says complete: chArm, disarm, chAbort, handover,
descFetch, dmaResume. -/
def Claims.DmaChannels : Prop :=
  ∀ (c : Chan) (s : State), s.sound →
    let d := s.dev
    let p := pgDMA
    let x := d.chan c
    let a := d.shadow c
    let total := descTotal a
    (∀ r, s.reaches r → x.handAt = none →
      (d.chState c = 0 ∨ d.chState c = 3 ∧ d.chLink c = false → Does (.chArm r c) s (fun t => t.chArmed c = true
        ∧ (t.chan c).handAt = some (d.cyc + 1) ∧ d.regsBut (fun q o => q = p ∧ o = chCtl c) t ∧ d.sameMem t))
      ∧ (d.chState c = 1 ∨ d.chState c = 2 → d.chLink c = false → Does (.chArm r c) s (fun t => t.chArmed c = true
        ∧ d.onlyRegs (fun q o => q = p ∧ o = chCtl c) t))
      ∧ (d.chState c ≠ 0 → d.chLink c = true → Does (.chArm r c) s (fun t => d.onlyRegs (fun _ _ => False) t))
      ∧ Does (.disarm r c) s (fun t => t.chArmed c = false ∧ d.onlyRegs (fun q o => q = p ∧ o = chCtl c) t)
      ∧ Does (.chAbort r c) s (fun t => t.chState c = 0 ∧ t.chArmed c = false ∧ t.rd64 p (chCount c 2) = 0
        ∧ t.rd64 p (chCount c 3) = (d.rd64 p (chCount c 3) + d.rd64 p (chCount c 2)) % 2 ^ 64
        ∧ t.rd64 p (chCount c 0) = d.rd64 p (chCount c 0) ∧ t.rd64 p (chCount c 1) = d.rd64 p (chCount c 1)
        ∧ (t.chan c).handAt = none ∧ d.sameMem t))
    ∧ (∀ k, x.handAt = some k → d.handReady c = false → Does (.handover c) s (fun t => t.answer = .waits
        ∧ d.onlyRegs (fun _ _ => False) t))
    ∧ (∀ k, x.handAt = some k → d.handReady c = true →
        (d.chArmed c = false → Does (.handover c) s (fun t => t.chState c = 0 ∧ (t.chan c).handAt = none ∧ k ≤ t.cyc
          ∧ d.sameMem t))
        ∧ (d.chArmed c = true → d.descCheck c a ≠ 0 → Does (.handover c) s (fun t => t.chState c = 3
          ∧ t.rdF p (chStat c) 6 4 = d.descCheck c a ∧ t.rdB p Reg.IRQ_STAT c = true ∧ t.chArmed c = false ∧ d.sameMem t))
        ∧ (d.chArmed c = true → d.descCheck c a = 0 → Does (.handover c) s (fun t => t.chState c = 1 ∧ t.chArmed c = false
          ∧ (t.chan c).active = a ∧ (t.chan c).fetching = (d.chLink c && decide (descNext a ≠ 0))
          ∧ t.rd64 p (chCount c 0) = (d.rd64 p (chCount c 0) + total) % 2 ^ 64
          ∧ t.rd64 p (chCount c 2) = (d.rd64 p (chCount c 2) + total) % 2 ^ 64 ∧ k ≤ t.cyc ∧ d.sameMem t)))
    ∧ (x.fetching = true → d.dmaErr = false → d.chState c ≠ 2 → d.inDram (descNext x.active) 64 = true →
        d.poisoned (descNext x.active) 64 = false → Does (.descFetch c) s (fun t => t.chArmed c = true
          ∧ (t.chan c).fetching = false
          ∧ (∀ i < 13, t.rd p (Reg.CH_SHADOW + 64 * c + 4 * i) = word (d.num (descNext x.active + 4 * i) 4)) ∧ d.sameMem t))
    ∧ (∀ r (mask : BitVec 16), s.reaches r →
        (d.dmaErr = true → Does (.dmaResume r mask) s (fun t => d.onlyRegs (fun _ _ => False) t))
        ∧ (d.dmaErr = false → Does (.dmaResume r mask) s (fun t =>
          (∀ i < 16, t.chState i = if mask.getLsbD i = true ∧ d.chState i = 2 then 1 else d.chState i)
          ∧ d.onlyRegs (fun q o => q = p ∧ ∃ i < 16, o = chStat i) t)))

/-- BURST (R480, R481, R485, R491, R494): a channel that cannot start does nothing. The one running channel, free-running, with a
descriptor of one line of n bytes in DRAM that one burst covers, copies them, counts them as written, and has its next
hand-over due; where its first access may not be made, every running channel freezes and the error shows.
The model's own readings and choices in it: assumption log 42. Commands it says complete: burst. -/
def Claims.DmaBurst : Prop :=
  ∀ (c : Chan) (s : State), s.sound →
    let d := s.dev
    let p := pgDMA
    let x := d.chan c
    let a := x.active
    let src := descAddr a 0
    let dst := descAddr a 5
    let n := descLine a 0
    (d.burstReady c = false → Does (.burst c) s (fun t => d.onlyRegs (fun _ _ => False) t))
    ∧ (d.burstReady c = true → x.spos = 0 → x.dpos = 0 → x.held = [] → x.left = 0 → descReq a = 0 →
      (∀ i < 16, i ≠ c.val → d.chState i ≠ 1) →
      (descLine a 5 = n → descLines a 0 = 1 → descLines a 5 = 1 → n ≤ descBurst a → d.inDram src n = true →
        d.inDram dst n = true → src + n ≤ dst ∨ dst + n ≤ src → d.ram.poison = [] → n ≤ d.rd64 p (chCount c 2) →
        Does (.burst c) s (fun t => t.bytes dst n = d.bytes src n ∧ d.sameMemBut dst n t
          ∧ t.rd64 p (chCount c 1) = (d.rd64 p (chCount c 1) + n) % 2 ^ 64
          ∧ t.rd64 p (chCount c 2) = d.rd64 p (chCount c 2) - n
          ∧ (t.chan c).ended = true ∧ (t.chan c).handAt = some (t.cyc + 1)))
      ∧ (descWidth a 0 = 0 → d.dmaCause false (descByte a 0 0) 1 ≠ 0 → d.dmaCause false (descByte a 0 0) 1 ≠ 4 →
        Does (.burst c) s (fun t => t.dmaErr = true ∧ t.chState c = 2 ∧ t.rd p Reg.DMA_ERR_LO = word (descByte a 0 0)
          ∧ t.rd p Reg.DMA_ERRS = d.rd p Reg.DMA_ERRS + 1 ∧ t.rdB p Reg.IRQ_STAT 16 = true ∧ d.sameMem t)))

/-! ### Interrupts, timers, pins -/

/-- The event controller (R501, R506, R507, R509): an eligible source goes to the free target hart with the lowest CURPRI, lowest
number on ties, and stays idle without one; a delivered source whose level, enable or target has gone is withdrawn; MTIP rises
when the time CSR has reached MTIMECMP.
Commands it says complete: deliver, mtip, withdraw. -/
def Obligations.EventController : Prop :=
  ∀ (s : State), s.sound →
    let d := s.dev
    let same := fun (t : Dev) => d.regsBut (fun _ _ => False) t ∧ d.sameMem t
    let others := fun (src : Nat) (t : Dev) => ∀ k, k ≠ src → t.owner k = d.owner k
    let smode := fun (c : Nat) => if d.rdB pgEVC (Reg.EVC_CCTL + 64 * c) 0 then 1 else 0
    (∀ src < 272, d.gpio.unseen = 0 → (∀ k < 272, d.eligible k = decide (k = src)) →
      (∀ c < 4, d.hartFree c = true → d.srcTgt src c = true →
        (∀ k < 4, d.hartFree k = true → d.srcTgt src k = true → d.curpri c < d.curpri k ∨ d.curpri c = d.curpri k ∧ c ≤ k) →
        Does .deliver s (fun t => t.owner src = some (c, false) ∧ others src t ∧ t.outs = [.coreIrq c (smode c) true] ∧ same t))
      ∧ ((∀ c < 4, d.hartFree c = true → d.srcTgt src c = false) → Does .deliver s (fun t => d.onlyRegs (fun _ _ => False) t)))
    ∧ (∀ c : Hart, d.clock.base / 12 + d.clock.timeAdj < 2 ^ 64 → Does (.mtip c) s (fun t => t.mtip c = true
        ∧ t.outs = [.coreIrq c 2 true] ∧ same t))
    ∧ (∀ (src : Fin 512) (c : Nat), d.owner src = some (c, false) →
        ((d.level src && d.srcEn src && d.srcTgt src c) = true → Does (.withdraw src) s (fun t =>
          d.onlyRegs (fun _ _ => False) t))
        ∧ ((d.level src && d.srcEn src && d.srcTgt src c) = false → Does (.withdraw src) s (fun t => t.owner src = none
          ∧ others src t ∧ t.outs = [.coreIrq c (smode c) false] ∧ same t)))

/-- R508: a read of CLAIM by hart c answers the source delivered to c, which comes into service with c while c's pending bit
falls; with no source delivered it answers 0 and changes nothing; and while a source is in service with c, no source comes
to be delivered to c.
Commands it says complete: claim, deliver. -/
def Obligations.ClaimSource : Prop :=
  ∀ (c : Hart) (s : State), s.sound →
    let d := s.dev
    let smode := if d.rdB pgEVC (Reg.EVC_CCTL + 64 * c) 0 then 1 else 0
    (∀ src, d.sourceOf c false = src → src ≠ 0 → Does (.claim c) s (fun t =>
        t.answer = .data ((word src).setWidth 64) ∧ t.owner src = some (c.val, true) ∧ (∀ k, k ≠ src → t.owner k = d.owner k)
        ∧ t.outs = [.coreIrq c smode false] ∧ d.regsBut (fun _ _ => False) t ∧ d.sameMem t))
    ∧ (d.sourceOf c false = 0 → Does (.claim c) s (fun t => t.answer = .data 0 ∧ d.onlyRegs (fun _ _ => False) t))
    ∧ (∀ k, d.owner k = some (c.val, true) → Does .deliver s (fun t =>
        ∀ j, t.owner j = some (c.val, false) → d.owner j = some (c.val, false)))

/-- R510: COMPLETE by hart c of the source in service with c returns the source to idle and frees c, and the source is eligible
again exactly where its level and its enable are 1; of any other value it leaves all state but EVC_CERRS, which counts it, and
the COMPLETE_ERR that it raises.
Commands it says complete: complete. -/
def Obligations.CompleteSource : Prop :=
  ∀ (c : Hart) (v : Word) (s : State), s.sound →
    let d := s.dev
    let src := field v 8 0
    (d.owner src = some (c.val, true) → Does (.complete c v) s (fun t => t.owner src = none
        ∧ (∀ k, k ≠ src → t.owner k = d.owner k) ∧ t.eligible src = (d.level src && d.srcEn src)
        ∧ ((∀ k b, k ≠ src → d.owner k ≠ some (c.val, b)) → ∀ k b, t.owner k ≠ some (c.val, b))
        ∧ d.regsBut (fun _ _ => False) t ∧ d.sameMem t))
    ∧ (d.owner src ≠ some (c.val, true) → Does (.complete c v) s (fun t =>
        t.rd pgEVC Reg.EVC_CERRS = d.rd pgEVC Reg.EVC_CERRS + 1 ∧ t.rdB pgEVC Reg.IRQ_STAT 0 = true
        ∧ d.onlyRegs (fun q o => q = pgEVC ∧ (o = Reg.EVC_CERRS ∨ o = Reg.IRQ_STAT)) t))

/-- Timers (R514 to R518): GO starts the stopped timers of a mask with their outputs low, STOP stops the running ones; a tick of
a timer in up or down mode counts or begins a new period; the write of a compare's high word takes the whole value, and the
channel fires where its condition holds, else stays armed; the write of PER_HI takes the whole period.
The model's own readings and choices in it: assumption log 16. Commands it says complete: tmrGo, tmrStop, tick, cmpArm,
perWrite. -/
def Claims.Timers : Prop :=
  ∀ (n : Tmr) (s : State), s.sound →
    let d := s.dev
    let p := pgTMR
    (∀ r (mask : BitVec 16), s.reaches r →
      Does (.tmrGo r mask) s (fun t => (∀ k < 16, t.tmrRuns k = (d.tmrRuns k || mask.getLsbD k))
        ∧ (∀ k < 16, mask.getLsbD k = true → d.tmrRuns k = false → t.rdB p (cmpOff k 0 Reg.CMP0_CTL) 3 = false
            ∧ t.rdB p (cmpOff k 1 Reg.CMP0_CTL) 3 = false ∧ (t.tmr k).nextTick = d.cyc + d.tmrStep k)
        ∧ d.regsBut (fun q o => q = p ∧ (o = Reg.TMR_RUN ∨ ∃ k < 16, ∃ j < 2, o = cmpOff k j Reg.CMP0_CTL)) t ∧ d.sameMem t)
      ∧ Does (.tmrStop r mask) s (fun t => (∀ k < 16, t.tmrRuns k = (d.tmrRuns k && !mask.getLsbD k))
        ∧ d.regsBut (fun q o => q = p ∧ o = Reg.TMR_RUN) t ∧ d.sameMem t))
    ∧ (d.tmrRuns n = false ∨ d.frozen p = true ∨ d.mode = 6 → Does (.tick n) s (fun t => d.regsBut (fun _ _ => False) t
        ∧ d.sameMem t))
    ∧ (d.tmrRuns n = true → d.frozen p = false → d.mode ≠ 6 →
        let moved := fun (cnt : Nat) (period : Bool) => Does (.tick n) s (fun t => t.tmrCnt n = cnt
          ∧ (d.tmr n).nextTick ≤ t.cyc ∧ (t.tmr n).nextTick = t.cyc + d.tmrStep n
          ∧ (period = true → t.rdB p (tmrOff n Reg.TMR_EVT) 4 = true)
          ∧ d.regsBut (fun q _ => q = p) t ∧ d.sameMem t)
        (d.tmrMode n = 0 → d.tmrCnt n < d.tmrPer n → moved (d.tmrCnt n + 1) false)
        ∧ (d.tmrMode n = 0 → d.tmrPer n ≤ d.tmrCnt n → moved 0 true)
        ∧ (d.tmrMode n = 1 → d.tmrCnt n = 0 → moved (d.tmrPer n) true)
        ∧ (d.tmrMode n = 1 → d.tmrCnt n ≠ 0 → moved (d.tmrCnt n - 1) false))
    ∧ (∀ r (k : Fin 4) (hi : Word), s.reaches r → Does (.cmpArm r n k hi) s (fun t =>
        t.rd p (cmpOff n k Reg.CMP0_HI) = hi
        ∧ (∀ e, (d.tmr n).cmpHeld.find? (fun e => e.1 == k.val) = some e → t.rd p (cmpOff n k Reg.CMP0_LO) = e.2)
        ∧ (t.cmpHolds n k = false → t.rdB p (cmpOff n k Reg.CMP0_CTL) 0 = true)
        ∧ (t.cmpHolds n k = true → t.rdB p (cmpOff n k Reg.CMP0_CTL) 0 = false ∧ t.rdB p (tmrOff n Reg.TMR_EVT) k = true)
        ∧ d.regsBut (fun q _ => q = p) t ∧ d.sameMem t))
    ∧ (∀ r (hi lo : Word), s.reaches r → (d.tmr n).perHeld = some lo → Does (.perWrite r n hi) s (fun t =>
        t.rd p (tmrOff n Reg.TMR_PER_LO) = lo ∧ t.rd p (tmrOff n Reg.TMR_PER_HI) = hi ∧ (t.tmr n).perHeld = none
        ∧ d.regsBut (fun q o => q = p ∧ (o = tmrOff n Reg.TMR_PER_LO ∨ o = tmrOff n Reg.TMR_PER_HI)) t ∧ d.sameMem t))

/-- Pins (R525 to R529): a changed function takes effect after two LCLK cycles, and a second pin that selects the same input is
recorded; a changed level has come through the synchroniser when its command ends; a pin lock is armed, and the same
requester with the same mask locks.
The model's own readings and choices in it: assumption log 18. Commands it says complete: funcChange, pinChange, gpioLockArm,
gpioLock. -/
def Claims.Pins : Prop :=
  ∀ (s : State), s.sound →
    let d := s.dev
    let p := pgGPIO
    let page := fun (t : Dev) => d.regsBut (fun q _ => q = p) t ∧ d.sameMem t
    (∀ pin : Pin,
      let new := d.rdF p (Reg.GPIO_FUNC + 4 * (pin.val / 8)) (4 * (pin.val % 8) + 3) (4 * (pin.val % 8))
      (new = d.pinFn pin → s.dev.frozen pgGPIO = false → Does (.funcChange pin) s (fun t => d.onlyRegs (fun _ _ => False) t))
      ∧ (new ≠ d.pinFn pin → s.dev.frozen pgGPIO = false → Does (.funcChange pin) s (fun t => t.pinFn pin = new ∧ (∀ q, q ≠ pin.val → t.pinFn q = d.pinFn q)
          ∧ (d.lclk + 2) * 12 ≤ t.clock.base
          ∧ (∀ q < 64, ∀ sig, q ≠ pin.val → inSignal new (pin.val % 16) = some sig → inSignal (d.pinFn q) (q % 16) = some sig →
              t.rdB p Reg.GPIO_STAT 0 = true ∧ t.rdB p Reg.IRQ_STAT 8 = true)
          ∧ page t)))
    ∧ (∀ (pin : Pin) (b : Bool),
        (d.gpio.level.testBit pin = b → d.gpio.unseen = 0 → Does (.pinChange pin b) s (fun t =>
          d.onlyRegs (fun _ _ => False) t))
        ∧ (d.gpio.level.testBit pin ≠ b → Does (.pinChange pin b) s (fun t => t.gpio.level.testBit pin = b
          ∧ ((∀ e ∈ d.gpio.hist, e.1 ≤ d.lclk + 1) → t.gpioIn = t.pinLevels) ∧ page t)))
    ∧ (∀ r (b : Fin 4) (mask : BitVec 16), s.reaches r →
        Does (.gpioLockArm r b mask) s (fun t => spGet (fun _ => none) t.gpio.armed b = some (r, mask.toNat)
          ∧ (∀ k < 4, t.pinsLocked k = d.pinsLocked k) ∧ page t)
        ∧ (spGet (fun _ => none) d.gpio.armed b = some (r, mask.toNat) → Does (.gpioLock r b mask) s (fun t =>
            t.pinsLocked b = d.pinsLocked b ||| mask.toNat ∧ (∀ k < 4, k ≠ b.val → t.pinsLocked k = d.pinsLocked k) ∧ page t))
        ∧ (spGet (fun _ => none) d.gpio.armed b ≠ some (r, mask.toNat) → Does (.gpioLock r b mask) s (fun t =>
            (∀ k < 4, t.pinsLocked k = d.pinsLocked k) ∧ page t)))

/-! ### Serial ports -/

/-- Registers that k names, and what the serial ports hold, differ; nothing else. -/
def lspOnly (k : Nat → Nat → Prop) (d t : Dev) : Prop :=
  d.regsBut k t ∧ d.sameMem t ∧ { t.hidden with lsp := d.lsp } = d.hidden

/-- The UART (R532 to R535): bytes join a FIFO with room, else nothing moves and the overflow shows; four bytes or one are taken,
or the underflow shows; a character arrives with its errors; the oldest byte leaves.
The model's own readings and choices in it: assumption log 17. Commands it says complete: uartTx4, uartTx1, uartRx4, uartRx1,
uartRxByte, uartTxByte. -/
def Claims.Uart : Prop :=
  ∀ (s : State), s.sound →
    let d := s.dev
    let p := pgLSP
    let err := fun (n : Nat) (t : Dev) => t.rdB p Reg.UART_STAT n = true ∧ t.rdB p Reg.IRQ_STAT 2 = true
      ∧ d.onlyRegs (fun q o => q = p ∧ (o = Reg.UART_STAT ∨ o = Reg.IRQ_STAT)) t
    let irq := fun (q o : Nat) => q = p ∧ o = Reg.IRQ_STAT
    let none_ := fun (_ _ : Nat) => False
    (∀ r, s.reaches r →
      (∀ v : Word, (d.lsp.utx.length + 4 ≤ 64 → Does (.uartTx4 r v) s (fun t => t.lsp.utx = d.lsp.utx ++ leBytes 4 v.toNat
          ∧ lspOnly none_ d t))
        ∧ (64 < d.lsp.utx.length + 4 → Does (.uartTx4 r v) s (err 16)))
      ∧ (∀ b : Byte, (d.lsp.utx.length < 64 → Does (.uartTx1 r b) s (fun t => t.lsp.utx = d.lsp.utx ++ [b]
          ∧ lspOnly none_ d t))
        ∧ (64 ≤ d.lsp.utx.length → Does (.uartTx1 r b) s (err 16)))
      ∧ (4 ≤ d.lsp.urx.length → Does (.uartRx4 r) s (fun t => t.lsp.urx = d.lsp.urx.drop 4
          ∧ t.answer = .data ((word (ofLe ((d.lsp.urx.take 4).map (fun e => e.1)))).setWidth 64) ∧ lspOnly none_ d t))
      ∧ (d.lsp.urx.length < 4 → Does (.uartRx4 r) s (err 17))
      ∧ (d.lsp.urx = [] → Does (.uartRx1 r) s (fun t => t.answer = .data 0 ∧ d.onlyRegs none_ t))
      ∧ (∀ b flags rest, d.lsp.urx = (b, flags) :: rest → Does (.uartRx1 r) s (fun t => t.lsp.urx = rest
          ∧ t.answer = .data ((word (b.toNat + 0x100 + flags * 0x200)).setWidth 64) ∧ lspOnly none_ d t)))
    ∧ (∀ b pe fe br, d.rdB p Reg.UART_CTL 0 = false → Does (.uartRxByte b pe fe br) s (fun t => d.onlyRegs none_ t))
    ∧ (∀ b pe fe br, d.rdB p Reg.UART_CTL 0 = true →
        (64 ≤ d.lsp.urx.length → Does (.uartRxByte b pe fe br) s (err 18))
        ∧ (d.lsp.urx.length < 64 → Does (.uartRxByte b pe fe br) s (fun t =>
          t.lsp.urx = d.lsp.urx ++ [(d.uartBits b, pe.toNat + 2 * fe.toNat + 4 * br.toNat)]
          ∧ t.rdB p Reg.IRQ_STAT 1 = true ∧ ((pe || fe || br) = true → t.rdB p Reg.IRQ_STAT 2 = true) ∧ lspOnly irq d t)))
    ∧ (∀ b rest, d.lsp.utx = b :: rest → d.rdB p Reg.UART_CTL 0 = true → d.uartHeld = false → s.dev.frozen pgLSP = false → Does .uartTxByte s (fun t => t.lsp.utx = rest
        ∧ t.outs = [.uart (d.uartBits b)] ∧ t.rdB p Reg.IRQ_STAT 0 = true ∧ lspOnly irq d t))
    ∧ (d.lsp.utx = [] ∨ d.rdB p Reg.UART_CTL 0 = false ∨ d.uartHeld = true → s.dev.frozen pgLSP = false → Does .uartTxByte s (fun t => d.onlyRegs none_ t))

/-- xSPI and I3C (R532 to R535): a command starts a transfer where none is in progress and the controller is on; words enter and
leave the FIFOs, or the overflow or underflow shows; a transfer that ends gives or takes its bytes and raises DONE; in-band
interrupts queue and are read.
The model's own readings and choices in it: assumption log 17. Commands it says complete: xspiCmd, i3cCmd, xspiDataPush,
i3cDataPush, xspiDataPop, i3cDataPop, i3cIbi, xspiDone, i3cDone, ibiRx. -/
def Claims.XspiAndI3c : Prop :=
  ∀ (s : State), s.sound →
    let d := s.dev
    let p := pgLSP
    let err := fun (off n i : Nat) (t : Dev) => t.rdB p off n = true ∧ t.rdB p Reg.IRQ_STAT i = true
      ∧ d.onlyRegs (fun q o => q = p ∧ (o = off ∨ o = Reg.IRQ_STAT)) t
    let none_ := fun (_ _ : Nat) => False
    let nothing := fun (t : Dev) => d.onlyRegs none_ t
    (∀ r, s.reaches r →
      (∀ v : Word,
        ((d.rdB p Reg.XSPI_CTL 0 && d.lsp.xfer.isNone) = true → Does (.xspiCmd r v) s (fun t =>
          t.lsp.xfer = some (v &&& 0x7FFFFF) ∧ lspOnly none_ d t))
        ∧ ((d.rdB p Reg.XSPI_CTL 0 && d.lsp.xfer.isNone) = false → Does (.xspiCmd r v) s nothing)
        ∧ ((d.rdB p Reg.I3C_CTL 0 && d.lsp.ixfer.isNone) = true → Does (.i3cCmd r v) s (fun t =>
          t.lsp.ixfer = some (v &&& 0x3FFFFFF) ∧ lspOnly none_ d t))
        ∧ ((d.rdB p Reg.I3C_CTL 0 && d.lsp.ixfer.isNone) = false → Does (.i3cCmd r v) s nothing)
        ∧ (d.lsp.xfifo.length + 4 ≤ 256 → Does (.xspiDataPush r v) s (fun t => t.lsp.xfifo = d.lsp.xfifo ++ leBytes 4 v.toNat
          ∧ lspOnly none_ d t))
        ∧ (256 < d.lsp.xfifo.length + 4 → Does (.xspiDataPush r v) s (err Reg.XSPI_STAT 10 10))
        ∧ (d.lsp.ififo.length + 4 ≤ 32 → Does (.i3cDataPush r v) s (fun t => t.lsp.ififo = d.lsp.ififo ++ leBytes 4 v.toNat
          ∧ lspOnly none_ d t))
        ∧ (32 < d.lsp.ififo.length + 4 → Does (.i3cDataPush r v) s (err Reg.I3C_STAT 10 18)))
      ∧ (4 ≤ d.lsp.xfifo.length → Does (.xspiDataPop r) s (fun t => t.lsp.xfifo = d.lsp.xfifo.drop 4
          ∧ t.answer = .data ((word (ofLe (d.lsp.xfifo.take 4))).setWidth 64) ∧ lspOnly none_ d t))
      ∧ (d.lsp.xfifo.length < 4 → Does (.xspiDataPop r) s (err Reg.XSPI_STAT 11 10))
      ∧ (4 ≤ d.lsp.ififo.length → Does (.i3cDataPop r) s (fun t => t.lsp.ififo = d.lsp.ififo.drop 4
          ∧ t.answer = .data ((word (ofLe (d.lsp.ififo.take 4))).setWidth 64) ∧ lspOnly none_ d t))
      ∧ (d.lsp.ififo.length < 4 → Does (.i3cDataPop r) s (err Reg.I3C_STAT 11 18))
      ∧ (d.lsp.ibis = [] → Does (.i3cIbi r) s (fun t => t.answer = .data 0 ∧ nothing t))
      ∧ (∀ a b rest, d.lsp.ibis = (a, b) :: rest → Does (.i3cIbi r) s (fun t => t.lsp.ibis = rest
          ∧ t.answer = .data ((word (a % 128 + b.toNat * 256 + 0x10000)).setWidth 64) ∧ lspOnly none_ d t)))
    ∧ (∀ rx c, d.lsp.xfer = some c →
        let len := d.rdF p Reg.XSPI_LEN 15 0
        (d.rdB p Reg.XSPI_LEN 16 = true → s.dev.frozen pgLSP = false → Does (.xspiDone rx) s (fun t => t.lsp.xfer = none
          ∧ t.outs = [.xspi c (d.lsp.xfifo.take len)] ∧ t.lsp.xfifo = d.lsp.xfifo.drop len ∧ t.rdB p Reg.IRQ_STAT 11 = true
          ∧ lspOnly (fun q o => q = p ∧ o = Reg.IRQ_STAT) d t))
        ∧ (d.rdB p Reg.XSPI_LEN 16 = false → s.dev.frozen pgLSP = false → Does (.xspiDone rx) s (fun t => t.lsp.xfer = none ∧ t.outs = [.xspi c []]
          ∧ t.lsp.xfifo = (d.lsp.xfifo ++ rx.take len).take 256 ∧ t.rdB p Reg.IRQ_STAT 11 = true
          ∧ lspOnly (fun q o => q = p ∧ (o = Reg.IRQ_STAT ∨ o = Reg.XSPI_STAT)) d t)))
    ∧ (∀ rx, d.lsp.xfer = none → s.dev.frozen pgLSP = false → Does (.xspiDone rx) s nothing)
    ∧ (∀ nack arb rx, d.lsp.ixfer = none → s.dev.frozen pgLSP = false → Does (.i3cDone nack arb rx) s nothing)
    ∧ (∀ nack arb rx c, d.lsp.ixfer = some c → s.dev.frozen pgLSP = false → Does (.i3cDone nack arb rx) s (fun t => t.lsp.ixfer = none
        ∧ t.rdB p Reg.IRQ_STAT 19 = true
        ∧ (nack = true → t.rdB p Reg.I3C_STAT 8 = true) ∧ (arb = true → t.rdB p Reg.I3C_STAT 9 = true)
        ∧ t.lsp.ififo = (if (nack || arb) = true then d.lsp.ififo
            else if bit c 7 = true then (d.lsp.ififo ++ rx.take (field c 23 8)).take 32 else d.lsp.ififo.drop (field c 23 8))
        ∧ lspOnly (fun q o => q = p ∧ (o = Reg.IRQ_STAT ∨ o = Reg.I3C_STAT)) d t))
    ∧ (∀ (addr : BitVec 7) (b : Byte),
        ((d.rdB p Reg.I3C_CTL 0 && d.rdB p Reg.I3C_CTL 1) = true → Does (.ibiRx addr b) s (fun t =>
          t.lsp.ibis = d.lsp.ibis ++ [(addr.toNat, b)] ∧ t.rdB p Reg.IRQ_STAT 17 = true
          ∧ lspOnly (fun q o => q = p ∧ o = Reg.IRQ_STAT) d t))
        ∧ ((d.rdB p Reg.I3C_CTL 0 && d.rdB p Reg.I3C_CTL 1) = false → Does (.ibiRx addr b) s nothing))

/-- USB ports (R536, R537) and MDIO (R541): a device shows while its port works; its reports become counted events; it goes; an
overcurrent cuts the power. One MDIO operation is in progress at a time, and a read's data arrives with its end.
The model's own readings and choices in it: assumption log 34. Commands it says complete: attach, detach, usbReport,
overcurrent, mdioCmd, mdioDone. -/
def Claims.UsbAndMdio : Prop :=
  ∀ (k : Fin 2) (s : State), s.sound →
    let d := s.dev
    let p := pgUSB
    let m := pgMGMT
    let drop := d.rd64 p Reg.USB_DROPPED
    (∀ (speed : Fin 3) (dev : UsbDev),
      let kind := match dev with
        | .keyboard => 1
        | .mouse => 2
        | .other => 3
      (d.usbLive k = true → Does (.attach k speed dev) s (fun t => t.rdB p (usbStat k) 0 = true
        ∧ t.rdF p (usbStat k) 2 1 = speed.val ∧ t.usbKind k = kind ∧ t.rdB p Reg.IRQ_STAT 0 = true
        ∧ (kind = 3 → t.rdB p Reg.IRQ_STAT 2 = true) ∧ t.usbLast k = []
        ∧ d.regsBut (fun q o => q = p ∧ (o = usbStat k ∨ o = Reg.IRQ_STAT)) t ∧ d.sameMem t))
      ∧ (d.usbLive k = false → Does (.attach k speed dev) s (fun t => d.onlyRegs (fun _ _ => False) t)))
    ∧ (d.rdB p (usbStat k) 0 = false → Does (.detach k) s (fun t => d.onlyRegs (fun _ _ => False) t))
    ∧ (d.rdB p (usbStat k) 0 = true → Does (.detach k) s (fun t => t.rdB p (usbStat k) 0 = false ∧ t.usbKind k = 0
        ∧ t.rdB p Reg.IRQ_STAT 1 = true ∧ t.usbLast k = []))
    ∧ (∀ rep, d.usbLive k = false → s.dev.frozen pgUSB = false → Does (.usbReport k rep) s (fun t => d.onlyRegs (fun _ _ => False) t))
    ∧ (∀ rep, d.usbLive k = true → d.usbKind k = 1 → (∃ b ∈ (rep.drop 2).take 6, b ≠ 1) → d.rdB p Reg.USB_CTL 1 = false →
        s.dev.frozen pgUSB = false → Does (.usbReport k rep) s (fun t => t.usbLast k = rep
          ∧ t.rd64 p Reg.USB_DROPPED = (drop + (keyChanges (d.usbLast k) rep).length) % 2 ^ 64 ∧ d.sameMem t))
    ∧ (∀ rep, d.usbLive k = true → d.usbKind k = 2 → rep.getD 1 0 ≠ 0 →
        (d.rdB p Reg.USB_CTL 1 = false → s.dev.frozen pgUSB = false → Does (.usbReport k rep) s (fun t => t.usbLast k = rep
          ∧ t.rd64 p Reg.USB_DROPPED = (drop + 1) % 2 ^ 64 ∧ d.sameMem t))
        ∧ (d.rdB p Reg.USB_CTL 1 = true → d.console d.usbHead ≠ 0 → s.dev.frozen pgUSB = false → Does (.usbReport k rep) s (fun t => t.usbLast k = rep
          ∧ t.rd64 p Reg.USB_EVENTS = (d.rd64 p Reg.USB_EVENTS + 1) % 2 ^ 64)))
    ∧ Does (.overcurrent k) s (fun t => t.rdB p (usbStat k) 6 = false ∧ t.rdB p (usbStat k) 5 = true
        ∧ t.rdB p Reg.IRQ_STAT 3 = true ∧ d.regsBut (fun q o => q = p ∧ (o = usbStat k ∨ o = Reg.IRQ_STAT)) t ∧ d.sameMem t)
    ∧ (∀ r v, s.reaches r →
        (d.mgmt.mdio = none → Does (.mdioCmd r v) s (fun t => t.mgmt.mdio = some (v &&& 0xFFFF0FFF)
          ∧ t.rdB m Reg.MDIO_STAT 0 = true ∧ t.outs = [.mdio (v &&& 0xFFFF0FFF)]
          ∧ d.regsBut (fun q o => q = m ∧ o = Reg.MDIO_STAT) t ∧ d.sameMem t))
        ∧ (d.mgmt.mdio ≠ none → Does (.mdioCmd r v) s (fun t => d.onlyRegs (fun _ _ => False) t)))
    ∧ (∀ (data : BitVec 16) c, d.mgmt.mdio = some c → s.dev.frozen pgMGMT = false → Does (.mdioDone data) s (fun t => t.mgmt.mdio = none
        ∧ t.rdB m Reg.MDIO_STAT 0 = false ∧ t.rdB m Reg.IRQ_STAT 5 = true
        ∧ (field c 11 10 = 2 → t.rdF m Reg.MDIO_STAT 31 16 = data.toNat)
        ∧ d.regsBut (fun q o => q = m ∧ (o = Reg.MDIO_STAT ∨ o = Reg.IRQ_STAT)) t ∧ d.sameMem t))

/-! ### Modes, resets, boot -/

/-- Mode requests (R543, R544, R562): each goes where R543 allows it and its conditions hold, else it is refused with its code
and the mode stays. REST holds every hart.
The model's own readings and choices in it: assumption log 49. Commands it says complete: requestService, requestDegraded,
requestDrain, requestRest. -/
def Claims.ModeRequests : Prop :=
  ∀ (r : Req) (s : State), s.sound → s.reaches r →
    let d := s.dev
    let p := pgSYS
    let m := d.mode
    let deg := d.rd p Reg.SYS_DEG_CAUSE ≠ 0
    let refused := fun (code : Nat) (t : Dev) => t.rdF p Reg.SYS_STAT 11 8 = code ∧ t.rdB p Reg.IRQ_STAT 1 = true
      ∧ d.onlyRegs (fun q o => q = p ∧ (o = Reg.SYS_STAT ∨ o = Reg.IRQ_STAT)) t
    let goes := fun (x : Nat) (t : Dev) => t.mode = x ∧ t.rdF p Reg.SYS_MODE 6 4 = m ∧ t.rdB p Reg.IRQ_STAT 0 = true
      ∧ d.onlyRegs (fun q o => q = p ∧ (o = Reg.SYS_MODE ∨ o = Reg.IRQ_STAT)) t
    (m = 2 → d.ddrReady = false → Does (.requestService r) s (refused 2) ∧ Does (.requestDegraded r) s (refused 2))
    ∧ (m = 2 → d.ddrReady = true → (¬deg → Does (.requestService r) s (goes 3)) ∧ (deg → Does (.requestService r) s (goes 4)))
    ∧ (m = 4 → (¬deg → Does (.requestService r) s (goes 3)) ∧ (deg → Does (.requestService r) s (refused 3)))
    ∧ (m = 5 → (¬deg → Does (.requestService r) s (goes 3)) ∧ (deg → Does (.requestService r) s (goes 4)))
    ∧ (m ≠ 2 → m ≠ 4 → m ≠ 5 → Does (.requestService r) s (refused 1))
    ∧ ((m = 2 ∧ d.ddrReady = true ∨ m = 3 ∨ m = 5) → d.rdB p Reg.SYS_DEG_CAUSE 4 = false → Does (.requestDegraded r) s (fun t =>
        t.mode = 4 ∧ t.rdF p Reg.SYS_MODE 6 4 = m ∧ t.rdB p Reg.SYS_DEG_CAUSE 4 = true
        ∧ d.onlyRegs (fun q o => q = p ∧ (o = Reg.SYS_MODE ∨ o = Reg.IRQ_STAT ∨ o = Reg.SYS_DEG_CAUSE)) t))
    ∧ (m ≠ 2 → m ≠ 3 → m ≠ 5 → Does (.requestDegraded r) s (refused 1))
    ∧ (m = 3 ∨ m = 4 → Does (.requestDrain r) s (goes 5))
    ∧ (m ≠ 3 → m ≠ 4 → Does (.requestDrain r) s (refused 1))
    ∧ (m ≠ 3 → m ≠ 4 → m ≠ 5 → Does (.requestRest r) s (refused 1))
    ∧ (m = 3 ∨ m = 4 ∨ m = 5 → (d.mf 3 = false → Does (.requestRest r) s (refused 5))
        ∧ (d.mf 3 = true → d.restReady = false → Does (.requestRest r) s (refused 4))
        ∧ (d.mf 3 = true → d.restReady = true → Does (.requestRest r) s (fun t => t.mode = 6
          ∧ (∀ c < 4, t.hartHeld c = true) ∧ t.clock.restAt = t.clock.base)))

/-- What a chip reset leaves (R543, R587, R589): mode ROOT, what holds the chip and why, memory but for DRAM, which reads 0, every
engine, head and link at rest, and every register at its reset value outside the pages that hold what is not reset. -/
def resetLeaves (d t : Dev) (hold causes : Nat) : Prop :=
  t.mode = 1 ∧ t.sys.hold = d.sys.hold ||| hold
    ∧ t.sys.causes = d.sys.causes ||| causes ||| (if d.mode = 7 then 32 else 0)
    ∧ (∀ a, t.byte a = if dramBase ≤ a ∧ a < dramEnd then 0 else d.byte a)
    ∧ (∀ e : Le, (t.eng e).st = .stopped) ∧ (∀ h : Head, (t.head h).adm = .off) ∧ (∀ l : Al, (t.link l).st = .down)
    ∧ ∀ p off, off < 4096 → p ≠ pgSYS → p ≠ pgSEC → p ≠ pgPWR → p ≠ pgPROF → (∀ n < 128, p ≠ pgHP n) →
        t.rd p off = resetWord (regKey p off)

/-- Chip resets (R543, R569, R570, R572, R589): the pin, a supply failure and the thermal trip leave what R589 says, held until
their cause ends; the end of the last one starts the boot with its entry and the causes; software's reset needs its key
and the chip out of LOCKOUT.
The model's own readings and choices in it: assumption log 45, 46. Commands it says complete: resetPin, pwrgoodFall,
supplyReset, thermalTrip, tripEnd, powerOnEnd, resetRelease, chipReset. -/
def Claims.ChipResets : Prop :=
  ∀ (s : State), s.sound →
    let d := s.dev
    let p := pgSYS
    let boots := fun (causes entry : Nat) (t : Dev) => t.sys.hold = 0 ∧ t.sys.causes = 0
      ∧ t.rd p Reg.SYS_RESET_CAUSE = word causes ∧ t.rdF p Reg.SYS_BOOT_STAT 2 0 = entry ∧ t.rdB pgSEC Reg.SEC_STAT 0 = true
    Does .resetPin s (fun t => resetLeaves d t 2 8)
    ∧ Does .pwrgoodFall s (fun t => resetLeaves d t 1 d.supplyCause)
    ∧ (d.mramBlocked = true → Does .supplyReset s (fun t => resetLeaves d t 1 d.supplyCause ∧ t.ram.mramBuf = []))
    ∧ (∀ temp : BitVec 16,
        (1000 ≤ temp.toInt → d.mode ≠ 7 → Does (.thermalTrip temp) s (fun t => resetLeaves d t 4 4
          ∧ t.rd pgPWR Reg.PWR_TEMP = word temp.toNat))
        ∧ (temp.toInt < 1000 ∨ d.mode = 7 → Does (.thermalTrip temp) s (fun t => d.onlyRegs (fun _ _ => False) t))
        ∧ (temp.toInt < 920 → d.sys.hold = 4 → Does (.tripEnd temp) s (boots d.sys.causes 1))
        ∧ (temp.toInt < 920 → d.sys.hold.testBit 2 = true → d.sys.hold ≠ 4 → Does (.tripEnd temp) s (fun t =>
            t.sys.hold = d.sys.hold ^^^ 4 ∧ d.regsBut (fun q o => q = pgPWR ∧ o = Reg.PWR_TEMP) t ∧ d.sameMem t))
        ∧ (920 ≤ temp.toInt ∨ d.sys.hold.testBit 2 = false → Does (.tripEnd temp) s (fun t =>
            d.onlyRegs (fun _ _ => False) t)))
    ∧ (∀ strap,
        (d.sys.hold = 1 → Does (.powerOnEnd strap) s (boots d.sys.causes 0))
        ∧ (d.sys.hold ≠ 1 → Does (.powerOnEnd strap) s (fun t => d.onlyRegs (fun _ _ => False) t))
        ∧ (d.sys.hold = 2 → Does (.resetRelease strap) s (boots d.sys.causes 1))
        ∧ (d.sys.hold.testBit 1 = true → d.sys.hold ≠ 2 → Does (.resetRelease strap) s (fun t =>
            t.sys.hold = d.sys.hold ^^^ 2 ∧ d.regsBut (fun _ _ => False) t ∧ d.sameMem t))
        ∧ (d.sys.hold.testBit 1 = false → Does (.resetRelease strap) s (fun t => d.onlyRegs (fun _ _ => False) t)))
    ∧ (∀ r v, s.reaches r →
        (field v 31 24 = 0xA5 → bit v 1 = true → d.mode ≠ 7 → d.sys.hold = 0 → Does (.chipReset r v) s
          (boots (d.sys.causes ||| 16) 1))
        ∧ (field v 31 24 ≠ 0xA5 → Does (.chipReset r v) s (fun t => t.mode = d.mode ∧ t.sys.hold = d.sys.hold
          ∧ t.rd p Reg.SYS_RESET_CAUSE = d.rd p Reg.SYS_RESET_CAUSE ∧ t.rd p Reg.SYS_RESTARTS = d.rd p Reg.SYS_RESTARTS
          ∧ d.sameMem t)))

/-- Boot (R549, R567): power-on runs the image of the slot that the boot record names if it passes its checks, in mode BRINGUP
with the payload loaded; with both slots bad BOOT_STAT says so; then an image over the UART is checked the same way.
The model's own readings and choices in it: assumption log 43, 44. Commands it says complete: powerOnEnd, uartImage, trial,
bootOk. -/
def Claims.Boot : Prop :=
  ∀ (s : State), s.sound →
    let d := s.dev
    let p := pgSYS
    let slot := d.bootActive != d.bootTrial
    let a := d.slotImage slot
    let b := d.slotImage (!slot)
    let len := fun (hdr : List Byte) => ofLe ((hdr.drop 8).take 4)
    (∀ strap, d.sys.hold = 1 →
      (d.imageFail a.1 a.2 = 0 → Does (.powerOnEnd strap) s (fun t => t.mode = 2 ∧ t.rdB p Reg.SYS_BOOT_STAT 3 = slot
        ∧ t.rdB p Reg.SYS_BOOT_STAT 4 = d.bootTrial ∧ t.rdB p Reg.SYS_BOOT_STAT 6 = false
        ∧ t.bytes scratchBase (len a.1) = a.2 ∧ t.bootTrial = false ∧ t.bootActive = d.bootActive))
      ∧ (d.imageFail a.1 a.2 ≠ 0 → d.imageFail b.1 b.2 ≠ 0 → Does (.powerOnEnd strap) s (fun t => t.mode = d.mode
        ∧ t.rdB p Reg.SYS_BOOT_STAT 6 = true ∧ t.rdF p Reg.SYS_BOOT_STAT 11 8 = d.imageFail a.1 a.2)))
    ∧ (∀ img,
        let code := d.imageFail (img.take 256) (img.drop 256)
        (d.rdB p Reg.SYS_BOOT_STAT 6 = false → Does (.uartImage img) s (fun t => d.onlyRegs (fun _ _ => False) t))
        ∧ (d.rdB p Reg.SYS_BOOT_STAT 6 = true → code ≠ 0 → Does (.uartImage img) s (fun t =>
          t.rdF p Reg.SYS_BOOT_STAT 11 8 = code ∧ d.onlyRegs (fun q o => q = p ∧ o = Reg.SYS_BOOT_STAT) t))
        ∧ (d.rdB p Reg.SYS_BOOT_STAT 6 = true → code = 0 → Does (.uartImage img) s (fun t =>
          t.rdB p Reg.SYS_BOOT_STAT 6 = false ∧ (d.rdF p Reg.SYS_BOOT_STAT 2 0 < 3 → t.mode = 2)
          ∧ t.bytes scratchBase (len img) = (img.drop 256).take (len img))))
    ∧ (∀ r, s.reaches r →
        (d.mf 1 = true → Does (.trial r) s (fun t => t.bootTrial = true ∧ t.bootActive = d.bootActive
          ∧ d.regsBut (fun _ _ => False) t ∧ d.sameMem t))
        ∧ (d.mf 1 = false → Does (.trial r) s (fun t => d.onlyRegs (fun _ _ => False) t))
        ∧ Does (.bootOk r) s (fun t => t.bootActive = d.rdB p Reg.SYS_BOOT_STAT 3 ∧ t.bootTrial = d.bootTrial
          ∧ t.sys.trialAt = none ∧ d.regsBut (fun _ _ => False) t ∧ d.sameMem t))

/-- Core restarts (R564, R565, R567): by key, by the watchdog at its timeout, and 60 s after a trial boot; each is counted, shows
its entry, ends the management features, holds harts 1 to 3 and leaves the mode. A kick restarts the count; the warning
comes at half the timeout; features are negotiated by the subset and dependency rules (R52 to R54, R559).
The model's own readings and choices in it: assumption log 47, 48. Commands it says complete: restart, wdogExpiry, wdogWarn,
trialTimeout, wdogKick, mfOk. -/
def Claims.Restarts : Prop :=
  ∀ (s : State), s.sound →
    let d := s.dev
    let p := pgSYS
    let wdog := d.rdF p Reg.SYS_WDOG 15 0
    let restarts := fun (entry : Nat) (t : Dev) => t.rd p Reg.SYS_RESTARTS = d.rd p Reg.SYS_RESTARTS + 1
      ∧ t.rdF p Reg.SYS_BOOT_STAT 2 0 = entry ∧ t.rd p Reg.MF_NEG_LO = 0 ∧ t.mode = d.mode
      ∧ t.hartHeld 0 = false ∧ ∀ c < 4, 0 < c → t.hartHeld c = true
    (∀ r v, s.reaches r → field v 31 24 = 0xA5 → bit v 1 = false → bit v 0 = true → d.portsOff = false →
      Does (.restart r v) s (restarts 3))
    ∧ (d.wdogOn = true → Does .wdogExpiry s (fun t => restarts 4 t ∧ d.sys.wdogAt + wdog * 1200000 ≤ t.clock.base))
    ∧ (d.wdogOn = false → Does .wdogExpiry s (fun t => d.onlyRegs (fun _ _ => False) t)
        ∧ Does .wdogWarn s (fun t => d.onlyRegs (fun _ _ => False) t))
    ∧ (d.wdogOn = true → d.sys.wdogWarned = false → Does .wdogWarn s (fun t => t.rdB p Reg.IRQ_STAT 4 = true
        ∧ t.sys.wdogWarned = true ∧ d.sys.wdogAt + wdog * 600000 ≤ t.clock.base
        ∧ d.regsBut (fun q o => q = p ∧ o = Reg.IRQ_STAT) t ∧ d.sameMem t))
    ∧ (∀ t0, d.sys.trialAt = some t0 → d.portsOff = false → Does .trialTimeout s (fun t => restarts 5 t ∧ t0 + msBase 60000 ≤ t.clock.base))
    ∧ (d.sys.trialAt = none ∨ d.portsOff = true → Does .trialTimeout s (fun t => d.onlyRegs (fun _ _ => False) t))
    ∧ (∀ r, s.reaches r →
        (∀ v, Does (.wdogKick r v) s (fun t => t.sys.wdogAt = d.clock.base ∧ t.sys.wdogWarned = false
          ∧ d.regsBut (fun _ _ => False) t ∧ d.sameMem t))
        ∧ (d.rdB p Reg.MF_CTL 0 = true → Does (.mfOk r) s (fun t => d.onlyRegs (fun _ _ => False) t))
        ∧ (let c := d.rd64 p Reg.MF_CHOICE_LO
           let code := if c &&& d.rd64 p Reg.MF_OFFER_LO ≠ c then 1 else if c.testBit 1 && !c.testBit 0 then 2 else 0
           d.rdB p Reg.MF_CTL 0 = false →
             (code = 0 → Does (.mfOk r) s (fun t => t.rdB p Reg.MF_CTL 0 = true ∧ t.rd p Reg.MF_STAT = 1
               ∧ t.rd64 p Reg.MF_NEG_LO = c ∧ t.rdB p Reg.IRQ_STAT 5 = true ∧ d.sameMem t))
             ∧ (code ≠ 0 → Does (.mfOk r) s (fun t => t.rd p Reg.MF_STAT = word (2 + 256 * code)
               ∧ t.rdB p Reg.IRQ_STAT 5 = true
               ∧ d.onlyRegs (fun q o => q = p ∧ (o = Reg.MF_STAT ∨ o = Reg.IRQ_STAT)) t))))

/-! ### Security and debug -/

/-- SEC commands (R550, R557, R558, R575): EXTEND hashes MEAS with the input words; QUOTE writes 160 bytes where the nonce stood,
or is refused with its code; EPOCH never lowers the OTP epoch.
The model's own readings and choices in it: assumption log 39, 50. Commands it says complete: extend, quote, epoch. -/
def Claims.Measurement : Prop :=
  ∀ (r : Req) (s : State), s.sound → s.reaches r →
    let d := s.dev
    let p := pgSEC
    let input := (List.range 8).flatMap (fun i => leBytes 4 (d.rdN p (Reg.MEAS_IN + 4 * i)))
    let ends := fun (result : Nat) (t : Dev) => t.rd p Reg.SEC_CMD_STAT = word (16 * result) ∧ t.rdB p Reg.IRQ_STAT 0 = true
    Does (.extend r) s (fun t => ends 0 t
      ∧ (∀ i < 8, t.rd p (Reg.MEAS + 4 * i) = word (ofLe ((((Config.sm3 (d.meas ++ input)).take 32).drop (4 * i)).take 4)))
      ∧ d.onlyRegs (fun q o => q = p ∧ (o = Reg.SEC_CMD_STAT ∨ o = Reg.IRQ_STAT ∨ ∃ i < 8, o = Reg.MEAS + 4 * i)) t)
    ∧ (d.canQuote = false → Does (.quote r) s (fun t => ends 2 t
        ∧ d.onlyRegs (fun q o => q = p ∧ (o = Reg.SEC_CMD_STAT ∨ o = Reg.IRQ_STAT)) t))
    ∧ (d.canQuote = true → d.secBuf 160 = none → Does (.quote r) s (fun t => ends 3 t
        ∧ d.onlyRegs (fun q o => q = p ∧ (o = Reg.SEC_CMD_STAT ∨ o = Reg.IRQ_STAT)) t))
    ∧ (∀ a, d.canQuote = true → d.secBuf 160 = some a → Does (.quote r) s (fun t => ends 0 t
        ∧ t.bytes a 96 = d.quoteBytes (d.bytes a 32) ∧ d.sameMemBut a 160 t
        ∧ d.regsBut (fun q o => q = p ∧ (o = Reg.SEC_CMD_STAT ∨ o = Reg.IRQ_STAT)) t))
    ∧ Does (.epoch r) s (fun t => ends 0 t
        ∧ t.rdF p Reg.SEC_STAT 21 16 = max (d.rdF p Reg.SEC_STAT 21 16) (field d.sys.image 31 26)
        ∧ d.onlyRegs (fun q o => q = p ∧ (o = Reg.SEC_CMD_STAT ∨ o = Reg.IRQ_STAT ∨ o = Reg.SEC_STAT)) t)

/-- Debug unlock (R556, R560, R561): a token that passes opens debug access, ends the keys and zeroes the command buffers; one
that fails is counted, the eighth locks, and a new challenge stands; while locked or in LOCKOUT a token is refused.
The model's own readings and choices in it: assumption log 5, 50. Commands it says complete: unlockToken, unlock, unlockChal. -/
def Claims.DebugUnlock : Prop :=
  ∀ (s : State), s.sound →
    let d := s.dev
    let p := pgSEC
    let shut := d.rdB p Reg.SEC_STAT 3 || d.mode == 7
    let opened := fun (t : Dev) => t.dbgOpen = true ∧ t.rdB p Reg.SEC_STAT 0 = false ∧ t.rdB p Reg.IRQ_STAT 1 = true
      ∧ (∀ a, secBufBase ≤ a → a < secBufBase + 0x10000 → t.byte a = 0)
    let n := d.rdF p Reg.SEC_STAT 11 8 + 1
    let failed := fun (t : Dev) => t.rdF p Reg.SEC_STAT 11 8 = min n 15 ∧ t.rdB p Reg.SEC_STAT 3 = decide (8 ≤ n)
      ∧ t.rdB p Reg.IRQ_STAT 2 = true ∧ t.dbgOpen = d.dbgOpen ∧ d.sameMem t
    (∀ token : List Byte,
      (shut = true → Does (.unlockToken token) s (fun t => d.onlyRegs (fun _ _ => False) t))
      ∧ (shut = false → d.tokenOk token = true → Does (.unlockToken token) s opened)
      ∧ (shut = false → d.tokenOk token = false → Does (.unlockToken token) s failed))
    ∧ (∀ r, s.reaches r →
        (d.secBuf 176 = none → Does (.unlock r) s (fun t => t.rd p Reg.SEC_CMD_STAT = 48
          ∧ d.onlyRegs (fun q o => q = p ∧ (o = Reg.SEC_CMD_STAT ∨ o = Reg.IRQ_STAT)) t))
        ∧ ∀ a, d.secBuf 176 = some a →
          (shut = true → Does (.unlock r) s (fun t => t.rd p Reg.SEC_CMD_STAT = 32
            ∧ d.onlyRegs (fun q o => q = p ∧ (o = Reg.SEC_CMD_STAT ∨ o = Reg.IRQ_STAT)) t))
          ∧ (shut = false → d.tokenOk (d.bytes a 176) = true → Does (.unlock r) s (fun t => opened t
            ∧ t.rd p Reg.SEC_CMD_STAT = 0))
          ∧ (shut = false → d.tokenOk (d.bytes a 176) = false → Does (.unlock r) s (fun t => failed t
            ∧ t.rd p Reg.SEC_CMD_STAT = 48)))
    ∧ Does .unlockChal s (fun t => t.outs = [.tap ((List.range 8).flatMap (fun i => leBytes 4 (d.rdN p (Reg.DBG_CHAL + 4 * i))))]
        ∧ d.onlyRegs (fun _ _ => False) t)

/-- Tamper (R568, R569): a sensor that is not armed does nothing; an armed one brings LOCKOUT, its record, the end of the keys,
zeroes in the secure scratch, and every hart held.
The model's own readings and choices in it: assumption log 20, 49. Commands it says complete: tamper. -/
def Claims.Tamper : Prop :=
  ∀ (sensors : BitVec 7) (s : State), s.sound →
    let d := s.dev
    let p := pgSEC
    let fired := sensors.toNat &&& (d.rdF p Reg.SEC_TAMP_EN 3 0 + (if d.clock.aonReady then 0x70 else 0))
    (fired = 0 → Does (.tamper sensors) s (fun t => d.onlyRegs (fun _ _ => False) t))
    ∧ (fired ≠ 0 → Does (.tamper sensors) s (fun t => t.mode = 7
        ∧ t.rd p Reg.SEC_TAMP_REC = d.rd p Reg.SEC_TAMP_REC ||| word fired
        ∧ t.rdB p Reg.SEC_STAT 0 = false ∧ t.rdB p Reg.SEC_STAT 2 = true
        ∧ (∀ a, scratchBase ≤ a → a < secureEnd → t.byte a = 0) ∧ ∀ c < 4, t.hartHeld c = true))

/-- The debug module (R502 to R504) while debug access is open: a hart out of reset halts, and resumes or runs one instruction;
a dmi operation is done, and the module's data word reads what was written while the module is active.
The model's own readings and choices in it: assumption log 41. Commands it says complete: debugHalt, debugResume,
dmiOperation. -/
def Claims.DebugModule : Prop :=
  ∀ (s : State), s.sound → s.dev.dbgOpen = true →
    let d := s.dev
    (∀ c : Hart,
      (d.hartHeld c = true → Does (.debugHalt c) s (fun t => d.onlyRegs (fun _ _ => False) t))
      ∧ (d.hartHeld c = false → Does (.debugHalt c) s (fun t => t.sys.haltedHarts = d.sys.haltedHarts ||| 2 ^ c.val
          ∧ d.regsBut (fun q _ => ∃ e < 32, q = pgLE e) t ∧ d.sameMem t))
      ∧ (∀ one, d.sys.haltedHarts.testBit c = false → Does (.debugResume c one) s (fun t => d.onlyRegs (fun _ _ => False) t))
      ∧ (∀ one, d.sys.haltedHarts.testBit c = true → Does (.debugResume c one) s (fun t =>
          t.sys.haltedHarts = (if one = true then d.sys.haltedHarts else d.sys.haltedHarts ^^^ 2 ^ c.val)
          ∧ d.regsBut (fun q _ => ∃ e < 32, q = pgLE e) t ∧ d.sameMem t)))
    ∧ (∀ a v, Does (.dmiOperation .nop a v) s (fun t => t.answer = .done ∧ d.onlyRegs (fun _ _ => False) t))
    ∧ (d.dmActive = true → ∀ v, Does (.dmiOperation .write 4 v) s (fun t => t.dm dmData0 = v ∧ t.answer = .done
        ∧ d.regsBut (fun _ _ => False) t ∧ d.sameMem t)
      ∧ Does (.dmiOperation .read 4 v) s (fun t => t.answer = .data ((d.dm dmData0).setWidth 64)
        ∧ d.onlyRegs (fun _ _ => False) t))

/-- Accesses of a core (R422 to R424): of a size that does not exist, a fault; where no memory is, an access fault with no effect;
in DRAM a load answers the bytes, a store writes them, LR reserves, and SC stores only under its reservation.
The model's own readings and choices in it: assumption log 2, 40, 55. Commands it says complete: coreMemoryAccess. -/
def Obligations.CoreAccesses : Prop :=
  ∀ (c : Hart) (addr : BitVec 48) (size : Nat) (s : State), s.sound →
    let d := s.dev
    let a := addr.toNat
    (∀ acc, accSize size acc = false → Does (.coreMemoryAccess c addr size acc) s (fun t =>
      t.answer = .accessFault ∧ d.onlyRegs (fun _ _ => False) t))
    ∧ (∀ acc, accSize size acc = true → d.spot a = none → Does (.coreMemoryAccess c addr size acc) s (fun t =>
        t.answer = .accessFault ∧ d.onlyRegs (fun _ _ => False) t))
    ∧ (d.inDram a size = true →
        (accSize size .load = true →
          (d.poisoned a size = false → Does (.coreMemoryAccess c addr size .load) s (fun t =>
            t.answer = .data (BitVec.ofNat 64 (d.num a size)) ∧ d.onlyRegs (fun _ _ => False) t))
          ∧ ∀ v : DWord, Does (.coreMemoryAccess c addr size (.store v)) s (fun t => t.answer = .done
            ∧ t.bytes a size = leBytes size v.toNat ∧ d.sameMemBut a size t))
        ∧ (accSize size .lr = true → a % size = 0 →
          (d.poisoned a size = false → Does (.coreMemoryAccess c addr size .lr) s (fun t =>
            t.answer = .data (BitVec.ofNat 64 (d.num a size)) ∧ (c.val, a / 64) ∈ t.resv ∧ d.regsBut (fun _ _ => False) t
            ∧ d.sameMem t))
          ∧ ∀ v : DWord,
            ((c.val, a / 64) ∈ d.resv → Does (.coreMemoryAccess c addr size (.sc v)) s (fun t => t.answer = .data 0
              ∧ (∀ x ∈ t.resv, x.1 ≠ c.val) ∧ t.bytes a size = leBytes size v.toNat ∧ d.sameMemBut a size t))
            ∧ ((c.val, a / 64) ∉ d.resv → Does (.coreMemoryAccess c addr size (.sc v)) s (fun t => t.answer = .data 1
              ∧ (∀ x ∈ t.resv, x.1 ≠ c.val) ∧ d.regsBut (fun _ _ => False) t ∧ d.sameMem t))))

/-! ### Profiles, supplies, the always-on domain -/

/-- Profile commands (R552, R554, R555, R576): each is refused with its result, or a blob is installed and its validity shown; a
switch is recorded until it is cancelled or applied.
The model's own readings and choices in it: assumption log 35, 51. Commands it says complete: profWrite, profSwitch,
profCancel, applied. -/
def Obligations.Profiles : Prop :=
  ∀ (r : Req) (slot : Fin 4) (s : State), s.sound → s.reaches r →
    let d := s.dev
    let p := pgPROF
    let n := d.rdN p Reg.PROF_LEN
    let a := d.rd64 p Reg.PROF_SRC_LO
    let ends := fun (result irq : Nat) (t : Dev) => t.rdF p Reg.PROF_STAT 7 4 = result ∧ t.rdB p Reg.IRQ_STAT irq = true
      ∧ d.onlyRegs (fun q o => q = p ∧ (o = Reg.PROF_STAT ∨ o = Reg.IRQ_STAT)) t
    (d.profState ≠ 0 → Does (.profWrite r slot) s (ends 1 2))
    ∧ (d.profState = 0 → d.activeSlot = some slot.val → Does (.profWrite r slot) s (ends 4 2))
    ∧ (d.profState = 0 → d.activeSlot ≠ some slot.val →
        ((profLenOk n && d.inDram a n) = false → Does (.profWrite r slot) s (ends 2 2))
        ∧ ((profLenOk n && d.inDram a n) = true → d.poisoned a n = false → Does (.profWrite r slot) s (fun t =>
          t.mramBytes (profOff slot) n = d.bytes a n ∧ t.rdB p Reg.PROF_VALID slot = blobOk (t.profBlob slot)
          ∧ t.rdF p Reg.PROF_STAT 7 4 = (if blobOk (t.profBlob slot) = true then 0 else 2) ∧ d.sameMem t)))
    ∧ (d.mf 2 = false → Does (.profSwitch r slot) s (ends 5 2))
    ∧ (d.mf 2 = true → d.profState ≠ 0 → Does (.profSwitch r slot) s (ends 1 2))
    ∧ (d.mf 2 = true → d.profState = 0 →
        (blobOk (d.profBlob slot) = false → Does (.profSwitch r slot) s (ends 2 2))
        ∧ (blobOk (d.profBlob slot) = true →
          (d.switchFrozen d.activeBlob (d.profBlob slot) = true → Does (.profSwitch r slot) s (ends 3 2))
          ∧ (d.switchFrozen d.activeBlob (d.profBlob slot) = false → Does (.profSwitch r slot) s (fun t => t.profState = 2
            ∧ t.rdB p Reg.PROF_STAT 2 = profChipDiff d.activeBlob (d.profBlob slot) ∧ t.sys.profSlot = slot.val ∧ d.sameMem t))))
    ∧ (d.profState = 2 → Does (.profCancel r) s (fun t => t.profState = 0 ∧ ends 6 0 t))
    ∧ (d.profState ≠ 2 → Does (.profCancel r) s (ends 1 2))
    ∧ ((decide (d.profState = 2) && d.switchReady) = false → Does .applied s (fun t => d.onlyRegs (fun _ _ => False) t))
    ∧ (d.profState = 2 → d.switchReady = true → Does .applied s (fun t => t.rd p Reg.PROF_STAT = 0
        ∧ t.rdF p Reg.PROF_ACTIVE 1 0 = d.sys.profSlot % 4 ∧ t.rdB p Reg.IRQ_STAT 1 = true))

/-- Supplies and temperature (R571, R572) and the always-on domain (R563, R591): a warning and its recovery, each shown once; heat
above and below its levels; SCLK ready; the crystal's failure holds the chip; an enabled source wakes it from REST.
The model's own readings and choices in it: assumption log 49, 52. Commands it says complete: pwrWarn, pwrRecover, thermWarn,
thermOk, aonReady, crystalTimeout, wake. -/
def Claims.PowerAndWake : Prop :=
  ∀ (s : State), s.sound →
    let d := s.dev
    let p := pgPWR
    let low := d.rdB p Reg.PWR_STAT 0
    let none_ := fun (t : Dev) => d.onlyRegs (fun _ _ => False) t
    (∀ mv : BitVec 12,
      (700 ≤ mv.toNat → Does (.pwrWarn true false mv) s none_)
      ∧ (mv.toNat < 700 → Does (.pwrWarn true false mv) s (fun t => t.rd p Reg.PWR_VCORE = word mv.toNat
          ∧ t.rdB p Reg.PWR_STAT 0 = (low || true) ∧ t.rdB p Reg.PWR_STAT 1 = true
          ∧ t.sys.dipMin = (if low = true then min d.sys.dipMin mv.toNat else mv.toNat)
          ∧ (low = false → t.rdB p Reg.IRQ_STAT 0 = true ∧ t.rdB pgMRAM Reg.IRQ_STAT 0 = true)
          ∧ d.regsBut (fun q o => q = p ∧ (o = Reg.PWR_VCORE ∨ o = Reg.PWR_STAT ∨ o = Reg.IRQ_STAT)
              ∨ q = pgMRAM ∧ o = Reg.IRQ_STAT) t ∧ d.sameMem t)))
    ∧ (low = false → Does .pwrRecover s none_)
    ∧ (low = true → d.rdB pgFAB Reg.RT_CTL 5 = false → Does .pwrRecover s (fun t => t.rdF p Reg.PWR_STAT 2 0 = 0
        ∧ t.rd p Reg.PWR_DIPS = d.rd p Reg.PWR_DIPS + 1 ∧ t.rd p Reg.PWR_DIP_MIN = word d.sys.dipMin
        ∧ t.rdB p Reg.IRQ_STAT 1 = true ∧ t.rdB pgMRAM Reg.IRQ_STAT 1 = true
        ∧ d.regsBut (fun q o => q = p ∨ q = pgMRAM ∧ o = Reg.IRQ_STAT) t ∧ d.sameMem t))
    ∧ (∀ temp : BitVec 16,
        let heat := fun (hot : Bool) (irq : Nat) (t : Dev) => t.rd p Reg.PWR_TEMP = word temp.toNat
          ∧ t.rdB p Reg.PWR_STAT 3 = hot ∧ t.rdB p Reg.IRQ_STAT irq = true
          ∧ d.onlyRegs (fun q o => q = p ∧ (o = Reg.PWR_TEMP ∨ o = Reg.PWR_STAT ∨ o = Reg.IRQ_STAT)) t
        (d.rdB p Reg.PWR_STAT 3 = false → 920 ≤ temp.toInt → Does (.thermWarn temp) s (heat true 2))
        ∧ (d.rdB p Reg.PWR_STAT 3 = true ∨ temp.toInt < 920 → Does (.thermWarn temp) s none_)
        ∧ (d.rdB p Reg.PWR_STAT 3 = true → temp.toInt < 880 → Does (.thermOk temp) s (heat false 3))
        ∧ (d.rdB p Reg.PWR_STAT 3 = false ∨ 880 ≤ temp.toInt → Does (.thermOk temp) s none_))
    ∧ (d.clock.aonReady = false → Does .aonReady s (fun t => t.clock.aonReady = true ∧ t.aonCnt = 0
          ∧ d.regsBut (fun _ _ => False) t ∧ d.sameMem t)
        ∧ Does .crystalTimeout s (fun t => t.sys.hold.testBit 3 = true ∧ d.regsBut (fun _ _ => False) t ∧ d.sameMem t))
    ∧ (d.clock.aonReady = true → Does .aonReady s none_ ∧ Does .crystalTimeout s none_)
    ∧ (∀ src strap,
        let b := match src with
          | WakeSrc.perst _ => 0
          | .wakePin => 1
          | .alarm => 2
        (d.mode ≠ 6 ∨ d.rdB p Reg.PWR_WAKE_EN b = false → Does (.wake src strap) s none_)
        ∧ (d.mode = 6 → d.rdB p Reg.PWR_WAKE_EN b = true → Does (.wake src strap) s (fun t =>
          t.rd p Reg.PWR_WAKE_CAUSE = word (2 ^ b) ∧ t.rdF pgSYS Reg.SYS_BOOT_STAT 2 0 = 2 ∧ t.clock.started = false
          ∧ (t.mode = 1 ∨ t.mode = 2)
          ∧ (d.rd pgSEC Reg.SEC_TAMP_REC = 0 → ∀ a, dramBase ≤ a → t.byte a = d.byte a))))

/-! ### Claims stated together -/

/-- The state after reset: sound, and as the spec gives it. -/
def Obligations.AfterReset : Prop :=
  Claims.ResetSound ∧ Claims.ResetValues

/-- Who has no path to registers, the closed debug path, and what an open one does. -/
def Obligations.DebugPath : Prop :=
  Claims.NoPath ∧ Claims.DebugClosed ∧ Claims.DebugModule

/-- IRQ_SET, FENCE and the alias writes of a page. -/
def Obligations.PageWrites : Prop :=
  Claims.IrqSetAndFence ∧ Claims.AliasWrites

/-- BLK_CTL.ENABLE of the engines that have one, and the accounting words. -/
def Obligations.EnableAndCounters : Prop :=
  Claims.BlockEnable ∧ Claims.Accounting

/-- A lane's resets and its link. -/
def Obligations.LaneStates : Prop :=
  Claims.LaneResets ∧ Claims.LaneLinkUp

/-- What happens with no command, and the work of frozen blocks. -/
def Obligations.IdleAndFrozen : Prop :=
  Claims.IdleStep ∧ Claims.FrozenBlocksWait

/-- Resets of a lane's functions, and the clearing of allocations. -/
def Obligations.FunctionResetsAndClearing : Prop :=
  Claims.FunctionResets ∧ Claims.AllocClear

/-- COMMIT of a lane's oldest write. -/
def Obligations.Commits : Prop :=
  Claims.CommitLands ∧ Claims.CommitCounts

/-- A head's run: admission, and its end. -/
def Obligations.HeadRuns : Prop :=
  Claims.Admission ∧ Claims.HeadStops

/-- DMA channels and bursts. -/
def Obligations.DmaEngine : Prop :=
  Claims.DmaChannels ∧ Claims.DmaBurst

/-- Mode requests, core restarts, the watchdog and the management features. -/
def Obligations.ModesAndRestarts : Prop :=
  Claims.ModeRequests ∧ Claims.Restarts

/-- Host writes entering a lane's ingress, and host reads. -/
def Obligations.HostAccesses : Prop :=
  Claims.HostWriteEnters ∧ Claims.HostReadAnswers

/-- Feature negotiation of a function, and PRESENT. -/
def Obligations.NegotiateAndPresent : Prop :=
  Claims.Negotiation ∧ Claims.PresentQueued

/-- A head's console name: bound, answered, timed out, unbound. -/
def Obligations.Names : Prop :=
  Claims.Binding ∧ Claims.Unbinding

/-- A head's DETACHED bit and its consistency mode. -/
def Obligations.HeadModes : Prop :=
  Claims.Detach ∧ Claims.Consistency

/-- A frame starts, and a line is composed. -/
def Obligations.FramesAndLines : Prop :=
  Claims.FrameStarts ∧ Claims.ComposeLine

/-- Lines leave the lead buffer in time, or are missed. -/
def Obligations.ScanOut : Prop :=
  Claims.LinesLeave ∧ Claims.MissedLines

/-- A line engine's load and store unit, shared accesses, multiplier, constant builder and soft events. -/
def Obligations.EngineUnits : Prop :=
  Claims.LoadsAndStores ∧ Claims.SharedAccesses ∧ Claims.MultiplyConstantRaise

/-- A line engine's events, program swaps and control commands. -/
def Obligations.EngineEvents : Prop :=
  Claims.EventsAndSwaps ∧ Claims.EngineControl

/-- The encoder's frames and the rebuild of its dictionary. -/
def Obligations.EncoderAndDictionary : Prop :=
  Claims.Encoding ∧ Claims.Dictionary

/-- The session engine: its commands and its traffic. -/
def Obligations.SessionEngine : Prop :=
  Claims.SessionCommands ∧ Claims.SessionTraffic

/-- An Ethernet port's transmission, reception and link. -/
def Obligations.Ethernet : Prop :=
  Claims.EthernetTransmit ∧ Claims.EthernetReceiveAndLinks

/-- Tones, fabric audio, converters and the jack. -/
def Obligations.AudioUnits : Prop :=
  Claims.TonesAndFabricAudio ∧ Claims.ConvertersAndJack

/-- The swap of routing tables, and fabric time. -/
def Obligations.RoutesAndTime : Prop :=
  Claims.RoutingSwap ∧ Claims.FabricTime

/-- DRAM initialisation and patrol scrub. -/
def Obligations.Dram : Prop :=
  Claims.DramInit ∧ Claims.PatrolScrub

/-- Scratchpad march tests and MRAM writes. -/
def Obligations.SramAndMram : Prop :=
  Claims.MarchTests ∧ Claims.MramWrites

/-- The rectangle engine: its control and its commands. -/
def Obligations.RectangleEngine : Prop :=
  Claims.RectangleControl ∧ Claims.RectangleCommands

/-- The UART, the xSPI and the I2C/I3C controllers, USB and MDIO. -/
def Obligations.SerialPorts : Prop :=
  Claims.Uart ∧ Claims.XspiAndI3c ∧ Claims.UsbAndMdio

/-- The timers, and the GPIO pins. -/
def Obligations.TimersAndPins : Prop :=
  Claims.Timers ∧ Claims.Pins

/-- Measurement, quotes, and the unlocking of debug access. -/
def Obligations.MeasureAndUnlock : Prop :=
  Claims.Measurement ∧ Claims.DebugUnlock

/-- Chip resets and the boot that follows. -/
def Obligations.ResetsAndBoot : Prop :=
  Claims.ChipResets ∧ Claims.Boot

/-- Tamper responses, supply warnings, rest and wake. -/
def Obligations.TamperAndPower : Prop :=
  Claims.Tamper ∧ Claims.PowerAndWake
end

