-- ==== Sys2Proof/Laws/Sparse.lean ====
section
/-! SUPPORT. Laws of sparse maps: read after write, and the canonical form is kept. -/
namespace Sys2Proof.Machine
variable {α : Type}

theorem spFind_drop_same (l : Sparse α) (k : Nat) : spFind (spDrop l k) k = none := by
  induction l with
  | nil => rfl
  | cons e l ih => by_cases h : e.1 = k <;> simp [spDrop, spFind, h, ih]

theorem spFind_drop_other (l : Sparse α) (k j : Nat) (h : j ≠ k) : spFind (spDrop l k) j = spFind l j := by
  induction l with
  | nil => rfl
  | cons e l ih =>
    by_cases hk : e.1 = k
    · have : e.1 ≠ j := fun hj => h (hj.symm.trans hk)
      simp [spDrop, spFind, hk, ih, hk ▸ this]
    · simp [spDrop, spFind, hk, ih]

theorem spFind_insert_same (l : Sparse α) (k : Nat) (v : α) (h : spFind l k = none) :
    spFind (spInsert l k v) k = some v := by
  induction l with
  | nil => simp [spInsert, spFind]
  | cons e l ih =>
    by_cases hk : e.1 = k
    · simp [spFind, hk] at h
    · have h' : spFind l k = none := by simpa [spFind, hk] using h
      by_cases hl : k < e.1 <;> simp [spInsert, spFind, hl, hk, ih h']

theorem spFind_insert_other (l : Sparse α) (k j : Nat) (v : α) (h : j ≠ k) :
    spFind (spInsert l k v) j = spFind l j := by
  induction l with
  | nil => simp [spInsert, spFind, Ne.symm h]
  | cons e l ih => by_cases hl : k < e.1 <;> simp [spInsert, spFind, hl, Ne.symm h, ih]

variable [DecidableEq α] (dflt : Nat → α)

/-- A read after a write of the same key gives the value written. -/
@[simp] theorem spGet_put_same (l : Sparse α) (k : Nat) (v : α) : spGet dflt (spPut dflt l k v) k = v := by
  unfold spGet spPut
  split
  · next h => simp [spFind_drop_same, h]
  · simp [spFind_insert_same, spFind_drop_same]

/-- A write leaves every other key alone. -/
theorem spGet_put_other (l : Sparse α) (k j : Nat) (v : α) (h : j ≠ k) :
    spGet dflt (spPut dflt l k v) j = spGet dflt l j := by
  unfold spGet spPut
  split
  · rw [spFind_drop_other _ _ _ h]
  · rw [spFind_insert_other _ _ _ _ h, spFind_drop_other _ _ _ h]

omit [DecidableEq α] in
theorem spRising_mono (l : Sparse α) (b c : Nat) (h : b ≤ c) (hc : spRising c l = true) : spRising b l = true := by
  cases l with
  | nil => rfl
  | cons e l =>
    simp only [spRising, Bool.and_eq_true, decide_eq_true_eq] at hc ⊢
    exact ⟨by omega, hc.2⟩

omit [DecidableEq α] in
theorem spRising_drop (l : Sparse α) (b k : Nat) (h : spRising b l = true) : spRising b (spDrop l k) = true := by
  induction l generalizing b with
  | nil => rfl
  | cons e l ih =>
    simp only [spRising, Bool.and_eq_true, decide_eq_true_eq] at h
    by_cases hk : e.1 = k
    · simp only [spDrop, hk, if_true]
      exact spRising_mono _ _ _ (by omega) (ih _ h.2)
    · simp only [spDrop, hk, if_false, spRising, Bool.and_eq_true, decide_eq_true_eq]
      exact ⟨h.1, ih _ h.2⟩

omit [DecidableEq α] in
theorem spRising_insert (l : Sparse α) (b k : Nat) (v : α) (hb : b ≤ k) (h : spRising b l = true)
    (hk : spFind l k = none) : spRising b (spInsert l k v) = true := by
  induction l generalizing b with
  | nil => simp [spInsert, spRising, hb]
  | cons e l ih =>
    simp only [spRising, Bool.and_eq_true, decide_eq_true_eq] at h
    have hne : e.1 ≠ k := by intro he; simp [spFind, he] at hk
    have hk' : spFind l k = none := by simpa [spFind, hne] using hk
    by_cases hl : k < e.1
    · simp only [spInsert, hl, if_true, spRising, Bool.and_eq_true, decide_eq_true_eq]
      exact ⟨hb, by omega, h.2⟩
    · simp only [spInsert, hl, if_false, spRising, Bool.and_eq_true, decide_eq_true_eq]
      exact ⟨h.1, ih _ (by omega) h.2 hk'⟩

omit [DecidableEq α] in
theorem all_drop (p : Nat × α → Bool) (l : Sparse α) (k : Nat) (h : l.all p = true) : (spDrop l k).all p = true := by
  induction l with
  | nil => rfl
  | cons e l ih =>
    simp only [List.all_cons, Bool.and_eq_true] at h
    by_cases hk : e.1 = k
    · simp [spDrop, hk, ih h.2]
    · simp [spDrop, hk, h.1, ih h.2]

omit [DecidableEq α] in
theorem all_insert (p : Nat × α → Bool) (l : Sparse α) (k : Nat) (v : α) (h : l.all p = true) (hv : p (k, v) = true) :
    (spInsert l k v).all p = true := by
  induction l with
  | nil => simp [spInsert, hv]
  | cons e l ih =>
    simp only [List.all_cons, Bool.and_eq_true] at h
    by_cases hl : k < e.1
    · simp [spInsert, hl, hv, h.1, h.2]
    · simp [spInsert, hl, h.1, ih h.2]

/-- A write keeps the canonical form. -/
theorem spWf_put (l : Sparse α) (k : Nat) (v : α) (h : spWf dflt l = true) : spWf dflt (spPut dflt l k v) = true := by
  simp only [spWf, Bool.and_eq_true] at h ⊢
  unfold spPut
  split
  · exact ⟨spRising_drop _ _ _ h.1, all_drop _ _ _ h.2⟩
  · next hv =>
    exact ⟨spRising_insert _ _ _ _ (Nat.zero_le _) (spRising_drop _ _ _ h.1) (spFind_drop_same _ _),
      all_insert _ _ _ _ (all_drop _ _ _ h.2) (by simpa using hv)⟩

omit [DecidableEq α] in
theorem spRising_filter (l : Sparse α) (b : Nat) (p : Nat × α → Bool) (h : spRising b l = true) :
    spRising b (l.filter p) = true := by
  induction l generalizing b with
  | nil => rfl
  | cons e l ih =>
    simp only [spRising, Bool.and_eq_true, decide_eq_true_eq] at h
    by_cases hp : p e = true
    · simp only [List.filter_cons, hp, if_true, spRising, Bool.and_eq_true, decide_eq_true_eq]
      exact ⟨h.1, ih _ h.2⟩
    · simp only [List.filter_cons, hp]
      exact spRising_mono _ _ _ (by omega) (ih _ h.2)

omit [DecidableEq α] in
theorem spFind_filter (l : Sparse α) (p : Nat × α → Bool) (k : Nat) (h : ∀ v, p (k, v) = true) :
    spFind (l.filter p) k = spFind l k := by
  induction l with
  | nil => rfl
  | cons e l ih =>
    obtain ⟨j, v⟩ := e
    by_cases hj : j = k
    · subst hj; simp [List.filter_cons, h v, spFind]
    · by_cases hp : p (j, v) = true <;> simp [hp, spFind, hj, ih]

omit [DecidableEq α] in
theorem spFind_filter_out (l : Sparse α) (p : Nat × α → Bool) (k : Nat) (h : ∀ v, p (k, v) = false) :
    spFind (l.filter p) k = none := by
  induction l with
  | nil => rfl
  | cons e l ih =>
    obtain ⟨j, v⟩ := e
    by_cases hj : j = k
    · subst hj; simp [h v, ih]
    · by_cases hp : p (j, v) = true <;> simp [hp, spFind, hj, ih]

omit [DecidableEq α] in
/-- A cleared range lists nothing. -/
theorem spFind_dropRange_in (l : Sparse α) (lo hi k : Nat) (h : lo ≤ k) (h' : k < hi) :
    spFind (spDropRange l lo hi) k = none := spFind_filter_out _ _ _ (by simp [h, h'])

omit [DecidableEq α] in
/-- Outside a cleared range every entry stays. -/
theorem spFind_dropRange_out (l : Sparse α) (lo hi k : Nat) (h : k < lo ∨ hi ≤ k) :
    spFind (spDropRange l lo hi) k = spFind l k := spFind_filter _ _ _ (by intro v; simp; omega)

/-- Clearing a range keeps the canonical form. -/
theorem spWf_dropRange (l : Sparse α) (lo hi : Nat) (h : spWf dflt l = true) :
    spWf dflt (spDropRange l lo hi) = true := by
  simp only [spWf, Bool.and_eq_true] at h ⊢
  refine ⟨spRising_filter _ _ _ h.1, ?_⟩
  simp only [spDropRange, List.all_filter, List.all_eq_true] at h ⊢
  intro x hx
  simp [h.2 x hx]

end Sys2Proof.Machine
end

