-- ==== Sys2Proof/Laws/State.lean ====
section
/-! SUPPORT. What each named update of the device leaves alone and what it sets, field by field, true by unfolding. -/
namespace Sys2Proof.Machine
variable (d : Dev)


/-! ### setBits -/

@[simp] theorem Dev.setBits_mem (q off : Nat) (m : Word) : (d.setBits q off m).mem = d.mem := rfl
@[simp] theorem Dev.setBits_clock (q off : Nat) (m : Word) : (d.setBits q off m).clock = d.clock := rfl
@[simp] theorem Dev.setBits_latches (q off : Nat) (m : Word) : (d.setBits q off m).latches = d.latches := rfl
@[simp] theorem Dev.setBits_armed (q off : Nat) (m : Word) : (d.setBits q off m).armed = d.armed := rfl
@[simp] theorem Dev.setBits_locked (q off : Nat) (m : Word) : (d.setBits q off m).locked = d.locked := rfl
@[simp] theorem Dev.setBits_inReset (q off : Nat) (m : Word) : (d.setBits q off m).inReset = d.inReset := rfl
@[simp] theorem Dev.setBits_lanes (q off : Nat) (m : Word) : (d.setBits q off m).lanes = d.lanes := rfl
@[simp] theorem Dev.setBits_heads (q off : Nat) (m : Word) : (d.setBits q off m).heads = d.heads := rfl
@[simp] theorem Dev.setBits_engines (q off : Nat) (m : Word) : (d.setBits q off m).engines = d.engines := rfl
@[simp] theorem Dev.setBits_enc (q off : Nat) (m : Word) : (d.setBits q off m).enc = d.enc := rfl
@[simp] theorem Dev.setBits_snd (q off : Nat) (m : Word) : (d.setBits q off m).snd = d.snd := rfl
@[simp] theorem Dev.setBits_fab (q off : Nat) (m : Word) : (d.setBits q off m).fab = d.fab := rfl
@[simp] theorem Dev.setBits_log (q off : Nat) (m : Word) : (d.setBits q off m).log = d.log := rfl
@[simp] theorem Dev.setBits_ram (q off : Nat) (m : Word) : (d.setBits q off m).ram = d.ram := rfl
@[simp] theorem Dev.setBits_blt (q off : Nat) (m : Word) : (d.setBits q off m).blt = d.blt := rfl
@[simp] theorem Dev.setBits_dma (q off : Nat) (m : Word) : (d.setBits q off m).dma = d.dma := rfl
@[simp] theorem Dev.setBits_evc (q off : Nat) (m : Word) : (d.setBits q off m).evc = d.evc := rfl
@[simp] theorem Dev.setBits_tmrs (q off : Nat) (m : Word) : (d.setBits q off m).tmrs = d.tmrs := rfl
@[simp] theorem Dev.setBits_gpio (q off : Nat) (m : Word) : (d.setBits q off m).gpio = d.gpio := rfl
@[simp] theorem Dev.setBits_lsp (q off : Nat) (m : Word) : (d.setBits q off m).lsp = d.lsp := rfl
@[simp] theorem Dev.setBits_usb (q off : Nat) (m : Word) : (d.setBits q off m).usb = d.usb := rfl
@[simp] theorem Dev.setBits_mgmt (q off : Nat) (m : Word) : (d.setBits q off m).mgmt = d.mgmt := rfl
@[simp] theorem Dev.setBits_sys (q off : Nat) (m : Word) : (d.setBits q off m).sys = d.sys := rfl
@[simp] theorem Dev.setBits_seqs (q off : Nat) (m : Word) : (d.setBits q off m).seqs = d.seqs := rfl
@[simp] theorem Dev.setBits_gaps (q off : Nat) (m : Word) : (d.setBits q off m).gaps = d.gaps := rfl
@[simp] theorem Dev.setBits_lastBorrow (q off : Nat) (m : Word) : (d.setBits q off m).lastBorrow = d.lastBorrow := rfl
@[simp] theorem Dev.setBits_resv (q off : Nat) (m : Word) : (d.setBits q off m).resv = d.resv := rfl
@[simp] theorem Dev.setBits_outs (q off : Nat) (m : Word) : (d.setBits q off m).outs = d.outs := rfl
@[simp] theorem Dev.setBits_answer (q off : Nat) (m : Word) : (d.setBits q off m).answer = d.answer := rfl
@[simp] theorem Dev.setBits_draws (q off : Nat) (m : Word) : (d.setBits q off m).draws = d.draws := rfl
@[simp] theorem Dev.setBits_wlog (q off : Nat) (m : Word) : (d.setBits q off m).wlog = d.wlog := rfl
@[simp] theorem Dev.setBits_head (q off : Nat) (m : Word) (h : Nat) : (d.setBits q off m).head h = d.head h := rfl
@[simp] theorem Dev.setBits_eng (q off : Nat) (m : Word) (e : Nat) : (d.setBits q off m).eng e = d.eng e := rfl
@[simp] theorem Dev.setBits_lane (q off : Nat) (m : Word) (n : Nat) : (d.setBits q off m).lane n = d.lane n := rfl
@[simp] theorem Dev.setBits_byte (q off : Nat) (m : Word) (a : Nat) : (d.setBits q off m).byte a = d.byte a := rfl

/-! ### wr -/

@[simp] theorem Dev.wr_setNow (q off : Nat) (v : Word) : (d.wr q off v).setNow = d.setNow := rfl
@[simp] theorem Dev.wr_mem (q off : Nat) (v : Word) : (d.wr q off v).mem = d.mem := rfl
@[simp] theorem Dev.wr_clock (q off : Nat) (v : Word) : (d.wr q off v).clock = d.clock := rfl
@[simp] theorem Dev.wr_latches (q off : Nat) (v : Word) : (d.wr q off v).latches = d.latches := rfl
@[simp] theorem Dev.wr_armed (q off : Nat) (v : Word) : (d.wr q off v).armed = d.armed := rfl
@[simp] theorem Dev.wr_locked (q off : Nat) (v : Word) : (d.wr q off v).locked = d.locked := rfl
@[simp] theorem Dev.wr_inReset (q off : Nat) (v : Word) : (d.wr q off v).inReset = d.inReset := rfl
@[simp] theorem Dev.wr_lanes (q off : Nat) (v : Word) : (d.wr q off v).lanes = d.lanes := rfl
@[simp] theorem Dev.wr_heads (q off : Nat) (v : Word) : (d.wr q off v).heads = d.heads := rfl
@[simp] theorem Dev.wr_engines (q off : Nat) (v : Word) : (d.wr q off v).engines = d.engines := rfl
@[simp] theorem Dev.wr_enc (q off : Nat) (v : Word) : (d.wr q off v).enc = d.enc := rfl
@[simp] theorem Dev.wr_snd (q off : Nat) (v : Word) : (d.wr q off v).snd = d.snd := rfl
@[simp] theorem Dev.wr_fab (q off : Nat) (v : Word) : (d.wr q off v).fab = d.fab := rfl
@[simp] theorem Dev.wr_log (q off : Nat) (v : Word) : (d.wr q off v).log = d.log := rfl
@[simp] theorem Dev.wr_ram (q off : Nat) (v : Word) : (d.wr q off v).ram = d.ram := rfl
@[simp] theorem Dev.wr_blt (q off : Nat) (v : Word) : (d.wr q off v).blt = d.blt := rfl
@[simp] theorem Dev.wr_dma (q off : Nat) (v : Word) : (d.wr q off v).dma = d.dma := rfl
@[simp] theorem Dev.wr_evc (q off : Nat) (v : Word) : (d.wr q off v).evc = d.evc := rfl
@[simp] theorem Dev.wr_tmrs (q off : Nat) (v : Word) : (d.wr q off v).tmrs = d.tmrs := rfl
@[simp] theorem Dev.wr_gpio (q off : Nat) (v : Word) : (d.wr q off v).gpio = d.gpio := rfl
@[simp] theorem Dev.wr_lsp (q off : Nat) (v : Word) : (d.wr q off v).lsp = d.lsp := rfl
@[simp] theorem Dev.wr_usb (q off : Nat) (v : Word) : (d.wr q off v).usb = d.usb := rfl
@[simp] theorem Dev.wr_mgmt (q off : Nat) (v : Word) : (d.wr q off v).mgmt = d.mgmt := rfl
@[simp] theorem Dev.wr_sys (q off : Nat) (v : Word) : (d.wr q off v).sys = d.sys := rfl
@[simp] theorem Dev.wr_seqs (q off : Nat) (v : Word) : (d.wr q off v).seqs = d.seqs := rfl
@[simp] theorem Dev.wr_gaps (q off : Nat) (v : Word) : (d.wr q off v).gaps = d.gaps := rfl
@[simp] theorem Dev.wr_lastBorrow (q off : Nat) (v : Word) : (d.wr q off v).lastBorrow = d.lastBorrow := rfl
@[simp] theorem Dev.wr_resv (q off : Nat) (v : Word) : (d.wr q off v).resv = d.resv := rfl
@[simp] theorem Dev.wr_outs (q off : Nat) (v : Word) : (d.wr q off v).outs = d.outs := rfl
@[simp] theorem Dev.wr_answer (q off : Nat) (v : Word) : (d.wr q off v).answer = d.answer := rfl
@[simp] theorem Dev.wr_draws (q off : Nat) (v : Word) : (d.wr q off v).draws = d.draws := rfl
@[simp] theorem Dev.wr_wlog (q off : Nat) (v : Word) : (d.wr q off v).wlog = d.wlog := rfl
@[simp] theorem Dev.wr_head (q off : Nat) (v : Word) (h : Nat) : (d.wr q off v).head h = d.head h := rfl
@[simp] theorem Dev.wr_eng (q off : Nat) (v : Word) (e : Nat) : (d.wr q off v).eng e = d.eng e := rfl
@[simp] theorem Dev.wr_lane (q off : Nat) (v : Word) (n : Nat) : (d.wr q off v).lane n = d.lane n := rfl
@[simp] theorem Dev.wr_byte (q off : Nat) (v : Word) (a : Nat) : (d.wr q off v).byte a = d.byte a := rfl

/-! ### put -/

@[simp] theorem Dev.put_regs (x : Nat) (b : Byte) : (d.put x b).regs = d.regs := rfl
@[simp] theorem Dev.put_setNow (x : Nat) (b : Byte) : (d.put x b).setNow = d.setNow := rfl
@[simp] theorem Dev.put_mem (x : Nat) (b : Byte) : (d.put x b).mem = d.mem := rfl
@[simp] theorem Dev.put_clock (x : Nat) (b : Byte) : (d.put x b).clock = d.clock := rfl
@[simp] theorem Dev.put_latches (x : Nat) (b : Byte) : (d.put x b).latches = d.latches := rfl
@[simp] theorem Dev.put_armed (x : Nat) (b : Byte) : (d.put x b).armed = d.armed := rfl
@[simp] theorem Dev.put_locked (x : Nat) (b : Byte) : (d.put x b).locked = d.locked := rfl
@[simp] theorem Dev.put_inReset (x : Nat) (b : Byte) : (d.put x b).inReset = d.inReset := rfl
@[simp] theorem Dev.put_lanes (x : Nat) (b : Byte) : (d.put x b).lanes = d.lanes := rfl
@[simp] theorem Dev.put_heads (x : Nat) (b : Byte) : (d.put x b).heads = d.heads := rfl
@[simp] theorem Dev.put_engines (x : Nat) (b : Byte) : (d.put x b).engines = d.engines := rfl
@[simp] theorem Dev.put_enc (x : Nat) (b : Byte) : (d.put x b).enc = d.enc := rfl
@[simp] theorem Dev.put_snd (x : Nat) (b : Byte) : (d.put x b).snd = d.snd := rfl
@[simp] theorem Dev.put_fab (x : Nat) (b : Byte) : (d.put x b).fab = d.fab := rfl
@[simp] theorem Dev.put_log (x : Nat) (b : Byte) : (d.put x b).log = d.log := rfl
@[simp] theorem Dev.put_ram (x : Nat) (b : Byte) : (d.put x b).ram = d.ram := rfl
@[simp] theorem Dev.put_blt (x : Nat) (b : Byte) : (d.put x b).blt = d.blt := rfl
@[simp] theorem Dev.put_dma (x : Nat) (b : Byte) : (d.put x b).dma = d.dma := rfl
@[simp] theorem Dev.put_evc (x : Nat) (b : Byte) : (d.put x b).evc = d.evc := rfl
@[simp] theorem Dev.put_tmrs (x : Nat) (b : Byte) : (d.put x b).tmrs = d.tmrs := rfl
@[simp] theorem Dev.put_gpio (x : Nat) (b : Byte) : (d.put x b).gpio = d.gpio := rfl
@[simp] theorem Dev.put_lsp (x : Nat) (b : Byte) : (d.put x b).lsp = d.lsp := rfl
@[simp] theorem Dev.put_usb (x : Nat) (b : Byte) : (d.put x b).usb = d.usb := rfl
@[simp] theorem Dev.put_mgmt (x : Nat) (b : Byte) : (d.put x b).mgmt = d.mgmt := rfl
@[simp] theorem Dev.put_sys (x : Nat) (b : Byte) : (d.put x b).sys = d.sys := rfl
@[simp] theorem Dev.put_seqs (x : Nat) (b : Byte) : (d.put x b).seqs = d.seqs := rfl
@[simp] theorem Dev.put_gaps (x : Nat) (b : Byte) : (d.put x b).gaps = d.gaps := rfl
@[simp] theorem Dev.put_lastBorrow (x : Nat) (b : Byte) : (d.put x b).lastBorrow = d.lastBorrow := rfl
@[simp] theorem Dev.put_resv (x : Nat) (b : Byte) : (d.put x b).resv = d.resv := rfl
@[simp] theorem Dev.put_outs (x : Nat) (b : Byte) : (d.put x b).outs = d.outs := rfl
@[simp] theorem Dev.put_answer (x : Nat) (b : Byte) : (d.put x b).answer = d.answer := rfl
@[simp] theorem Dev.put_draws (x : Nat) (b : Byte) : (d.put x b).draws = d.draws := rfl
@[simp] theorem Dev.put_wlog (x : Nat) (b : Byte) : (d.put x b).wlog = .put x b :: d.wlog := rfl
@[simp] theorem Dev.put_rd (x : Nat) (b : Byte) (p o : Nat) : (d.put x b).rd p o = d.rd p o := rfl
@[simp] theorem Dev.put_head (x : Nat) (b : Byte) (h : Nat) : (d.put x b).head h = d.head h := rfl
@[simp] theorem Dev.put_eng (x : Nat) (b : Byte) (e : Nat) : (d.put x b).eng e = d.eng e := rfl
@[simp] theorem Dev.put_lane (x : Nat) (b : Byte) (n : Nat) : (d.put x b).lane n = d.lane n := rfl

/-! ### clear -/

@[simp] theorem Dev.clear_regs (lo hi : Nat) : (d.clear lo hi).regs = d.regs := rfl
@[simp] theorem Dev.clear_setNow (lo hi : Nat) : (d.clear lo hi).setNow = d.setNow := rfl
@[simp] theorem Dev.clear_mem (lo hi : Nat) : (d.clear lo hi).mem = d.mem := rfl
@[simp] theorem Dev.clear_clock (lo hi : Nat) : (d.clear lo hi).clock = d.clock := rfl
@[simp] theorem Dev.clear_latches (lo hi : Nat) : (d.clear lo hi).latches = d.latches := rfl
@[simp] theorem Dev.clear_armed (lo hi : Nat) : (d.clear lo hi).armed = d.armed := rfl
@[simp] theorem Dev.clear_locked (lo hi : Nat) : (d.clear lo hi).locked = d.locked := rfl
@[simp] theorem Dev.clear_inReset (lo hi : Nat) : (d.clear lo hi).inReset = d.inReset := rfl
@[simp] theorem Dev.clear_lanes (lo hi : Nat) : (d.clear lo hi).lanes = d.lanes := rfl
@[simp] theorem Dev.clear_heads (lo hi : Nat) : (d.clear lo hi).heads = d.heads := rfl
@[simp] theorem Dev.clear_engines (lo hi : Nat) : (d.clear lo hi).engines = d.engines := rfl
@[simp] theorem Dev.clear_enc (lo hi : Nat) : (d.clear lo hi).enc = d.enc := rfl
@[simp] theorem Dev.clear_snd (lo hi : Nat) : (d.clear lo hi).snd = d.snd := rfl
@[simp] theorem Dev.clear_fab (lo hi : Nat) : (d.clear lo hi).fab = d.fab := rfl
@[simp] theorem Dev.clear_log (lo hi : Nat) : (d.clear lo hi).log = d.log := rfl
@[simp] theorem Dev.clear_ram (lo hi : Nat) : (d.clear lo hi).ram = d.ram := rfl
@[simp] theorem Dev.clear_blt (lo hi : Nat) : (d.clear lo hi).blt = d.blt := rfl
@[simp] theorem Dev.clear_dma (lo hi : Nat) : (d.clear lo hi).dma = d.dma := rfl
@[simp] theorem Dev.clear_evc (lo hi : Nat) : (d.clear lo hi).evc = d.evc := rfl
@[simp] theorem Dev.clear_tmrs (lo hi : Nat) : (d.clear lo hi).tmrs = d.tmrs := rfl
@[simp] theorem Dev.clear_gpio (lo hi : Nat) : (d.clear lo hi).gpio = d.gpio := rfl
@[simp] theorem Dev.clear_lsp (lo hi : Nat) : (d.clear lo hi).lsp = d.lsp := rfl
@[simp] theorem Dev.clear_usb (lo hi : Nat) : (d.clear lo hi).usb = d.usb := rfl
@[simp] theorem Dev.clear_mgmt (lo hi : Nat) : (d.clear lo hi).mgmt = d.mgmt := rfl
@[simp] theorem Dev.clear_sys (lo hi : Nat) : (d.clear lo hi).sys = d.sys := rfl
@[simp] theorem Dev.clear_seqs (lo hi : Nat) : (d.clear lo hi).seqs = d.seqs := rfl
@[simp] theorem Dev.clear_gaps (lo hi : Nat) : (d.clear lo hi).gaps = d.gaps := rfl
@[simp] theorem Dev.clear_lastBorrow (lo hi : Nat) : (d.clear lo hi).lastBorrow = d.lastBorrow := rfl
@[simp] theorem Dev.clear_resv (lo hi : Nat) : (d.clear lo hi).resv = d.resv := rfl
@[simp] theorem Dev.clear_outs (lo hi : Nat) : (d.clear lo hi).outs = d.outs := rfl
@[simp] theorem Dev.clear_answer (lo hi : Nat) : (d.clear lo hi).answer = d.answer := rfl
@[simp] theorem Dev.clear_draws (lo hi : Nat) : (d.clear lo hi).draws = d.draws := rfl
@[simp] theorem Dev.clear_wlog (lo hi : Nat) : (d.clear lo hi).wlog = .clear lo hi :: d.wlog := rfl
@[simp] theorem Dev.clear_rd (lo hi : Nat) (p o : Nat) : (d.clear lo hi).rd p o = d.rd p o := rfl
@[simp] theorem Dev.clear_head (lo hi : Nat) (h : Nat) : (d.clear lo hi).head h = d.head h := rfl
@[simp] theorem Dev.clear_eng (lo hi : Nat) (e : Nat) : (d.clear lo hi).eng e = d.eng e := rfl
@[simp] theorem Dev.clear_lane (lo hi : Nat) (n : Nat) : (d.clear lo hi).lane n = d.lane n := rfl

/-! ### begin -/

@[simp] theorem Dev.begin_regs : (d.begin).regs = d.regs := rfl
@[simp] theorem Dev.begin_setNow : (d.begin).setNow = d.setNow := rfl
@[simp] theorem Dev.begin_mem : (d.begin).mem = d.mem := rfl
@[simp] theorem Dev.begin_clock : (d.begin).clock = d.clock := rfl
@[simp] theorem Dev.begin_latches : (d.begin).latches = d.latches := rfl
@[simp] theorem Dev.begin_armed : (d.begin).armed = d.armed := rfl
@[simp] theorem Dev.begin_locked : (d.begin).locked = d.locked := rfl
@[simp] theorem Dev.begin_inReset : (d.begin).inReset = d.inReset := rfl
@[simp] theorem Dev.begin_lanes : (d.begin).lanes = d.lanes := rfl
@[simp] theorem Dev.begin_heads : (d.begin).heads = d.heads := rfl
@[simp] theorem Dev.begin_engines : (d.begin).engines = d.engines := rfl
@[simp] theorem Dev.begin_enc : (d.begin).enc = d.enc := rfl
@[simp] theorem Dev.begin_snd : (d.begin).snd = d.snd := rfl
@[simp] theorem Dev.begin_fab : (d.begin).fab = d.fab := rfl
@[simp] theorem Dev.begin_log : (d.begin).log = d.log := rfl
@[simp] theorem Dev.begin_ram : (d.begin).ram = d.ram := rfl
@[simp] theorem Dev.begin_blt : (d.begin).blt = d.blt := rfl
@[simp] theorem Dev.begin_dma : (d.begin).dma = d.dma := rfl
@[simp] theorem Dev.begin_evc : (d.begin).evc = d.evc := rfl
@[simp] theorem Dev.begin_tmrs : (d.begin).tmrs = d.tmrs := rfl
@[simp] theorem Dev.begin_gpio : (d.begin).gpio = d.gpio := rfl
@[simp] theorem Dev.begin_lsp : (d.begin).lsp = d.lsp := rfl
@[simp] theorem Dev.begin_usb : (d.begin).usb = d.usb := rfl
@[simp] theorem Dev.begin_mgmt : (d.begin).mgmt = d.mgmt := rfl
@[simp] theorem Dev.begin_sys : (d.begin).sys = d.sys := rfl
@[simp] theorem Dev.begin_seqs : (d.begin).seqs = d.seqs := rfl
@[simp] theorem Dev.begin_gaps : (d.begin).gaps = d.gaps := rfl
@[simp] theorem Dev.begin_lastBorrow : (d.begin).lastBorrow = d.lastBorrow := rfl
@[simp] theorem Dev.begin_resv : (d.begin).resv = d.resv := rfl
@[simp] theorem Dev.begin_outs : d.begin.outs = [] := rfl
@[simp] theorem Dev.begin_answer : d.begin.answer = .none := rfl
@[simp] theorem Dev.begin_draws : (d.begin).draws = d.draws := rfl
@[simp] theorem Dev.begin_wlog : d.begin.wlog = [] := rfl
@[simp] theorem Dev.begin_rd (p o : Nat) : (d.begin).rd p o = d.rd p o := rfl
@[simp] theorem Dev.begin_head (h : Nat) : (d.begin).head h = d.head h := rfl
@[simp] theorem Dev.begin_eng (e : Nat) : (d.begin).eng e = d.eng e := rfl
@[simp] theorem Dev.begin_lane (n : Nat) : (d.begin).lane n = d.lane n := rfl

/-! ### out -/

@[simp] theorem Dev.out_regs (x : Output) : (d.out x).regs = d.regs := rfl
@[simp] theorem Dev.out_setNow (x : Output) : (d.out x).setNow = d.setNow := rfl
@[simp] theorem Dev.out_mem (x : Output) : (d.out x).mem = d.mem := rfl
@[simp] theorem Dev.out_clock (x : Output) : (d.out x).clock = d.clock := rfl
@[simp] theorem Dev.out_latches (x : Output) : (d.out x).latches = d.latches := rfl
@[simp] theorem Dev.out_armed (x : Output) : (d.out x).armed = d.armed := rfl
@[simp] theorem Dev.out_locked (x : Output) : (d.out x).locked = d.locked := rfl
@[simp] theorem Dev.out_inReset (x : Output) : (d.out x).inReset = d.inReset := rfl
@[simp] theorem Dev.out_lanes (x : Output) : (d.out x).lanes = d.lanes := rfl
@[simp] theorem Dev.out_heads (x : Output) : (d.out x).heads = d.heads := rfl
@[simp] theorem Dev.out_engines (x : Output) : (d.out x).engines = d.engines := rfl
@[simp] theorem Dev.out_enc (x : Output) : (d.out x).enc = d.enc := rfl
@[simp] theorem Dev.out_snd (x : Output) : (d.out x).snd = d.snd := rfl
@[simp] theorem Dev.out_fab (x : Output) : (d.out x).fab = d.fab := rfl
@[simp] theorem Dev.out_log (x : Output) : (d.out x).log = d.log := rfl
@[simp] theorem Dev.out_ram (x : Output) : (d.out x).ram = d.ram := rfl
@[simp] theorem Dev.out_blt (x : Output) : (d.out x).blt = d.blt := rfl
@[simp] theorem Dev.out_dma (x : Output) : (d.out x).dma = d.dma := rfl
@[simp] theorem Dev.out_evc (x : Output) : (d.out x).evc = d.evc := rfl
@[simp] theorem Dev.out_tmrs (x : Output) : (d.out x).tmrs = d.tmrs := rfl
@[simp] theorem Dev.out_gpio (x : Output) : (d.out x).gpio = d.gpio := rfl
@[simp] theorem Dev.out_lsp (x : Output) : (d.out x).lsp = d.lsp := rfl
@[simp] theorem Dev.out_usb (x : Output) : (d.out x).usb = d.usb := rfl
@[simp] theorem Dev.out_mgmt (x : Output) : (d.out x).mgmt = d.mgmt := rfl
@[simp] theorem Dev.out_sys (x : Output) : (d.out x).sys = d.sys := rfl
@[simp] theorem Dev.out_seqs (x : Output) : (d.out x).seqs = d.seqs := rfl
@[simp] theorem Dev.out_gaps (x : Output) : (d.out x).gaps = d.gaps := rfl
@[simp] theorem Dev.out_lastBorrow (x : Output) : (d.out x).lastBorrow = d.lastBorrow := rfl
@[simp] theorem Dev.out_resv (x : Output) : (d.out x).resv = d.resv := rfl
@[simp] theorem Dev.out_outs (x : Output) : (d.out x).outs = d.outs ++ [x] := rfl
@[simp] theorem Dev.out_answer (x : Output) : (d.out x).answer = d.answer := rfl
@[simp] theorem Dev.out_draws (x : Output) : (d.out x).draws = d.draws := rfl
@[simp] theorem Dev.out_wlog (x : Output) : (d.out x).wlog = d.wlog := rfl
@[simp] theorem Dev.out_rd (x : Output) (p o : Nat) : (d.out x).rd p o = d.rd p o := rfl
@[simp] theorem Dev.out_head (x : Output) (h : Nat) : (d.out x).head h = d.head h := rfl
@[simp] theorem Dev.out_eng (x : Output) (e : Nat) : (d.out x).eng e = d.eng e := rfl
@[simp] theorem Dev.out_lane (x : Output) (n : Nat) : (d.out x).lane n = d.lane n := rfl
@[simp] theorem Dev.out_byte (x : Output) (a : Nat) : (d.out x).byte a = d.byte a := rfl

/-! ### reply -/

@[simp] theorem Dev.reply_regs (x : Answer) : (d.reply x).regs = d.regs := rfl
@[simp] theorem Dev.reply_setNow (x : Answer) : (d.reply x).setNow = d.setNow := rfl
@[simp] theorem Dev.reply_mem (x : Answer) : (d.reply x).mem = d.mem := rfl
@[simp] theorem Dev.reply_clock (x : Answer) : (d.reply x).clock = d.clock := rfl
@[simp] theorem Dev.reply_latches (x : Answer) : (d.reply x).latches = d.latches := rfl
@[simp] theorem Dev.reply_armed (x : Answer) : (d.reply x).armed = d.armed := rfl
@[simp] theorem Dev.reply_locked (x : Answer) : (d.reply x).locked = d.locked := rfl
@[simp] theorem Dev.reply_inReset (x : Answer) : (d.reply x).inReset = d.inReset := rfl
@[simp] theorem Dev.reply_lanes (x : Answer) : (d.reply x).lanes = d.lanes := rfl
@[simp] theorem Dev.reply_heads (x : Answer) : (d.reply x).heads = d.heads := rfl
@[simp] theorem Dev.reply_engines (x : Answer) : (d.reply x).engines = d.engines := rfl
@[simp] theorem Dev.reply_enc (x : Answer) : (d.reply x).enc = d.enc := rfl
@[simp] theorem Dev.reply_snd (x : Answer) : (d.reply x).snd = d.snd := rfl
@[simp] theorem Dev.reply_fab (x : Answer) : (d.reply x).fab = d.fab := rfl
@[simp] theorem Dev.reply_log (x : Answer) : (d.reply x).log = d.log := rfl
@[simp] theorem Dev.reply_ram (x : Answer) : (d.reply x).ram = d.ram := rfl
@[simp] theorem Dev.reply_blt (x : Answer) : (d.reply x).blt = d.blt := rfl
@[simp] theorem Dev.reply_dma (x : Answer) : (d.reply x).dma = d.dma := rfl
@[simp] theorem Dev.reply_evc (x : Answer) : (d.reply x).evc = d.evc := rfl
@[simp] theorem Dev.reply_tmrs (x : Answer) : (d.reply x).tmrs = d.tmrs := rfl
@[simp] theorem Dev.reply_gpio (x : Answer) : (d.reply x).gpio = d.gpio := rfl
@[simp] theorem Dev.reply_lsp (x : Answer) : (d.reply x).lsp = d.lsp := rfl
@[simp] theorem Dev.reply_usb (x : Answer) : (d.reply x).usb = d.usb := rfl
@[simp] theorem Dev.reply_mgmt (x : Answer) : (d.reply x).mgmt = d.mgmt := rfl
@[simp] theorem Dev.reply_sys (x : Answer) : (d.reply x).sys = d.sys := rfl
@[simp] theorem Dev.reply_seqs (x : Answer) : (d.reply x).seqs = d.seqs := rfl
@[simp] theorem Dev.reply_gaps (x : Answer) : (d.reply x).gaps = d.gaps := rfl
@[simp] theorem Dev.reply_lastBorrow (x : Answer) : (d.reply x).lastBorrow = d.lastBorrow := rfl
@[simp] theorem Dev.reply_resv (x : Answer) : (d.reply x).resv = d.resv := rfl
@[simp] theorem Dev.reply_outs (x : Answer) : (d.reply x).outs = d.outs := rfl
@[simp] theorem Dev.reply_answer (x : Answer) : (d.reply x).answer = x := rfl
@[simp] theorem Dev.reply_draws (x : Answer) : (d.reply x).draws = d.draws := rfl
@[simp] theorem Dev.reply_wlog (x : Answer) : (d.reply x).wlog = d.wlog := rfl
@[simp] theorem Dev.reply_rd (x : Answer) (p o : Nat) : (d.reply x).rd p o = d.rd p o := rfl
@[simp] theorem Dev.reply_head (x : Answer) (h : Nat) : (d.reply x).head h = d.head h := rfl
@[simp] theorem Dev.reply_eng (x : Answer) (e : Nat) : (d.reply x).eng e = d.eng e := rfl
@[simp] theorem Dev.reply_lane (x : Answer) (n : Nat) : (d.reply x).lane n = d.lane n := rfl
@[simp] theorem Dev.reply_byte (x : Answer) (a : Nat) : (d.reply x).byte a = d.byte a := rfl

/-! ### drew -/

@[simp] theorem Dev.drew_regs : (d.drew).regs = d.regs := rfl
@[simp] theorem Dev.drew_setNow : (d.drew).setNow = d.setNow := rfl
@[simp] theorem Dev.drew_mem : (d.drew).mem = d.mem := rfl
@[simp] theorem Dev.drew_clock : (d.drew).clock = d.clock := rfl
@[simp] theorem Dev.drew_latches : (d.drew).latches = d.latches := rfl
@[simp] theorem Dev.drew_armed : (d.drew).armed = d.armed := rfl
@[simp] theorem Dev.drew_locked : (d.drew).locked = d.locked := rfl
@[simp] theorem Dev.drew_inReset : (d.drew).inReset = d.inReset := rfl
@[simp] theorem Dev.drew_lanes : (d.drew).lanes = d.lanes := rfl
@[simp] theorem Dev.drew_heads : (d.drew).heads = d.heads := rfl
@[simp] theorem Dev.drew_engines : (d.drew).engines = d.engines := rfl
@[simp] theorem Dev.drew_enc : (d.drew).enc = d.enc := rfl
@[simp] theorem Dev.drew_snd : (d.drew).snd = d.snd := rfl
@[simp] theorem Dev.drew_fab : (d.drew).fab = d.fab := rfl
@[simp] theorem Dev.drew_log : (d.drew).log = d.log := rfl
@[simp] theorem Dev.drew_ram : (d.drew).ram = d.ram := rfl
@[simp] theorem Dev.drew_blt : (d.drew).blt = d.blt := rfl
@[simp] theorem Dev.drew_dma : (d.drew).dma = d.dma := rfl
@[simp] theorem Dev.drew_evc : (d.drew).evc = d.evc := rfl
@[simp] theorem Dev.drew_tmrs : (d.drew).tmrs = d.tmrs := rfl
@[simp] theorem Dev.drew_gpio : (d.drew).gpio = d.gpio := rfl
@[simp] theorem Dev.drew_lsp : (d.drew).lsp = d.lsp := rfl
@[simp] theorem Dev.drew_usb : (d.drew).usb = d.usb := rfl
@[simp] theorem Dev.drew_mgmt : (d.drew).mgmt = d.mgmt := rfl
@[simp] theorem Dev.drew_sys : (d.drew).sys = d.sys := rfl
@[simp] theorem Dev.drew_seqs : (d.drew).seqs = d.seqs := rfl
@[simp] theorem Dev.drew_gaps : (d.drew).gaps = d.gaps := rfl
@[simp] theorem Dev.drew_lastBorrow : (d.drew).lastBorrow = d.lastBorrow := rfl
@[simp] theorem Dev.drew_resv : (d.drew).resv = d.resv := rfl
@[simp] theorem Dev.drew_outs : (d.drew).outs = d.outs := rfl
@[simp] theorem Dev.drew_answer : (d.drew).answer = d.answer := rfl
@[simp] theorem Dev.drew_draws : (d.drew).draws = d.draws + 1 := rfl
@[simp] theorem Dev.drew_wlog : (d.drew).wlog = d.wlog := rfl
@[simp] theorem Dev.drew_rd (p o : Nat) : (d.drew).rd p o = d.rd p o := rfl
@[simp] theorem Dev.drew_head (h : Nat) : (d.drew).head h = d.head h := rfl
@[simp] theorem Dev.drew_eng (e : Nat) : (d.drew).eng e = d.eng e := rfl
@[simp] theorem Dev.drew_lane (n : Nat) : (d.drew).lane n = d.lane n := rfl
@[simp] theorem Dev.drew_byte (a : Nat) : (d.drew).byte a = d.byte a := rfl

/-! ### setLane -/

@[simp] theorem Dev.setLane_regs (k : Nat) (x : LaneSt) : (d.setLane k x).regs = d.regs := rfl
@[simp] theorem Dev.setLane_setNow (k : Nat) (x : LaneSt) : (d.setLane k x).setNow = d.setNow := rfl
@[simp] theorem Dev.setLane_mem (k : Nat) (x : LaneSt) : (d.setLane k x).mem = d.mem := rfl
@[simp] theorem Dev.setLane_clock (k : Nat) (x : LaneSt) : (d.setLane k x).clock = d.clock := rfl
@[simp] theorem Dev.setLane_latches (k : Nat) (x : LaneSt) : (d.setLane k x).latches = d.latches := rfl
@[simp] theorem Dev.setLane_armed (k : Nat) (x : LaneSt) : (d.setLane k x).armed = d.armed := rfl
@[simp] theorem Dev.setLane_locked (k : Nat) (x : LaneSt) : (d.setLane k x).locked = d.locked := rfl
@[simp] theorem Dev.setLane_inReset (k : Nat) (x : LaneSt) : (d.setLane k x).inReset = d.inReset := rfl
@[simp] theorem Dev.setLane_heads (k : Nat) (x : LaneSt) : (d.setLane k x).heads = d.heads := rfl
@[simp] theorem Dev.setLane_engines (k : Nat) (x : LaneSt) : (d.setLane k x).engines = d.engines := rfl
@[simp] theorem Dev.setLane_enc (k : Nat) (x : LaneSt) : (d.setLane k x).enc = d.enc := rfl
@[simp] theorem Dev.setLane_snd (k : Nat) (x : LaneSt) : (d.setLane k x).snd = d.snd := rfl
@[simp] theorem Dev.setLane_fab (k : Nat) (x : LaneSt) : (d.setLane k x).fab = d.fab := rfl
@[simp] theorem Dev.setLane_log (k : Nat) (x : LaneSt) : (d.setLane k x).log = d.log := rfl
@[simp] theorem Dev.setLane_ram (k : Nat) (x : LaneSt) : (d.setLane k x).ram = d.ram := rfl
@[simp] theorem Dev.setLane_blt (k : Nat) (x : LaneSt) : (d.setLane k x).blt = d.blt := rfl
@[simp] theorem Dev.setLane_dma (k : Nat) (x : LaneSt) : (d.setLane k x).dma = d.dma := rfl
@[simp] theorem Dev.setLane_evc (k : Nat) (x : LaneSt) : (d.setLane k x).evc = d.evc := rfl
@[simp] theorem Dev.setLane_tmrs (k : Nat) (x : LaneSt) : (d.setLane k x).tmrs = d.tmrs := rfl
@[simp] theorem Dev.setLane_gpio (k : Nat) (x : LaneSt) : (d.setLane k x).gpio = d.gpio := rfl
@[simp] theorem Dev.setLane_lsp (k : Nat) (x : LaneSt) : (d.setLane k x).lsp = d.lsp := rfl
@[simp] theorem Dev.setLane_usb (k : Nat) (x : LaneSt) : (d.setLane k x).usb = d.usb := rfl
@[simp] theorem Dev.setLane_mgmt (k : Nat) (x : LaneSt) : (d.setLane k x).mgmt = d.mgmt := rfl
@[simp] theorem Dev.setLane_sys (k : Nat) (x : LaneSt) : (d.setLane k x).sys = d.sys := rfl
@[simp] theorem Dev.setLane_seqs (k : Nat) (x : LaneSt) : (d.setLane k x).seqs = d.seqs := rfl
@[simp] theorem Dev.setLane_gaps (k : Nat) (x : LaneSt) : (d.setLane k x).gaps = d.gaps := rfl
@[simp] theorem Dev.setLane_lastBorrow (k : Nat) (x : LaneSt) : (d.setLane k x).lastBorrow = d.lastBorrow := rfl
@[simp] theorem Dev.setLane_resv (k : Nat) (x : LaneSt) : (d.setLane k x).resv = d.resv := rfl
@[simp] theorem Dev.setLane_outs (k : Nat) (x : LaneSt) : (d.setLane k x).outs = d.outs := rfl
@[simp] theorem Dev.setLane_answer (k : Nat) (x : LaneSt) : (d.setLane k x).answer = d.answer := rfl
@[simp] theorem Dev.setLane_draws (k : Nat) (x : LaneSt) : (d.setLane k x).draws = d.draws := rfl
@[simp] theorem Dev.setLane_wlog (k : Nat) (x : LaneSt) : (d.setLane k x).wlog = d.wlog := rfl
@[simp] theorem Dev.setLane_rd (k : Nat) (x : LaneSt) (p o : Nat) : (d.setLane k x).rd p o = d.rd p o := rfl
@[simp] theorem Dev.setLane_head (k : Nat) (x : LaneSt) (h : Nat) : (d.setLane k x).head h = d.head h := rfl
@[simp] theorem Dev.setLane_eng (k : Nat) (x : LaneSt) (e : Nat) : (d.setLane k x).eng e = d.eng e := rfl
@[simp] theorem Dev.setLane_byte (k : Nat) (x : LaneSt) (a : Nat) : (d.setLane k x).byte a = d.byte a := rfl

/-! ### setHead -/

@[simp] theorem Dev.setHead_regs (k : Nat) (x : HeadSt) : (d.setHead k x).regs = d.regs := rfl
@[simp] theorem Dev.setHead_setNow (k : Nat) (x : HeadSt) : (d.setHead k x).setNow = d.setNow := rfl
@[simp] theorem Dev.setHead_mem (k : Nat) (x : HeadSt) : (d.setHead k x).mem = d.mem := rfl
@[simp] theorem Dev.setHead_clock (k : Nat) (x : HeadSt) : (d.setHead k x).clock = d.clock := rfl
@[simp] theorem Dev.setHead_latches (k : Nat) (x : HeadSt) : (d.setHead k x).latches = d.latches := rfl
@[simp] theorem Dev.setHead_armed (k : Nat) (x : HeadSt) : (d.setHead k x).armed = d.armed := rfl
@[simp] theorem Dev.setHead_locked (k : Nat) (x : HeadSt) : (d.setHead k x).locked = d.locked := rfl
@[simp] theorem Dev.setHead_inReset (k : Nat) (x : HeadSt) : (d.setHead k x).inReset = d.inReset := rfl
@[simp] theorem Dev.setHead_lanes (k : Nat) (x : HeadSt) : (d.setHead k x).lanes = d.lanes := rfl
@[simp] theorem Dev.setHead_engines (k : Nat) (x : HeadSt) : (d.setHead k x).engines = d.engines := rfl
@[simp] theorem Dev.setHead_enc (k : Nat) (x : HeadSt) : (d.setHead k x).enc = d.enc := rfl
@[simp] theorem Dev.setHead_snd (k : Nat) (x : HeadSt) : (d.setHead k x).snd = d.snd := rfl
@[simp] theorem Dev.setHead_fab (k : Nat) (x : HeadSt) : (d.setHead k x).fab = d.fab := rfl
@[simp] theorem Dev.setHead_log (k : Nat) (x : HeadSt) : (d.setHead k x).log = d.log := rfl
@[simp] theorem Dev.setHead_ram (k : Nat) (x : HeadSt) : (d.setHead k x).ram = d.ram := rfl
@[simp] theorem Dev.setHead_blt (k : Nat) (x : HeadSt) : (d.setHead k x).blt = d.blt := rfl
@[simp] theorem Dev.setHead_dma (k : Nat) (x : HeadSt) : (d.setHead k x).dma = d.dma := rfl
@[simp] theorem Dev.setHead_evc (k : Nat) (x : HeadSt) : (d.setHead k x).evc = d.evc := rfl
@[simp] theorem Dev.setHead_tmrs (k : Nat) (x : HeadSt) : (d.setHead k x).tmrs = d.tmrs := rfl
@[simp] theorem Dev.setHead_gpio (k : Nat) (x : HeadSt) : (d.setHead k x).gpio = d.gpio := rfl
@[simp] theorem Dev.setHead_lsp (k : Nat) (x : HeadSt) : (d.setHead k x).lsp = d.lsp := rfl
@[simp] theorem Dev.setHead_usb (k : Nat) (x : HeadSt) : (d.setHead k x).usb = d.usb := rfl
@[simp] theorem Dev.setHead_mgmt (k : Nat) (x : HeadSt) : (d.setHead k x).mgmt = d.mgmt := rfl
@[simp] theorem Dev.setHead_sys (k : Nat) (x : HeadSt) : (d.setHead k x).sys = d.sys := rfl
@[simp] theorem Dev.setHead_seqs (k : Nat) (x : HeadSt) : (d.setHead k x).seqs = d.seqs := rfl
@[simp] theorem Dev.setHead_gaps (k : Nat) (x : HeadSt) : (d.setHead k x).gaps = d.gaps := rfl
@[simp] theorem Dev.setHead_lastBorrow (k : Nat) (x : HeadSt) : (d.setHead k x).lastBorrow = d.lastBorrow := rfl
@[simp] theorem Dev.setHead_resv (k : Nat) (x : HeadSt) : (d.setHead k x).resv = d.resv := rfl
@[simp] theorem Dev.setHead_outs (k : Nat) (x : HeadSt) : (d.setHead k x).outs = d.outs := rfl
@[simp] theorem Dev.setHead_answer (k : Nat) (x : HeadSt) : (d.setHead k x).answer = d.answer := rfl
@[simp] theorem Dev.setHead_draws (k : Nat) (x : HeadSt) : (d.setHead k x).draws = d.draws := rfl
@[simp] theorem Dev.setHead_wlog (k : Nat) (x : HeadSt) : (d.setHead k x).wlog = d.wlog := rfl
@[simp] theorem Dev.setHead_rd (k : Nat) (x : HeadSt) (p o : Nat) : (d.setHead k x).rd p o = d.rd p o := rfl
@[simp] theorem Dev.setHead_eng (k : Nat) (x : HeadSt) (e : Nat) : (d.setHead k x).eng e = d.eng e := rfl
@[simp] theorem Dev.setHead_lane (k : Nat) (x : HeadSt) (n : Nat) : (d.setHead k x).lane n = d.lane n := rfl
@[simp] theorem Dev.setHead_byte (k : Nat) (x : HeadSt) (a : Nat) : (d.setHead k x).byte a = d.byte a := rfl

/-! ### setEng -/

@[simp] theorem Dev.setEng_regs (k : Nat) (x : Engine) : (d.setEng k x).regs = d.regs := rfl
@[simp] theorem Dev.setEng_setNow (k : Nat) (x : Engine) : (d.setEng k x).setNow = d.setNow := rfl
@[simp] theorem Dev.setEng_mem (k : Nat) (x : Engine) : (d.setEng k x).mem = d.mem := rfl
@[simp] theorem Dev.setEng_clock (k : Nat) (x : Engine) : (d.setEng k x).clock = d.clock := rfl
@[simp] theorem Dev.setEng_latches (k : Nat) (x : Engine) : (d.setEng k x).latches = d.latches := rfl
@[simp] theorem Dev.setEng_armed (k : Nat) (x : Engine) : (d.setEng k x).armed = d.armed := rfl
@[simp] theorem Dev.setEng_locked (k : Nat) (x : Engine) : (d.setEng k x).locked = d.locked := rfl
@[simp] theorem Dev.setEng_inReset (k : Nat) (x : Engine) : (d.setEng k x).inReset = d.inReset := rfl
@[simp] theorem Dev.setEng_lanes (k : Nat) (x : Engine) : (d.setEng k x).lanes = d.lanes := rfl
@[simp] theorem Dev.setEng_heads (k : Nat) (x : Engine) : (d.setEng k x).heads = d.heads := rfl
@[simp] theorem Dev.setEng_enc (k : Nat) (x : Engine) : (d.setEng k x).enc = d.enc := rfl
@[simp] theorem Dev.setEng_snd (k : Nat) (x : Engine) : (d.setEng k x).snd = d.snd := rfl
@[simp] theorem Dev.setEng_fab (k : Nat) (x : Engine) : (d.setEng k x).fab = d.fab := rfl
@[simp] theorem Dev.setEng_log (k : Nat) (x : Engine) : (d.setEng k x).log = d.log := rfl
@[simp] theorem Dev.setEng_ram (k : Nat) (x : Engine) : (d.setEng k x).ram = d.ram := rfl
@[simp] theorem Dev.setEng_blt (k : Nat) (x : Engine) : (d.setEng k x).blt = d.blt := rfl
@[simp] theorem Dev.setEng_dma (k : Nat) (x : Engine) : (d.setEng k x).dma = d.dma := rfl
@[simp] theorem Dev.setEng_evc (k : Nat) (x : Engine) : (d.setEng k x).evc = d.evc := rfl
@[simp] theorem Dev.setEng_tmrs (k : Nat) (x : Engine) : (d.setEng k x).tmrs = d.tmrs := rfl
@[simp] theorem Dev.setEng_gpio (k : Nat) (x : Engine) : (d.setEng k x).gpio = d.gpio := rfl
@[simp] theorem Dev.setEng_lsp (k : Nat) (x : Engine) : (d.setEng k x).lsp = d.lsp := rfl
@[simp] theorem Dev.setEng_usb (k : Nat) (x : Engine) : (d.setEng k x).usb = d.usb := rfl
@[simp] theorem Dev.setEng_mgmt (k : Nat) (x : Engine) : (d.setEng k x).mgmt = d.mgmt := rfl
@[simp] theorem Dev.setEng_sys (k : Nat) (x : Engine) : (d.setEng k x).sys = d.sys := rfl
@[simp] theorem Dev.setEng_seqs (k : Nat) (x : Engine) : (d.setEng k x).seqs = d.seqs := rfl
@[simp] theorem Dev.setEng_gaps (k : Nat) (x : Engine) : (d.setEng k x).gaps = d.gaps := rfl
@[simp] theorem Dev.setEng_lastBorrow (k : Nat) (x : Engine) : (d.setEng k x).lastBorrow = d.lastBorrow := rfl
@[simp] theorem Dev.setEng_resv (k : Nat) (x : Engine) : (d.setEng k x).resv = d.resv := rfl
@[simp] theorem Dev.setEng_outs (k : Nat) (x : Engine) : (d.setEng k x).outs = d.outs := rfl
@[simp] theorem Dev.setEng_answer (k : Nat) (x : Engine) : (d.setEng k x).answer = d.answer := rfl
@[simp] theorem Dev.setEng_draws (k : Nat) (x : Engine) : (d.setEng k x).draws = d.draws := rfl
@[simp] theorem Dev.setEng_wlog (k : Nat) (x : Engine) : (d.setEng k x).wlog = d.wlog := rfl
@[simp] theorem Dev.setEng_rd (k : Nat) (x : Engine) (p o : Nat) : (d.setEng k x).rd p o = d.rd p o := rfl
@[simp] theorem Dev.setEng_head (k : Nat) (x : Engine) (h : Nat) : (d.setEng k x).head h = d.head h := rfl
@[simp] theorem Dev.setEng_lane (k : Nat) (x : Engine) (n : Nat) : (d.setEng k x).lane n = d.lane n := rfl
@[simp] theorem Dev.setEng_byte (k : Nat) (x : Engine) (a : Nat) : (d.setEng k x).byte a = d.byte a := rfl

/-! ### pass -/

@[simp] theorem Dev.pass_regs (n : Nat) : (d.pass n).regs = d.regs := rfl
@[simp] theorem Dev.pass_mem (n : Nat) : (d.pass n).mem = d.mem := rfl
@[simp] theorem Dev.pass_latches (n : Nat) : (d.pass n).latches = d.latches := rfl
@[simp] theorem Dev.pass_armed (n : Nat) : (d.pass n).armed = d.armed := rfl
@[simp] theorem Dev.pass_locked (n : Nat) : (d.pass n).locked = d.locked := rfl
@[simp] theorem Dev.pass_inReset (n : Nat) : (d.pass n).inReset = d.inReset := rfl
@[simp] theorem Dev.pass_lanes (n : Nat) : (d.pass n).lanes = d.lanes := rfl
@[simp] theorem Dev.pass_heads (n : Nat) : (d.pass n).heads = d.heads := rfl
@[simp] theorem Dev.pass_engines (n : Nat) : (d.pass n).engines = d.engines := rfl
@[simp] theorem Dev.pass_enc (n : Nat) : (d.pass n).enc = d.enc := rfl
@[simp] theorem Dev.pass_snd (n : Nat) : (d.pass n).snd = d.snd := rfl
@[simp] theorem Dev.pass_fab (n : Nat) : (d.pass n).fab = d.fab := rfl
@[simp] theorem Dev.pass_log (n : Nat) : (d.pass n).log = d.log := rfl
@[simp] theorem Dev.pass_ram (n : Nat) : (d.pass n).ram = d.ram := rfl
@[simp] theorem Dev.pass_blt (n : Nat) : (d.pass n).blt = d.blt := rfl
@[simp] theorem Dev.pass_dma (n : Nat) : (d.pass n).dma = d.dma := rfl
@[simp] theorem Dev.pass_evc (n : Nat) : (d.pass n).evc = d.evc := rfl
@[simp] theorem Dev.pass_tmrs (n : Nat) : (d.pass n).tmrs = d.tmrs := rfl
@[simp] theorem Dev.pass_gpio (n : Nat) : (d.pass n).gpio = d.gpio := rfl
@[simp] theorem Dev.pass_lsp (n : Nat) : (d.pass n).lsp = d.lsp := rfl
@[simp] theorem Dev.pass_usb (n : Nat) : (d.pass n).usb = d.usb := rfl
@[simp] theorem Dev.pass_mgmt (n : Nat) : (d.pass n).mgmt = d.mgmt := rfl
@[simp] theorem Dev.pass_sys (n : Nat) : (d.pass n).sys = d.sys := rfl
@[simp] theorem Dev.pass_seqs (n : Nat) : (d.pass n).seqs = d.seqs := rfl
@[simp] theorem Dev.pass_gaps (n : Nat) : (d.pass n).gaps = d.gaps := rfl
@[simp] theorem Dev.pass_lastBorrow (n : Nat) : (d.pass n).lastBorrow = d.lastBorrow := rfl
@[simp] theorem Dev.pass_resv (n : Nat) : (d.pass n).resv = d.resv := rfl
@[simp] theorem Dev.pass_outs (n : Nat) : (d.pass n).outs = d.outs := rfl
@[simp] theorem Dev.pass_answer (n : Nat) : (d.pass n).answer = d.answer := rfl
@[simp] theorem Dev.pass_draws (n : Nat) : (d.pass n).draws = d.draws := rfl
@[simp] theorem Dev.pass_wlog (n : Nat) : (d.pass n).wlog = d.wlog := rfl
@[simp] theorem Dev.pass_rd (n : Nat) (p o : Nat) : (d.pass n).rd p o = d.rd p o := rfl
@[simp] theorem Dev.pass_head (n : Nat) (h : Nat) : (d.pass n).head h = d.head h := rfl
@[simp] theorem Dev.pass_eng (n : Nat) (e : Nat) : (d.pass n).eng e = d.eng e := rfl
@[simp] theorem Dev.pass_lane (n : Nat) (n : Nat) : (d.pass n).lane n = d.lane n := rfl
@[simp] theorem Dev.pass_byte (n : Nat) (a : Nat) : (d.pass n).byte a = d.byte a := rfl

/-! ### onFab -/

@[simp] theorem Dev.onFab_regs (f : FabricSt → FabricSt) : (d.onFab f).regs = d.regs := rfl
@[simp] theorem Dev.onFab_setNow (f : FabricSt → FabricSt) : (d.onFab f).setNow = d.setNow := rfl
@[simp] theorem Dev.onFab_mem (f : FabricSt → FabricSt) : (d.onFab f).mem = d.mem := rfl
@[simp] theorem Dev.onFab_clock (f : FabricSt → FabricSt) : (d.onFab f).clock = d.clock := rfl
@[simp] theorem Dev.onFab_latches (f : FabricSt → FabricSt) : (d.onFab f).latches = d.latches := rfl
@[simp] theorem Dev.onFab_armed (f : FabricSt → FabricSt) : (d.onFab f).armed = d.armed := rfl
@[simp] theorem Dev.onFab_locked (f : FabricSt → FabricSt) : (d.onFab f).locked = d.locked := rfl
@[simp] theorem Dev.onFab_inReset (f : FabricSt → FabricSt) : (d.onFab f).inReset = d.inReset := rfl
@[simp] theorem Dev.onFab_lanes (f : FabricSt → FabricSt) : (d.onFab f).lanes = d.lanes := rfl
@[simp] theorem Dev.onFab_heads (f : FabricSt → FabricSt) : (d.onFab f).heads = d.heads := rfl
@[simp] theorem Dev.onFab_engines (f : FabricSt → FabricSt) : (d.onFab f).engines = d.engines := rfl
@[simp] theorem Dev.onFab_enc (f : FabricSt → FabricSt) : (d.onFab f).enc = d.enc := rfl
@[simp] theorem Dev.onFab_snd (f : FabricSt → FabricSt) : (d.onFab f).snd = d.snd := rfl
@[simp] theorem Dev.onFab_fab (f : FabricSt → FabricSt) : (d.onFab f).fab = f d.fab := rfl
@[simp] theorem Dev.onFab_log (f : FabricSt → FabricSt) : (d.onFab f).log = d.log := rfl
@[simp] theorem Dev.onFab_ram (f : FabricSt → FabricSt) : (d.onFab f).ram = d.ram := rfl
@[simp] theorem Dev.onFab_blt (f : FabricSt → FabricSt) : (d.onFab f).blt = d.blt := rfl
@[simp] theorem Dev.onFab_dma (f : FabricSt → FabricSt) : (d.onFab f).dma = d.dma := rfl
@[simp] theorem Dev.onFab_evc (f : FabricSt → FabricSt) : (d.onFab f).evc = d.evc := rfl
@[simp] theorem Dev.onFab_tmrs (f : FabricSt → FabricSt) : (d.onFab f).tmrs = d.tmrs := rfl
@[simp] theorem Dev.onFab_gpio (f : FabricSt → FabricSt) : (d.onFab f).gpio = d.gpio := rfl
@[simp] theorem Dev.onFab_lsp (f : FabricSt → FabricSt) : (d.onFab f).lsp = d.lsp := rfl
@[simp] theorem Dev.onFab_usb (f : FabricSt → FabricSt) : (d.onFab f).usb = d.usb := rfl
@[simp] theorem Dev.onFab_mgmt (f : FabricSt → FabricSt) : (d.onFab f).mgmt = d.mgmt := rfl
@[simp] theorem Dev.onFab_sys (f : FabricSt → FabricSt) : (d.onFab f).sys = d.sys := rfl
@[simp] theorem Dev.onFab_seqs (f : FabricSt → FabricSt) : (d.onFab f).seqs = d.seqs := rfl
@[simp] theorem Dev.onFab_gaps (f : FabricSt → FabricSt) : (d.onFab f).gaps = d.gaps := rfl
@[simp] theorem Dev.onFab_lastBorrow (f : FabricSt → FabricSt) : (d.onFab f).lastBorrow = d.lastBorrow := rfl
@[simp] theorem Dev.onFab_resv (f : FabricSt → FabricSt) : (d.onFab f).resv = d.resv := rfl
@[simp] theorem Dev.onFab_outs (f : FabricSt → FabricSt) : (d.onFab f).outs = d.outs := rfl
@[simp] theorem Dev.onFab_answer (f : FabricSt → FabricSt) : (d.onFab f).answer = d.answer := rfl
@[simp] theorem Dev.onFab_draws (f : FabricSt → FabricSt) : (d.onFab f).draws = d.draws := rfl
@[simp] theorem Dev.onFab_wlog (f : FabricSt → FabricSt) : (d.onFab f).wlog = d.wlog := rfl
@[simp] theorem Dev.onFab_rd (f : FabricSt → FabricSt) (p o : Nat) : (d.onFab f).rd p o = d.rd p o := rfl
@[simp] theorem Dev.onFab_head (f : FabricSt → FabricSt) (h : Nat) : (d.onFab f).head h = d.head h := rfl
@[simp] theorem Dev.onFab_eng (f : FabricSt → FabricSt) (e : Nat) : (d.onFab f).eng e = d.eng e := rfl
@[simp] theorem Dev.onFab_lane (f : FabricSt → FabricSt) (n : Nat) : (d.onFab f).lane n = d.lane n := rfl
@[simp] theorem Dev.onFab_byte (f : FabricSt → FabricSt) (a : Nat) : (d.onFab f).byte a = d.byte a := rfl

/-! ### onEnc -/

@[simp] theorem Dev.onEnc_regs (f : EncSt → EncSt) : (d.onEnc f).regs = d.regs := rfl
@[simp] theorem Dev.onEnc_setNow (f : EncSt → EncSt) : (d.onEnc f).setNow = d.setNow := rfl
@[simp] theorem Dev.onEnc_mem (f : EncSt → EncSt) : (d.onEnc f).mem = d.mem := rfl
@[simp] theorem Dev.onEnc_clock (f : EncSt → EncSt) : (d.onEnc f).clock = d.clock := rfl
@[simp] theorem Dev.onEnc_latches (f : EncSt → EncSt) : (d.onEnc f).latches = d.latches := rfl
@[simp] theorem Dev.onEnc_armed (f : EncSt → EncSt) : (d.onEnc f).armed = d.armed := rfl
@[simp] theorem Dev.onEnc_locked (f : EncSt → EncSt) : (d.onEnc f).locked = d.locked := rfl
@[simp] theorem Dev.onEnc_inReset (f : EncSt → EncSt) : (d.onEnc f).inReset = d.inReset := rfl
@[simp] theorem Dev.onEnc_lanes (f : EncSt → EncSt) : (d.onEnc f).lanes = d.lanes := rfl
@[simp] theorem Dev.onEnc_heads (f : EncSt → EncSt) : (d.onEnc f).heads = d.heads := rfl
@[simp] theorem Dev.onEnc_engines (f : EncSt → EncSt) : (d.onEnc f).engines = d.engines := rfl
@[simp] theorem Dev.onEnc_enc (f : EncSt → EncSt) : (d.onEnc f).enc = f d.enc := rfl
@[simp] theorem Dev.onEnc_snd (f : EncSt → EncSt) : (d.onEnc f).snd = d.snd := rfl
@[simp] theorem Dev.onEnc_fab (f : EncSt → EncSt) : (d.onEnc f).fab = d.fab := rfl
@[simp] theorem Dev.onEnc_log (f : EncSt → EncSt) : (d.onEnc f).log = d.log := rfl
@[simp] theorem Dev.onEnc_ram (f : EncSt → EncSt) : (d.onEnc f).ram = d.ram := rfl
@[simp] theorem Dev.onEnc_blt (f : EncSt → EncSt) : (d.onEnc f).blt = d.blt := rfl
@[simp] theorem Dev.onEnc_dma (f : EncSt → EncSt) : (d.onEnc f).dma = d.dma := rfl
@[simp] theorem Dev.onEnc_evc (f : EncSt → EncSt) : (d.onEnc f).evc = d.evc := rfl
@[simp] theorem Dev.onEnc_tmrs (f : EncSt → EncSt) : (d.onEnc f).tmrs = d.tmrs := rfl
@[simp] theorem Dev.onEnc_gpio (f : EncSt → EncSt) : (d.onEnc f).gpio = d.gpio := rfl
@[simp] theorem Dev.onEnc_lsp (f : EncSt → EncSt) : (d.onEnc f).lsp = d.lsp := rfl
@[simp] theorem Dev.onEnc_usb (f : EncSt → EncSt) : (d.onEnc f).usb = d.usb := rfl
@[simp] theorem Dev.onEnc_mgmt (f : EncSt → EncSt) : (d.onEnc f).mgmt = d.mgmt := rfl
@[simp] theorem Dev.onEnc_sys (f : EncSt → EncSt) : (d.onEnc f).sys = d.sys := rfl
@[simp] theorem Dev.onEnc_seqs (f : EncSt → EncSt) : (d.onEnc f).seqs = d.seqs := rfl
@[simp] theorem Dev.onEnc_gaps (f : EncSt → EncSt) : (d.onEnc f).gaps = d.gaps := rfl
@[simp] theorem Dev.onEnc_lastBorrow (f : EncSt → EncSt) : (d.onEnc f).lastBorrow = d.lastBorrow := rfl
@[simp] theorem Dev.onEnc_resv (f : EncSt → EncSt) : (d.onEnc f).resv = d.resv := rfl
@[simp] theorem Dev.onEnc_outs (f : EncSt → EncSt) : (d.onEnc f).outs = d.outs := rfl
@[simp] theorem Dev.onEnc_answer (f : EncSt → EncSt) : (d.onEnc f).answer = d.answer := rfl
@[simp] theorem Dev.onEnc_draws (f : EncSt → EncSt) : (d.onEnc f).draws = d.draws := rfl
@[simp] theorem Dev.onEnc_wlog (f : EncSt → EncSt) : (d.onEnc f).wlog = d.wlog := rfl
@[simp] theorem Dev.onEnc_rd (f : EncSt → EncSt) (p o : Nat) : (d.onEnc f).rd p o = d.rd p o := rfl
@[simp] theorem Dev.onEnc_head (f : EncSt → EncSt) (h : Nat) : (d.onEnc f).head h = d.head h := rfl
@[simp] theorem Dev.onEnc_eng (f : EncSt → EncSt) (e : Nat) : (d.onEnc f).eng e = d.eng e := rfl
@[simp] theorem Dev.onEnc_lane (f : EncSt → EncSt) (n : Nat) : (d.onEnc f).lane n = d.lane n := rfl
@[simp] theorem Dev.onEnc_byte (f : EncSt → EncSt) (a : Nat) : (d.onEnc f).byte a = d.byte a := rfl

/-! ### onSnd -/

@[simp] theorem Dev.onSnd_regs (f : SoundSt → SoundSt) : (d.onSnd f).regs = d.regs := rfl
@[simp] theorem Dev.onSnd_setNow (f : SoundSt → SoundSt) : (d.onSnd f).setNow = d.setNow := rfl
@[simp] theorem Dev.onSnd_mem (f : SoundSt → SoundSt) : (d.onSnd f).mem = d.mem := rfl
@[simp] theorem Dev.onSnd_clock (f : SoundSt → SoundSt) : (d.onSnd f).clock = d.clock := rfl
@[simp] theorem Dev.onSnd_latches (f : SoundSt → SoundSt) : (d.onSnd f).latches = d.latches := rfl
@[simp] theorem Dev.onSnd_armed (f : SoundSt → SoundSt) : (d.onSnd f).armed = d.armed := rfl
@[simp] theorem Dev.onSnd_locked (f : SoundSt → SoundSt) : (d.onSnd f).locked = d.locked := rfl
@[simp] theorem Dev.onSnd_inReset (f : SoundSt → SoundSt) : (d.onSnd f).inReset = d.inReset := rfl
@[simp] theorem Dev.onSnd_lanes (f : SoundSt → SoundSt) : (d.onSnd f).lanes = d.lanes := rfl
@[simp] theorem Dev.onSnd_heads (f : SoundSt → SoundSt) : (d.onSnd f).heads = d.heads := rfl
@[simp] theorem Dev.onSnd_engines (f : SoundSt → SoundSt) : (d.onSnd f).engines = d.engines := rfl
@[simp] theorem Dev.onSnd_enc (f : SoundSt → SoundSt) : (d.onSnd f).enc = d.enc := rfl
@[simp] theorem Dev.onSnd_snd (f : SoundSt → SoundSt) : (d.onSnd f).snd = f d.snd := rfl
@[simp] theorem Dev.onSnd_fab (f : SoundSt → SoundSt) : (d.onSnd f).fab = d.fab := rfl
@[simp] theorem Dev.onSnd_log (f : SoundSt → SoundSt) : (d.onSnd f).log = d.log := rfl
@[simp] theorem Dev.onSnd_ram (f : SoundSt → SoundSt) : (d.onSnd f).ram = d.ram := rfl
@[simp] theorem Dev.onSnd_blt (f : SoundSt → SoundSt) : (d.onSnd f).blt = d.blt := rfl
@[simp] theorem Dev.onSnd_dma (f : SoundSt → SoundSt) : (d.onSnd f).dma = d.dma := rfl
@[simp] theorem Dev.onSnd_evc (f : SoundSt → SoundSt) : (d.onSnd f).evc = d.evc := rfl
@[simp] theorem Dev.onSnd_tmrs (f : SoundSt → SoundSt) : (d.onSnd f).tmrs = d.tmrs := rfl
@[simp] theorem Dev.onSnd_gpio (f : SoundSt → SoundSt) : (d.onSnd f).gpio = d.gpio := rfl
@[simp] theorem Dev.onSnd_lsp (f : SoundSt → SoundSt) : (d.onSnd f).lsp = d.lsp := rfl
@[simp] theorem Dev.onSnd_usb (f : SoundSt → SoundSt) : (d.onSnd f).usb = d.usb := rfl
@[simp] theorem Dev.onSnd_mgmt (f : SoundSt → SoundSt) : (d.onSnd f).mgmt = d.mgmt := rfl
@[simp] theorem Dev.onSnd_sys (f : SoundSt → SoundSt) : (d.onSnd f).sys = d.sys := rfl
@[simp] theorem Dev.onSnd_seqs (f : SoundSt → SoundSt) : (d.onSnd f).seqs = d.seqs := rfl
@[simp] theorem Dev.onSnd_gaps (f : SoundSt → SoundSt) : (d.onSnd f).gaps = d.gaps := rfl
@[simp] theorem Dev.onSnd_lastBorrow (f : SoundSt → SoundSt) : (d.onSnd f).lastBorrow = d.lastBorrow := rfl
@[simp] theorem Dev.onSnd_resv (f : SoundSt → SoundSt) : (d.onSnd f).resv = d.resv := rfl
@[simp] theorem Dev.onSnd_outs (f : SoundSt → SoundSt) : (d.onSnd f).outs = d.outs := rfl
@[simp] theorem Dev.onSnd_answer (f : SoundSt → SoundSt) : (d.onSnd f).answer = d.answer := rfl
@[simp] theorem Dev.onSnd_draws (f : SoundSt → SoundSt) : (d.onSnd f).draws = d.draws := rfl
@[simp] theorem Dev.onSnd_wlog (f : SoundSt → SoundSt) : (d.onSnd f).wlog = d.wlog := rfl
@[simp] theorem Dev.onSnd_rd (f : SoundSt → SoundSt) (p o : Nat) : (d.onSnd f).rd p o = d.rd p o := rfl
@[simp] theorem Dev.onSnd_head (f : SoundSt → SoundSt) (h : Nat) : (d.onSnd f).head h = d.head h := rfl
@[simp] theorem Dev.onSnd_eng (f : SoundSt → SoundSt) (e : Nat) : (d.onSnd f).eng e = d.eng e := rfl
@[simp] theorem Dev.onSnd_lane (f : SoundSt → SoundSt) (n : Nat) : (d.onSnd f).lane n = d.lane n := rfl
@[simp] theorem Dev.onSnd_byte (f : SoundSt → SoundSt) (a : Nat) : (d.onSnd f).byte a = d.byte a := rfl

/-! ### onLsp -/

@[simp] theorem Dev.onLsp_regs (f : LspSt → LspSt) : (d.onLsp f).regs = d.regs := rfl
@[simp] theorem Dev.onLsp_setNow (f : LspSt → LspSt) : (d.onLsp f).setNow = d.setNow := rfl
@[simp] theorem Dev.onLsp_mem (f : LspSt → LspSt) : (d.onLsp f).mem = d.mem := rfl
@[simp] theorem Dev.onLsp_clock (f : LspSt → LspSt) : (d.onLsp f).clock = d.clock := rfl
@[simp] theorem Dev.onLsp_latches (f : LspSt → LspSt) : (d.onLsp f).latches = d.latches := rfl
@[simp] theorem Dev.onLsp_armed (f : LspSt → LspSt) : (d.onLsp f).armed = d.armed := rfl
@[simp] theorem Dev.onLsp_locked (f : LspSt → LspSt) : (d.onLsp f).locked = d.locked := rfl
@[simp] theorem Dev.onLsp_inReset (f : LspSt → LspSt) : (d.onLsp f).inReset = d.inReset := rfl
@[simp] theorem Dev.onLsp_lanes (f : LspSt → LspSt) : (d.onLsp f).lanes = d.lanes := rfl
@[simp] theorem Dev.onLsp_heads (f : LspSt → LspSt) : (d.onLsp f).heads = d.heads := rfl
@[simp] theorem Dev.onLsp_engines (f : LspSt → LspSt) : (d.onLsp f).engines = d.engines := rfl
@[simp] theorem Dev.onLsp_enc (f : LspSt → LspSt) : (d.onLsp f).enc = d.enc := rfl
@[simp] theorem Dev.onLsp_snd (f : LspSt → LspSt) : (d.onLsp f).snd = d.snd := rfl
@[simp] theorem Dev.onLsp_fab (f : LspSt → LspSt) : (d.onLsp f).fab = d.fab := rfl
@[simp] theorem Dev.onLsp_log (f : LspSt → LspSt) : (d.onLsp f).log = d.log := rfl
@[simp] theorem Dev.onLsp_ram (f : LspSt → LspSt) : (d.onLsp f).ram = d.ram := rfl
@[simp] theorem Dev.onLsp_blt (f : LspSt → LspSt) : (d.onLsp f).blt = d.blt := rfl
@[simp] theorem Dev.onLsp_dma (f : LspSt → LspSt) : (d.onLsp f).dma = d.dma := rfl
@[simp] theorem Dev.onLsp_evc (f : LspSt → LspSt) : (d.onLsp f).evc = d.evc := rfl
@[simp] theorem Dev.onLsp_tmrs (f : LspSt → LspSt) : (d.onLsp f).tmrs = d.tmrs := rfl
@[simp] theorem Dev.onLsp_gpio (f : LspSt → LspSt) : (d.onLsp f).gpio = d.gpio := rfl
@[simp] theorem Dev.onLsp_lsp (f : LspSt → LspSt) : (d.onLsp f).lsp = f d.lsp := rfl
@[simp] theorem Dev.onLsp_usb (f : LspSt → LspSt) : (d.onLsp f).usb = d.usb := rfl
@[simp] theorem Dev.onLsp_mgmt (f : LspSt → LspSt) : (d.onLsp f).mgmt = d.mgmt := rfl
@[simp] theorem Dev.onLsp_sys (f : LspSt → LspSt) : (d.onLsp f).sys = d.sys := rfl
@[simp] theorem Dev.onLsp_seqs (f : LspSt → LspSt) : (d.onLsp f).seqs = d.seqs := rfl
@[simp] theorem Dev.onLsp_gaps (f : LspSt → LspSt) : (d.onLsp f).gaps = d.gaps := rfl
@[simp] theorem Dev.onLsp_lastBorrow (f : LspSt → LspSt) : (d.onLsp f).lastBorrow = d.lastBorrow := rfl
@[simp] theorem Dev.onLsp_resv (f : LspSt → LspSt) : (d.onLsp f).resv = d.resv := rfl
@[simp] theorem Dev.onLsp_outs (f : LspSt → LspSt) : (d.onLsp f).outs = d.outs := rfl
@[simp] theorem Dev.onLsp_answer (f : LspSt → LspSt) : (d.onLsp f).answer = d.answer := rfl
@[simp] theorem Dev.onLsp_draws (f : LspSt → LspSt) : (d.onLsp f).draws = d.draws := rfl
@[simp] theorem Dev.onLsp_wlog (f : LspSt → LspSt) : (d.onLsp f).wlog = d.wlog := rfl
@[simp] theorem Dev.onLsp_rd (f : LspSt → LspSt) (p o : Nat) : (d.onLsp f).rd p o = d.rd p o := rfl
@[simp] theorem Dev.onLsp_head (f : LspSt → LspSt) (h : Nat) : (d.onLsp f).head h = d.head h := rfl
@[simp] theorem Dev.onLsp_eng (f : LspSt → LspSt) (e : Nat) : (d.onLsp f).eng e = d.eng e := rfl
@[simp] theorem Dev.onLsp_lane (f : LspSt → LspSt) (n : Nat) : (d.onLsp f).lane n = d.lane n := rfl
@[simp] theorem Dev.onLsp_byte (f : LspSt → LspSt) (a : Nat) : (d.onLsp f).byte a = d.byte a := rfl

/-! ### onGpio -/

@[simp] theorem Dev.onGpio_regs (f : GpioSt → GpioSt) : (d.onGpio f).regs = d.regs := rfl
@[simp] theorem Dev.onGpio_setNow (f : GpioSt → GpioSt) : (d.onGpio f).setNow = d.setNow := rfl
@[simp] theorem Dev.onGpio_mem (f : GpioSt → GpioSt) : (d.onGpio f).mem = d.mem := rfl
@[simp] theorem Dev.onGpio_clock (f : GpioSt → GpioSt) : (d.onGpio f).clock = d.clock := rfl
@[simp] theorem Dev.onGpio_latches (f : GpioSt → GpioSt) : (d.onGpio f).latches = d.latches := rfl
@[simp] theorem Dev.onGpio_armed (f : GpioSt → GpioSt) : (d.onGpio f).armed = d.armed := rfl
@[simp] theorem Dev.onGpio_locked (f : GpioSt → GpioSt) : (d.onGpio f).locked = d.locked := rfl
@[simp] theorem Dev.onGpio_inReset (f : GpioSt → GpioSt) : (d.onGpio f).inReset = d.inReset := rfl
@[simp] theorem Dev.onGpio_lanes (f : GpioSt → GpioSt) : (d.onGpio f).lanes = d.lanes := rfl
@[simp] theorem Dev.onGpio_heads (f : GpioSt → GpioSt) : (d.onGpio f).heads = d.heads := rfl
@[simp] theorem Dev.onGpio_engines (f : GpioSt → GpioSt) : (d.onGpio f).engines = d.engines := rfl
@[simp] theorem Dev.onGpio_enc (f : GpioSt → GpioSt) : (d.onGpio f).enc = d.enc := rfl
@[simp] theorem Dev.onGpio_snd (f : GpioSt → GpioSt) : (d.onGpio f).snd = d.snd := rfl
@[simp] theorem Dev.onGpio_fab (f : GpioSt → GpioSt) : (d.onGpio f).fab = d.fab := rfl
@[simp] theorem Dev.onGpio_log (f : GpioSt → GpioSt) : (d.onGpio f).log = d.log := rfl
@[simp] theorem Dev.onGpio_ram (f : GpioSt → GpioSt) : (d.onGpio f).ram = d.ram := rfl
@[simp] theorem Dev.onGpio_blt (f : GpioSt → GpioSt) : (d.onGpio f).blt = d.blt := rfl
@[simp] theorem Dev.onGpio_dma (f : GpioSt → GpioSt) : (d.onGpio f).dma = d.dma := rfl
@[simp] theorem Dev.onGpio_evc (f : GpioSt → GpioSt) : (d.onGpio f).evc = d.evc := rfl
@[simp] theorem Dev.onGpio_tmrs (f : GpioSt → GpioSt) : (d.onGpio f).tmrs = d.tmrs := rfl
@[simp] theorem Dev.onGpio_gpio (f : GpioSt → GpioSt) : (d.onGpio f).gpio = f d.gpio := rfl
@[simp] theorem Dev.onGpio_lsp (f : GpioSt → GpioSt) : (d.onGpio f).lsp = d.lsp := rfl
@[simp] theorem Dev.onGpio_usb (f : GpioSt → GpioSt) : (d.onGpio f).usb = d.usb := rfl
@[simp] theorem Dev.onGpio_mgmt (f : GpioSt → GpioSt) : (d.onGpio f).mgmt = d.mgmt := rfl
@[simp] theorem Dev.onGpio_sys (f : GpioSt → GpioSt) : (d.onGpio f).sys = d.sys := rfl
@[simp] theorem Dev.onGpio_seqs (f : GpioSt → GpioSt) : (d.onGpio f).seqs = d.seqs := rfl
@[simp] theorem Dev.onGpio_gaps (f : GpioSt → GpioSt) : (d.onGpio f).gaps = d.gaps := rfl
@[simp] theorem Dev.onGpio_lastBorrow (f : GpioSt → GpioSt) : (d.onGpio f).lastBorrow = d.lastBorrow := rfl
@[simp] theorem Dev.onGpio_resv (f : GpioSt → GpioSt) : (d.onGpio f).resv = d.resv := rfl
@[simp] theorem Dev.onGpio_outs (f : GpioSt → GpioSt) : (d.onGpio f).outs = d.outs := rfl
@[simp] theorem Dev.onGpio_answer (f : GpioSt → GpioSt) : (d.onGpio f).answer = d.answer := rfl
@[simp] theorem Dev.onGpio_draws (f : GpioSt → GpioSt) : (d.onGpio f).draws = d.draws := rfl
@[simp] theorem Dev.onGpio_wlog (f : GpioSt → GpioSt) : (d.onGpio f).wlog = d.wlog := rfl
@[simp] theorem Dev.onGpio_rd (f : GpioSt → GpioSt) (p o : Nat) : (d.onGpio f).rd p o = d.rd p o := rfl
@[simp] theorem Dev.onGpio_head (f : GpioSt → GpioSt) (h : Nat) : (d.onGpio f).head h = d.head h := rfl
@[simp] theorem Dev.onGpio_eng (f : GpioSt → GpioSt) (e : Nat) : (d.onGpio f).eng e = d.eng e := rfl
@[simp] theorem Dev.onGpio_lane (f : GpioSt → GpioSt) (n : Nat) : (d.onGpio f).lane n = d.lane n := rfl
@[simp] theorem Dev.onGpio_byte (f : GpioSt → GpioSt) (a : Nat) : (d.onGpio f).byte a = d.byte a := rfl

/-! ### onRam -/

@[simp] theorem Dev.onRam_regs (f : MemSt → MemSt) : (d.onRam f).regs = d.regs := rfl
@[simp] theorem Dev.onRam_setNow (f : MemSt → MemSt) : (d.onRam f).setNow = d.setNow := rfl
@[simp] theorem Dev.onRam_mem (f : MemSt → MemSt) : (d.onRam f).mem = d.mem := rfl
@[simp] theorem Dev.onRam_clock (f : MemSt → MemSt) : (d.onRam f).clock = d.clock := rfl
@[simp] theorem Dev.onRam_latches (f : MemSt → MemSt) : (d.onRam f).latches = d.latches := rfl
@[simp] theorem Dev.onRam_armed (f : MemSt → MemSt) : (d.onRam f).armed = d.armed := rfl
@[simp] theorem Dev.onRam_locked (f : MemSt → MemSt) : (d.onRam f).locked = d.locked := rfl
@[simp] theorem Dev.onRam_inReset (f : MemSt → MemSt) : (d.onRam f).inReset = d.inReset := rfl
@[simp] theorem Dev.onRam_lanes (f : MemSt → MemSt) : (d.onRam f).lanes = d.lanes := rfl
@[simp] theorem Dev.onRam_heads (f : MemSt → MemSt) : (d.onRam f).heads = d.heads := rfl
@[simp] theorem Dev.onRam_engines (f : MemSt → MemSt) : (d.onRam f).engines = d.engines := rfl
@[simp] theorem Dev.onRam_enc (f : MemSt → MemSt) : (d.onRam f).enc = d.enc := rfl
@[simp] theorem Dev.onRam_snd (f : MemSt → MemSt) : (d.onRam f).snd = d.snd := rfl
@[simp] theorem Dev.onRam_fab (f : MemSt → MemSt) : (d.onRam f).fab = d.fab := rfl
@[simp] theorem Dev.onRam_log (f : MemSt → MemSt) : (d.onRam f).log = d.log := rfl
@[simp] theorem Dev.onRam_ram (f : MemSt → MemSt) : (d.onRam f).ram = f d.ram := rfl
@[simp] theorem Dev.onRam_blt (f : MemSt → MemSt) : (d.onRam f).blt = d.blt := rfl
@[simp] theorem Dev.onRam_dma (f : MemSt → MemSt) : (d.onRam f).dma = d.dma := rfl
@[simp] theorem Dev.onRam_evc (f : MemSt → MemSt) : (d.onRam f).evc = d.evc := rfl
@[simp] theorem Dev.onRam_tmrs (f : MemSt → MemSt) : (d.onRam f).tmrs = d.tmrs := rfl
@[simp] theorem Dev.onRam_gpio (f : MemSt → MemSt) : (d.onRam f).gpio = d.gpio := rfl
@[simp] theorem Dev.onRam_lsp (f : MemSt → MemSt) : (d.onRam f).lsp = d.lsp := rfl
@[simp] theorem Dev.onRam_usb (f : MemSt → MemSt) : (d.onRam f).usb = d.usb := rfl
@[simp] theorem Dev.onRam_mgmt (f : MemSt → MemSt) : (d.onRam f).mgmt = d.mgmt := rfl
@[simp] theorem Dev.onRam_sys (f : MemSt → MemSt) : (d.onRam f).sys = d.sys := rfl
@[simp] theorem Dev.onRam_seqs (f : MemSt → MemSt) : (d.onRam f).seqs = d.seqs := rfl
@[simp] theorem Dev.onRam_gaps (f : MemSt → MemSt) : (d.onRam f).gaps = d.gaps := rfl
@[simp] theorem Dev.onRam_lastBorrow (f : MemSt → MemSt) : (d.onRam f).lastBorrow = d.lastBorrow := rfl
@[simp] theorem Dev.onRam_resv (f : MemSt → MemSt) : (d.onRam f).resv = d.resv := rfl
@[simp] theorem Dev.onRam_outs (f : MemSt → MemSt) : (d.onRam f).outs = d.outs := rfl
@[simp] theorem Dev.onRam_answer (f : MemSt → MemSt) : (d.onRam f).answer = d.answer := rfl
@[simp] theorem Dev.onRam_draws (f : MemSt → MemSt) : (d.onRam f).draws = d.draws := rfl
@[simp] theorem Dev.onRam_wlog (f : MemSt → MemSt) : (d.onRam f).wlog = d.wlog := rfl
@[simp] theorem Dev.onRam_rd (f : MemSt → MemSt) (p o : Nat) : (d.onRam f).rd p o = d.rd p o := rfl
@[simp] theorem Dev.onRam_head (f : MemSt → MemSt) (h : Nat) : (d.onRam f).head h = d.head h := rfl
@[simp] theorem Dev.onRam_eng (f : MemSt → MemSt) (e : Nat) : (d.onRam f).eng e = d.eng e := rfl
@[simp] theorem Dev.onRam_lane (f : MemSt → MemSt) (n : Nat) : (d.onRam f).lane n = d.lane n := rfl
@[simp] theorem Dev.onRam_byte (f : MemSt → MemSt) (a : Nat) : (d.onRam f).byte a = d.byte a := rfl

/-! ### onSys -/

@[simp] theorem Dev.onSys_regs (f : SysSt → SysSt) : (d.onSys f).regs = d.regs := rfl
@[simp] theorem Dev.onSys_setNow (f : SysSt → SysSt) : (d.onSys f).setNow = d.setNow := rfl
@[simp] theorem Dev.onSys_mem (f : SysSt → SysSt) : (d.onSys f).mem = d.mem := rfl
@[simp] theorem Dev.onSys_clock (f : SysSt → SysSt) : (d.onSys f).clock = d.clock := rfl
@[simp] theorem Dev.onSys_latches (f : SysSt → SysSt) : (d.onSys f).latches = d.latches := rfl
@[simp] theorem Dev.onSys_armed (f : SysSt → SysSt) : (d.onSys f).armed = d.armed := rfl
@[simp] theorem Dev.onSys_locked (f : SysSt → SysSt) : (d.onSys f).locked = d.locked := rfl
@[simp] theorem Dev.onSys_inReset (f : SysSt → SysSt) : (d.onSys f).inReset = d.inReset := rfl
@[simp] theorem Dev.onSys_lanes (f : SysSt → SysSt) : (d.onSys f).lanes = d.lanes := rfl
@[simp] theorem Dev.onSys_heads (f : SysSt → SysSt) : (d.onSys f).heads = d.heads := rfl
@[simp] theorem Dev.onSys_engines (f : SysSt → SysSt) : (d.onSys f).engines = d.engines := rfl
@[simp] theorem Dev.onSys_enc (f : SysSt → SysSt) : (d.onSys f).enc = d.enc := rfl
@[simp] theorem Dev.onSys_snd (f : SysSt → SysSt) : (d.onSys f).snd = d.snd := rfl
@[simp] theorem Dev.onSys_fab (f : SysSt → SysSt) : (d.onSys f).fab = d.fab := rfl
@[simp] theorem Dev.onSys_log (f : SysSt → SysSt) : (d.onSys f).log = d.log := rfl
@[simp] theorem Dev.onSys_ram (f : SysSt → SysSt) : (d.onSys f).ram = d.ram := rfl
@[simp] theorem Dev.onSys_blt (f : SysSt → SysSt) : (d.onSys f).blt = d.blt := rfl
@[simp] theorem Dev.onSys_dma (f : SysSt → SysSt) : (d.onSys f).dma = d.dma := rfl
@[simp] theorem Dev.onSys_evc (f : SysSt → SysSt) : (d.onSys f).evc = d.evc := rfl
@[simp] theorem Dev.onSys_tmrs (f : SysSt → SysSt) : (d.onSys f).tmrs = d.tmrs := rfl
@[simp] theorem Dev.onSys_gpio (f : SysSt → SysSt) : (d.onSys f).gpio = d.gpio := rfl
@[simp] theorem Dev.onSys_lsp (f : SysSt → SysSt) : (d.onSys f).lsp = d.lsp := rfl
@[simp] theorem Dev.onSys_usb (f : SysSt → SysSt) : (d.onSys f).usb = d.usb := rfl
@[simp] theorem Dev.onSys_mgmt (f : SysSt → SysSt) : (d.onSys f).mgmt = d.mgmt := rfl
@[simp] theorem Dev.onSys_sys (f : SysSt → SysSt) : (d.onSys f).sys = f d.sys := rfl
@[simp] theorem Dev.onSys_seqs (f : SysSt → SysSt) : (d.onSys f).seqs = d.seqs := rfl
@[simp] theorem Dev.onSys_gaps (f : SysSt → SysSt) : (d.onSys f).gaps = d.gaps := rfl
@[simp] theorem Dev.onSys_lastBorrow (f : SysSt → SysSt) : (d.onSys f).lastBorrow = d.lastBorrow := rfl
@[simp] theorem Dev.onSys_resv (f : SysSt → SysSt) : (d.onSys f).resv = d.resv := rfl
@[simp] theorem Dev.onSys_outs (f : SysSt → SysSt) : (d.onSys f).outs = d.outs := rfl
@[simp] theorem Dev.onSys_answer (f : SysSt → SysSt) : (d.onSys f).answer = d.answer := rfl
@[simp] theorem Dev.onSys_draws (f : SysSt → SysSt) : (d.onSys f).draws = d.draws := rfl
@[simp] theorem Dev.onSys_wlog (f : SysSt → SysSt) : (d.onSys f).wlog = d.wlog := rfl
@[simp] theorem Dev.onSys_rd (f : SysSt → SysSt) (p o : Nat) : (d.onSys f).rd p o = d.rd p o := rfl
@[simp] theorem Dev.onSys_head (f : SysSt → SysSt) (h : Nat) : (d.onSys f).head h = d.head h := rfl
@[simp] theorem Dev.onSys_eng (f : SysSt → SysSt) (e : Nat) : (d.onSys f).eng e = d.eng e := rfl
@[simp] theorem Dev.onSys_lane (f : SysSt → SysSt) (n : Nat) : (d.onSys f).lane n = d.lane n := rfl
@[simp] theorem Dev.onSys_byte (f : SysSt → SysSt) (a : Nat) : (d.onSys f).byte a = d.byte a := rfl

/-! ### setTmr -/

@[simp] theorem Dev.setTmr_regs (k : Nat) (x : TmrSt) : (d.setTmr k x).regs = d.regs := rfl
@[simp] theorem Dev.setTmr_setNow (k : Nat) (x : TmrSt) : (d.setTmr k x).setNow = d.setNow := rfl
@[simp] theorem Dev.setTmr_mem (k : Nat) (x : TmrSt) : (d.setTmr k x).mem = d.mem := rfl
@[simp] theorem Dev.setTmr_clock (k : Nat) (x : TmrSt) : (d.setTmr k x).clock = d.clock := rfl
@[simp] theorem Dev.setTmr_latches (k : Nat) (x : TmrSt) : (d.setTmr k x).latches = d.latches := rfl
@[simp] theorem Dev.setTmr_armed (k : Nat) (x : TmrSt) : (d.setTmr k x).armed = d.armed := rfl
@[simp] theorem Dev.setTmr_locked (k : Nat) (x : TmrSt) : (d.setTmr k x).locked = d.locked := rfl
@[simp] theorem Dev.setTmr_inReset (k : Nat) (x : TmrSt) : (d.setTmr k x).inReset = d.inReset := rfl
@[simp] theorem Dev.setTmr_lanes (k : Nat) (x : TmrSt) : (d.setTmr k x).lanes = d.lanes := rfl
@[simp] theorem Dev.setTmr_heads (k : Nat) (x : TmrSt) : (d.setTmr k x).heads = d.heads := rfl
@[simp] theorem Dev.setTmr_engines (k : Nat) (x : TmrSt) : (d.setTmr k x).engines = d.engines := rfl
@[simp] theorem Dev.setTmr_enc (k : Nat) (x : TmrSt) : (d.setTmr k x).enc = d.enc := rfl
@[simp] theorem Dev.setTmr_snd (k : Nat) (x : TmrSt) : (d.setTmr k x).snd = d.snd := rfl
@[simp] theorem Dev.setTmr_fab (k : Nat) (x : TmrSt) : (d.setTmr k x).fab = d.fab := rfl
@[simp] theorem Dev.setTmr_log (k : Nat) (x : TmrSt) : (d.setTmr k x).log = d.log := rfl
@[simp] theorem Dev.setTmr_ram (k : Nat) (x : TmrSt) : (d.setTmr k x).ram = d.ram := rfl
@[simp] theorem Dev.setTmr_blt (k : Nat) (x : TmrSt) : (d.setTmr k x).blt = d.blt := rfl
@[simp] theorem Dev.setTmr_dma (k : Nat) (x : TmrSt) : (d.setTmr k x).dma = d.dma := rfl
@[simp] theorem Dev.setTmr_evc (k : Nat) (x : TmrSt) : (d.setTmr k x).evc = d.evc := rfl
@[simp] theorem Dev.setTmr_gpio (k : Nat) (x : TmrSt) : (d.setTmr k x).gpio = d.gpio := rfl
@[simp] theorem Dev.setTmr_lsp (k : Nat) (x : TmrSt) : (d.setTmr k x).lsp = d.lsp := rfl
@[simp] theorem Dev.setTmr_usb (k : Nat) (x : TmrSt) : (d.setTmr k x).usb = d.usb := rfl
@[simp] theorem Dev.setTmr_mgmt (k : Nat) (x : TmrSt) : (d.setTmr k x).mgmt = d.mgmt := rfl
@[simp] theorem Dev.setTmr_sys (k : Nat) (x : TmrSt) : (d.setTmr k x).sys = d.sys := rfl
@[simp] theorem Dev.setTmr_seqs (k : Nat) (x : TmrSt) : (d.setTmr k x).seqs = d.seqs := rfl
@[simp] theorem Dev.setTmr_gaps (k : Nat) (x : TmrSt) : (d.setTmr k x).gaps = d.gaps := rfl
@[simp] theorem Dev.setTmr_lastBorrow (k : Nat) (x : TmrSt) : (d.setTmr k x).lastBorrow = d.lastBorrow := rfl
@[simp] theorem Dev.setTmr_resv (k : Nat) (x : TmrSt) : (d.setTmr k x).resv = d.resv := rfl
@[simp] theorem Dev.setTmr_outs (k : Nat) (x : TmrSt) : (d.setTmr k x).outs = d.outs := rfl
@[simp] theorem Dev.setTmr_answer (k : Nat) (x : TmrSt) : (d.setTmr k x).answer = d.answer := rfl
@[simp] theorem Dev.setTmr_draws (k : Nat) (x : TmrSt) : (d.setTmr k x).draws = d.draws := rfl
@[simp] theorem Dev.setTmr_wlog (k : Nat) (x : TmrSt) : (d.setTmr k x).wlog = d.wlog := rfl
@[simp] theorem Dev.setTmr_rd (k : Nat) (x : TmrSt) (p o : Nat) : (d.setTmr k x).rd p o = d.rd p o := rfl
@[simp] theorem Dev.setTmr_head (k : Nat) (x : TmrSt) (h : Nat) : (d.setTmr k x).head h = d.head h := rfl
@[simp] theorem Dev.setTmr_eng (k : Nat) (x : TmrSt) (e : Nat) : (d.setTmr k x).eng e = d.eng e := rfl
@[simp] theorem Dev.setTmr_lane (k : Nat) (x : TmrSt) (n : Nat) : (d.setTmr k x).lane n = d.lane n := rfl
@[simp] theorem Dev.setTmr_byte (k : Nat) (x : TmrSt) (a : Nat) : (d.setTmr k x).byte a = d.byte a := rfl

/-! ### setChan -/

@[simp] theorem Dev.setChan_regs (k : Nat) (x : ChanSt) : (d.setChan k x).regs = d.regs := rfl
@[simp] theorem Dev.setChan_setNow (k : Nat) (x : ChanSt) : (d.setChan k x).setNow = d.setNow := rfl
@[simp] theorem Dev.setChan_mem (k : Nat) (x : ChanSt) : (d.setChan k x).mem = d.mem := rfl
@[simp] theorem Dev.setChan_clock (k : Nat) (x : ChanSt) : (d.setChan k x).clock = d.clock := rfl
@[simp] theorem Dev.setChan_latches (k : Nat) (x : ChanSt) : (d.setChan k x).latches = d.latches := rfl
@[simp] theorem Dev.setChan_armed (k : Nat) (x : ChanSt) : (d.setChan k x).armed = d.armed := rfl
@[simp] theorem Dev.setChan_locked (k : Nat) (x : ChanSt) : (d.setChan k x).locked = d.locked := rfl
@[simp] theorem Dev.setChan_inReset (k : Nat) (x : ChanSt) : (d.setChan k x).inReset = d.inReset := rfl
@[simp] theorem Dev.setChan_lanes (k : Nat) (x : ChanSt) : (d.setChan k x).lanes = d.lanes := rfl
@[simp] theorem Dev.setChan_heads (k : Nat) (x : ChanSt) : (d.setChan k x).heads = d.heads := rfl
@[simp] theorem Dev.setChan_engines (k : Nat) (x : ChanSt) : (d.setChan k x).engines = d.engines := rfl
@[simp] theorem Dev.setChan_enc (k : Nat) (x : ChanSt) : (d.setChan k x).enc = d.enc := rfl
@[simp] theorem Dev.setChan_snd (k : Nat) (x : ChanSt) : (d.setChan k x).snd = d.snd := rfl
@[simp] theorem Dev.setChan_fab (k : Nat) (x : ChanSt) : (d.setChan k x).fab = d.fab := rfl
@[simp] theorem Dev.setChan_log (k : Nat) (x : ChanSt) : (d.setChan k x).log = d.log := rfl
@[simp] theorem Dev.setChan_ram (k : Nat) (x : ChanSt) : (d.setChan k x).ram = d.ram := rfl
@[simp] theorem Dev.setChan_blt (k : Nat) (x : ChanSt) : (d.setChan k x).blt = d.blt := rfl
@[simp] theorem Dev.setChan_evc (k : Nat) (x : ChanSt) : (d.setChan k x).evc = d.evc := rfl
@[simp] theorem Dev.setChan_tmrs (k : Nat) (x : ChanSt) : (d.setChan k x).tmrs = d.tmrs := rfl
@[simp] theorem Dev.setChan_gpio (k : Nat) (x : ChanSt) : (d.setChan k x).gpio = d.gpio := rfl
@[simp] theorem Dev.setChan_lsp (k : Nat) (x : ChanSt) : (d.setChan k x).lsp = d.lsp := rfl
@[simp] theorem Dev.setChan_usb (k : Nat) (x : ChanSt) : (d.setChan k x).usb = d.usb := rfl
@[simp] theorem Dev.setChan_mgmt (k : Nat) (x : ChanSt) : (d.setChan k x).mgmt = d.mgmt := rfl
@[simp] theorem Dev.setChan_sys (k : Nat) (x : ChanSt) : (d.setChan k x).sys = d.sys := rfl
@[simp] theorem Dev.setChan_seqs (k : Nat) (x : ChanSt) : (d.setChan k x).seqs = d.seqs := rfl
@[simp] theorem Dev.setChan_gaps (k : Nat) (x : ChanSt) : (d.setChan k x).gaps = d.gaps := rfl
@[simp] theorem Dev.setChan_lastBorrow (k : Nat) (x : ChanSt) : (d.setChan k x).lastBorrow = d.lastBorrow := rfl
@[simp] theorem Dev.setChan_resv (k : Nat) (x : ChanSt) : (d.setChan k x).resv = d.resv := rfl
@[simp] theorem Dev.setChan_outs (k : Nat) (x : ChanSt) : (d.setChan k x).outs = d.outs := rfl
@[simp] theorem Dev.setChan_answer (k : Nat) (x : ChanSt) : (d.setChan k x).answer = d.answer := rfl
@[simp] theorem Dev.setChan_draws (k : Nat) (x : ChanSt) : (d.setChan k x).draws = d.draws := rfl
@[simp] theorem Dev.setChan_wlog (k : Nat) (x : ChanSt) : (d.setChan k x).wlog = d.wlog := rfl
@[simp] theorem Dev.setChan_rd (k : Nat) (x : ChanSt) (p o : Nat) : (d.setChan k x).rd p o = d.rd p o := rfl
@[simp] theorem Dev.setChan_head (k : Nat) (x : ChanSt) (h : Nat) : (d.setChan k x).head h = d.head h := rfl
@[simp] theorem Dev.setChan_eng (k : Nat) (x : ChanSt) (e : Nat) : (d.setChan k x).eng e = d.eng e := rfl
@[simp] theorem Dev.setChan_lane (k : Nat) (x : ChanSt) (n : Nat) : (d.setChan k x).lane n = d.lane n := rfl
@[simp] theorem Dev.setChan_byte (k : Nat) (x : ChanSt) (a : Nat) : (d.setChan k x).byte a = d.byte a := rfl

/-! ### setOwner -/

@[simp] theorem Dev.setOwner_regs (k : Nat) (x : Option (Nat × Bool)) : (d.setOwner k x).regs = d.regs := rfl
@[simp] theorem Dev.setOwner_setNow (k : Nat) (x : Option (Nat × Bool)) : (d.setOwner k x).setNow = d.setNow := rfl
@[simp] theorem Dev.setOwner_mem (k : Nat) (x : Option (Nat × Bool)) : (d.setOwner k x).mem = d.mem := rfl
@[simp] theorem Dev.setOwner_clock (k : Nat) (x : Option (Nat × Bool)) : (d.setOwner k x).clock = d.clock := rfl
@[simp] theorem Dev.setOwner_latches (k : Nat) (x : Option (Nat × Bool)) : (d.setOwner k x).latches = d.latches := rfl
@[simp] theorem Dev.setOwner_armed (k : Nat) (x : Option (Nat × Bool)) : (d.setOwner k x).armed = d.armed := rfl
@[simp] theorem Dev.setOwner_locked (k : Nat) (x : Option (Nat × Bool)) : (d.setOwner k x).locked = d.locked := rfl
@[simp] theorem Dev.setOwner_inReset (k : Nat) (x : Option (Nat × Bool)) : (d.setOwner k x).inReset = d.inReset := rfl
@[simp] theorem Dev.setOwner_lanes (k : Nat) (x : Option (Nat × Bool)) : (d.setOwner k x).lanes = d.lanes := rfl
@[simp] theorem Dev.setOwner_heads (k : Nat) (x : Option (Nat × Bool)) : (d.setOwner k x).heads = d.heads := rfl
@[simp] theorem Dev.setOwner_engines (k : Nat) (x : Option (Nat × Bool)) : (d.setOwner k x).engines = d.engines := rfl
@[simp] theorem Dev.setOwner_enc (k : Nat) (x : Option (Nat × Bool)) : (d.setOwner k x).enc = d.enc := rfl
@[simp] theorem Dev.setOwner_snd (k : Nat) (x : Option (Nat × Bool)) : (d.setOwner k x).snd = d.snd := rfl
@[simp] theorem Dev.setOwner_fab (k : Nat) (x : Option (Nat × Bool)) : (d.setOwner k x).fab = d.fab := rfl
@[simp] theorem Dev.setOwner_log (k : Nat) (x : Option (Nat × Bool)) : (d.setOwner k x).log = d.log := rfl
@[simp] theorem Dev.setOwner_ram (k : Nat) (x : Option (Nat × Bool)) : (d.setOwner k x).ram = d.ram := rfl
@[simp] theorem Dev.setOwner_blt (k : Nat) (x : Option (Nat × Bool)) : (d.setOwner k x).blt = d.blt := rfl
@[simp] theorem Dev.setOwner_dma (k : Nat) (x : Option (Nat × Bool)) : (d.setOwner k x).dma = d.dma := rfl
@[simp] theorem Dev.setOwner_tmrs (k : Nat) (x : Option (Nat × Bool)) : (d.setOwner k x).tmrs = d.tmrs := rfl
@[simp] theorem Dev.setOwner_gpio (k : Nat) (x : Option (Nat × Bool)) : (d.setOwner k x).gpio = d.gpio := rfl
@[simp] theorem Dev.setOwner_lsp (k : Nat) (x : Option (Nat × Bool)) : (d.setOwner k x).lsp = d.lsp := rfl
@[simp] theorem Dev.setOwner_usb (k : Nat) (x : Option (Nat × Bool)) : (d.setOwner k x).usb = d.usb := rfl
@[simp] theorem Dev.setOwner_mgmt (k : Nat) (x : Option (Nat × Bool)) : (d.setOwner k x).mgmt = d.mgmt := rfl
@[simp] theorem Dev.setOwner_sys (k : Nat) (x : Option (Nat × Bool)) : (d.setOwner k x).sys = d.sys := rfl
@[simp] theorem Dev.setOwner_seqs (k : Nat) (x : Option (Nat × Bool)) : (d.setOwner k x).seqs = d.seqs := rfl
@[simp] theorem Dev.setOwner_gaps (k : Nat) (x : Option (Nat × Bool)) : (d.setOwner k x).gaps = d.gaps := rfl
@[simp] theorem Dev.setOwner_lastBorrow (k : Nat) (x : Option (Nat × Bool)) : (d.setOwner k x).lastBorrow = d.lastBorrow := rfl
@[simp] theorem Dev.setOwner_resv (k : Nat) (x : Option (Nat × Bool)) : (d.setOwner k x).resv = d.resv := rfl
@[simp] theorem Dev.setOwner_outs (k : Nat) (x : Option (Nat × Bool)) : (d.setOwner k x).outs = d.outs := rfl
@[simp] theorem Dev.setOwner_answer (k : Nat) (x : Option (Nat × Bool)) : (d.setOwner k x).answer = d.answer := rfl
@[simp] theorem Dev.setOwner_draws (k : Nat) (x : Option (Nat × Bool)) : (d.setOwner k x).draws = d.draws := rfl
@[simp] theorem Dev.setOwner_wlog (k : Nat) (x : Option (Nat × Bool)) : (d.setOwner k x).wlog = d.wlog := rfl
@[simp] theorem Dev.setOwner_rd (k : Nat) (x : Option (Nat × Bool)) (p o : Nat) : (d.setOwner k x).rd p o = d.rd p o := rfl
@[simp] theorem Dev.setOwner_head (k : Nat) (x : Option (Nat × Bool)) (h : Nat) : (d.setOwner k x).head h = d.head h := rfl
@[simp] theorem Dev.setOwner_eng (k : Nat) (x : Option (Nat × Bool)) (e : Nat) : (d.setOwner k x).eng e = d.eng e := rfl
@[simp] theorem Dev.setOwner_lane (k : Nat) (x : Option (Nat × Bool)) (n : Nat) : (d.setOwner k x).lane n = d.lane n := rfl
@[simp] theorem Dev.setOwner_byte (k : Nat) (x : Option (Nat × Bool)) (a : Nat) : (d.setOwner k x).byte a = d.byte a := rfl

/-! ### finish -/

@[simp] theorem Dev.finish_regs (old : List Host.Cell) : (Dev.finish old d).regs = d.regs := rfl
@[simp] theorem Dev.finish_setNow (old : List Host.Cell) : (Dev.finish old d).setNow = d.setNow := rfl
@[simp] theorem Dev.finish_mem (old : List Host.Cell) : (Dev.finish old d).mem = commitLog old d.wlog := rfl
@[simp] theorem Dev.finish_clock (old : List Host.Cell) : (Dev.finish old d).clock = d.clock := rfl
@[simp] theorem Dev.finish_latches (old : List Host.Cell) : (Dev.finish old d).latches = d.latches := rfl
@[simp] theorem Dev.finish_armed (old : List Host.Cell) : (Dev.finish old d).armed = d.armed := rfl
@[simp] theorem Dev.finish_locked (old : List Host.Cell) : (Dev.finish old d).locked = d.locked := rfl
@[simp] theorem Dev.finish_inReset (old : List Host.Cell) : (Dev.finish old d).inReset = d.inReset := rfl
@[simp] theorem Dev.finish_lanes (old : List Host.Cell) : (Dev.finish old d).lanes = d.lanes := rfl
@[simp] theorem Dev.finish_heads (old : List Host.Cell) : (Dev.finish old d).heads = d.heads := rfl
@[simp] theorem Dev.finish_engines (old : List Host.Cell) : (Dev.finish old d).engines = d.engines := rfl
@[simp] theorem Dev.finish_enc (old : List Host.Cell) : (Dev.finish old d).enc = d.enc := rfl
@[simp] theorem Dev.finish_snd (old : List Host.Cell) : (Dev.finish old d).snd = d.snd := rfl
@[simp] theorem Dev.finish_fab (old : List Host.Cell) : (Dev.finish old d).fab = d.fab := rfl
@[simp] theorem Dev.finish_log (old : List Host.Cell) : (Dev.finish old d).log = d.log := rfl
@[simp] theorem Dev.finish_ram (old : List Host.Cell) : (Dev.finish old d).ram = d.ram := rfl
@[simp] theorem Dev.finish_blt (old : List Host.Cell) : (Dev.finish old d).blt = d.blt := rfl
@[simp] theorem Dev.finish_dma (old : List Host.Cell) : (Dev.finish old d).dma = d.dma := rfl
@[simp] theorem Dev.finish_evc (old : List Host.Cell) : (Dev.finish old d).evc = d.evc := rfl
@[simp] theorem Dev.finish_tmrs (old : List Host.Cell) : (Dev.finish old d).tmrs = d.tmrs := rfl
@[simp] theorem Dev.finish_gpio (old : List Host.Cell) : (Dev.finish old d).gpio = d.gpio := rfl
@[simp] theorem Dev.finish_lsp (old : List Host.Cell) : (Dev.finish old d).lsp = d.lsp := rfl
@[simp] theorem Dev.finish_usb (old : List Host.Cell) : (Dev.finish old d).usb = d.usb := rfl
@[simp] theorem Dev.finish_mgmt (old : List Host.Cell) : (Dev.finish old d).mgmt = d.mgmt := rfl
@[simp] theorem Dev.finish_sys (old : List Host.Cell) : (Dev.finish old d).sys = d.sys := rfl
@[simp] theorem Dev.finish_seqs (old : List Host.Cell) : (Dev.finish old d).seqs = d.seqs := rfl
@[simp] theorem Dev.finish_gaps (old : List Host.Cell) : (Dev.finish old d).gaps = d.gaps := rfl
@[simp] theorem Dev.finish_lastBorrow (old : List Host.Cell) : (Dev.finish old d).lastBorrow = d.lastBorrow := rfl
@[simp] theorem Dev.finish_resv (old : List Host.Cell) : (Dev.finish old d).resv = d.resv := rfl
@[simp] theorem Dev.finish_outs (old : List Host.Cell) : (Dev.finish old d).outs = d.outs := rfl
@[simp] theorem Dev.finish_answer (old : List Host.Cell) : (Dev.finish old d).answer = d.answer := rfl
@[simp] theorem Dev.finish_draws (old : List Host.Cell) : (Dev.finish old d).draws = d.draws := rfl
@[simp] theorem Dev.finish_wlog (old : List Host.Cell) : (Dev.finish old d).wlog = [] := rfl
@[simp] theorem Dev.finish_rd (old : List Host.Cell) (p o : Nat) : (Dev.finish old d).rd p o = d.rd p o := rfl
@[simp] theorem Dev.finish_head (old : List Host.Cell) (h : Nat) : (Dev.finish old d).head h = d.head h := rfl
@[simp] theorem Dev.finish_eng (old : List Host.Cell) (e : Nat) : (Dev.finish old d).eng e = d.eng e := rfl
@[simp] theorem Dev.finish_lane (old : List Host.Cell) (n : Nat) : (Dev.finish old d).lane n = d.lane n := rfl

end Sys2Proof.Machine
end

