-- ==== Sys2Proof/Laws/Word.lean ====
section
/-! SUPPORT. Laws of fields and bits of a word: what is read after a field or a bit has been set, and that the other bits
stay. -/
namespace Sys2Proof

/-- Bit by bit: a field that is set takes the value's bits, every other bit stays. -/
theorem putField_getLsbD (w : Word) (hi lo v i : Nat) (hi32 : hi < 32) (h : lo ≤ hi) :
    (putField w hi lo v).getLsbD i = if lo ≤ i ∧ i ≤ hi then v.testBit (i - lo) else w.getLsbD i := by
  by_cases hi' : i < 32
  · have hm : ((2 ^ (hi + 1 - lo) - 1) <<< lo).testBit i = decide (lo ≤ i ∧ i ≤ hi) := by
      rw [Nat.testBit_shiftLeft, Nat.testBit_two_pow_sub_one]
      by_cases h1 : lo ≤ i
      · simp [h1]; omega
      · simp [h1]
    simp only [putField, BitVec.getLsbD_or, BitVec.getLsbD_and, BitVec.getLsbD_not, BitVec.getLsbD_ofNat, hi', hm,
      Nat.testBit_shiftLeft, decide_true, Bool.true_and]
    by_cases hc : lo ≤ i ∧ i ≤ hi
    · simp [hc]
    · simp [hc]
  · have : 32 ≤ i := by omega
    have hc : ¬(lo ≤ i ∧ i ≤ hi) := by omega
    simp [hc, BitVec.getLsbD_of_ge _ _ this]

/-- A field read back after it was set. -/
theorem field_putField (w : Word) (hi lo v : Nat) (hi32 : hi < 32) (h : lo ≤ hi) :
    field (putField w hi lo v) hi lo = v % 2 ^ (hi + 1 - lo) := by
  apply Nat.eq_of_testBit_eq
  intro i
  rw [Nat.testBit_mod_two_pow, field, Nat.testBit_mod_two_pow, Nat.testBit_shiftRight, BitVec.testBit_toNat,
    putField_getLsbD _ _ _ _ _ hi32 h]
  by_cases hc : i < hi + 1 - lo
  · have : lo ≤ lo + i ∧ lo + i ≤ hi := by omega
    simp [hc, this]
  · simp [hc]

/-- A field outside the one set keeps its value. -/
theorem field_putField_other (w : Word) (hi lo v hi' lo' : Nat) (hi32 : hi < 32) (h : lo ≤ hi)
    (hd : hi < lo' ∨ hi' < lo) : field (putField w hi lo v) hi' lo' = field w hi' lo' := by
  apply Nat.eq_of_testBit_eq
  intro i
  rw [field, field, Nat.testBit_mod_two_pow, Nat.testBit_mod_two_pow, Nat.testBit_shiftRight, Nat.testBit_shiftRight,
    BitVec.testBit_toNat, BitVec.testBit_toNat, putField_getLsbD _ _ _ _ _ hi32 h]
  by_cases hc : i < hi' + 1 - lo'
  · have : ¬(lo ≤ lo' + i ∧ lo' + i ≤ hi) := by omega
    simp [this]
  · simp [hc]

/-- A bit read back after it was set. -/
theorem bit_putBit (w : Word) (n : Nat) (b : Bool) (h : n < 32) : bit (putBit w n b) n = b := by
  rw [bit, putBit, putField_getLsbD _ _ _ _ _ h (Nat.le_refl _)]
  cases b <;> simp

/-- Another bit keeps its value. -/
theorem bit_putBit_other (w : Word) (n m : Nat) (b : Bool) (h : n < 32) (hm : m ≠ n) :
    bit (putBit w n b) m = bit w m := by
  rw [bit, putBit, putField_getLsbD _ _ _ _ _ h (Nat.le_refl _)]
  have : ¬(n ≤ m ∧ m ≤ n) := by omega
  simp [this, bit]

/-- A bit inside a field that is set. -/
theorem bit_putField (w : Word) (hi lo v n : Nat) (hi32 : hi < 32) (h : lo ≤ hi) :
    bit (putField w hi lo v) n = if lo ≤ n ∧ n ≤ hi then v.testBit (n - lo) else bit w n := by
  rw [bit, putField_getLsbD _ _ _ _ _ hi32 h]; rfl

/-- A field beside a bit that is set keeps its value. -/
theorem field_putBit_other (w : Word) (n hi lo : Nat) (b : Bool) (h : n < 32) (hd : n < lo ∨ hi < n) :
    field (putBit w n b) hi lo = field w hi lo := field_putField_other _ _ _ _ _ _ h (Nat.le_refl _) hd

@[simp] theorem toNat_word (n : Nat) : (word n).toNat = n % 4294967296 := by simp [word]

end Sys2Proof
end

