-- ==== Sys2Proof/Laws/Ops.lean ====
section
/-! SUPPORT. The laws of the named operations: a register, a head, an engine or a byte read after it was written, the memory
after a command, and what running a command does. -/
namespace Sys2Proof.Machine

/-! ### Registers -/

@[simp] theorem Dev.rd_wr_same (d : Dev) (p o : Nat) (v : Word) : (d.wr p o v).rd p o = v := by
  simp [Dev.rd, Dev.wr]

theorem Dev.rd_wr_ne (d : Dev) (p o q off : Nat) (v : Word) (h : regKey p o ≠ regKey q off) :
    (d.wr q off v).rd p o = d.rd p o := spGet_put_other _ _ _ _ _ h

/-- Another word of the same page. -/
@[simp] theorem Dev.rd_wr_off (d : Dev) (p o off : Nat) (v : Word) (h : o ≠ off) : (d.wr p off v).rd p o = d.rd p o :=
  Dev.rd_wr_ne _ _ _ _ _ _ (by simp [regKey, h])

/-- A word of another page. -/
theorem Dev.rd_wr_page (d : Dev) (p o q off : Nat) (v : Word) (h : p ≠ q) (ho : o < 4096) (hq : off < 4096) :
    (d.wr q off v).rd p o = d.rd p o :=
  Dev.rd_wr_ne _ _ _ _ _ _ (by simp only [regKey]; omega)

/-- A register read after a write, by the key. -/
theorem Dev.rd_wr (d : Dev) (p o q off : Nat) (v : Word) :
    (d.wr q off v).rd p o = if regKey p o = regKey q off then v else d.rd p o := by
  split
  · next h => simp only [Dev.rd, Dev.wr, h, spGet_put_same]
  · next h => exact Dev.rd_wr_ne _ _ _ _ _ _ h

/-! ### Heads, engines, lanes -/

@[simp] theorem Dev.head_setHead (d : Dev) (h : Nat) (x : HeadSt) : (d.setHead h x).head h = x := by
  simp [Dev.head, Dev.setHead]
theorem Dev.head_setHead_ne (d : Dev) (h k : Nat) (x : HeadSt) (hk : k ≠ h) : (d.setHead h x).head k = d.head k :=
  spGet_put_other _ _ _ _ _ hk
@[simp] theorem Dev.eng_setEng (d : Dev) (e : Nat) (x : Engine) : (d.setEng e x).eng e = x := by
  simp [Dev.eng, Dev.setEng]
theorem Dev.eng_setEng_ne (d : Dev) (e k : Nat) (x : Engine) (hk : k ≠ e) : (d.setEng e x).eng k = d.eng k :=
  spGet_put_other _ _ _ _ _ hk
@[simp] theorem Dev.lane_setLane (d : Dev) (n : Nat) (x : LaneSt) : (d.setLane n x).lane n = x := by
  simp [Dev.lane, Dev.setLane]
theorem Dev.lane_setLane_ne (d : Dev) (n k : Nat) (x : LaneSt) (hk : k ≠ n) : (d.setLane n x).lane k = d.lane k :=
  spGet_put_other _ _ _ _ _ hk

/-! ### Memory -/

/-- A byte read after a byte was written. -/
theorem Dev.byte_put (d : Dev) (a x : Nat) (b : Byte) : (d.put a b).byte x = if a = x then b else d.byte x := by
  simp only [Dev.byte, Dev.put, wlogFind]
  by_cases h : a = x <;> simp [h]

/-- Bytes written from a on: outside them every byte stays. -/
theorem Dev.byte_puts_out (bs : List Byte) (d : Dev) (a x : Nat) (h : x < a ∨ a + bs.length ≤ x) :
    (d.puts a bs).byte x = d.byte x := by
  induction bs generalizing d a with
  | nil => rfl
  | cons b bs ih =>
    simp only [List.length_cons] at h
    rw [Dev.puts, ih _ _ (by omega), Dev.byte_put, if_neg (by omega)]

/-- Bytes written from a on are read back. -/
theorem Dev.byte_puts_in (bs : List Byte) (d : Dev) (a i : Nat) (h : i < bs.length) :
    (d.puts a bs).byte (a + i) = bs[i] := by
  induction bs generalizing d a i with
  | nil => simp at h
  | cons b bs ih =>
    cases i with
    | zero => rw [Dev.puts, Nat.add_zero, Dev.byte_puts_out _ _ _ _ (by omega), Dev.byte_put]; simp
    | succ i =>
      have hi : i < bs.length := by simpa using h
      rw [Dev.puts, show a + (i + 1) = a + 1 + i by omega, ih _ _ _ hi]; simp

/-- A cleared range reads as unlisted, every other byte as before. -/
theorem Dev.byte_clear (d : Dev) (lo hi x : Nat) :
    (d.clear lo hi).byte x = if lo ≤ x ∧ x < hi then memDefault x else d.byte x := by
  simp only [Dev.byte, Dev.clear, wlogFind]
  by_cases h : lo ≤ x ∧ x < hi <;> simp [h]

/-- Every memory operation keeps the canonical form: a command's writes land in it. -/
theorem commitLog_wf (m : List Host.Cell) (l : List MemWr) (h : memWf m = true) : memWf (commitLog m l) = true := by
  induction l with
  | nil => exact h
  | cons w l ih =>
    cases w with
    | put a b => exact spWf_put _ _ _ _ ih
    | clear lo hi => exact spWf_dropRange _ _ _ _ ih

/-- After a command, memory reads what the command's latest writes say. -/
theorem spGet_commitLog (m : List Host.Cell) (l : List MemWr) (a : Nat) :
    spGet memDefault (commitLog m l) a = (wlogFind l a).getD (spGet memDefault m a) := by
  induction l with
  | nil => rfl
  | cons w l ih =>
    cases w with
    | put x b =>
      by_cases h : x = a
      · simp [commitLog, wlogFind, h]
      · simp only [commitLog, wlogFind, h, if_false]
        rw [spGet_put_other _ _ _ _ _ (Ne.symm h), ih]
    | clear lo hi =>
      by_cases h : lo ≤ a ∧ a < hi
      · simp only [commitLog, wlogFind, h, and_self, if_true, Option.getD_some, spGet, spFind_dropRange_in _ _ _ _ h.1 h.2,
          Option.getD_none]
      · simp only [commitLog, wlogFind, h, if_false]
        rw [← ih, spGet, spGet, spFind_dropRange_out _ _ _ _ (by omega)]

/-- A byte of memory when a command has ended is the byte that the command left. -/
theorem Dev.byte_finish (d : Dev) (old : List Host.Cell) (h : d.mem = old) (a : Nat) :
    (Dev.finish old d).byte a = d.byte a := by
  simp only [Dev.byte, Dev.finish_wlog, wlogFind, Dev.finish_mem, spGet_commitLog, h]
  cases wlogFind d.wlog a <;> rfl

/-- A command that writes no memory leaves it as it was. -/
theorem Dev.byte_finish_nil (d : Dev) (old : List Host.Cell) (h : d.wlog = []) (a : Nat) :
    (Dev.finish old d).byte a = spGet memDefault old a := by
  simp [Dev.byte, wlogFind, h, commitLog]

/-- A byte in a state between commands. -/
theorem Dev.byte_sound (d : Dev) (h : d.wlog = []) (a : Nat) : d.byte a = spGet memDefault d.mem a := by
  simp [Dev.byte, h, wlogFind]

/-! ### Loops -/

/-- A relation that every round of a loop keeps holds between its ends. -/
theorem forL_rel {σ α : Type} (P : σ → σ → Prop) (hr : ∀ s, P s s) (ht : ∀ a b c, P a b → P b c → P a c)
    (l : List α) (f : α → σ → σ) (hf : ∀ i s, P s (f i s)) (s : σ) : P s (forL l f s) := by
  unfold forL
  induction l generalizing s with
  | nil => exact hr s
  | cons a l ih => exact ht _ _ _ (hf a s) (ih _)

theorem forN_rel {σ : Type} (P : σ → σ → Prop) (hr : ∀ s, P s s) (ht : ∀ a b c, P a b → P b c → P a c)
    (n : Nat) (f : Nat → σ → σ) (hf : ∀ i s, P s (f i s)) (s : σ) : P s (forN n f s) :=
  forL_rel P hr ht (List.range n) f hf s

/-! ### Running a command -/

/-- A command that runs always answers a next state. -/
theorem State.run_next (s : State) (f : Dev → Dev) :
    s.run f = .next { s with dev := (f s.dev.begin).finish s.dev.mem } := rfl

/-- What a command leaves is sound if what it found was. -/
theorem State.run_sound (s t : State) (f : Dev → Dev) (hs : s.sound) (h : s.run f = .next t) : t.sound := by
  cases h
  exact ⟨commitLog_wf _ _ hs.1, rfl⟩

/-- A command does not touch the queue. -/
theorem State.run_pending (s t : State) (f : Dev → Dev) (h : s.run f = .next t) : t.pending = s.pending := by
  cases h; rfl

end Sys2Proof.Machine
end

