-- ==== Sys2Proof/Laws/Exec.lean ====
section
/-! SUPPORT. What exec can do, said once: a command runs an effect on the device. -/
namespace Sys2Proof.Machine

/-- What an open requester asks is done. -/
theorem Dev.asReq_open (d : Dev) (r : Req) (f : Dev → Dev) (h : reqReaches r = true) (hd : r = .debug → d.dbgOpen = true) :
    d.asReq r f = f d := by
  have hn : ¬(r = .debug ∧ d.dbgOpen = false) := fun hc => by rw [hd hc.1] at hc; exact absurd hc.2 (by decide)
  rw [Dev.asReq, if_neg (by rw [h]; decide), if_neg hn]

/-- A requester's write with a path to the page runs its effect after disarming the page's lock. -/
theorem State.onPage_run (s : State) (r : Req) (p : Nat) (f : Dev → Dev) (h : s.reaches r) :
    s.onPage r p f = s.run (fun d => f (d.disarm p)) := by
  rw [State.onPage, State.run_next, State.run_next, Dev.asReq_open s.dev.begin _ _ h.1 h.2]

/-- A requester's read with a path to the page runs its effect. -/
theorem State.onRead_run (s : State) (r : Req) (f : Dev → Dev) (h : s.reaches r) : s.onRead r f = s.run f := by
  rw [State.onRead, State.run_next, State.run_next, Dev.asReq_open s.dev.begin _ _ h.1 h.2]

theorem State.onPage_shape (s : State) (r : Req) (p : Nat) (f : Dev → Dev) : ∃ g, s.onPage r p f = s.run g := ⟨_, rfl⟩

theorem State.onRead_shape (s : State) (r : Req) (f : Dev → Dev) : ∃ g, s.onRead r f = s.run g := ⟨_, rfl⟩

/-- A command completes if it runs an effect that makes its claim true. -/
theorem does_of_run (i : Instr) (s : State) (f : Dev → Dev) (post : Dev → Prop) (h : exec i s = s.run f)
    (hp : post ((f s.dev.begin).finish s.dev.mem)) : Does i s post := ⟨_, h, rfl, hp⟩

/-- Memory is as it was after a command that wrote none of it. -/
theorem Dev.sameMem_finish (d e : Dev) (hd : d.wlog = []) (he : e.wlog = []) : d.sameMem (e.finish d.mem) := by
  intro a
  rw [Dev.byte_finish_nil _ _ he, Dev.byte_sound _ hd]

/-- Outside what a command wrote, memory is as it was. -/
theorem Dev.byte_of_finish (d e : Dev) (hm : e.mem = d.mem) (a : Nat) : (e.finish d.mem).byte a = e.byte a :=
  Dev.byte_finish e d.mem hm a

/-- A command that only sets the registers that k names. -/
theorem Dev.onlyRegs_finish (k : Nat → Nat → Prop) (d e : Dev) (hd : d.wlog = []) (he : e.wlog = [])
    (hr : ∀ p off, off < 4096 → ¬k p off → e.rd p off = d.rd p off) (hh : e.hidden = d.hidden) :
    d.onlyRegs k (e.finish d.mem) := ⟨hr, Dev.sameMem_finish d e hd he, hh⟩

/-! ### Disarming a lock -/

@[simp] theorem Dev.disarm_rd (d : Dev) (p q o : Nat) : (d.disarm p).rd q o = d.rd q o := by
  unfold Dev.disarm; split <;> rfl
@[simp] theorem Dev.disarm_wlog (d : Dev) (p : Nat) : (d.disarm p).wlog = d.wlog := by
  unfold Dev.disarm; split <;> rfl
@[simp] theorem Dev.disarm_mem (d : Dev) (p : Nat) : (d.disarm p).mem = d.mem := by
  unfold Dev.disarm; split <;> rfl
theorem Dev.disarm_hidden (d : Dev) (p : Nat) (h : p ≠ pgGPIO) : (d.disarm p).hidden = d.hidden := by
  unfold Dev.disarm; rw [if_neg h]; rfl
@[simp] theorem Dev.disarm_armed (d : Dev) (p : Nat) : (d.disarm p).armed = spPut (fun _ => none) d.armed p none := by
  unfold Dev.disarm; split <;> rfl
/-- Disarming changes armed locks alone, on every page but GPIO. -/
theorem Dev.disarm_eq (d : Dev) (p : Nat) (h : p ≠ pgGPIO) :
    d.disarm p = { d with armed := spPut (fun _ => none) d.armed p none } := by
  unfold Dev.disarm; rw [if_neg h]

/-! ### Every command -/

/-- Every command runs an effect on the device: none stops the machine. -/
theorem exec_shape (i : Instr) (s : State) : ∃ f, exec i s = s.run f := by
  cases i <;> simp only [exec, execRegisterWrite, execSetAliasWrite, execClearAliasWrite, execIrqSet, execSoftReset, execSoftResetDone,
      execBlkEnableWrite, execFenceWrite, execLockArm, execLockBlock, execSnap, execInjectMismatch, execDebugHalt,
      execDebugResume, execDmiOperation, execPerstAssert, execPerstRelease, execHotReset, execLaneLinkDown,
      execLaneLinkUp, execCfgReady, execConfigRequest, execFunctionLevelReset, execD3hotToD0, execHostWrite,
      execCommit, execHostRead, execFeatOk, execFeatDone, execPresent, execIrEnable, execIrConsWrite,
      execIrLedWrite, execInputDeliver, execPlEnable, execPlayBlockRead, execCpEnable, execCaptureBlock, execBind,
      execUnbind, execBindAnswer, execBindTimeout, execAllocClear, execAdmissionRequest, execAdmitHead,
      execHeadDisable, execHeadStop, execConsistWrite, execConsistEffect, execDetachWrite, execFrameStart,
      execComposeLine, execLineFinal, execLineTake, execLate, execFrameIncomplete, execLeMove, execTadd, execTsub,
      execTand, execTor, execTxor, execTshl, execTshr, execTsar, execTcmpeq, execTcmplt, execTcmpltu, execTmin,
      execTmax, execTmul, execTmac, execTldb, execTldbu, execTldh, execTldhu, execTldw, execTstb, execTsth,
      execTstw, execLoadComplete, execLWait, execTjmp, execTrel, execTcall, execTret, execTstart, execTmove,
      execTfill, execStringDone, execStringFault, execTwaitl, execTwaitp, execWaitEnd, execTwr, execHeadWindowWrite,
      execHregCommit, execTlo, execTraise, execFetchSync, execLeFence, execTretEvent, execFetchFill, execLineEvent,
      execMboxWrite, execEventEntry, execRun, execLeStop, execInval, execLeReset, execHalt, execResume, execStepOne,
      execPortWindowWrite, execArm, execCancel, execPoolSwapGo, execSwapped, execCodeFrame, execSkipWhileCoding,
      execFrameCommit, execRebuild, execRebuildPeriod, execBankClear, execCompact, execDictSwap, execTlsRecordRx,
      execAck, execKeyReq, execOpenSess, execCloseSess, execGrant, execRevoke, execKeyframe, execInject,
      execKeyLoad, execSessDoorbell, execIduSubmit, execEthTxPost, execTxDone, execEthRx, execLinkChange,
      execAudioTick, execToneMs, execToneEnable, execTonePeriodWrite, execSound, execFabAudioSend,
      execFabAudioBlock, execSrcLock, execSrcUnlock, execJackDetectSample, execJackClassify, execButtonSample,
      execClkLoss, execSignalDetect, execTrainDone, execTrainTimeout, execHello, execAttest, execAttestTimeout,
      execQuarantineExpiry, execLinkLoss, execRetrain, execFlitSend, execFlitRx, execReplay, execElect,
      execCoordChange, execClaimAddress, execAssign, execMembersChange, execBeacon, execReport, execBeaconMiss,
      execChipLost, execLoadDone, execGo, execSwitched, execEpCollect, execRetired, execAcqTimeout, execSyncReq,
      execSyncAnswer, execSyncResp, execHoldover, execLocBind, execMirrorSlotRequest, execStreamRelay,
      execInputPacket, execInputCounter, execMigStart, execReserve, execPrecopyRound, execMigCutover,
      execCopyComplete, execScheduleAck, execCutOver, execForwardEnd, execMigAbort, execAckDeadline,
      execAbortReceived, execLogSw2, execLogDeliver, execLogPacket, execFsrSend, execFsrRx, execDdrInit,
      execDdrDiscard, execInitDone, execPatrolScrub, execMarchStart, execMarchAbort, execMarchDone, execMarchPeriod,
      execFlush, execCounterPersist, execRingProd, execFill, execCopy, execConvert, execNote, execSetclip,
      execBltGo, execRetry, execSkip, execChArm, execDisarm, execChAbort, execHandover, execDescFetch, execBurst,
      execDmaResume, execDeliver, execClaim, execComplete, execWithdraw, execMtip, execTmrGo, execTmrStop, execTick,
      execCmpArm, execPerWrite, execFuncChange, execPinChange, execGpioLockArm, execGpioLock, execUartTx4,
      execUartTx1, execUartRx4, execUartRx1, execUartRxByte, execUartTxByte, execXspiCmd, execXspiDataPush,
      execXspiDataPop, execXspiDone, execI3cCmd, execI3cDataPush, execI3cDataPop, execI3cDone, execIbiRx,
      execI3cIbi, execAttach, execDetach, execUsbReport, execOvercurrent, execMdioCmd, execMdioDone, execSgmiiAn,
      execRequestService, execRequestDegraded, execRequestDrain, execRequestRest, execPowerOnEnd, execUartImage,
      execResetPin, execPwrgoodFall, execChipReset, execRestart, execWdogKick, execWdogWarn, execWdogExpiry,
      execTrialTimeout, execTrial, execBootOk, execMfOk, execExtend, execQuote, execUnlock, execEpoch,
      execUnlockToken, execUnlockChal, execProfWrite, execProfSwitch, execProfCancel, execApplied, execWake,
      execTamper, execPwrWarn, execPwrRecover, execSupplyReset, execThermWarn, execThermOk, execThermalTrip,
      execAonReady, execCrystalTimeout, execResend, execCoreMemoryAccess, execRegisterRead, execStoreTakesEffect,
      execTrained, execMramWordWrite, execTripEnd, execResetRelease, execInL1, execClkOk, execLocatorUnbind] <;>
    first
      | exact ⟨_, rfl⟩
      | exact State.onPage_shape _ _ _ _
      | exact State.onRead_shape _ _ _

end Sys2Proof.Machine
end

