-- ==== Sys2Proof/Tests/Slice0.lean ====
section
/-! SUPPORT. Tests: a term that each check of wellFormed refuses, the spec's own examples, single steps, and for every
statement with hypotheses the states and operands that meet them. -/
set_option maxRecDepth 20000
open Sys2Proof Sys2Proof.Machine
namespace Sys2Proof.Tests

/-! ### Small states -/

/-- An Except value is known from what it holds. -/
theorem ok_of {ε α : Type} {f : Except ε α} {c : α} (h : f.toOption = some c) : f = .ok c := by
  cases f <;> simp_all [Except.toOption]
/-- A state that differs from reset as f says. -/
def st (f : Dev → Dev) : State := { State.reset with dev := f State.reset.dev }
def reset : State := State.reset
def open_ (d : Dev) : Dev := d.wrB pgSEC Reg.SEC_STAT 1 true
def md (m : Nat) (d : Dev) : Dev := d.wrF pgSYS Reg.SYS_MODE 2 0 m
def putB (l : List Byte) (a : Nat) (d : Dev) : Dev :=
  { d with mem := (l.zipIdx.foldl (fun m e => spPut memDefault m (a + e.2) e.1) d.mem) }
def tlp0 : Tlp := { fn := .input, bar := .bar0, off := 0, data := [some 0,some 0,some 0,some 0], relaxed := false, floor := 1, share := 0 }
def ev0 : InputMsg := { seq := 5, arrival := 0, kind := 1, origin := 1, payload := List.replicate 12 0 }
def laneUp (n : Nat) (d : Dev) : Dev := (md 3 ((d.wrN (pgHP n) Reg.HP_STAT 0x402).wrN (pgHP n) Reg.HP_CTL 7))
def allocd (n : Nat) (d : Dev) : Dev := ((((d.wrN (pgDDR 0) Reg.DDR_TOTAL 1).wrN (pgHD n) Reg.HB_DRAM_LO 0x00200000).wrN (pgHD n) Reg.HB_DRAM_HI 0x100).wrN (pgHD n) Reg.HB_DRAM_SIZE 1).wrN (pgHD n) Reg.HB_GLYPH (0x10002 + 2*65536)
def tim (h : Nat) (d : Dev) : Dev := (((d.wrN (pgHD h) Reg.HD_HTIME (64 + 96*65536)).wrN (pgHD h) Reg.HD_VTIME (8 + 10*65536)).wrN (pgHD h) Reg.HD_FPERIOD 71582788).wrN (pgDDR 0) Reg.DDR_TOTAL 96
def lb (f l : Nat) (fin : Bool) : LineBuf := { frame := f, line := l, pixels := [1], regs := [], badges := [], final := fin }
def hd (h : Nat) (f : HeadSt → HeadSt) (d : Dev) : Dev := (tim h d).onHead h f
def clk (d : Dev) : Dev := { d with clock := { d.clock with started := true } }


/-! ### Ill-formed commands: one for each check of wellFormed -/

theorem test_wf_requester : wellFormed (.irqSet (.lane 3) 0 1) = false := by decide
theorem test_wf_register_region : wellFormed (.registerWrite .dma 0x50000000 4 0) = false := by decide
theorem test_wf_host_write_empty : wellFormed (.hostWrite 0 .display .bar0 0 [] false .good) = false := by decide
theorem test_wf_host_read_long : wellFormed (.hostRead 0 .display .bar0 0 4097 false) = false := by decide
theorem test_wf_audio_pins : wellFormed (.audioTick { mic := 0, i2s := [] }) = false := by decide
theorem test_wf_audio_block : wellFormed (.fabAudioBlock 1 0 0 0 []) = false := by decide
theorem test_wf_flit : wellFormed (.flitRx 0 [1, 2, 3]) = false := by decide
theorem test_wf_message : wellFormed (.fsrRx 0 []) = false := by decide
theorem test_wf_token : wellFormed (.unlockToken []) = false := by decide
theorem test_wf_core_size : wellFormed (.coreMemoryAccess 0 0 3 .load) = false := by decide
/-- A well-formed command, for contrast. -/
theorem test_wf_good : wellFormed (.irqSet (.hart 3) 0 1) = true := by decide

/-! ### The spec's own examples -/

/-- The example after R29: the TMR page's views, and IRQ_EN through the set alias. -/
theorem test_page_address : regAddr 5 0x018 = 0x40014018 ∧ regAddr 0x105 0x040 = 0x40414040 := by decide
theorem test_block_ids : State.reset.dev.rd 5 Reg.BLK_ID = 0x5 ∧ State.reset.dev.rd 0x105 Reg.BLK_ID = 0x50100 := by decide
/-- The example after R151: frame 900 and line 37 of head V7, and the beam 100 units later. -/
theorem test_beam_frame : startAt 68719476736 71582788 900 = 133143985936 := by decide
theorem test_beam_line : sampleAt 68719476736 71582788 1235 900 37 = 133146130521 := by decide
theorem test_beam_slot : beamAt 68719476736 71582788 2000 1235 133146130621 = (900, 37, 3) := by decide
/-- The table of admission needs after R158. -/
theorem test_tokens_reset : State.reset.dev.scanNeed 7 = some 149 ∧ State.reset.dev.lineNeed 7 = 8 := by decide
theorem test_tokens_uhd : (st (fun d => ((d.wrN (pgHD 7) Reg.HD_HTIME (3840 + 4000 * 65536)).wrN (pgHD 7)
    Reg.HD_VTIME (2160 + 2220 * 65536)))).dev.scanNeed 7 = some 533 := by decide
theorem test_tokens_fast : (st (fun d => d.wrN (pgHD 7) Reg.HD_FPERIOD 35791394)).dev.scanNeed 7 = some 297 := by decide
/-- The example after R281: pages of the hash store at 1920 by 1200. -/
theorem test_hash_pages : State.reset.dev.hashPages 0 = 19 := by decide
/-- The check values of R275, over the bytes "123456789". -/
theorem test_crc32c : crc32c [49, 50, 51, 52, 53, 54, 55, 56, 57] = 0xE3069283 := by decide
theorem test_crc64 : crc64 [49, 50, 51, 52, 53, 54, 55, 56, 57] = 0x6C40DF5F0B497347 := by decide
/-- The example after R137: pixels 16 and 18 of line 37. -/
theorem test_blend_black : blend (32, 64, 96) (0, 0, 0) (mul8 128 255) = (16, 32, 48) := by decide
theorem test_blend_red : blend (170, 170, 170) (255, 0, 0) 64 = (191, 127, 127) := by decide
/-- The example after R401: one exchange of the time servo. -/
theorem test_sync_delay : syncDelay 10000000 10000540 10002540 10003000 = 500 := by decide
theorem test_sync_offset : syncOffset 10000000 10000540 10002540 10003000 0 = 40 := by decide
theorem test_servo : servo 0 40 = (160, 2720) := by decide
/-- The example after R431: 64 GiB channels, 12 GiB mirrored. -/
def mirroredDram : State := st (fun d => (d.wrN (pgDDR 0) Reg.DDR_STAT (64 * 65536)).wrN (pgDDR 0) Reg.DDR_TOTAL (372 + 12 * 65536))
theorem test_dram_interleave : mirroredDram.dev.chanOf 0x010000123456 = 3 := by decide
theorem test_dram_mirror : mirroredDram.dev.chanOf 0x015A00005010 = 4 ∧ mirroredDram.dev.mirrored 0x015A00005010 = true := by decide

/-! ### One step each -/

/-- The command completes and what follows holds of the next state. -/
def gives (o : Host.Outcome State Fault Refusal) (f : State → Bool) : Bool :=
  match o with
  | .next t => f t
  | _ => false

/-- A queue's front command runs first, and the rest stays. -/
theorem test_step_front : gives (step { State.reset with pending := [.irqSet (.hart 0) 0 4, .skipWhileCoding] })
    (fun t => decide (t.dev.rd 0 Reg.IRQ_STAT = 4 ∧ t.pending = [.skipWhileCoding])) = true := by decide
/-- The set alias of R10 sets the bits of the value and keeps the others. -/
theorem test_set_alias : gives (exec (.setAliasWrite (.hart 0) 5 0x018 4) (st (fun d => d.wrN 5 Reg.IRQ_EN 3)))
    (fun t => decide (t.dev.rd 5 Reg.IRQ_EN = 7)) = true := by decide
/-- TSAR by 33 shifts by 1, copies of bit 31 in (R195). -/
theorem test_tsar : gives (exec (.tsar 3 .a1 0x80000000) (st (fun d => d.onEng 3 (fun x => { x with op1 := 33 }))))
    (fun t => decide ((t.dev.eng 3).res1 = 0xC0000000)) = true := by decide
/-- TMIN is signed, TCMPLTU is not (R195). -/
theorem test_tmin : gives (exec (.tmin 3 .a0 0xFFFFFFFF) (st (fun d => d.onEng 3 (fun x => { x with op0 := 1 }))))
    (fun t => decide ((t.dev.eng 3).res0 = 0xFFFFFFFF)) = true := by decide
theorem test_tcmpltu : gives (exec (.tcmpltu 3 .a0 0xFFFFFFFF) (st (fun d => d.onEng 3 (fun x => { x with op0 := 1 }))))
    (fun t => decide ((t.dev.eng 3).res0 = 0)) = true := by decide
/-- A running engine, locked, whose first word is w. -/
def engineAt (w : Nat) (f : Engine → Engine) : State :=
  st (fun d => putB (leBytes 4 w) (progBase 3) ((((md 3 d).onEng 3 (fun x => f { x with st := .running })).wrN (pgLE 3) Reg.LE_CTL 5).wrN
    (pgLE 3) Reg.LE_PC 0x10000))
/-- The example after R222, cycle 0: A0.OP from g5, and TLDW of address 16. -/
theorem test_pair : gives (exec (.leMove 3) (engineAt 0x9802DC90 (fun x => { x with g := x.g.set 5 12 })))
    (fun t => decide ((t.dev.eng 3).op0 = 12 ∧ (t.dev.eng 3).flights.length = 1 ∧ t.dev.rd (pgLE 3) Reg.LE_PC = 0x10004)) = true := by decide
/-- The same example, cycle 4: HR.TWR from A0.RES queues a write of V7's TA_SCROLL. -/
theorem test_long : gives (exec (.leMove 3) (st (fun d =>
      ((engineAt 0x0079003E (fun x => { x with res0 := 0x10C, hrSel := 0x70024 })).dev.wrN (pgLE 3) Reg.LE_HEADS 0x80))))
    (fun t => decide ((t.dev.eng 3).hreg.map (fun e => (e.2.1, e.2.2.1, e.2.2.2)) = [(7, 0x090, 0x10C)])) = true := by decide
/-- The example after R510: AL0's source goes to the hart with the lower CURPRI. -/
theorem test_route : gives (exec .deliver (st (fun d => (((((({ d with sys := { d.sys with resetHarts := 0 } } : Dev).wrN pgEVC
      (Reg.CURPRI + 64) 3).wrN pgEVC (Reg.CURPRI + 128) 1).wrN (pgAL 0) Reg.IRQ_STAT 1).wrN (pgAL 0) Reg.IRQ_EN 1).wrN pgEVC
      (Reg.EVC_EN + 12) (2 ^ 25)).wrB pgEVC (Reg.EVC_TGT + 60) 5 true |>.wrB pgEVC (Reg.EVC_TGT + 60) 6 true)))
    (fun t => decide (t.dev.owner 121 = some (2, false))) = true := by decide
/-- The example after R518: PERIOD lowered to 800 with the count at 900, rising. -/
theorem test_timer_peak : gives (exec (.tick 4) (st (fun d => ((((((md 3 d).wrN pgTMR Reg.BLK_CTL 1).wrB pgTMR Reg.TMR_RUN 4 true).wrN
      pgTMR (tmrOff 4 Reg.TMR_CTL) 2).wrN pgTMR (tmrOff 4 Reg.TMR_CNT_LO) 900).wr64 pgTMR (tmrOff 4 Reg.TMR_PER_LO) 800))))
    (fun t => decide (t.dev.rdN pgTMR (tmrOff 4 Reg.TMR_CNT_LO) = 899 ∧ t.dev.rdB pgTMR (tmrOff 4 Reg.TMR_CTL) 2 = true)) = true := by decide

/-! ### Clauses whose last hypothesis asks a free constant: the other hypotheses, met together -/

/-- Session 0 is OPEN and its ciphertext ring holds one record of 14 bytes. -/
def tlsState : State := st (fun d =>
  let d := putB [1] dramBase (((md 3 d).wrN (pgDDR 0) Reg.DDR_TOTAL 96).wrN pgSESS Reg.SESS_TABLE_HI 0x100)
  let d := putB (leBytes 8 (dramBase + 0x200000)) (dramBase + 48) (putB [16, 16, 16, 0] (dramBase + 24) d)
  { (putB [23, 3, 3, 0, 9] (dramBase + 0x200000) d) with enc := { sessions := [(0, { rxcProd := 14 })] } })

/-- A signed image, an unlock token or a profile that the chip's keys accept, and a TLS record that opens, are matters of
Config's opaque functions: whatever they answer, the clauses' other hypotheses hold here. -/
theorem witness_of_free_checks :
    (State.reset.sound ∧ State.reset.dev.sys.hold = 1)
    ∧ (let s := st (fun d => d.wrB pgSYS Reg.SYS_BOOT_STAT 6 true); s.sound ∧ s.dev.rdB pgSYS Reg.SYS_BOOT_STAT 6 = true)
    ∧ ((List.replicate 176 (0 : Byte)).length = 176 ∧ (State.reset.dev.rdB pgSEC Reg.SEC_STAT 3 || State.reset.dev.mode == 7) = false)
    ∧ (tlsState.sound ∧ tlsState.dev.sessState 0 = 1 ∧ (tlsState.dev.sess 0).rxBuf = [] ∧ (tlsState.dev.sess 0).rxStaged = none
      ∧ (let hd := tlsState.dev.ringLoad (tlsState.dev.sd 0 dRXCBASE 8) (2 ^ ringLog (tlsState.dev.sd 0 dRXCLOG2 1)) (tlsState.dev.sd 0 dRXCCONS 4) 5
         5 + (hd.getD 3 0).toNat * 256 + (hd.getD 4 0).toNat ≤ ((tlsState.dev.sess 0).rxcProd + 2 ^ 32 - tlsState.dev.sd 0 dRXCCONS 4) % 2 ^ 32)
      ∧ tlsState.dev.inDram (tlsState.dev.sessAddr 0) 128 = true)
    ∧ (let s := st (fun d => d.wrB pgSYS Reg.MF_NEG_LO 2 true); s.sound ∧ s.reaches (.hart 0) ∧ s.dev.mf 2 = true ∧ s.dev.profState = 0) := by
  unfold State.sound State.reaches
  decide

/-! ### The idle step -/

theorem low_pages_balanced : ∀ p < 42, ∀ i < 16, hasIdentity (pageKind p) i = true → State.reset.dev.identityHolds p i = true := by
  decide
theorem lane_pages_balanced : ∀ k < 128, ∀ i < 2, State.reset.dev.identityHolds (0x080 + k) i = true := by decide
theorem head_pages_balanced : ∀ k < 128, State.reset.dev.identityHolds (0x100 + k) 0 = true := by decide

/-- What a link's identities name is an index modulo 8. -/
theorem link_identity (d : Dev) (p i : Nat) (h : pageKind p = .al) (hi : 8 ≤ i) : d.identityHolds p i = d.identityHolds p (8 + i % 8) := by
  have e : ¬ i < 8 := by omega
  have e2 : ¬ 8 + i % 8 < 8 := by omega
  simp [Dev.identityHolds, h, e, e2]

/-- After reset every identity that a page checks holds: the hypothesis of IdleStep's last clause. -/
theorem identities_hold_at_reset : identitiesHold State.reset.dev := by
  intro p c i hc _ hi
  by_cases hp : p < 42
  · by_cases h16 : i < 16
    · exact low_pages_balanced p hp i h16 hi
    · have hk : pageKind p = .al := by
        generalize pageKind p = k at hi
        cases k <;> simp [hasIdentity] at hi ⊢ <;> omega
      rw [link_identity _ _ _ hk (by omega)]
      refine low_pages_balanced p hp _ (by omega) ?_
      rw [hk] at hi ⊢
      simp [hasIdentity] at hi ⊢
      omega
  · have hr : (0x080 ≤ p ∧ p < 0x100 ∧ pageKind p = .hp) ∨ (0x100 ≤ p ∧ p < 0x180 ∧ pageKind p = .vhead) := by
      by_cases h1 : 0x040 ≤ p ∧ p < 0x060
      · simp [pageKind, hp, h1, acctAt] at hc
      · by_cases h2 : 0x080 ≤ p ∧ p < 0x100
        · exact .inl ⟨h2.1, h2.2, by simp [pageKind, hp, h1, h2]⟩
        · by_cases h3 : 0x100 ≤ p ∧ p < 0x180
          · exact .inr ⟨h3.1, h3.2, by simp [pageKind, hp, h1, h2, h3]⟩
          · exfalso
            simp only [pageKind, if_neg hp, if_neg h1, if_neg h2, if_neg h3] at hc
            repeat' split at hc
            all_goals simp [acctAt] at hc
    rcases hr with ⟨h1, h2, hk⟩ | ⟨h1, h2, hk⟩
    · rw [hk] at hi
      have := lane_pages_balanced (p - 0x080) (by omega) i (by simpa [hasIdentity] using hi)
      rwa [show 0x080 + (p - 0x080) = p by omega] at this
    · rw [hk] at hi
      have e : i = 0 := by simpa [hasIdentity] using hi
      subst e
      have := head_pages_balanced (p - 0x100) (by omega)
      rwa [show 0x100 + (p - 0x100) = p by omega] at this

/-- A state that meets the hypotheses of IdleStep. -/
theorem witness_IdleStep : State.reset.pending = [] ∧ State.reset.sound ∧ State.reset.dev.lanes = [] ∧ identitiesHold State.reset.dev :=
  ⟨rfl, by unfold State.sound; decide, rfl, identities_hold_at_reset⟩


/-! ### Witnesses of the statements' hypotheses -/

namespace NoPath
/-- The states that the witnesses use. -/
def states : List State := [reset]
def sample (k : Nat) : State := states.getD k State.reset
/-- Operands and states that meet the hypotheses of NoPath, clause by clause. -/
theorem witness_NoPath :
    (let r : Req := Req.lane 5; let s : State := sample 0; s.sound ∧ reqReaches r = false) := by
  (try unfold State.sound); (try unfold State.reaches); (try unfold boundary); decide
end NoPath

namespace DebugClosed
/-- The states that the witnesses use. -/
def states : List State := [reset, st (fun d => { d with sys := { d.sys with resetHarts := 0, haltedHarts := 1 } })]
def sample (k : Nat) : State := states.getD k State.reset
/-- Operands and states that meet the hypotheses of DebugClosed, clause by clause. -/
theorem witness_DebugClosed :
    (let i : Instr := .dmiOperation .read 0x10 0; let s : State := sample 0; ((∃ op a v, i = .dmiOperation op a v) ∨ (∃ c, i = .debugHalt c) ∨ (∃ c b, i = .debugResume c b) ∨ (∃ p v, i = .irqSet .debug p v)) ∧ s.sound ∧ s.dev.dbgOpen = false) := by
  (try unfold State.sound); (try unfold State.reaches); (try unfold boundary); exact ⟨.inl ⟨_, _, _, rfl⟩, by decide, by decide⟩
end DebugClosed

namespace FrozenBlocksWait
def fzn (l : List Nat) : State := st (fun d => { (l.foldl (fun d p => d.wrN p Reg.BLK_CTL 5) d) with sys := { d.sys with haltedHarts := 1 } })
/-- The states that the witnesses use. -/
def states : List State := [reset, fzn [pgHP 0, pgHP 1, pgHP 127, portPage .eth0, portPage .mgmt, pgLOG, pgGPIO, pgLSP], fzn [pgMGMT, pgDDR 0, pgDDR 5, pgMARCH, pgMRAM, pgJACK, pgUSB]]
def sample (k : Nat) : State := states.getD k State.reset
/-- Operands and states that meet the hypotheses of FrozenBlocksWait, clause by clause. -/
theorem witness_FrozenBlocksWait :
    (let s : State := sample 1; let n : Lane := 0; s.sound ∧ s.dev.frozen (pgHP ↑n) = true)
    ∧ (let s : State := sample 1; let p : Port := Port.eth0; s.sound ∧ s.dev.frozen (portPage p) = true)
    ∧ (let s : State := sample 1; s.sound ∧ s.dev.frozen pgLOG = true)
    ∧ (let s : State := sample 1; s.sound ∧ s.dev.frozen pgGPIO = true)
    ∧ (let s : State := sample 1; s.sound ∧ s.dev.frozen pgLSP = true)
    ∧ (let s : State := sample 1; s.sound ∧ s.dev.frozen pgMGMT = true)
    ∧ (let s : State := sample 2; s.sound ∧ s.dev.frozen (pgDDR 0) = true)
    ∧ (let s : State := sample 2; let ch : Fin 6 := 0; s.sound ∧ s.dev.frozen (pgDDR ↑ch) = true)
    ∧ (let s : State := sample 2; s.sound ∧ s.dev.frozen pgMARCH = true)
    ∧ (let s : State := sample 2; s.sound ∧ s.dev.frozen pgMRAM = true)
    ∧ (let s : State := sample 2; s.sound ∧ s.dev.frozen pgJACK = true)
    ∧ (let s : State := sample 2; s.sound ∧ s.dev.frozen pgUSB = true) := by
  (try unfold State.sound); (try unfold State.reaches); (try unfold boundary); refine ⟨?_, ?_, ?_, ?_, ?_, ?_, ?_, ?_, ?_, ?_, ?_, ?_⟩ <;> decide
end FrozenBlocksWait

namespace RegisterAccess
/-- The states that the witnesses use. -/
def states : List State := [reset, st open_, st (fun d => { open_ d with locked := [pgLEAD, pgTIME, pgENC].mergeSort, gpio := { d.gpio with unseen := 0 } }), st (fun d => forN 40 (fun i d => (d.wrN pgLEAD (4*i) 0xFFFFFFFF).wrN pgTIME (0x40+4*i) 0xFFFFFFFF) d)]
def sample (k : Nat) : State := states.getD k State.reset
/-- Operands and states that meet the hypotheses of RegisterAccess, clause by clause. -/
theorem witness_RegisterAccess :
    (let r : Req := Req.hart 0; let p : Page := 19; let off : Nat := 64; let s : State := sample 0; s.sound ∧ s.reaches r ∧ off < 4096 ∧ plainPage ↑p = true ∧ off % 4 = 0 ∧ 64 ≤ off ∧ off ≠ Reg.LEAD_ACCT_CTL)
    ∧ (let r : Req := Req.hart 0; let off : Nat := 1; let s : State := sample 0; s.sound ∧ s.reaches r ∧ off < 4096 ∧ off % 4 ≠ 0)
    ∧ (let r : Req := Req.hart 0; let p : Page := 19; let off : Nat := 64; let s : State := sample 0; s.sound ∧ s.reaches r ∧ off < 4096 ∧ plainPage ↑p = true ∧ pageKind ↑p ≠ PK.time ∧ off % 4 = 0 ∧ 64 ≤ off ∧ spGet (fun x => none) s.dev.latches (regKey (↑p) off) = none) := by
  (try unfold State.sound); (try unfold State.reaches); (try unfold boundary); refine ⟨?_, ?_, ?_⟩ <;> decide
end RegisterAccess

namespace AliasWrites
/-- The states that the witnesses use. -/
def states : List State := [reset, st (fun d => { open_ d with locked := [pgLEAD, pgENC].mergeSort }), st (fun d => forN 40 (fun i d => (d.wrN pgLEAD (4*i) 0xFFFFFFFF).wrN pgENC (0x40+4*i) 0xFFFFFFFF) d)]
def sample (k : Nat) : State := states.getD k State.reset
/-- Operands and states that meet the hypotheses of AliasWrites, clause by clause. -/
theorem witness_AliasWrites :
    (let r : Req := Req.hart 0; let p : Page := 19; let off : Offset := 0x40; let s : State := sample 0; s.sound ∧ s.reaches r ∧ BitVec.toNat off % 4 = 0 ∧ (plainPage ↑p = true ∧ pageKind ↑p ≠ PK.time ∧ 64 ≤ BitVec.toNat off ∧ BitVec.toNat off ≠ Reg.LEAD_ACCT_CTL ∨ BitVec.toNat off = Reg.IRQ_EN ∧ pageKind ↑p ≠ PK.none ∧ ↑p ≠ pgTMR ∧ ↑p ≠ pgGPIO)) := by
  (try unfold State.sound); (try unfold State.reaches); (try unfold boundary); decide
end AliasWrites

namespace IrqSetAndFence
/-- The states that the witnesses use. -/
def states : List State := [reset, st open_, st (fun d => { open_ d with locked := [pgLEAD, pgENC].mergeSort, armed := [(pgLEAD, some (.hart 1))] })]
def sample (k : Nat) : State := states.getD k State.reset
/-- Operands and states that meet the hypotheses of IrqSetAndFence, clause by clause. -/
theorem witness_IrqSetAndFence :
    (let r : Req := Req.hart 0; let p : Page := 19; let s : State := sample 0; s.sound ∧ s.reaches r ∧ ↑p ≠ pgGPIO) := by
  (try unfold State.sound); (try unfold State.reaches); (try unfold boundary); decide
end IrqSetAndFence

namespace PageLock
/-- The states that the witnesses use. -/
def states : List State := [reset, st open_, st (fun d => { open_ d with locked := [1], armed := [(pgSYS, some (.hart 0)),(pgLEAD, some (.debug))] })]
def sample (k : Nat) : State := states.getD k State.reset
/-- Operands and states that meet the hypotheses of PageLock, clause by clause. -/
theorem witness_PageLock :
    (let r : Req := Req.hart 0; let p : Page := 19; let s : State := sample 0; s.sound ∧ s.reaches r ∧ pageKind ↑p ≠ PK.none ∧ ↑p ≠ pgGPIO ∧ spGet (fun x => none) s.dev.armed ↑p ≠ some r)
    ∧ (let r : Req := Req.hart 0; let p : Page := 0; let s : State := sample 2; s.sound ∧ s.reaches r ∧ pageKind ↑p ≠ PK.none ∧ ↑p ≠ pgGPIO ∧ spGet (fun x => none) s.dev.armed ↑p = some r) := by
  (try unfold State.sound); (try unfold State.reaches); (try unfold boundary); refine ⟨?_, ?_⟩ <;> decide
end PageLock

namespace SoftReset
/-- The states that the witnesses use. -/
def states : List State := [reset, st open_, st (fun d => { forN 40 (fun i d => (d.wrN pgLEAD (0x40+4*i) 0xFFFFFFFF).wrN pgENC (0x40+4*i) 0xFFFFFFFF) d with inReset := [pgENC] }), st (fun d => { forN 40 (fun i d => (d.wrN pgLEAD (0x40+4*i) 0xFFFFFFFF).wrN pgENC (0x40+4*i) 0xFFFFFFFF) d with inReset := [pgLEAD], locked := [pgENC] })]
def sample (k : Nat) : State := states.getD k State.reset
/-- Operands and states that meet the hypotheses of SoftReset, clause by clause. -/
theorem witness_SoftReset :
    (let r : Req := Req.hart 0; let p : Page := 19; let s : State := sample 0; s.sound ∧ s.reaches r ∧ plainPage ↑p = true ∧ s.dev.inReset.contains ↑p = false)
    ∧ (let r : Req := Req.hart 0; let p : Page := 19; let s : State := sample 3; s.sound ∧ s.reaches r ∧ plainPage ↑p = true ∧ s.dev.inReset.contains ↑p = true) := by
  (try unfold State.sound); (try unfold State.reaches); (try unfold boundary); refine ⟨?_, ?_⟩ <;> decide
end SoftReset

namespace BlockEnable
/-- The states that the witnesses use. -/
def states : List State := [reset, st open_, st (fun d => { d with locked := [pgDMA] })]
def sample (k : Nat) : State := states.getD k State.reset
/-- Operands and states that meet the hypotheses of BlockEnable, clause by clause. -/
theorem witness_BlockEnable :
    (let r : Req := Req.hart 0; let p : Page := 8; let s : State := sample 0; s.sound ∧ s.reaches r ∧ (↑p = pgDMA ∨ ↑p = pgBLT)) := by
  (try unfold State.sound); (try unfold State.reaches); (try unfold boundary); decide
end BlockEnable

namespace Accounting
/-- The states that the witnesses use. -/
def states : List State := [reset, st open_, st (fun d => d.wrN pgSYS Reg.SYS_ACCT_CTL 2), st (fun d => ((d.wrN pgSYS Reg.SYS_ACCT_CTL 2).wrN pgSYS Reg.ING_SH_USED 0x123).wrN pgSYS Reg.SYS_ACCT_STAT 0xFFFF0000)]
def sample (k : Nat) : State := states.getD k State.reset
/-- Operands and states that meet the hypotheses of Accounting, clause by clause. -/
theorem witness_Accounting :
    (let r : Req := Req.hart 0; let s : State := sample 0; s.sound ∧ s.reaches r)
    ∧ (let r : Req := Req.hart 0; let s : State := sample 0; s.sound ∧ s.reaches r ∧ s.dev.rdB pgSYS Reg.SYS_ACCT_CTL 1 = true ∧ s.dev.rdF pgSYS Reg.SYS_ACCT_CTL 11 8 = 0) := by
  (try unfold State.sound); (try unfold State.reaches); (try unfold boundary); refine ⟨?_, ?_⟩ <;> decide
end Accounting

namespace LaneResets
def tlp0 : Tlp := { fn := .input, bar := .bar0, off := 0, data := [some 0,some 0,some 0,some 0], relaxed := false, floor := 1, share := 0 }
def ev0 : InputMsg := { seq := 5, arrival := 0, kind := 1, origin := 1, payload := List.replicate 12 0 }
def laneUp (n : Nat) (d : Dev) : Dev := (md 3 ((d.wrN (pgHP n) Reg.HP_STAT 0x402).wrN (pgHP n) Reg.HP_CTL 7))
def allocd (n : Nat) (d : Dev) : Dev := ((((d.wrN (pgDDR 0) Reg.DDR_TOTAL 1).wrN (pgHD n) Reg.HB_DRAM_LO 0x00200000).wrN (pgHD n) Reg.HB_DRAM_HI 0x100).wrN (pgHD n) Reg.HB_DRAM_SIZE 1).wrN (pgHD n) Reg.HB_GLYPH (0x10002 + 2*65536)
def busy (n : Nat) (d : Dev) : Dev := forN 3 (fun f d => ((d.wrN (pgFn n f) Reg.HF_NEG_LO 0xFF).wrN (pgFn n f) Reg.HF_DRV_FEAT_LO 0xFF).wrN (pgFn n f) Reg.HF_STAT 1) (d.onLane n (fun l => { l with queue := [tlp0], pendingIn := [ev0] }))
/-- The states that the witnesses use. -/
def states : List State := [reset] ++ [0,1,127].flatMap fun n => [st (fun d => d.wrN (pgHP n) Reg.HP_STAT 0), st (laneUp n), st (fun d => busy n (laneUp n d)), st (fun d => (busy n (laneUp n d)).onHead n (fun x => { x with adm := .running, clearAt := some 2 }))]
def sample (k : Nat) : State := states.getD k State.reset
/-- Operands and states that meet the hypotheses of LaneResets, clause by clause. -/
theorem witness_LaneResets :
    (let n : Lane := 0; let s : State := sample 1; s.dev.rdB (pgHP ↑n) Reg.HP_STAT 0 = false)
    ∧ (let n : Lane := 0; let s : State := sample 2; s.dev.linkLive ↑n = true) := by
  (try unfold State.sound); (try unfold State.reaches); (try unfold boundary); refine ⟨?_, ?_⟩ <;> decide
end LaneResets

namespace LaneLinkUp
def tlp0 : Tlp := { fn := .input, bar := .bar0, off := 0, data := [some 0,some 0,some 0,some 0], relaxed := false, floor := 1, share := 0 }
def ev0 : InputMsg := { seq := 5, arrival := 0, kind := 1, origin := 1, payload := List.replicate 12 0 }
def laneUp (n : Nat) (d : Dev) : Dev := (md 3 ((d.wrN (pgHP n) Reg.HP_STAT 0x402).wrN (pgHP n) Reg.HP_CTL 7))
def allocd (n : Nat) (d : Dev) : Dev := ((((d.wrN (pgDDR 0) Reg.DDR_TOTAL 1).wrN (pgHD n) Reg.HB_DRAM_LO 0x00200000).wrN (pgHD n) Reg.HB_DRAM_HI 0x100).wrN (pgHD n) Reg.HB_DRAM_SIZE 1).wrN (pgHD n) Reg.HB_GLYPH (0x10002 + 2*65536)
/-- The states that the witnesses use. -/
def states : List State := [reset] ++ [0,1,127].flatMap fun n => [st (fun d => d.wrN (pgHP n) Reg.HP_STAT 0), st (fun d => (d.wrN (pgHP n) Reg.HP_STAT 0).wrN (pgHP n) Reg.HP_CTL 3), st (laneUp n)]
def sample (k : Nat) : State := states.getD k State.reset
/-- Operands and states that meet the hypotheses of LaneLinkUp, clause by clause. -/
theorem witness_LaneLinkUp :
    (let n : Lane := 0; let s : State := sample 0; s.sound ∧ s.dev.rdB (pgHP ↑n) Reg.HP_STAT 0 = true)
    ∧ (let n : Lane := 0; let s : State := sample 1; s.sound ∧ s.dev.rdB (pgHP ↑n) Reg.HP_STAT 0 = false ∧ s.dev.linkLive ↑n = false ∧ s.dev.rdB (pgHP ↑n) Reg.HP_CTL 0 = true ∧ s.dev.portsOff = false)
    ∧ (let n : Lane := 0; let s : State := sample 3; s.sound ∧ s.dev.linkLive ↑n = true) := by
  (try unfold State.sound); (try unfold State.reaches); (try unfold boundary); refine ⟨?_, ?_, ?_⟩ <;> decide
end LaneLinkUp

namespace Configuration
def tlp0 : Tlp := { fn := .input, bar := .bar0, off := 0, data := [some 0,some 0,some 0,some 0], relaxed := false, floor := 1, share := 0 }
def ev0 : InputMsg := { seq := 5, arrival := 0, kind := 1, origin := 1, payload := List.replicate 12 0 }
def laneUp (n : Nat) (d : Dev) : Dev := (md 3 ((d.wrN (pgHP n) Reg.HP_STAT 0x402).wrN (pgHP n) Reg.HP_CTL 7))
def allocd (n : Nat) (d : Dev) : Dev := ((((d.wrN (pgDDR 0) Reg.DDR_TOTAL 1).wrN (pgHD n) Reg.HB_DRAM_LO 0x00200000).wrN (pgHD n) Reg.HB_DRAM_HI 0x100).wrN (pgHD n) Reg.HB_DRAM_SIZE 1).wrN (pgHD n) Reg.HB_GLYPH (0x10002 + 2*65536)
/-- The states that the witnesses use. -/
def states : List State := [reset] ++ [0,1,127].flatMap fun n => [st (fun d => d.wrN (pgHP n) Reg.HP_STAT 2), st (laneUp n), st (fun d => md 5 (d.wrN (pgHP n) Reg.HP_STAT 0))]
def sample (k : Nat) : State := states.getD k State.reset
/-- Operands and states that meet the hypotheses of Configuration, clause by clause. -/
theorem witness_Configuration :
    (let n : Lane := 0; let s : State := sample 2; s.sound ∧ s.dev.rdB (pgHP ↑n) Reg.HP_STAT 0 = false ∧ (s.dev.mode = 3 ∨ s.dev.mode = 4 ∨ s.dev.mode = 5))
    ∧ (let n : Lane := 0; let s : State := sample 1; s.sound ∧ s.dev.linkLive ↑n = true ∧ (s.dev.cfgReady ↑n = false ∨ ¬(s.dev.mode = 3 ∨ s.dev.mode = 4 ∨ s.dev.mode = 5)))
    ∧ (let n : Lane := 0; let s : State := sample 2; s.sound ∧ s.dev.linkLive ↑n = true ∧ s.dev.cfgReady ↑n = true ∧ (s.dev.mode = 3 ∨ s.dev.mode = 4 ∨ s.dev.mode = 5))
    ∧ (let n : Lane := 0; let s : State := sample 2; let f : Fn := Fn.display; let off : BitVec 12 := 0; s.sound ∧ s.dev.linkLive ↑n = true ∧ s.dev.cfgReady ↑n = true ∧ (s.dev.mode = 3 ∨ s.dev.mode = 4 ∨ s.dev.mode = 5) ∧ (s.dev.cfgFixed (↑n) f (off.toNat / 4 * 4)).isSome = true)
    ∧ (let n : Lane := 0; let s : State := sample 2; let f : Fn := Fn.display; let off : BitVec 12 := 0x3C5; s.sound ∧ s.dev.linkLive ↑n = true ∧ s.dev.cfgReady ↑n = true ∧ (s.dev.mode = 3 ∨ s.dev.mode = 4 ∨ s.dev.mode = 5) ∧ (s.dev.cfgFixed (↑n) f (off.toNat / 4 * 4)).isSome = false ∧ off.toNat / 4 * 4 ≠ Reg.CFG_PMCSR ∧ off.toNat / 4 * 4 ≠ Reg.CFG_DEVCTL ∧ off.toNat / 4 * 4 ≠ Reg.CFG_MSIX ∧ off.toNat / 4 * 4 ≠ Reg.CFG_BAR0_LO ∧ s.dev.heldSet (pgCfg (↑n) (fnIx f)) (off.toNat / 4 * 4) = 0) := by
  (try unfold State.sound); (try unfold State.reaches); (try unfold boundary); refine ⟨?_, ?_, ?_, ?_, ?_⟩ <;> decide
end Configuration

namespace FunctionResets
def tlp0 : Tlp := { fn := .input, bar := .bar0, off := 0, data := [some 0,some 0,some 0,some 0], relaxed := false, floor := 1, share := 0 }
def ev0 : InputMsg := { seq := 5, arrival := 0, kind := 1, origin := 1, payload := List.replicate 12 0 }
def laneUp (n : Nat) (d : Dev) : Dev := (md 3 ((d.wrN (pgHP n) Reg.HP_STAT 0x402).wrN (pgHP n) Reg.HP_CTL 7))
def allocd (n : Nat) (d : Dev) : Dev := ((((d.wrN (pgDDR 0) Reg.DDR_TOTAL 1).wrN (pgHD n) Reg.HB_DRAM_LO 0x00200000).wrN (pgHD n) Reg.HB_DRAM_HI 0x100).wrN (pgHD n) Reg.HB_DRAM_SIZE 1).wrN (pgHD n) Reg.HB_GLYPH (0x10002 + 2*65536)
/-- The states that the witnesses use. -/
def states : List State := [reset] ++ [0,1,127].flatMap fun n => [st (laneUp n), st (fun d => ((laneUp n d).onLane n (fun l => { l with queue := [tlp0, { tlp0 with fn := .display }] })).wrN (pgFn n 1) Reg.HF_NEG_LO 0x40), st (fun d => forN 3 (fun f d => d.wrN (pgCfg n f) Reg.CFG_PMCSR 3) d)]
def sample (k : Nat) : State := states.getD k State.reset
/-- Operands and states that meet the hypotheses of FunctionResets, clause by clause. -/
theorem witness_FunctionResets :
    (let n : Lane := 0; let f : Fn := Fn.display; let s : State := sample 3; s.dev.inD0 (↑n) (fnIx f) = false)
    ∧ (let n : Lane := 0; let f : Fn := Fn.display; let s : State := sample 0; s.dev.inD0 (↑n) (fnIx f) = true ∧ s.sound) := by
  (try unfold State.sound); (try unfold State.reaches); (try unfold boundary); refine ⟨?_, ?_⟩ <;> decide
end FunctionResets

namespace HostWriteEnters
def tlp0 : Tlp := { fn := .input, bar := .bar0, off := 0, data := [some 0,some 0,some 0,some 0], relaxed := false, floor := 1, share := 0 }
def ev0 : InputMsg := { seq := 5, arrival := 0, kind := 1, origin := 1, payload := List.replicate 12 0 }
def laneUp (n : Nat) (d : Dev) : Dev := (md 3 ((d.wrN (pgHP n) Reg.HP_STAT 0x402).wrN (pgHP n) Reg.HP_CTL 7))
def allocd (n : Nat) (d : Dev) : Dev := ((((d.wrN (pgDDR 0) Reg.DDR_TOTAL 1).wrN (pgHD n) Reg.HB_DRAM_LO 0x00200000).wrN (pgHD n) Reg.HB_DRAM_HI 0x100).wrN (pgHD n) Reg.HB_DRAM_SIZE 1).wrN (pgHD n) Reg.HB_GLYPH (0x10002 + 2*65536)
/-- The states that the witnesses use. -/
def states : List State := [reset] ++ [0,1,127].flatMap fun n => [st (laneUp n), st (fun d => (laneUp n d).onLane n (fun l => { l with queue := List.replicate 32 tlp0 })), st (fun d => ((laneUp n d).onLane n (fun l => { l with queue := [tlp0, { tlp0 with fn := .display }], shareBusy := 0 })).wrN (pgHP n) Reg.HP_FLOOR_FREE 4)]
def sample (k : Nat) : State := states.getD k State.reset
/-- Operands and states that meet the hypotheses of HostWriteEnters, clause by clause. -/
theorem witness_HostWriteEnters :
    (let n : Lane := 0; let f : Fn := Fn.display; let bar : Bar := Bar.bar0; let off : BitVec 29 := 0; let data : List (Option Byte) := [some 1, some 2, some 3, some 4]; let s : State := sample 1; s.sound ∧ 1 ≤ data.length ∧ data.length ≤ 256 ∧ s.dev.linkLive ↑n = true ∧ s.dev.cfgReady ↑n = true ∧ s.dev.inD0 (↑n) (fnIx f) = true ∧ bar ≠ Bar.rom ∧ off.toNat + data.length ≤ barSize f bar ∧ (bar = Bar.bar0 → bar0WriteOk off.toNat data = true) ∧ ceilDiv data.length 64 ≤ s.dev.rdN (pgHP ↑n) Reg.HP_FLOOR_FREE ∧ (s.dev.lane ↑n).shareBusy ≤ s.dev.rdN (pgHP ↑n) Reg.HP_SHARE_USED ∧ (s.dev.lane ↑n).queue.length < 32)
    ∧ (let n : Lane := 0; let f : Fn := Fn.display; let bar : Bar := Bar.bar0; let off : BitVec 29 := 0; let data : List (Option Byte) := [some 1, some 2, some 3, some 4]; let s : State := sample 2; s.sound ∧ 1 ≤ data.length ∧ data.length ≤ 256 ∧ s.dev.linkLive ↑n = true ∧ s.dev.cfgReady ↑n = true ∧ s.dev.inD0 (↑n) (fnIx f) = true ∧ bar ≠ Bar.rom ∧ off.toNat + data.length ≤ barSize f bar ∧ (bar = Bar.bar0 → bar0WriteOk off.toNat data = true) ∧ 32 ≤ (s.dev.lane ↑n).queue.length)
    ∧ (let n : Lane := 0; let data : List (Option Byte) := [some 1, some 2, some 3, some 4]; let s : State := sample 1; let flaw : TlpFlaw := TlpFlaw.ecrc; s.sound ∧ 1 ≤ data.length ∧ data.length ≤ 256 ∧ s.dev.linkLive ↑n = true ∧ flaw ≠ TlpFlaw.good) := by
  (try unfold State.sound); (try unfold State.reaches); (try unfold boundary); refine ⟨?_, ?_, ?_⟩ <;> decide
end HostWriteEnters

namespace CommitLands
def tlp0 : Tlp := { fn := .input, bar := .bar0, off := 0, data := [some 0,some 0,some 0,some 0], relaxed := false, floor := 1, share := 0 }
def ev0 : InputMsg := { seq := 5, arrival := 0, kind := 1, origin := 1, payload := List.replicate 12 0 }
def laneUp (n : Nat) (d : Dev) : Dev := (md 3 ((d.wrN (pgHP n) Reg.HP_STAT 0x402).wrN (pgHP n) Reg.HP_CTL 7))
def allocd (n : Nat) (d : Dev) : Dev := ((((d.wrN (pgDDR 0) Reg.DDR_TOTAL 1).wrN (pgHD n) Reg.HB_DRAM_LO 0x00200000).wrN (pgHD n) Reg.HB_DRAM_HI 0x100).wrN (pgHD n) Reg.HB_DRAM_SIZE 1).wrN (pgHD n) Reg.HB_GLYPH (0x10002 + 2*65536)
def bs1 : List Byte := [1,2,3]
/-- The states that the witnesses use. -/
def states : List State := [reset] ++ [0,1,127].flatMap fun n => [st (fun d => ((allocd n (laneUp n d)).onLane n (fun l => { l with queue := [{ tlp0 with fn := .display, bar := .bar2, off := 5, data := bs1.map some }] }))), st (fun d => ((allocd n (laneUp n d)).onLane n (fun l => { l with queue := [{ tlp0 with fn := .display, bar := .bar2, off := 0x10000000+7, data := [some 9] }, tlp0] })))]
def sample (k : Nat) : State := states.getD k State.reset
/-- Operands and states that meet the hypotheses of CommitLands, clause by clause. -/
theorem witness_CommitLands :
    (let n : Lane := 0; let s : State := sample 1; let w : Tlp := { fn := Fn.display, bar := Bar.bar2, off := 5, data := [some 1, some 2, some 3], relaxed := false, floor := 1, share := 0 }; let rest : List Tlp := []; let bs : List Byte := [1, 2, 3]; let a : Nat := 1099513724933; s.sound ∧ (s.dev.lane ↑n).queue = w :: rest ∧ w.fn = Fn.display ∧ w.bar = Bar.bar2 ∧ w.data = List.map some bs ∧ bs ≠ [] ∧ (s.dev.begin.commitCycle ↑n).detachedAtStart ↑n = false ∧ s.dev.bar2 (↑n) w.off = some a ∧ s.dev.bar2 (↑n) (w.off + bs.length - 1) = some (a + bs.length - 1) ∧ s.dev.frozen (pgHP ↑n) = false) := by
  (try unfold State.sound); (try unfold State.reaches); (try unfold boundary); decide
end CommitLands

namespace CommitCounts
def tlp0 : Tlp := { fn := .input, bar := .bar0, off := 0, data := [some 0,some 0,some 0,some 0], relaxed := false, floor := 1, share := 0 }
def ev0 : InputMsg := { seq := 5, arrival := 0, kind := 1, origin := 1, payload := List.replicate 12 0 }
def laneUp (n : Nat) (d : Dev) : Dev := (md 3 ((d.wrN (pgHP n) Reg.HP_STAT 0x402).wrN (pgHP n) Reg.HP_CTL 7))
def allocd (n : Nat) (d : Dev) : Dev := ((((d.wrN (pgDDR 0) Reg.DDR_TOTAL 1).wrN (pgHD n) Reg.HB_DRAM_LO 0x00200000).wrN (pgHD n) Reg.HB_DRAM_HI 0x100).wrN (pgHD n) Reg.HB_DRAM_SIZE 1).wrN (pgHD n) Reg.HB_GLYPH (0x10002 + 2*65536)
def bs1 : List Byte := [1,2,3]
def q (n : Nat) (l : List Tlp) (d : Dev) : Dev := (allocd n (laneUp n d)).onLane n (fun x => { x with queue := l })
def ws : List Tlp := [{ tlp0 with fn := .display, bar := .bar2, off := 5, data := bs1.map some }, { tlp0 with fn := .display, bar := .bar2, off := 0x0FFFFF00, data := [some 9, some 8] }, { tlp0 with off := 0x54, data := [some 0x1F, some 0, some 0, some 0] }, { tlp0 with off := 0x40, data := [some 1, some 0, some 0, some 0] }, { tlp0 with off := 0x48, data := [some 1, some 0, some 0, some 0, some 7, some 8, some 9, some 1] }, { tlp0 with fn := .audio, off := 0x40, data := [some 1, some 0, some 0, some 0] }, { tlp0 with fn := .audio, off := 0x100, data := [some 1, some 0, some 0, some 0] }, { tlp0 with fn := .audio, bar := .rom, off := 0x100, data := [some 1, some 0, some 0, some 0] }]
/-- The states that the witnesses use. -/
def states : List State := [reset] ++ [0,1,127].flatMap fun n => ws.flatMap fun w => [st (q n [w, tlp0]), st (fun d => (q n [w] d).wrN (pgHD n) Reg.HD_MODE 8), st (fun d => (q n [w] d).wrN (pgFn n 2) Reg.HF_NEG_LO 0xFFFFFFFF |>.wrN (pgFn n 1) Reg.HF_NEG_LO 0xFFFFFFFF)]
def sample (k : Nat) : State := states.getD k State.reset
/-- Operands and states that meet the hypotheses of CommitCounts, clause by clause. -/
theorem witness_CommitCounts :
    (let n : Lane := 0; let s : State := sample 2; let w : Tlp := { fn := Fn.display, bar := Bar.bar2, off := 5, data := [some 1, some 2, some 3], relaxed := false, floor := 1, share := 0 }; let rest : List Tlp := []; s.sound ∧ s.dev.frozen (pgHP ↑n) = false ∧ (s.dev.lane ↑n).queue = w :: rest ∧ w.fn = Fn.display ∧ w.bar = Bar.bar2 ∧ ((s.dev.begin.commitCycle ↑n).detachedAtStart ↑n = true ∨ w.data ≠ [] ∧ (∀ (b : Option Byte), b ∈ w.data → b.isSome = true) ∧ s.dev.bar2 (↑n) w.off = none))
    ∧ (let n : Lane := 0; let s : State := sample 7; let w : Tlp := { fn := Fn.input, bar := Bar.bar0, off := 84, data := [some 0x1F, some 0, some 0, some 0], relaxed := false, floor := 1, share := 0 }; let rest : List Tlp := [{ fn := Fn.input, bar := Bar.bar0, off := 0, data := [some 0, some 0, some 0, some 0], relaxed := false, floor := 1, share := 0 }]; s.sound ∧ s.dev.frozen (pgHP ↑n) = false ∧ (s.dev.lane ↑n).queue = w :: rest ∧ w.bar ≠ Bar.bar2 ∧ w.fn ≠ Fn.display)
    ∧ (let n : Lane := 0; let s : State := sample 0; let f : Fn := Fn.display; s.sound ∧ s.dev.frozen (pgHP ↑n) = false ∧ ((s.dev.lane ↑n).queue.all fun x => x.fn != f) = true) := by
  (try unfold State.sound); (try unfold State.reaches); (try unfold boundary); refine ⟨?_, ?_, ?_⟩ <;> decide
end CommitCounts

namespace HostReadAnswers
def tlp0 : Tlp := { fn := .input, bar := .bar0, off := 0, data := [some 0,some 0,some 0,some 0], relaxed := false, floor := 1, share := 0 }
def ev0 : InputMsg := { seq := 5, arrival := 0, kind := 1, origin := 1, payload := List.replicate 12 0 }
def laneUp (n : Nat) (d : Dev) : Dev := (md 3 ((d.wrN (pgHP n) Reg.HP_STAT 0x402).wrN (pgHP n) Reg.HP_CTL 7))
def allocd (n : Nat) (d : Dev) : Dev := ((((d.wrN (pgDDR 0) Reg.DDR_TOTAL 1).wrN (pgHD n) Reg.HB_DRAM_LO 0x00200000).wrN (pgHD n) Reg.HB_DRAM_HI 0x100).wrN (pgHD n) Reg.HB_DRAM_SIZE 1).wrN (pgHD n) Reg.HB_GLYPH (0x10002 + 2*65536)
/-- The states that the witnesses use. -/
def states : List State := [reset] ++ [0,1,127].flatMap fun n => [st (fun d => allocd n (laneUp n d)), st (fun d => putB [1,2,3] (dramBase+0x200003) (allocd n (laneUp n d))), st (fun d => ((allocd n (laneUp n d)).onLane n (fun l => { l with queue := [{ tlp0 with fn := .display }] })))]
def sample (k : Nat) : State := states.getD k State.reset
/-- Operands and states that meet the hypotheses of HostReadAnswers, clause by clause. -/
theorem witness_HostReadAnswers :
    (let n : Lane := 0; let off : BitVec 29 := 0; let len : Nat := 1; let a : Nat := 1099513724928; let s : State := sample 1; s.sound ∧ 1 ≤ len ∧ len ≤ 4096 ∧ s.dev.linkLive ↑n = true ∧ s.dev.cfgReady ↑n = true ∧ s.dev.inD0 (↑n) 0 = true ∧ off.toNat + len ≤ 536870912 ∧ ((s.dev.lane ↑n).queue.any fun t => t.fn == Fn.display) = false ∧ s.dev.rdB (pgHD ↑n) Reg.HD_MODE 3 = false ∧ s.dev.ram.poison = [] ∧ (∀ (i : Nat), i < len → s.dev.bar2 (↑n) (off.toNat + i) = some (a + i)))
    ∧ (let n : Lane := 0; let off : BitVec 29 := 0; let len : Nat := 1; let s : State := sample 3; s.sound ∧ 1 ≤ len ∧ len ≤ 4096 ∧ s.dev.linkLive ↑n = true ∧ s.dev.cfgReady ↑n = true ∧ s.dev.inD0 (↑n) 0 = true ∧ off.toNat + len ≤ 536870912 ∧ ((s.dev.lane ↑n).queue.any fun t => t.fn == Fn.display) = true) := by
  (try unfold State.sound); (try unfold State.reaches); (try unfold boundary); refine ⟨?_, ?_⟩ <;> decide
end HostReadAnswers

namespace Negotiation
def tlp0 : Tlp := { fn := .input, bar := .bar0, off := 0, data := [some 0,some 0,some 0,some 0], relaxed := false, floor := 1, share := 0 }
def ev0 : InputMsg := { seq := 5, arrival := 0, kind := 1, origin := 1, payload := List.replicate 12 0 }
def laneUp (n : Nat) (d : Dev) : Dev := (md 3 ((d.wrN (pgHP n) Reg.HP_STAT 0x402).wrN (pgHP n) Reg.HP_CTL 7))
def allocd (n : Nat) (d : Dev) : Dev := ((((d.wrN (pgDDR 0) Reg.DDR_TOTAL 1).wrN (pgHD n) Reg.HB_DRAM_LO 0x00200000).wrN (pgHD n) Reg.HB_DRAM_HI 0x100).wrN (pgHD n) Reg.HB_DRAM_SIZE 1).wrN (pgHD n) Reg.HB_GLYPH (0x10002 + 2*65536)
/-- The states that the witnesses use. -/
def states : List State := [reset] ++ [0,1,127].flatMap fun n => [0,1,2].flatMap fun f => [st (fun d => d.wrN (pgFn n f) Reg.HF_STAT 2), st (fun d => (d.wrN (pgFn n f) Reg.HF_CTL 1).wrN (pgFn n f) Reg.HF_DRV_FEAT_LO 1), st (fun d => (d.wrN (pgFn n f) Reg.HF_CTL 1).wrN (pgFn n f) Reg.HF_DRV_FEAT_LO 0), st (fun d => (d.wrN (pgFn n f) Reg.HF_CTL 1).wrN (pgFn n f) Reg.HF_DRV_FEAT_LO 0xFFFFFFFF)]
def sample (k : Nat) : State := states.getD k State.reset
/-- Operands and states that meet the hypotheses of Negotiation, clause by clause. -/
theorem witness_Negotiation :
    (let n : Lane := 0; let f : Fn := Fn.display; let s : State := sample 0; s.dev.rdB (pgFn (↑n) (fnIx f)) Reg.HF_CTL 0 = false)
    ∧ (let n : Lane := 0; let f : Fn := Fn.display; let s : State := sample 2; s.dev.rdB (pgFn (↑n) (fnIx f)) Reg.HF_CTL 0 = true ∧ s.dev.rdB (pgFn (↑n) (fnIx f)) Reg.HF_STAT 0 = false) := by
  (try unfold State.sound); (try unfold State.reaches); (try unfold boundary); refine ⟨?_, ?_⟩ <;> decide
end Negotiation

namespace PresentQueued
def tlp0 : Tlp := { fn := .input, bar := .bar0, off := 0, data := [some 0,some 0,some 0,some 0], relaxed := false, floor := 1, share := 0 }
def ev0 : InputMsg := { seq := 5, arrival := 0, kind := 1, origin := 1, payload := List.replicate 12 0 }
def laneUp (n : Nat) (d : Dev) : Dev := (md 3 ((d.wrN (pgHP n) Reg.HP_STAT 0x402).wrN (pgHP n) Reg.HP_CTL 7))
def allocd (n : Nat) (d : Dev) : Dev := ((((d.wrN (pgDDR 0) Reg.DDR_TOTAL 1).wrN (pgHD n) Reg.HB_DRAM_LO 0x00200000).wrN (pgHD n) Reg.HB_DRAM_HI 0x100).wrN (pgHD n) Reg.HB_DRAM_SIZE 1).wrN (pgHD n) Reg.HB_GLYPH (0x10002 + 2*65536)
/-- The states that the witnesses use. -/
def states : List State := [reset] ++ [0,1,127].flatMap fun n => [st (fun d => (allocd n (laneUp n d)).onHead n (fun x => { x with adm := .running })), st (fun d => (d.wrN (pgHD n) Reg.HD_MODE 8).onHead n (fun x => { x with presents := [{ tag := 1, stamp := 1, regs := [] }]}))]
def sample (k : Nat) : State := states.getD k State.reset
/-- Operands and states that meet the hypotheses of PresentQueued, clause by clause. -/
theorem witness_PresentQueued :
    (let n : Lane := 0; let s : State := sample 0; (s.dev.head ↑n).fence = false) := by
  (try unfold State.sound); (try unfold State.reaches); (try unfold boundary); decide
end PresentQueued

namespace InputRing
def tlp0 : Tlp := { fn := .input, bar := .bar0, off := 0, data := [some 0,some 0,some 0,some 0], relaxed := false, floor := 1, share := 0 }
def ev0 : InputMsg := { seq := 5, arrival := 0, kind := 1, origin := 1, payload := List.replicate 12 0 }
def laneUp (n : Nat) (d : Dev) : Dev := (md 3 ((d.wrN (pgHP n) Reg.HP_STAT 0x402).wrN (pgHP n) Reg.HP_CTL 7))
def allocd (n : Nat) (d : Dev) : Dev := ((((d.wrN (pgDDR 0) Reg.DDR_TOTAL 1).wrN (pgHD n) Reg.HB_DRAM_LO 0x00200000).wrN (pgHD n) Reg.HB_DRAM_HI 0x100).wrN (pgHD n) Reg.HB_DRAM_SIZE 1).wrN (pgHD n) Reg.HB_GLYPH (0x10002 + 2*65536)
def ring (n : Nat) (d : Dev) : Dev := ((laneUp n d).wrN (pgFn n 1) Reg.HF_NEG_LO 0x40).wrN (pgFn n 1) Reg.IR_SIZE 4
/-- The states that the witnesses use. -/
def states : List State := [reset] ++ [0,1,127].flatMap fun n => [st (ring n), st (fun d => ((ring n d).wrN (pgFn n 1) Reg.IR_CTL 1).wrN (pgFn n 1) Reg.IR_PROD 16),
   st (fun d => ((((ring n d).wrN (pgFn n 1) Reg.IR_CTL 1).wrN (pgFn n 1) Reg.IR_PROD 15).wr64 (pgFn n 1) Reg.IR_BASE_LO 0x1000).onLane n (fun l => { l with pendingIn := [ev0,ev0] }))]
def sample (k : Nat) : State := states.getD k State.reset
/-- Operands and states that meet the hypotheses of InputRing, clause by clause. -/
theorem witness_InputRing :
    (let n : Lane := 0; let s : State := sample 1; s.dev.fnHas (↑n) 1 6 = true ∧ s.dev.rdB (pgFn (↑n) 1) Reg.IR_CTL 0 = false)
    ∧ (let n : Lane := 0; let v : Word := 0; let s : State := sample 1; s.dev.fnHas (↑n) 1 6 = true ∧ BitVec.toNat (s.dev.rd (pgFn (↑n) 1) Reg.IR_PROD - v) ≤ 2 ^ s.dev.irLog ↑n)
    ∧ (let n : Lane := 0; let v : Word := 1; let s : State := sample 1; s.dev.fnHas (↑n) 1 6 = true ∧ 2 ^ s.dev.irLog ↑n < BitVec.toNat (s.dev.rd (pgFn (↑n) 1) Reg.IR_PROD - v))
    ∧ (let n : Lane := 0; let s : State := sample 1; s.dev.fnHas (↑n) 1 6 = true)
    ∧ (let n : Lane := 0; let s : State := sample 3; let e : InputMsg := { seq := 5, arrival := 0, kind := 1, origin := 1, payload := [0, 0, 0, 0, 0, 0, 0, 0, 0, 0, 0, 0] }; let rest : List InputMsg := [{ seq := 5, arrival := 0, kind := 1, origin := 1, payload := [0, 0, 0, 0, 0, 0, 0, 0, 0, 0, 0, 0] }]; (s.dev.lane ↑n).pendingIn = e :: rest ∧ s.dev.canDeliver ↑n = true) := by
  (try unfold State.sound); (try unfold State.reaches); (try unfold boundary); refine ⟨?_, ?_, ?_, ?_, ?_⟩ <;> decide
end InputRing

namespace AllocClear
def tlp0 : Tlp := { fn := .input, bar := .bar0, off := 0, data := [some 0,some 0,some 0,some 0], relaxed := false, floor := 1, share := 0 }
def ev0 : InputMsg := { seq := 5, arrival := 0, kind := 1, origin := 1, payload := List.replicate 12 0 }
def laneUp (n : Nat) (d : Dev) : Dev := (md 3 ((d.wrN (pgHP n) Reg.HP_STAT 0x402).wrN (pgHP n) Reg.HP_CTL 7))
def allocd (n : Nat) (d : Dev) : Dev := ((((d.wrN (pgDDR 0) Reg.DDR_TOTAL 1).wrN (pgHD n) Reg.HB_DRAM_LO 0x00200000).wrN (pgHD n) Reg.HB_DRAM_HI 0x100).wrN (pgHD n) Reg.HB_DRAM_SIZE 1).wrN (pgHD n) Reg.HB_GLYPH (0x10002 + 2*65536)
/-- The states that the witnesses use. -/
def states : List State := [reset] ++ [0,1,127].flatMap fun n => [st (fun d => (putB [1,2,3] (dramBase+0x200003) (allocd n (laneUp n d))).onHead n (fun x => { x with clearAt := some 0 })), st (fun d => (putB [1,2,3] (dramBase+0x200003) (allocd n (laneUp n d))).onHead n (fun x => { x with clearAt := some 3, adm := .running }))]
def sample (k : Nat) : State := states.getD k State.reset
/-- Operands and states that meet the hypotheses of AllocClear, clause by clause. -/
theorem witness_AllocClear :
    (let n : VHead := 0; let s : State := sample 1; let f : Nat := 0; (s.dev.head ↑n).clearAt = some f) := by
  (try unfold State.sound); (try unfold State.reaches); (try unfold boundary); decide
end AllocClear

namespace Binding
/-- The states that the witnesses use. -/
def states : List State := [reset] ++ [0,1,127].flatMap fun n => [st (fun d => d.wrN (pgHD n) Reg.HB_STAT 3), st (fun d => (d.wrN (pgHD n) Reg.HB_STAT 1)), st (fun d => (d.wrN (pgHD n) Reg.HB_STAT 1).wr64 (pgHD n) Reg.HB_NAME_LO 7), st (fun d => (((d.wrN (pgHD n) Reg.HB_STAT 1).wr64 (pgHD n) Reg.HB_NAME_LO 7).wr64 (pgHD 5) Reg.HB_NAME_LO 7).wrN (pgHD 5) Reg.HB_STAT 2)]
def sample (k : Nat) : State := states.getD k State.reset
/-- Operands and states that meet the hypotheses of Binding, clause by clause. -/
theorem witness_Binding :
    (let n : VHead := 0; let s : State := sample 0; s.sound ∧ s.dev.nameState ↑n ≠ 1 ∧ s.dev.nameState ↑n ≠ 2)
    ∧ (let n : VHead := 0; let s : State := sample 2; s.sound ∧ s.dev.nameState ↑n = 1 ∧ s.dev.addrValid = false)
    ∧ (let n : VHead := 0; let s : State := sample 2; s.sound ∧ s.dev.nameState ↑n = 1) := by
  (try unfold State.sound); (try unfold State.reaches); (try unfold boundary); refine ⟨?_, ?_, ?_⟩ <;> decide
end Binding

namespace Admission
/-- The states that the witnesses use. -/
def states : List State := [reset] ++ [0,1,131].flatMap fun n => [st (fun d => clk (hd n (fun x => { x with reqAt := [(false, 0, 0)] }) d)), st (fun d => clk (hd n (fun x => { x with reqAt := [(true, 0, 0)] }) d)), st (fun d => d.onHead n (fun x => { x with reqAt := [(false, 0, 0)] })),
  st (fun d => clk (hd n (fun x => { x with reqAt := [(false, 0, 7)] }) (hd 0 (fun x => { x with reqAt := [(false, 0, 7)] }) d))),
  st (fun d => clk ((hd n (fun x => { x with reqAt := [(false, 0, 0)] }) d).wrN (pgHD n) Reg.PH_ALLOC 1))]
def sample (k : Nat) : State := states.getD k State.reset
/-- Operands and states that meet the hypotheses of Admission, clause by clause. -/
theorem witness_Admission :
    (let h : Head := 0; let s : State := sample 0; (s.dev.head ↑h).adm = Adm.off ∧ (s.dev.head ↑h).reqAt = [])
    ∧ (let h : Head := 1; let s : State := sample 9; let a : Bool × Nat × Nat := (false, 0, 7); let rest : List (Bool × Nat × Nat) := []; (s.dev.head ↑h).reqAt = a :: rest ∧ s.dev.earlierAsk (↑h) a.snd.snd = true)
    ∧ (let h : Head := 0; let s : State := sample 1; let a : Bool × Nat × Nat := (false, 0, 0); let rest : List (Bool × Nat × Nat) := []; (s.dev.head ↑h).reqAt = a :: rest ∧ s.dev.earlierAsk (↑h) a.snd.snd = false ∧ (a.fst = true ∨ s.dev.live ↑h = false)) := by
  (try unfold State.sound); (try unfold State.reaches); (try unfold boundary); refine ⟨?_, ?_, ?_⟩ <;> decide
end Admission

namespace HeadStops
/-- The states that the witnesses use. -/
def states : List State := [reset] ++ [0,1,131].flatMap fun n => [st (fun d => clk (hd n (fun x => { x with adm := .waiting, scan := 5, line := 6 }) d)), st (fun d => clk (hd n (fun x => { x with adm := .running, scan := 5, line := 6, last := some 2, cur := some 2 }) d)),
  st (fun d => clk (hd n (fun x => { x with adm := .stopping, stopAt := some 9, scan := 5, line := 6, lines := [lb 2 1 false], last := some 2, cur := some 2 }) d))]
def sample (k : Nat) : State := states.getD k State.reset
/-- Operands and states that meet the hypotheses of HeadStops, clause by clause. -/
theorem witness_HeadStops :
    (let h : Head := 0; let s : State := sample 1; (s.dev.head ↑h).adm = Adm.waiting)
    ∧ (let h : Head := 0; let s : State := sample 2; (s.dev.head ↑h).adm = Adm.running)
    ∧ (let h : Head := 0; let s : State := sample 3; (s.dev.head ↑h).adm = Adm.stopping ∧ s.dev.stopLate ↑h = false) := by
  (try unfold State.sound); (try unfold State.reaches); (try unfold boundary); refine ⟨?_, ?_, ?_⟩ <;> decide
end HeadStops

namespace Consistency
/-- The states that the witnesses use. -/
def states : List State := [reset] ++ [0,1,131].flatMap fun n => [st (fun d => clk ((hd n (fun x => { x with adm := .running, consAt := some 3, last := some 1, cur := some 1 }) d).wrN (pgFn n 0) Reg.HF_NEG_LO 0xFFFFFFFF)), st (fun d => clk ((hd n (fun x => { x with adm := .running, consAt := some 3, last := some 1, cur := some 1 }) d).wrN (pgHD n) Reg.HD_MODE 1)) ]
def sample (k : Nat) : State := states.getD k State.reset
/-- Operands and states that meet the hypotheses of Consistency, clause by clause. -/
theorem witness_Consistency :
    (let h : Head := 0; let s : State := sample 0; let mode : BitVec 2 := 0; (mode.toNat = 0 ∨ mode.toNat = 1 ∧ bit (s.dev.feats ↑h) 1 = true))
    ∧ (let h : Head := 0; let s : State := sample 1; let c : Nat := 3; (s.dev.head ↑h).consAt = some c ∧ ((s.dev.head ↑h).adm = Adm.waiting ∨ (s.dev.head ↑h).adm = Adm.running)) := by
  (try unfold State.sound); (try unfold State.reaches); (try unfold boundary); refine ⟨?_, ?_⟩ <;> decide
end Consistency

namespace FrameStarts
/-- The states that the witnesses use. -/
def states : List State := [reset] ++ [0,1,131].flatMap fun n => [st (fun d => clk (hd n (fun x => { x with adm := .waiting, first := 4 }) d)), st (fun d => clk (hd n (fun x => { x with adm := .running, last := some 2, cur := some 2, lines := [lb 2 7 false], fin := (2,7), consAt := some 1, presents := [{ tag := 3, stamp := 4, regs := [] }] }) ((d.wrN (pgHD n) Reg.HD_MODE 1))))]
def sample (k : Nat) : State := states.getD k State.reset
/-- Operands and states that meet the hypotheses of FrameStarts, clause by clause. -/
theorem witness_FrameStarts :
    (let h : Head := 0; let s : State := sample 1; ((s.dev.head ↑h).adm = Adm.waiting ∨ (s.dev.head ↑h).adm = Adm.running) ∧ (s.dev.head ↑h).reserved = 0) := by
  (try unfold State.sound); (try unfold State.reaches); (try unfold boundary); decide
end FrameStarts

namespace ComposeLine
/-- The states that the witnesses use. -/
def states : List State := [reset] ++ [0,1,131].flatMap fun n => [st (fun d => clk (hd n (fun x => { x with adm := .waiting, eff := 4, next := (0,0) }) d)), st (fun d => clk (hd n (fun x => { x with adm := .running, eff := 4, last := some 2, cur := some 2, next := (2,7) }) d))]
def sample (k : Nat) : State := states.getD k State.reset
/-- Operands and states that meet the hypotheses of ComposeLine, clause by clause. -/
theorem witness_ComposeLine :
    (let h : Head := 0; let s : State := sample 1; s.dev.live ↑h = true ∧ (s.dev.head ↑h).reserved ≠ 1 ∧ (s.dev.head ↑h).lines.length < (s.dev.head ↑h).eff) := by
  (try unfold State.sound); (try unfold State.reaches); (try unfold boundary); decide
end ComposeLine

namespace LinesLeave
/-- The states that the witnesses use. -/
def states : List State := [reset] ++ [0,1,131].flatMap fun n => [st (fun d => clk (hd n (fun x => { x with adm := .running, eff := 4, last := some 2, cur := some 2, next := (3,0), fin := (2,7), lines := [lb 2 6 true, lb 2 7 false] }) d)), st (fun d => clk (hd n (fun x => { x with adm := .running, eff := 4, last := some 2, cur := some 2, next := (2,7), fin := (2,0), lines := [lb 2 0 false] }) d))]
def sample (k : Nat) : State := states.getD k State.reset
/-- Operands and states that meet the hypotheses of LinesLeave, clause by clause. -/
theorem witness_LinesLeave :
    (let h : Head := 0; let s : State := sample 1; let f : Nat := 2; let l : Nat := 7; s.sound ∧ ((s.dev.head ↑h).fin = (f, l)) ∧ (s.dev.head ↑h).cur = some f ∧ (((s.dev.head ↑h).lines.any fun b => decide (b.frame = f ∧ b.line = l)) = true))
    ∧ (let h : Head := 0; let s : State := sample 1; let b : LineBuf := { frame := 2, line := 6, pixels := [1], regs := [], badges := [], final := true }; let rest : List LineBuf := [{ frame := 2, line := 7, pixels := [1], regs := [], badges := [], final := false }]; s.sound ∧ (s.dev.head ↑h).lines = b :: rest ∧ b.final = true) := by
  (try unfold State.sound); (try unfold State.reaches); (try unfold boundary); refine ⟨?_, ?_⟩ <;> decide
end LinesLeave

namespace MissedLines
/-- The states that the witnesses use. -/
def states : List State := [reset] ++ [0,1,127,128,131].flatMap fun n => [st (fun d => clk (hd n (fun x => { x with adm := .running, eff := 4, last := some 2, cur := some 2, next := (3,0), fin := (2,7), lines := [lb 2 6 true, lb 3 0 false], written := 6 }) d)), st (fun d => clk (hd n (fun x => { x with adm := .running, eff := 4, last := some 2, cur := some 2, next := (2,7), fin := (2,0), lines := [], written := 8 }) d))]
def sample (k : Nat) : State := states.getD k State.reset
/-- Operands and states that meet the hypotheses of MissedLines, clause by clause. -/
theorem witness_MissedLines :
    (let h : VHead := 0; let s : State := sample 1; let f : Nat := 2; let l : Nat := 7; ((s.dev.head ↑h).fin = (f, l)) ∧ (s.dev.head ↑h).cur = some f ∧ l < s.dev.vactive ↑h ∧ (((s.dev.head ↑h).lines.any fun b => decide (b.frame = f ∧ b.line = l)) = false))
    ∧ (let k : PHead := 0; let s : State := sample 7; let f : Nat := 2; s.sound ∧ (s.dev.head (128 + ↑k)).cur = some f ∧ (s.dev.head (128 + ↑k)).written ≠ s.dev.vactive (128 + ↑k)) := by
  (try unfold State.sound); (try unfold State.reaches); (try unfold boundary); refine ⟨?_, ?_⟩ <;> decide
end MissedLines

namespace AluTriggers
def sE (f : Engine → Engine) : State := st (fun d => ([0,1,31] : List Nat).foldl (fun d e => d.onEng e f) d)
/-- The states that the witnesses use. -/
def states : List State := [reset, sE (fun x => { x with op0 := 5, op1 := 0x80000001, res0 := 9, res1 := 8, ready := 50, p1 := true, ldata := 77 }), sE (fun x => { x with st := .running, op0 := 0xFFFFFFFF, op1 := 33, stallAt := some 3, ready := 20 })]
def sample (k : Nat) : State := states.getD k State.reset
/-- Operands and states that meet the hypotheses of AluTriggers, clause by clause. -/
theorem witness_AluTriggers :
    (let s : State := sample 0; s.sound) := by
  (try unfold State.sound); (try unfold State.reaches); (try unfold boundary); decide
end AluTriggers

namespace MultiplyConstantRaise
def sE (f : Engine → Engine) : State := st (fun d => ([0,1,31] : List Nat).foldl (fun d e => d.onEng e f) d)
/-- The states that the witnesses use. -/
def states : List State := [reset, sE (fun x => { x with mop := 5, macc := 0x80000001, mres := 9, khi := 0x12345678, ready := 50 }), sE (fun x => { x with st := .running, mop := 0xFFFFFFFF, flights := [(1, .mul 7)], macAt := some (3, 4), stallAt := some 3, ready := 20 })
  , sE (fun x => { x with flights := [(1, .mul 7), (2, .mac 8), (3, .load 5)], ready := 3 })]
def sample (k : Nat) : State := states.getD k State.reset
/-- Operands and states that meet the hypotheses of MultiplyConstantRaise, clause by clause. -/
theorem witness_MultiplyConstantRaise :
    (let s : State := sample 0; s.sound) := by
  (try unfold State.sound); (try unfold State.reaches); (try unfold boundary); decide
end MultiplyConstantRaise

namespace LoadsAndStores
def sE (f : Engine → Engine) : State := st (fun d => putB [0x81,2,0xF3,4,0x85,6,7] (dataBase 1) (([0,1,31] : List Nat).foldl (fun d e => d.onEng e f) d))
/-- The states that the witnesses use. -/
def states : List State := [reset, sE (fun x => { x with ldata := 0xA1B2C3D4, lres := 4, ready := 50 }), sE (fun x => { x with st := .running, flights := [(1, .load 7)], storeAt := 30, storeDone := 32 , ldata := 0xFFFFFFFF, stallAt := some 3, ready := 20 }), sE (fun x => { x with flights := [(1, .load 7), (2, .mul 5)], ready := 2, shared := [{ trig := 1, phys := storeBase, view := 0, len := 4, bytes := [], load := some (4, false), part := 0, drop := false }] })]
def sample (k : Nat) : State := states.getD k State.reset
/-- Operands and states that meet the hypotheses of LoadsAndStores, clause by clause. -/
theorem witness_LoadsAndStores :
    (let e : Le := 0; let t : Word := 0; let s : State := sample 0; s.sound ∧ (s.dev.eng ↑e).str = none ∧ BitVec.toNat t + 1 ≤ 32768)
    ∧ (let e : Le := 0; let t : Word := 0; let s : State := sample 0; s.sound ∧ (s.dev.eng ↑e).str = none ∧ BitVec.toNat t + 2 ≤ 32768)
    ∧ (let e : Le := 0; let t : Word := 0; let s : State := sample 0; s.sound ∧ (s.dev.eng ↑e).str = none ∧ BitVec.toNat t + 4 ≤ 32768) := by
  (try unfold State.sound); (try unfold State.reaches); (try unfold boundary); refine ⟨?_, ?_, ?_⟩ <;> decide
end LoadsAndStores

namespace SharedAccesses
def sE (f : Engine → Engine) : State := st (fun d => putB [0x81,2,0xF3,4,0x85,6,7] storeBase (([0,1,31] : List Nat).foldl (fun d e => d.onEng e f) d))
def lo (n : Nat) (sx : Bool) : Shared := { trig := 5, phys := storeBase, view := 0, len := n, bytes := [], load := some (n, sx), part := 0, drop := false }
def so (n v : Nat) : Shared := { trig := 5, phys := storeBase+1, view := v, len := n, bytes := List.replicate n 0x0F, load := none, part := 0, drop := false }
/-- The states that the witnesses use. -/
def states : List State := [reset, sE (fun x => { x with shared := [lo 4 false] }), sE (fun x => { x with shared := [lo 1 true, lo 2 false], st := .running }), sE (fun x => { x with shared := [so 1 0, lo 2 false] }), sE (fun x => { x with shared := [so 3 1], st := .running, stallAt := some 2 }), sE (fun x => { x with shared := [so 3 2], st := .running, stallAt := some 2 }), sE (fun x => { x with st := .running, stallAt := some 2, syncAt := some 3, cache := [(0x18000000, List.replicate 64 0)], ready := 40 }), sE (fun x => { x with hreg := [(3, 0, 0x800, 4)], stallAt := some 2 })
 , st (fun d => (d.onEng 1 (fun x => { x with shared := [so 1 0], syncAt := some 4, stallAt := some 7, st := .running })).wrB (pgLE 1) Reg.LE_CTL 2 true)]
def sample (k : Nat) : State := states.getD k State.reset
/-- Operands and states that meet the hypotheses of SharedAccesses, clause by clause. -/
theorem witness_SharedAccesses :
    (let e : Le := 0; let s : State := sample 1; let w : Shared := { trig := 5, phys := 2281701376, view := 0, len := 4, bytes := [], load := some (4, false), part := 0, drop := false }; let rest : List Shared := []; let n : Nat := 4; let sx : Bool := false; s.sound ∧ (s.dev.eng ↑e).shared = w :: rest ∧ (w.load = some (n, sx)) ∧ w.part = 0 ∧ w.drop = false ∧ w.bytes = [])
    ∧ (let e : Le := 0; let s : State := sample 3; let w : Shared := { trig := 5, phys := 2281701377, view := 0, len := 1, bytes := [0xF], load := none, part := 0, drop := false }; let rest : List Shared := [{ trig := 5, phys := 2281701376, view := 0, len := 2, bytes := [], load := some (2, false), part := 0, drop := false }]; s.sound ∧ (s.dev.eng ↑e).shared = w :: rest ∧ w.load = none ∧ s.dev.writable w.phys = true ∧ w.bytes.length = w.len)
    ∧ (let e : Le := 0; let s : State := sample 0; s.sound ∧ (s.dev.eng ↑e).shared = [])
    ∧ (let e : Le := 0; let s : State := sample 1; s.sound ∧ (s.dev.eng ↑e).shared ≠ [])
    ∧ (let e : Le := 0; let s : State := sample 0; s.sound ∧ (s.dev.eng ↑e).quiet = true)
    ∧ (let e : Le := 0; let s : State := sample 1; s.sound ∧ (s.dev.eng ↑e).quiet = false) := by
  (try unfold State.sound); (try unfold State.reaches); (try unfold boundary); refine ⟨?_, ?_, ?_, ?_, ?_, ?_⟩ <;> decide
end SharedAccesses

namespace Branches
def sE (pc : Nat) (f : Engine → Engine) : State := st (fun d => (([0,1,31] : List Nat).foldl (fun d e => (d.onEng e f).wrN (pgLE e) Reg.LE_PC pc) d))
/-- The states that the witnesses use. -/
def states : List State := [reset, sE 0x10000 (fun x => { x with blink := 0x10047, st := .running, lpCount := 4 }), sE 0x13FFC id, sE 0x18000000 (fun x => { x with evIn := true, epc := 0x10009, evPred := 5 }), sE 0x1807FFF0 (fun x => { x with stallAt := some 3, ready := 8 , lpCount := 1 , g := List.replicate 32 7 }), sE 0x10002 (fun x => {x with lbufOn := true, lbuf := [(3,4)]})
  , st (fun d => ([0,1,31] : List Nat).foldl (fun d e => (((d.onEng e (fun x => { x with st := .running })).wrN (pgLE e) Reg.LE_FAULT (0x80000002)).wrB (pgLE e) Reg.LE_CTL 0 true)) d)]
def sample (k : Nat) : State := states.getD k State.reset
/-- Operands and states that meet the hypotheses of Branches, clause by clause. -/
theorem witness_Branches :
    (let s : State := sample 0; s.sound)
    ∧ (let e : Le := 0; let t : Word := 1; let s : State := sample 0; s.sound ∧ loopOk (BitVec.toNat (s.dev.rd (pgLE ↑e) Reg.LE_PC)) (BitVec.toNat t) = true ∧ 65536 ≤ BitVec.toNat (s.dev.rd (pgLE ↑e) Reg.LE_PC) ∧ BitVec.toNat (s.dev.rd (pgLE ↑e) Reg.LE_PC) % 4 = 0 ∧ (BitVec.toNat (s.dev.rd (pgLE ↑e) Reg.LE_PC) < 81920 ∨ 402653184 ≤ BitVec.toNat (s.dev.rd (pgLE ↑e) Reg.LE_PC)))
    ∧ (let e : Le := 0; let t : Word := 0; let s : State := sample 0; s.sound ∧ loopOk (BitVec.toNat (s.dev.rd (pgLE ↑e) Reg.LE_PC)) (BitVec.toNat t) = false)
    ∧ (let e : Le := 0; let s : State := sample 3; s.sound ∧ (s.dev.eng ↑e).evIn = true)
    ∧ (let e : Le := 0; let s : State := sample 0; s.sound ∧ (s.dev.eng ↑e).evIn = false) := by
  (try unfold State.sound); (try unfold State.reaches); (try unfold boundary); refine ⟨?_, ?_, ?_, ?_, ?_⟩ <;> decide
end Branches

namespace Strings
def sE (f : Engine → Engine) : State := st (fun d => putB [0x81,2,0xF3,4,0x85,6,7] (dataBase 1) (([0,1,31] : List Nat).foldl (fun d e => d.onEng e f) d))
def so (f dn : Bool) (v : Word) : StrOp := { fill := f, down := dn, val := v, trig := 4, pc := 0x10000, iword := 0, moveB := false, zeroAtEnd := false, moved := 0 }
/-- The states that the witnesses use. -/
def states : List State := [reset, sE (fun x => { x with stLen := 5, stSrc := 1, stDst := 0x100 }), sE (fun x => { x with stLen := 7, stDst := 0x7FF9, str := some (so true false 0x12345678), st := .running }),
 sE (fun x => { x with stLen := 7, stDst := 0x7FF9, str := some (so false false 1) }), sE (fun x => { x with stLen := 7, stSrc := 2, stDst := 1, str := some (so false false 1) }), sE (fun x => { x with stLen := 5, stSrc := 0, stDst := 5, str := some (so false false 0), st := .running })
 , sE (fun x => { x with stLen := 5, stSrc := 0, stDst := 0x8000, str := some (so true false 0), st := .running })
 , sE (fun x => { x with stLen := 0, stSrc := 0, stDst := 0x8000, str := some (so true false 0), st := .running })
 , sE (fun x => { x with stLen := 0, stSrc := 0, stDst := 0x800, str := some (so false false 0), st := .halted })
 , sE (fun x => { x with stLen := 5, stSrc := 0, stDst := 0x10000, str := some (so true false 0), st := .running })
 , st (fun d => ([0,1,31] : List Nat).foldl (fun d e => (d.onEng e (fun x => { x with stLen := 5, stSrc := 0, stDst := 0x8000, str := some (so true false 0), st := .running })).wrN (pgLE e) Reg.LE_CTL 1) d)]
def sample (k : Nat) : State := states.getD k State.reset
/-- Operands and states that meet the hypotheses of Strings, clause by clause. -/
theorem witness_Strings :
    (let e : Le := 0; let s : State := sample 1; s.sound ∧ (s.dev.eng ↑e).str = none ∧ (s.dev.eng ↑e).stLen ≠ 0)
    ∧ (let e : Le := 0; let s : State := sample 0; s.sound ∧ (s.dev.eng ↑e).str = none ∧ (s.dev.eng ↑e).stLen = 0)
    ∧ (let e : Le := 0; let s : State := sample 2; let o : StrOp := { fill := true, down := false, val := 0x12345678, trig := 4, pc := 65536, iword := 0, moveB := false, zeroAtEnd := false, moved := 0 }; s.sound ∧ (s.dev.eng ↑e).str = some o ∧ o.down = false ∧ o.zeroAtEnd = false ∧ BitVec.toNat (s.dev.eng ↑e).stDst + BitVec.toNat (s.dev.eng ↑e).stLen ≤ 32768 ∧ o.fill = true)
    ∧ (let e : Le := 0; let s : State := sample 3; let o : StrOp := { fill := false, down := false, val := 1, trig := 4, pc := 65536, iword := 0, moveB := false, zeroAtEnd := false, moved := 0 }; s.sound ∧ (s.dev.eng ↑e).str = some o ∧ o.down = false ∧ o.zeroAtEnd = false ∧ BitVec.toNat (s.dev.eng ↑e).stDst + BitVec.toNat (s.dev.eng ↑e).stLen ≤ 32768 ∧ o.fill = false ∧ BitVec.toNat (s.dev.eng ↑e).stSrc + BitVec.toNat (s.dev.eng ↑e).stLen ≤ 32768 ∧ (BitVec.toNat (s.dev.eng ↑e).stDst ≤ BitVec.toNat (s.dev.eng ↑e).stSrc ∨ BitVec.toNat (s.dev.eng ↑e).stSrc + BitVec.toNat (s.dev.eng ↑e).stLen ≤ BitVec.toNat (s.dev.eng ↑e).stDst))
    ∧ (let e : Le := 0; let s : State := sample 10; let o : StrOp := { fill := true, down := false, val := 0, trig := 4, pc := 65536, iword := 0, moveB := false, zeroAtEnd := false, moved := 0 }; s.sound ∧ (s.dev.eng ↑e).str = some o ∧ o.down = false ∧ o.fill = true ∧ (s.dev.eng ↑e).stLen ≠ 0 ∧ (s.dev.eng ↑e).st = LeState.running ∧ (((((s.dev.begin.strRun (↑e) (BitVec.toNat (s.dev.eng ↑e).stLen)).fst.trySync ↑e).toCyc (((s.dev.begin.strRun (↑e) (BitVec.toNat (s.dev.eng ↑e).stLen)).fst.trySync ↑e).eng ↑e).ready).settle ↑e).prefetch ↑e).swapDue ↑e = none ∧ (((((s.dev.begin.strRun (↑e) (BitVec.toNat (s.dev.eng ↑e).stLen)).fst.trySync ↑e).toCyc (((s.dev.begin.strRun (↑e) (BitVec.toNat (s.dev.eng ↑e).stLen)).fst.trySync ↑e).eng ↑e).ready).settle ↑e).prefetch ↑e).heldUp ↑e = false ∧ s.dev.rdB (pgLE ↑e) Reg.LE_CTL 0 = true ∧ (s.dev.eng ↑e).haltReq = none ∧ s.dev.place (↑e) (BitVec.toNat (s.dev.eng ↑e).stDst) = none) := by
  (try unfold State.sound); (try unfold State.reaches); (try unfold boundary); refine ⟨?_, ?_, ?_, ?_, ?_⟩ <;> decide
end Strings

namespace WaitsAndHeadWrites
def sE (f : Engine → Engine) : State := st (fun d => (([0,1,31] : List Nat).foldl (fun d e => (d.onEng e f).wrN (pgLE e) Reg.LE_HEADS 3) (clk (hd 0 (fun x => { x with adm := .running, last := some 2, cur := some 2 }) (tim 1 d)))))
/-- The states that the witnesses use. -/
def states : List State := [reset, sE id, sE (fun x => { x with st := .running, bmHead := 1, hrSel := 0x80010200, stallAt := some 3 }), sE (fun x => { x with hrSel := 0x00000038, wait := some { head := 0, line := 4, slot := 1, c := 0, fresh := false, row := true } }),
  sE (fun x => { x with hrSel := 0x00010040, hreg := [(3, 0, 0x800, 4), (9, 1, 0xFFC, 4)] , st := .running }), sE (fun x => { x with hreg := [(3, 0, 0x070, 4), (9, 1, 0xFFC, 4)] , st := .running })]
def w0 : WaitOp := { head := 0, line := 4, slot := 1, c := 0, fresh := false, row := true }
def sample (k : Nat) : State := states.getD k State.reset
/-- Operands and states that meet the hypotheses of WaitsAndHeadWrites, clause by clause. -/
theorem witness_WaitsAndHeadWrites :
    (let e : Le := 0; let v : Word := 0; let s : State := sample 1; s.sound ∧ field (s.dev.eng ↑e).bmHead 7 0 ≤ 131 ∧ field v 11 0 < s.dev.vtotal (field (s.dev.eng ↑e).bmHead 7 0) ∧ (s.dev.toCyc (s.dev.eng ↑e).ready).waitDue ((s.dev.toCyc (s.dev.eng ↑e).ready).waitOf (↑e) 115 v true) = true)
    ∧ (let e : Le := 0; let v : Word := 0; let s : State := sample 0; s.sound ∧ field (s.dev.eng ↑e).bmHead 7 0 ≤ 131 ∧ field v 11 0 < s.dev.vtotal (field (s.dev.eng ↑e).bmHead 7 0) ∧ (s.dev.toCyc (s.dev.eng ↑e).ready).waitDue ((s.dev.toCyc (s.dev.eng ↑e).ready).waitOf (↑e) 115 v true) = false)
    ∧ (let e : Le := 0; let v : Word := 0; let s : State := sample 1; s.sound ∧ field (s.dev.eng ↑e).bmHead 7 0 ≤ 131 ∧ field v 11 0 < s.dev.vtotal (field (s.dev.eng ↑e).bmHead 7 0) ∧ field v 27 16 < s.dev.htotal (field (s.dev.eng ↑e).bmHead 7 0) ∧ (s.dev.toCyc (s.dev.eng ↑e).ready).waitDue ((s.dev.toCyc (s.dev.eng ↑e).ready).waitOf (↑e) 116 v true) = true)
    ∧ (let e : Le := 0; let v : Word := 0; let s : State := sample 0; s.sound ∧ field (s.dev.eng ↑e).bmHead 7 0 ≤ 131 ∧ field v 11 0 < s.dev.vtotal (field (s.dev.eng ↑e).bmHead 7 0) ∧ field v 27 16 < s.dev.htotal (field (s.dev.eng ↑e).bmHead 7 0) ∧ (s.dev.toCyc (s.dev.eng ↑e).ready).waitDue ((s.dev.toCyc (s.dev.eng ↑e).ready).waitOf (↑e) 116 v true) = false)
    ∧ (let e : Le := 0; let s : State := sample 3; let w : WaitOp := { head := 0, line := 4, slot := 1, c := 0, fresh := false, row := true }; let c : Nat := 28707680; s.sound ∧ (s.dev.eng ↑e).wait = some w ∧ w.row = true ∧ s.dev.waitTarget w = some c)
    ∧ (let e : Le := 0; let s : State := sample 2; s.sound ∧ (s.dev.eng ↑e).hreg.length < 4 ∧ s.dev.hregOk (↑e) (field (s.dev.eng ↑e).hrSel 23 16) (4 * field (s.dev.eng ↑e).hrSel 9 0) = true)
    ∧ (let e : Le := 0; let s : State := sample 1; let w : BitVec 10 := 0x1C; s.sound ∧ (s.dev.eng ↑e).hreg.length < 4 ∧ s.dev.hregOk (↑e) (field (s.dev.eng ↑e).hrSel 23 16) (4 * w.toNat) = true)
    ∧ (let e : Le := 1; let s : State := sample 4; s.sound ∧ s.dev.hregYields ↑e = true)
    ∧ (let e : Le := 0; let s : State := sample 4; let c : Nat := 3; let h : Nat := 0; let off : Nat := 2048; let u : Word := 4; let rest : List (Nat × Nat × Nat × Word) := [(9, 1, 4092, 4)]; s.sound ∧ ((s.dev.eng ↑e).hreg = (c, h, off, u) :: rest) ∧ s.dev.hregYields ↑e = false ∧ 2048 ≤ off ∧ off ≤ 4092) := by
  (try unfold State.sound); (try unfold State.reaches); (try unfold boundary); refine ⟨?_, ?_, ?_, ?_, ?_, ?_, ?_, ?_, ?_⟩ <;> decide
end WaitsAndHeadWrites

namespace Instruction
def sE (s : LeState) (k i : Nat) (f : Engine → Engine) : State := st (fun d => md 3 (([0,1,31] : List Nat).foldl (fun d e => ((putB ((leBytes 4 (0x40000000 + k * 65536 + i))) (progBase e) (d.onEng e (fun x => f { x with st := s, fpc := 0x10000 }))).wrN (pgLE e) Reg.LE_CTL 5).wrN (pgLE e) Reg.LE_PC 0x10000) d))
/-- The states that the witnesses use. -/
def states : List State := [reset, sE .running 0 7 id, sE .running 31 0xFFFF id, sE .halted 1 0x8001 id, sE .running 1 1 (fun x => { x with missing := some (0x18000040, 4), ready := 7, useHeld := true }), sE .running 1 0 (fun x => { x with stallAt := some 0, ready := 77, stepping := true , flights := [(1, .mul 3)]}), sE .halted 1 0 (fun x => { x with stallAt := some 0, ready := 77, flights := [(1, .mul 3)]}), sE .running 1 0 (fun x => { x with stallAt := some 0, ready := 77, flights := [(1, .mul 3)]})
 , st (fun d => d.onEng 1 (fun x => { x with missing := some (0x18000000, 0) }))]
def sample (k : Nat) : State := states.getD k State.reset
/-- Operands and states that meet the hypotheses of Instruction, clause by clause. -/
theorem witness_Instruction :
    (let e : Le := 0; let k : Nat := 0; let i : Nat := 7; let s : State := sample 1; s.sound ∧ k < 32 ∧ i < 65536 ∧ ((s.dev.eng ↑e).syncAt = none ∧ (s.dev.eng ↑e).wait = none ∧ (s.dev.eng ↑e).haltReq = none ∧ (s.dev.eng ↑e).epend = 0 ∧ (s.dev.eng ↑e).lbufOn = false ∧ (s.dev.eng ↑e).stale = [] ∧ (s.dev.eng ↑e).btb = [] ∧ (s.dev.eng ↑e).lpPrev = none ∧ (s.dev.eng ↑e).lpCount = 0 ∧ (s.dev.eng ↑e).shared = [] ∧ (s.dev.eng ↑e).str = none ∧ (s.dev.eng ↑e).invalReq = false ∧ s.dev.rdB (pgLE ↑e) Reg.LE_CTL 0 = true ∧ s.dev.rdB (pgLE ↑e) Reg.LE_CTL 2 = true ∧ s.dev.rdB (pgLE ↑e) Reg.LE_SWAP_CTL 8 = false ∧ field (s.dev.rd (pgLE ↑e) Reg.LE_DBG) 7 0 = 0 ∧ 65536 ≤ s.dev.rdN (pgLE ↑e) Reg.LE_PC ∧ s.dev.rdN (pgLE ↑e) Reg.LE_PC < 81916 ∧ s.dev.rdN (pgLE ↑e) Reg.LE_PC % 4 = 0 ∧ s.dev.num (progBase ↑e + (s.dev.rdN (pgLE ↑e) Reg.LE_PC - 65536)) 4 = 1073741824 + k * 65536 + i) ∧ (s.dev.eng ↑e).st = LeState.running ∧ (s.dev.eng ↑e).stepping = false ∧ (s.dev.eng ↑e).fq = [] ∧ (s.dev.eng ↑e).fpc = s.dev.rdN (pgLE ↑e) Reg.LE_PC ∧ (s.dev.eng ↑e).missing = none ∧ (s.dev.eng ↑e).fcyc ≤ s.dev.cyc ∧ (s.dev.eng ↑e).halfAt ≤ s.dev.cyc)
    ∧ (let e : Le := 0; let k : Nat := 1; let i : Nat := 0; let s : State := sample 6; let r : Req := Req.hart 0; s.sound ∧ k < 32 ∧ i < 65536 ∧ s.reaches r ∧ ((s.dev.eng ↑e).syncAt = none ∧ (s.dev.eng ↑e).wait = none ∧ (s.dev.eng ↑e).haltReq = none ∧ (s.dev.eng ↑e).epend = 0 ∧ (s.dev.eng ↑e).lbufOn = false ∧ (s.dev.eng ↑e).stale = [] ∧ (s.dev.eng ↑e).btb = [] ∧ (s.dev.eng ↑e).lpPrev = none ∧ (s.dev.eng ↑e).lpCount = 0 ∧ (s.dev.eng ↑e).shared = [] ∧ (s.dev.eng ↑e).str = none ∧ (s.dev.eng ↑e).invalReq = false ∧ s.dev.rdB (pgLE ↑e) Reg.LE_CTL 0 = true ∧ s.dev.rdB (pgLE ↑e) Reg.LE_CTL 2 = true ∧ s.dev.rdB (pgLE ↑e) Reg.LE_SWAP_CTL 8 = false ∧ field (s.dev.rd (pgLE ↑e) Reg.LE_DBG) 7 0 = 0 ∧ 65536 ≤ s.dev.rdN (pgLE ↑e) Reg.LE_PC ∧ s.dev.rdN (pgLE ↑e) Reg.LE_PC < 81916 ∧ s.dev.rdN (pgLE ↑e) Reg.LE_PC % 4 = 0 ∧ s.dev.num (progBase ↑e + (s.dev.rdN (pgLE ↑e) Reg.LE_PC - 65536)) 4 = 1073741824 + k * 65536 + i) ∧ (s.dev.eng ↑e).st = LeState.halted ∧ s.dev.frozen (pgLE ↑e) = false ∧ (s.dev.eng ↑e).halfAt ≤ s.dev.cyc)
    ∧ (let e : Le := 0; let k : Nat := 0; let i : Nat := 0; let s : State := sample 4; let line : Nat := 402653248; let c : Nat := 4; s.sound ∧ k < 32 ∧ i < 65536 ∧ ((s.dev.eng ↑e).missing = some (line, c))) := by
  (try unfold State.sound); (try unfold State.reaches); (try unfold boundary); refine ⟨?_, ?_, ?_⟩ <;> decide
end Instruction

namespace EventsAndSwaps
def sE (ctl : Nat) (f : Engine → Engine) : State := st (fun d => md 3 (([0,1,31] : List Nat).foldl (fun d e => (((((d.onEng e f).wrN (pgLE e) Reg.LE_EVLINE 2).wrN (pgLE e) Reg.LE_CTL 1).wrN (pgLE e) Reg.LE_SWAP_CTL ctl).wrN (pgLE e) Reg.LE_SWAP_ENTRY 0x10040).wrN (pgLE e) Reg.LE_PC 0x10004 |>.wrN (pgLE e) Reg.LE_EVVEC 0x10080) (clk (hd 0 (fun x => { x with adm := .running, last := some 2, cur := some 2 }) d))))
/-- The states that the witnesses use. -/
def states : List State := [reset, sE 0 id, sE 0 (fun x => { x with st := .running, emask := 3, epend := 2, p1 := true, p3 := true, g := List.replicate 32 5 }), sE 0x100 (fun x => { x with st := .running, g := List.replicate 32 5, p1 := true }), sE 0x300 (fun x => { x with st := .running, g := List.replicate 32 5, wait := some { head := 0, line := 4, slot := 1, c := 0, fresh := false, row := true } })]
def sample (k : Nat) : State := states.getD k State.reset
/-- Operands and states that meet the hypotheses of EventsAndSwaps, clause by clause. -/
theorem witness_EventsAndSwaps :
    (let r : Req := Req.hart 0; let e : Le := 0; let s : State := sample 1; let f : Nat := 2; s.sound ∧ s.reaches r ∧ s.dev.rdF (pgLE ↑e) Reg.LE_EVLINE 23 16 ≤ 131 ∧ s.dev.rdF (pgLE ↑e) Reg.LE_EVLINE 11 0 < s.dev.vtotal (s.dev.rdF (pgLE ↑e) Reg.LE_EVLINE 23 16) ∧ s.dev.runs (s.dev.rdF (pgLE ↑e) Reg.LE_EVLINE 23 16) = true ∧ (s.dev.head (s.dev.rdF (pgLE ↑e) Reg.LE_EVLINE 23 16)).cur = some f ∧ ((s.dev.eng ↑e).lineAt ≠ some (s.dev.rdF (pgLE ↑e) Reg.LE_EVLINE 23 16, f)))
    ∧ (let r : Req := Req.hart 0; let s : State := sample 0; s.sound ∧ s.reaches r)
    ∧ (let r : Req := Req.hart 0; let e : Le := 0; let s : State := sample 2; s.sound ∧ s.reaches r ∧ (s.dev.eng ↑e).takeable = true ∧ (s.dev.eng ↑e).syncAt = none ∧ (s.dev.eng ↑e).haltReq = none ∧ (s.dev.eng ↑e).stepping = false ∧ s.dev.rdB (pgLE ↑e) Reg.LE_CTL 0 = true ∧ s.dev.rdB (pgLE ↑e) Reg.LE_SWAP_CTL 8 = false ∧ ((s.dev.eng ↑e).shared = [] ∧ (s.dev.eng ↑e).hreg = [] ∧ (s.dev.eng ↑e).str = none))
    ∧ (let r : Req := Req.hart 0; let e : Le := 0; let s : State := sample 0; s.sound ∧ s.reaches r ∧ s.dev.swapDue ↑e = none)
    ∧ (let r : Req := Req.hart 0; let e : Le := 0; let s : State := sample 3; let f : Nat := 2; s.sound ∧ s.reaches r ∧ s.dev.swapDue ↑e = some f) := by
  (try unfold State.sound); (try unfold State.reaches); (try unfold boundary); refine ⟨?_, ?_, ?_, ?_, ?_⟩ <;> decide
end EventsAndSwaps

namespace EngineControl
def sE (ctl : Nat) (f : Engine → Engine) : State := st (fun d => md 3 (([0,1,31] : List Nat).foldl (fun d e => (((((d.onEng e f).wrN (pgLE e) Reg.LE_CTL ctl).wrN (pgLE e) Reg.BLK_CTL 1).wrN (pgLE e) Reg.LE_ENTRY 0x10040).wrN (pgLE e) Reg.LE_PC 0x10004 )) (clk (hd 0 (fun x => { x with adm := .running, last := some 2, cur := some 2 }) d))))
/-- The states that the witnesses use. -/
def states : List State := [reset, sE 0 id, sE 1 (fun x => { x with st := .running }), sE 5 (fun x => { x with st := .halted, macc := 4, evIn := true }), sE 4 (fun x => { x with st := .faulted , g := List.replicate 32 5, str := some { fill := true, down := false, val := 0, trig := 4, pc := 0x10000, iword := 0, moveB := false, zeroAtEnd := false, moved := 0 }, stLen := 5 }), sE 1 (fun x => { x with st := .running, flights := [(1, .mul 3)], stallAt := some 4, lbufOn := true, lbuf := [(3,4)], cache := [(0x18000000, List.replicate 64 0)], wait := some { head := 0, line := 4, slot := 1, c := 0, fresh := false, row := true } }), sE 1 (fun x => { x with st := .running, shared := [{ trig := 5, phys := storeBase, view := 0, len := 4, bytes := [], load := some (4, false), part := 0, drop := false }] })]
def sample (k : Nat) : State := states.getD k State.reset
/-- Operands and states that meet the hypotheses of EngineControl, clause by clause. -/
theorem witness_EngineControl :
    (let r : Req := Req.hart 0; let e : Le := 0; let s : State := sample 0; s.sound ∧ s.reaches r ∧ (s.dev.eng ↑e).st = LeState.stopped ∧ s.dev.rdB (pgLE ↑e) Reg.BLK_CTL 0 = true ∧ s.dev.rdF (pgLE ↑e) Reg.LE_CTL 4 3 = 0 ∧ s.dev.rdB (pgLE ↑e) Reg.LE_CTL 0 = false ∧ s.dev.frozen (pgLE ↑e) = false)
    ∧ (let r : Req := Req.hart 0; let e : Le := 0; let s : State := sample 0; s.sound ∧ s.reaches r ∧ s.dev.rdF (pgLE ↑e) Reg.LE_CTL 4 3 = 0 ∧ boundary s.dev ↑e)
    ∧ (let r : Req := Req.hart 0; let e : Le := 0; let s : State := sample 0; s.sound ∧ s.reaches r ∧ s.dev.frozen (pgLE ↑e) = false)
    ∧ (let r : Req := Req.hart 0; let e : Le := 0; let s : State := sample 2; s.sound ∧ s.reaches r ∧ (s.dev.eng ↑e).st = LeState.running ∧ s.dev.rdB (pgLE ↑e) Reg.LE_CTL 0 = true ∧ boundary s.dev ↑e)
    ∧ (let r : Req := Req.hart 0; let e : Le := 0; let s : State := sample 3; s.sound ∧ s.reaches r ∧ ((s.dev.eng ↑e).st = LeState.halted ∨ (s.dev.eng ↑e).st = LeState.faulted) ∧ s.dev.rdB (pgLE ↑e) Reg.LE_DBG 0 = false ∧ s.dev.frozen (pgLE ↑e) = false)
    ∧ (let r : Req := Req.hart 0; let e : Le := 0; let s : State := sample 0; let k : BitVec 8 := 0; s.sound ∧ s.reaches r ∧ k.toNat < 32 ∧ (s.dev.eng ↑e).st ≠ LeState.running)
    ∧ (let r : Req := Req.hart 0; let e : Le := 0; let s : State := sample 2; let k : BitVec 8 := 0; s.sound ∧ s.reaches r ∧ k.toNat < 32 ∧ (s.dev.eng ↑e).st = LeState.running) := by
  (try unfold State.sound); (try unfold State.reaches); (try unfold boundary); refine ⟨?_, ?_, ?_, ?_, ?_, ?_, ?_⟩ <;> decide
end EngineControl

namespace Encoding
def ln (k : Nat) : LineBuf := { frame := 3, line := k, pixels := (List.range 64).map (fun i => word (i*k*77)), regs := [], badges := [], final := true }
def fr (n : Nat) : EncFrame := { num := n, start := 0, bank := 0, epoch := 0, key := true, fence := false, wd := 64, ht := 8, s0 := 0, s1 := 0, surf := 0, lines := (List.range 8).map ln, coded := none, backlog := 0 }
def cd0 : Coded := { tiles := [(0, none)], keyTiles := none, copies := [], cellRecs := [], keyCells := [], flags := 0, hashes := [], lines := [], cell := false, layer := [], palette := [] }
def enc (n : Nat) (d : Dev) : Dev := clk (hd n (fun x => { x with adm := .running, cur := some 3, last := some 3, region := 2, granted := true, glyphDirty := 5 }) ((d.wrN (pgHD n) Reg.HD_MODE 1).wrN (pgHD n) 0x800 1))
def fs (l : List EncFrame) (n : Nat) (d : Dev) : Dev := (enc n d).onHead n (fun x => { x with frames := l })
/-- The states that the witnesses use. -/
def states : List State := [reset] ++ [0,1,127].flatMap fun n => [st (fs [fr 3] n), st (fs [fr 3, fr 4] n), st (fs [{fr 3 with key := false, fence := true}] n), st (fs [{fr 3 with coded := some cd0, backlog := 512}, fr 4] n), st (fun d => ((fs [{fr 3 with coded := some cd0, backlog := 512}] n d).wrN pgENC Reg.ENC_BACKLOG 512).wrN pgENC Reg.ENC_ABORT_LVL 100)
 , st (fun d => ((fs [{fr 3 with backlog := 0}, fr 4] n d).wrN pgENC Reg.ENC_BACKLOG 512).wrN pgENC Reg.ENC_ABORT_LVL 100)
 , st (fun d => { (fs [{fr 3 with coded := some cd0, backlog := 512}] n d) with enc := { mirrors := [(4, some { head := n, ack := 0, needKey := true, needAt := 0, chip := none, sess := 4, snd := 0, evict := [], reset := false })] } })]
def sample (k : Nat) : State := states.getD k State.reset
/-- Operands and states that meet the hypotheses of Encoding, clause by clause. -/
theorem witness_Encoding :
    (let h : VHead := 0; let s : State := sample 1; let e : EncFrame := { num := 3, start := 0, bank := 0, epoch := 0, key := true, fence := false, wd := 64, ht := 8, s0 := 0, s1 := 0, surf := 0, lines := [{ frame := 3, line := 0, pixels := [0, 0, 0, 0, 0, 0, 0, 0, 0, 0, 0, 0, 0, 0, 0, 0, 0, 0, 0, 0, 0, 0, 0, 0, 0, 0, 0, 0, 0, 0, 0, 0, 0, 0, 0, 0, 0, 0, 0, 0, 0, 0, 0, 0, 0, 0, 0, 0, 0, 0, 0, 0, 0, 0, 0, 0, 0, 0, 0, 0, 0, 0, 0, 0], regs := [], badges := [], final := true }, { frame := 3, line := 1, pixels := [0, 0x4D, 0x9A, 0xE7, 0x134, 0x181, 0x1CE, 0x21B, 0x268, 0x2B5, 0x302, 0x34F, 0x39C, 0x3E9, 0x436, 0x483, 0x4D0, 0x51D, 0x56A, 0x5B7, 0x604, 0x651, 0x69E, 0x6EB, 0x738, 0x785, 0x7D2, 0x81F, 0x86C, 0x8B9, 0x906, 0x953, 0x9A0, 0x9ED, 0xA3A, 0xA87, 0xAD4, 0xB21, 0xB6E, 0xBBB, 0xC08, 0xC55, 0xCA2, 0xCEF, 0xD3C, 0xD89, 0xDD6, 0xE23, 0xE70, 0xEBD, 0xF0A, 0xF57, 0xFA4, 0xFF1, 0x103E, 0x108B, 0x10D8, 0x1125, 0x1172, 0x11BF, 0x120C, 0x1259, 0x12A6, 0x12F3], regs := [], badges := [], final := true }, { frame := 3, line := 2, pixels := [0, 0x9A, 0x134, 0x1CE, 0x268, 0x302, 0x39C, 0x436, 0x4D0, 0x56A, 0x604, 0x69E, 0x738, 0x7D2, 0x86C, 0x906, 0x9A0, 0xA3A, 0xAD4, 0xB6E, 0xC08, 0xCA2, 0xD3C, 0xDD6, 0xE70, 0xF0A, 0xFA4, 0x103E, 0x10D8, 0x1172, 0x120C, 0x12A6, 0x1340, 0x13DA, 0x1474, 0x150E, 0x15A8, 0x1642, 0x16DC, 0x1776, 0x1810, 0x18AA, 0x1944, 0x19DE, 0x1A78, 0x1B12, 0x1BAC, 0x1C46, 0x1CE0, 0x1D7A, 0x1E14, 0x1EAE, 0x1F48, 0x1FE2, 0x207C, 0x2116, 0x21B0, 0x224A, 0x22E4, 0x237E, 0x2418, 0x24B2, 0x254C, 0x25E6], regs := [], badges := [], final := true }, { frame := 3, line := 3, pixels := [0, 0xE7, 0x1CE, 0x2B5, 0x39C, 0x483, 0x56A, 0x651, 0x738, 0x81F, 0x906, 0x9ED, 0xAD4, 0xBBB, 0xCA2, 0xD89, 0xE70, 0xF57, 0x103E, 0x1125, 0x120C, 0x12F3, 0x13DA, 0x14C1, 0x15A8, 0x168F, 0x1776, 0x185D, 0x1944, 0x1A2B, 0x1B12, 0x1BF9, 0x1CE0, 0x1DC7, 0x1EAE, 0x1F95, 0x207C, 0x2163, 0x224A, 0x2331, 0x2418, 0x24FF, 0x25E6, 0x26CD, 0x27B4, 0x289B, 0x2982, 0x2A69, 0x2B50, 0x2C37, 0x2D1E, 0x2E05, 0x2EEC, 0x2FD3, 0x30BA, 0x31A1, 0x3288, 0x336F, 0x3456, 0x353D, 0x3624, 0x370B, 0x37F2, 0x38D9], regs := [], badges := [], final := true }, { frame := 3, line := 4, pixels := [0, 0x134, 0x268, 0x39C, 0x4D0, 0x604, 0x738, 0x86C, 0x9A0, 0xAD4, 0xC08, 0xD3C, 0xE70, 0xFA4, 0x10D8, 0x120C, 0x1340, 0x1474, 0x15A8, 0x16DC, 0x1810, 0x1944, 0x1A78, 0x1BAC, 0x1CE0, 0x1E14, 0x1F48, 0x207C, 0x21B0, 0x22E4, 0x2418, 0x254C, 0x2680, 0x27B4, 0x28E8, 0x2A1C, 0x2B50, 0x2C84, 0x2DB8, 0x2EEC, 0x3020, 0x3154, 0x3288, 0x33BC, 0x34F0, 0x3624, 0x3758, 0x388C, 0x39C0, 0x3AF4, 0x3C28, 0x3D5C, 0x3E90, 0x3FC4, 0x40F8, 0x422C, 0x4360, 0x4494, 0x45C8, 0x46FC, 0x4830, 0x4964, 0x4A98, 0x4BCC], regs := [], badges := [], final := true }, { frame := 3, line := 5, pixels := [0, 0x181, 0x302, 0x483, 0x604, 0x785, 0x906, 0xA87, 0xC08, 0xD89, 0xF0A, 0x108B, 0x120C, 0x138D, 0x150E, 0x168F, 0x1810, 0x1991, 0x1B12, 0x1C93, 0x1E14, 0x1F95, 0x2116, 0x2297, 0x2418, 0x2599, 0x271A, 0x289B, 0x2A1C, 0x2B9D, 0x2D1E, 0x2E9F, 0x3020, 0x31A1, 0x3322, 0x34A3, 0x3624, 0x37A5, 0x3926, 0x3AA7, 0x3C28, 0x3DA9, 0x3F2A, 0x40AB, 0x422C, 0x43AD, 0x452E, 0x46AF, 0x4830, 0x49B1, 0x4B32, 0x4CB3, 0x4E34, 0x4FB5, 0x5136, 0x52B7, 0x5438, 0x55B9, 0x573A, 0x58BB, 0x5A3C, 0x5BBD, 0x5D3E, 0x5EBF], regs := [], badges := [], final := true }, { frame := 3, line := 6, pixels := [0, 0x1CE, 0x39C, 0x56A, 0x738, 0x906, 0xAD4, 0xCA2, 0xE70, 0x103E, 0x120C, 0x13DA, 0x15A8, 0x1776, 0x1944, 0x1B12, 0x1CE0, 0x1EAE, 0x207C, 0x224A, 0x2418, 0x25E6, 0x27B4, 0x2982, 0x2B50, 0x2D1E, 0x2EEC, 0x30BA, 0x3288, 0x3456, 0x3624, 0x37F2, 0x39C0, 0x3B8E, 0x3D5C, 0x3F2A, 0x40F8, 0x42C6, 0x4494, 0x4662, 0x4830, 0x49FE, 0x4BCC, 0x4D9A, 0x4F68, 0x5136, 0x5304, 0x54D2, 0x56A0, 0x586E, 0x5A3C, 0x5C0A, 0x5DD8, 0x5FA6, 0x6174, 0x6342, 0x6510, 0x66DE, 0x68AC, 0x6A7A, 0x6C48, 0x6E16, 0x6FE4, 0x71B2], regs := [], badges := [], final := true }, { frame := 3, line := 7, pixels := [0, 0x21B, 0x436, 0x651, 0x86C, 0xA87, 0xCA2, 0xEBD, 0x10D8, 0x12F3, 0x150E, 0x1729, 0x1944, 0x1B5F, 0x1D7A, 0x1F95, 0x21B0, 0x23CB, 0x25E6, 0x2801, 0x2A1C, 0x2C37, 0x2E52, 0x306D, 0x3288, 0x34A3, 0x36BE, 0x38D9, 0x3AF4, 0x3D0F, 0x3F2A, 0x4145, 0x4360, 0x457B, 0x4796, 0x49B1, 0x4BCC, 0x4DE7, 0x5002, 0x521D, 0x5438, 0x5653, 0x586E, 0x5A89, 0x5CA4, 0x5EBF, 0x60DA, 0x62F5, 0x6510, 0x672B, 0x6946, 0x6B61, 0x6D7C, 0x6F97, 0x71B2, 0x73CD, 0x75E8, 0x7803, 0x7A1E, 0x7C39, 0x7E54, 0x806F, 0x828A, 0x84A5], regs := [], badges := [], final := true }], coded := none, backlog := 0 }; s.sound ∧ s.dev.nextToCode ↑h = some e ∧ s.dev.ram.poison = [])
    ∧ (let h : VHead := 0; let s : State := sample 4; let e : EncFrame := { num := 3, start := 0, bank := 0, epoch := 0, key := true, fence := false, wd := 64, ht := 8, s0 := 0, s1 := 0, surf := 0, lines := [{ frame := 3, line := 0, pixels := [0, 0, 0, 0, 0, 0, 0, 0, 0, 0, 0, 0, 0, 0, 0, 0, 0, 0, 0, 0, 0, 0, 0, 0, 0, 0, 0, 0, 0, 0, 0, 0, 0, 0, 0, 0, 0, 0, 0, 0, 0, 0, 0, 0, 0, 0, 0, 0, 0, 0, 0, 0, 0, 0, 0, 0, 0, 0, 0, 0, 0, 0, 0, 0], regs := [], badges := [], final := true }, { frame := 3, line := 1, pixels := [0, 0x4D, 0x9A, 0xE7, 0x134, 0x181, 0x1CE, 0x21B, 0x268, 0x2B5, 0x302, 0x34F, 0x39C, 0x3E9, 0x436, 0x483, 0x4D0, 0x51D, 0x56A, 0x5B7, 0x604, 0x651, 0x69E, 0x6EB, 0x738, 0x785, 0x7D2, 0x81F, 0x86C, 0x8B9, 0x906, 0x953, 0x9A0, 0x9ED, 0xA3A, 0xA87, 0xAD4, 0xB21, 0xB6E, 0xBBB, 0xC08, 0xC55, 0xCA2, 0xCEF, 0xD3C, 0xD89, 0xDD6, 0xE23, 0xE70, 0xEBD, 0xF0A, 0xF57, 0xFA4, 0xFF1, 0x103E, 0x108B, 0x10D8, 0x1125, 0x1172, 0x11BF, 0x120C, 0x1259, 0x12A6, 0x12F3], regs := [], badges := [], final := true }, { frame := 3, line := 2, pixels := [0, 0x9A, 0x134, 0x1CE, 0x268, 0x302, 0x39C, 0x436, 0x4D0, 0x56A, 0x604, 0x69E, 0x738, 0x7D2, 0x86C, 0x906, 0x9A0, 0xA3A, 0xAD4, 0xB6E, 0xC08, 0xCA2, 0xD3C, 0xDD6, 0xE70, 0xF0A, 0xFA4, 0x103E, 0x10D8, 0x1172, 0x120C, 0x12A6, 0x1340, 0x13DA, 0x1474, 0x150E, 0x15A8, 0x1642, 0x16DC, 0x1776, 0x1810, 0x18AA, 0x1944, 0x19DE, 0x1A78, 0x1B12, 0x1BAC, 0x1C46, 0x1CE0, 0x1D7A, 0x1E14, 0x1EAE, 0x1F48, 0x1FE2, 0x207C, 0x2116, 0x21B0, 0x224A, 0x22E4, 0x237E, 0x2418, 0x24B2, 0x254C, 0x25E6], regs := [], badges := [], final := true }, { frame := 3, line := 3, pixels := [0, 0xE7, 0x1CE, 0x2B5, 0x39C, 0x483, 0x56A, 0x651, 0x738, 0x81F, 0x906, 0x9ED, 0xAD4, 0xBBB, 0xCA2, 0xD89, 0xE70, 0xF57, 0x103E, 0x1125, 0x120C, 0x12F3, 0x13DA, 0x14C1, 0x15A8, 0x168F, 0x1776, 0x185D, 0x1944, 0x1A2B, 0x1B12, 0x1BF9, 0x1CE0, 0x1DC7, 0x1EAE, 0x1F95, 0x207C, 0x2163, 0x224A, 0x2331, 0x2418, 0x24FF, 0x25E6, 0x26CD, 0x27B4, 0x289B, 0x2982, 0x2A69, 0x2B50, 0x2C37, 0x2D1E, 0x2E05, 0x2EEC, 0x2FD3, 0x30BA, 0x31A1, 0x3288, 0x336F, 0x3456, 0x353D, 0x3624, 0x370B, 0x37F2, 0x38D9], regs := [], badges := [], final := true }, { frame := 3, line := 4, pixels := [0, 0x134, 0x268, 0x39C, 0x4D0, 0x604, 0x738, 0x86C, 0x9A0, 0xAD4, 0xC08, 0xD3C, 0xE70, 0xFA4, 0x10D8, 0x120C, 0x1340, 0x1474, 0x15A8, 0x16DC, 0x1810, 0x1944, 0x1A78, 0x1BAC, 0x1CE0, 0x1E14, 0x1F48, 0x207C, 0x21B0, 0x22E4, 0x2418, 0x254C, 0x2680, 0x27B4, 0x28E8, 0x2A1C, 0x2B50, 0x2C84, 0x2DB8, 0x2EEC, 0x3020, 0x3154, 0x3288, 0x33BC, 0x34F0, 0x3624, 0x3758, 0x388C, 0x39C0, 0x3AF4, 0x3C28, 0x3D5C, 0x3E90, 0x3FC4, 0x40F8, 0x422C, 0x4360, 0x4494, 0x45C8, 0x46FC, 0x4830, 0x4964, 0x4A98, 0x4BCC], regs := [], badges := [], final := true }, { frame := 3, line := 5, pixels := [0, 0x181, 0x302, 0x483, 0x604, 0x785, 0x906, 0xA87, 0xC08, 0xD89, 0xF0A, 0x108B, 0x120C, 0x138D, 0x150E, 0x168F, 0x1810, 0x1991, 0x1B12, 0x1C93, 0x1E14, 0x1F95, 0x2116, 0x2297, 0x2418, 0x2599, 0x271A, 0x289B, 0x2A1C, 0x2B9D, 0x2D1E, 0x2E9F, 0x3020, 0x31A1, 0x3322, 0x34A3, 0x3624, 0x37A5, 0x3926, 0x3AA7, 0x3C28, 0x3DA9, 0x3F2A, 0x40AB, 0x422C, 0x43AD, 0x452E, 0x46AF, 0x4830, 0x49B1, 0x4B32, 0x4CB3, 0x4E34, 0x4FB5, 0x5136, 0x52B7, 0x5438, 0x55B9, 0x573A, 0x58BB, 0x5A3C, 0x5BBD, 0x5D3E, 0x5EBF], regs := [], badges := [], final := true }, { frame := 3, line := 6, pixels := [0, 0x1CE, 0x39C, 0x56A, 0x738, 0x906, 0xAD4, 0xCA2, 0xE70, 0x103E, 0x120C, 0x13DA, 0x15A8, 0x1776, 0x1944, 0x1B12, 0x1CE0, 0x1EAE, 0x207C, 0x224A, 0x2418, 0x25E6, 0x27B4, 0x2982, 0x2B50, 0x2D1E, 0x2EEC, 0x30BA, 0x3288, 0x3456, 0x3624, 0x37F2, 0x39C0, 0x3B8E, 0x3D5C, 0x3F2A, 0x40F8, 0x42C6, 0x4494, 0x4662, 0x4830, 0x49FE, 0x4BCC, 0x4D9A, 0x4F68, 0x5136, 0x5304, 0x54D2, 0x56A0, 0x586E, 0x5A3C, 0x5C0A, 0x5DD8, 0x5FA6, 0x6174, 0x6342, 0x6510, 0x66DE, 0x68AC, 0x6A7A, 0x6C48, 0x6E16, 0x6FE4, 0x71B2], regs := [], badges := [], final := true }, { frame := 3, line := 7, pixels := [0, 0x21B, 0x436, 0x651, 0x86C, 0xA87, 0xCA2, 0xEBD, 0x10D8, 0x12F3, 0x150E, 0x1729, 0x1944, 0x1B5F, 0x1D7A, 0x1F95, 0x21B0, 0x23CB, 0x25E6, 0x2801, 0x2A1C, 0x2C37, 0x2E52, 0x306D, 0x3288, 0x34A3, 0x36BE, 0x38D9, 0x3AF4, 0x3D0F, 0x3F2A, 0x4145, 0x4360, 0x457B, 0x4796, 0x49B1, 0x4BCC, 0x4DE7, 0x5002, 0x521D, 0x5438, 0x5653, 0x586E, 0x5A89, 0x5CA4, 0x5EBF, 0x60DA, 0x62F5, 0x6510, 0x672B, 0x6946, 0x6B61, 0x6D7C, 0x6F97, 0x71B2, 0x73CD, 0x75E8, 0x7803, 0x7A1E, 0x7C39, 0x7E54, 0x806F, 0x828A, 0x84A5], regs := [], badges := [], final := true }], coded := some { tiles := [(0, none)], keyTiles := none, copies := [], cellRecs := [], keyCells := [], flags := 0, hashes := [], lines := [], cell := false, layer := [], palette := [] }, backlog := 512 }; let rest : List EncFrame := [{ num := 4, start := 0, bank := 0, epoch := 0, key := true, fence := false, wd := 64, ht := 8, s0 := 0, s1 := 0, surf := 0, lines := [{ frame := 3, line := 0, pixels := [0, 0, 0, 0, 0, 0, 0, 0, 0, 0, 0, 0, 0, 0, 0, 0, 0, 0, 0, 0, 0, 0, 0, 0, 0, 0, 0, 0, 0, 0, 0, 0, 0, 0, 0, 0, 0, 0, 0, 0, 0, 0, 0, 0, 0, 0, 0, 0, 0, 0, 0, 0, 0, 0, 0, 0, 0, 0, 0, 0, 0, 0, 0, 0], regs := [], badges := [], final := true }, { frame := 3, line := 1, pixels := [0, 0x4D, 0x9A, 0xE7, 0x134, 0x181, 0x1CE, 0x21B, 0x268, 0x2B5, 0x302, 0x34F, 0x39C, 0x3E9, 0x436, 0x483, 0x4D0, 0x51D, 0x56A, 0x5B7, 0x604, 0x651, 0x69E, 0x6EB, 0x738, 0x785, 0x7D2, 0x81F, 0x86C, 0x8B9, 0x906, 0x953, 0x9A0, 0x9ED, 0xA3A, 0xA87, 0xAD4, 0xB21, 0xB6E, 0xBBB, 0xC08, 0xC55, 0xCA2, 0xCEF, 0xD3C, 0xD89, 0xDD6, 0xE23, 0xE70, 0xEBD, 0xF0A, 0xF57, 0xFA4, 0xFF1, 0x103E, 0x108B, 0x10D8, 0x1125, 0x1172, 0x11BF, 0x120C, 0x1259, 0x12A6, 0x12F3], regs := [], badges := [], final := true }, { frame := 3, line := 2, pixels := [0, 0x9A, 0x134, 0x1CE, 0x268, 0x302, 0x39C, 0x436, 0x4D0, 0x56A, 0x604, 0x69E, 0x738, 0x7D2, 0x86C, 0x906, 0x9A0, 0xA3A, 0xAD4, 0xB6E, 0xC08, 0xCA2, 0xD3C, 0xDD6, 0xE70, 0xF0A, 0xFA4, 0x103E, 0x10D8, 0x1172, 0x120C, 0x12A6, 0x1340, 0x13DA, 0x1474, 0x150E, 0x15A8, 0x1642, 0x16DC, 0x1776, 0x1810, 0x18AA, 0x1944, 0x19DE, 0x1A78, 0x1B12, 0x1BAC, 0x1C46, 0x1CE0, 0x1D7A, 0x1E14, 0x1EAE, 0x1F48, 0x1FE2, 0x207C, 0x2116, 0x21B0, 0x224A, 0x22E4, 0x237E, 0x2418, 0x24B2, 0x254C, 0x25E6], regs := [], badges := [], final := true }, { frame := 3, line := 3, pixels := [0, 0xE7, 0x1CE, 0x2B5, 0x39C, 0x483, 0x56A, 0x651, 0x738, 0x81F, 0x906, 0x9ED, 0xAD4, 0xBBB, 0xCA2, 0xD89, 0xE70, 0xF57, 0x103E, 0x1125, 0x120C, 0x12F3, 0x13DA, 0x14C1, 0x15A8, 0x168F, 0x1776, 0x185D, 0x1944, 0x1A2B, 0x1B12, 0x1BF9, 0x1CE0, 0x1DC7, 0x1EAE, 0x1F95, 0x207C, 0x2163, 0x224A, 0x2331, 0x2418, 0x24FF, 0x25E6, 0x26CD, 0x27B4, 0x289B, 0x2982, 0x2A69, 0x2B50, 0x2C37, 0x2D1E, 0x2E05, 0x2EEC, 0x2FD3, 0x30BA, 0x31A1, 0x3288, 0x336F, 0x3456, 0x353D, 0x3624, 0x370B, 0x37F2, 0x38D9], regs := [], badges := [], final := true }, { frame := 3, line := 4, pixels := [0, 0x134, 0x268, 0x39C, 0x4D0, 0x604, 0x738, 0x86C, 0x9A0, 0xAD4, 0xC08, 0xD3C, 0xE70, 0xFA4, 0x10D8, 0x120C, 0x1340, 0x1474, 0x15A8, 0x16DC, 0x1810, 0x1944, 0x1A78, 0x1BAC, 0x1CE0, 0x1E14, 0x1F48, 0x207C, 0x21B0, 0x22E4, 0x2418, 0x254C, 0x2680, 0x27B4, 0x28E8, 0x2A1C, 0x2B50, 0x2C84, 0x2DB8, 0x2EEC, 0x3020, 0x3154, 0x3288, 0x33BC, 0x34F0, 0x3624, 0x3758, 0x388C, 0x39C0, 0x3AF4, 0x3C28, 0x3D5C, 0x3E90, 0x3FC4, 0x40F8, 0x422C, 0x4360, 0x4494, 0x45C8, 0x46FC, 0x4830, 0x4964, 0x4A98, 0x4BCC], regs := [], badges := [], final := true }, { frame := 3, line := 5, pixels := [0, 0x181, 0x302, 0x483, 0x604, 0x785, 0x906, 0xA87, 0xC08, 0xD89, 0xF0A, 0x108B, 0x120C, 0x138D, 0x150E, 0x168F, 0x1810, 0x1991, 0x1B12, 0x1C93, 0x1E14, 0x1F95, 0x2116, 0x2297, 0x2418, 0x2599, 0x271A, 0x289B, 0x2A1C, 0x2B9D, 0x2D1E, 0x2E9F, 0x3020, 0x31A1, 0x3322, 0x34A3, 0x3624, 0x37A5, 0x3926, 0x3AA7, 0x3C28, 0x3DA9, 0x3F2A, 0x40AB, 0x422C, 0x43AD, 0x452E, 0x46AF, 0x4830, 0x49B1, 0x4B32, 0x4CB3, 0x4E34, 0x4FB5, 0x5136, 0x52B7, 0x5438, 0x55B9, 0x573A, 0x58BB, 0x5A3C, 0x5BBD, 0x5D3E, 0x5EBF], regs := [], badges := [], final := true }, { frame := 3, line := 6, pixels := [0, 0x1CE, 0x39C, 0x56A, 0x738, 0x906, 0xAD4, 0xCA2, 0xE70, 0x103E, 0x120C, 0x13DA, 0x15A8, 0x1776, 0x1944, 0x1B12, 0x1CE0, 0x1EAE, 0x207C, 0x224A, 0x2418, 0x25E6, 0x27B4, 0x2982, 0x2B50, 0x2D1E, 0x2EEC, 0x30BA, 0x3288, 0x3456, 0x3624, 0x37F2, 0x39C0, 0x3B8E, 0x3D5C, 0x3F2A, 0x40F8, 0x42C6, 0x4494, 0x4662, 0x4830, 0x49FE, 0x4BCC, 0x4D9A, 0x4F68, 0x5136, 0x5304, 0x54D2, 0x56A0, 0x586E, 0x5A3C, 0x5C0A, 0x5DD8, 0x5FA6, 0x6174, 0x6342, 0x6510, 0x66DE, 0x68AC, 0x6A7A, 0x6C48, 0x6E16, 0x6FE4, 0x71B2], regs := [], badges := [], final := true }, { frame := 3, line := 7, pixels := [0, 0x21B, 0x436, 0x651, 0x86C, 0xA87, 0xCA2, 0xEBD, 0x10D8, 0x12F3, 0x150E, 0x1729, 0x1944, 0x1B5F, 0x1D7A, 0x1F95, 0x21B0, 0x23CB, 0x25E6, 0x2801, 0x2A1C, 0x2C37, 0x2E52, 0x306D, 0x3288, 0x34A3, 0x36BE, 0x38D9, 0x3AF4, 0x3D0F, 0x3F2A, 0x4145, 0x4360, 0x457B, 0x4796, 0x49B1, 0x4BCC, 0x4DE7, 0x5002, 0x521D, 0x5438, 0x5653, 0x586E, 0x5A89, 0x5CA4, 0x5EBF, 0x60DA, 0x62F5, 0x6510, 0x672B, 0x6946, 0x6B61, 0x6D7C, 0x6F97, 0x71B2, 0x73CD, 0x75E8, 0x7803, 0x7A1E, 0x7C39, 0x7E54, 0x806F, 0x828A, 0x84A5], regs := [], badges := [], final := true }], coded := none, backlog := 0 }]; s.sound ∧ (s.dev.head ↑h).frames = e :: rest ∧ e.coded.isSome = true)
    ∧ (let s : State := sample 5; let v : Nat := 0; let e : EncFrame := { num := 3, start := 0, bank := 0, epoch := 0, key := true, fence := false, wd := 64, ht := 8, s0 := 0, s1 := 0, surf := 0, lines := [{ frame := 3, line := 0, pixels := [0, 0, 0, 0, 0, 0, 0, 0, 0, 0, 0, 0, 0, 0, 0, 0, 0, 0, 0, 0, 0, 0, 0, 0, 0, 0, 0, 0, 0, 0, 0, 0, 0, 0, 0, 0, 0, 0, 0, 0, 0, 0, 0, 0, 0, 0, 0, 0, 0, 0, 0, 0, 0, 0, 0, 0, 0, 0, 0, 0, 0, 0, 0, 0], regs := [], badges := [], final := true }, { frame := 3, line := 1, pixels := [0, 0x4D, 0x9A, 0xE7, 0x134, 0x181, 0x1CE, 0x21B, 0x268, 0x2B5, 0x302, 0x34F, 0x39C, 0x3E9, 0x436, 0x483, 0x4D0, 0x51D, 0x56A, 0x5B7, 0x604, 0x651, 0x69E, 0x6EB, 0x738, 0x785, 0x7D2, 0x81F, 0x86C, 0x8B9, 0x906, 0x953, 0x9A0, 0x9ED, 0xA3A, 0xA87, 0xAD4, 0xB21, 0xB6E, 0xBBB, 0xC08, 0xC55, 0xCA2, 0xCEF, 0xD3C, 0xD89, 0xDD6, 0xE23, 0xE70, 0xEBD, 0xF0A, 0xF57, 0xFA4, 0xFF1, 0x103E, 0x108B, 0x10D8, 0x1125, 0x1172, 0x11BF, 0x120C, 0x1259, 0x12A6, 0x12F3], regs := [], badges := [], final := true }, { frame := 3, line := 2, pixels := [0, 0x9A, 0x134, 0x1CE, 0x268, 0x302, 0x39C, 0x436, 0x4D0, 0x56A, 0x604, 0x69E, 0x738, 0x7D2, 0x86C, 0x906, 0x9A0, 0xA3A, 0xAD4, 0xB6E, 0xC08, 0xCA2, 0xD3C, 0xDD6, 0xE70, 0xF0A, 0xFA4, 0x103E, 0x10D8, 0x1172, 0x120C, 0x12A6, 0x1340, 0x13DA, 0x1474, 0x150E, 0x15A8, 0x1642, 0x16DC, 0x1776, 0x1810, 0x18AA, 0x1944, 0x19DE, 0x1A78, 0x1B12, 0x1BAC, 0x1C46, 0x1CE0, 0x1D7A, 0x1E14, 0x1EAE, 0x1F48, 0x1FE2, 0x207C, 0x2116, 0x21B0, 0x224A, 0x22E4, 0x237E, 0x2418, 0x24B2, 0x254C, 0x25E6], regs := [], badges := [], final := true }, { frame := 3, line := 3, pixels := [0, 0xE7, 0x1CE, 0x2B5, 0x39C, 0x483, 0x56A, 0x651, 0x738, 0x81F, 0x906, 0x9ED, 0xAD4, 0xBBB, 0xCA2, 0xD89, 0xE70, 0xF57, 0x103E, 0x1125, 0x120C, 0x12F3, 0x13DA, 0x14C1, 0x15A8, 0x168F, 0x1776, 0x185D, 0x1944, 0x1A2B, 0x1B12, 0x1BF9, 0x1CE0, 0x1DC7, 0x1EAE, 0x1F95, 0x207C, 0x2163, 0x224A, 0x2331, 0x2418, 0x24FF, 0x25E6, 0x26CD, 0x27B4, 0x289B, 0x2982, 0x2A69, 0x2B50, 0x2C37, 0x2D1E, 0x2E05, 0x2EEC, 0x2FD3, 0x30BA, 0x31A1, 0x3288, 0x336F, 0x3456, 0x353D, 0x3624, 0x370B, 0x37F2, 0x38D9], regs := [], badges := [], final := true }, { frame := 3, line := 4, pixels := [0, 0x134, 0x268, 0x39C, 0x4D0, 0x604, 0x738, 0x86C, 0x9A0, 0xAD4, 0xC08, 0xD3C, 0xE70, 0xFA4, 0x10D8, 0x120C, 0x1340, 0x1474, 0x15A8, 0x16DC, 0x1810, 0x1944, 0x1A78, 0x1BAC, 0x1CE0, 0x1E14, 0x1F48, 0x207C, 0x21B0, 0x22E4, 0x2418, 0x254C, 0x2680, 0x27B4, 0x28E8, 0x2A1C, 0x2B50, 0x2C84, 0x2DB8, 0x2EEC, 0x3020, 0x3154, 0x3288, 0x33BC, 0x34F0, 0x3624, 0x3758, 0x388C, 0x39C0, 0x3AF4, 0x3C28, 0x3D5C, 0x3E90, 0x3FC4, 0x40F8, 0x422C, 0x4360, 0x4494, 0x45C8, 0x46FC, 0x4830, 0x4964, 0x4A98, 0x4BCC], regs := [], badges := [], final := true }, { frame := 3, line := 5, pixels := [0, 0x181, 0x302, 0x483, 0x604, 0x785, 0x906, 0xA87, 0xC08, 0xD89, 0xF0A, 0x108B, 0x120C, 0x138D, 0x150E, 0x168F, 0x1810, 0x1991, 0x1B12, 0x1C93, 0x1E14, 0x1F95, 0x2116, 0x2297, 0x2418, 0x2599, 0x271A, 0x289B, 0x2A1C, 0x2B9D, 0x2D1E, 0x2E9F, 0x3020, 0x31A1, 0x3322, 0x34A3, 0x3624, 0x37A5, 0x3926, 0x3AA7, 0x3C28, 0x3DA9, 0x3F2A, 0x40AB, 0x422C, 0x43AD, 0x452E, 0x46AF, 0x4830, 0x49B1, 0x4B32, 0x4CB3, 0x4E34, 0x4FB5, 0x5136, 0x52B7, 0x5438, 0x55B9, 0x573A, 0x58BB, 0x5A3C, 0x5BBD, 0x5D3E, 0x5EBF], regs := [], badges := [], final := true }, { frame := 3, line := 6, pixels := [0, 0x1CE, 0x39C, 0x56A, 0x738, 0x906, 0xAD4, 0xCA2, 0xE70, 0x103E, 0x120C, 0x13DA, 0x15A8, 0x1776, 0x1944, 0x1B12, 0x1CE0, 0x1EAE, 0x207C, 0x224A, 0x2418, 0x25E6, 0x27B4, 0x2982, 0x2B50, 0x2D1E, 0x2EEC, 0x30BA, 0x3288, 0x3456, 0x3624, 0x37F2, 0x39C0, 0x3B8E, 0x3D5C, 0x3F2A, 0x40F8, 0x42C6, 0x4494, 0x4662, 0x4830, 0x49FE, 0x4BCC, 0x4D9A, 0x4F68, 0x5136, 0x5304, 0x54D2, 0x56A0, 0x586E, 0x5A3C, 0x5C0A, 0x5DD8, 0x5FA6, 0x6174, 0x6342, 0x6510, 0x66DE, 0x68AC, 0x6A7A, 0x6C48, 0x6E16, 0x6FE4, 0x71B2], regs := [], badges := [], final := true }, { frame := 3, line := 7, pixels := [0, 0x21B, 0x436, 0x651, 0x86C, 0xA87, 0xCA2, 0xEBD, 0x10D8, 0x12F3, 0x150E, 0x1729, 0x1944, 0x1B5F, 0x1D7A, 0x1F95, 0x21B0, 0x23CB, 0x25E6, 0x2801, 0x2A1C, 0x2C37, 0x2E52, 0x306D, 0x3288, 0x34A3, 0x36BE, 0x38D9, 0x3AF4, 0x3D0F, 0x3F2A, 0x4145, 0x4360, 0x457B, 0x4796, 0x49B1, 0x4BCC, 0x4DE7, 0x5002, 0x521D, 0x5438, 0x5653, 0x586E, 0x5A89, 0x5CA4, 0x5EBF, 0x60DA, 0x62F5, 0x6510, 0x672B, 0x6946, 0x6B61, 0x6D7C, 0x6F97, 0x71B2, 0x73CD, 0x75E8, 0x7803, 0x7A1E, 0x7C39, 0x7E54, 0x806F, 0x828A, 0x84A5], regs := [], badges := [], final := true }], coded := some { tiles := [(0, none)], keyTiles := none, copies := [], cellRecs := [], keyCells := [], flags := 0, hashes := [], lines := [], cell := false, layer := [], palette := [] }, backlog := 512 }; let rest : List EncFrame := []; s.sound ∧ s.dev.rdN pgENC Reg.ENC_ABORT_LVL < s.dev.rdN pgENC Reg.ENC_BACKLOG ∧ s.dev.skipVictim = some v ∧ (s.dev.head v).frames = e :: rest)
    ∧ (let s : State := sample 0; s.sound ∧ s.dev.rdN pgENC Reg.ENC_BACKLOG ≤ s.dev.rdN pgENC Reg.ENC_ABORT_LVL) := by
  (try unfold State.sound); (try unfold State.reaches); (try unfold boundary); refine ⟨?_, ?_, ?_, ?_⟩ <;> decide
end Encoding

namespace Dictionary
def rb (s : Nat) (d : Dev) : Dev := putB [1,2,3] (dictBase + 5) (putB [1,2,3] (dictBase + 0x400000 + 0x3FFFFF) (putB [9] (dictBase + 0x400000 - 1) (((md 3 d).wrN pgDICT Reg.DICT_STAT s).wrN pgDICT Reg.DICT_CTL 3)))
/-- The states that the witnesses use. -/
def states : List State := [reset] ++ [0,1,2,3].flatMap fun n => [st (rb n), st (rb (n+4)), st (fun d => (rb n d).wrN pgPWR Reg.PWR_STAT 1), st (fun d => (rb n d).wrN pgDICT Reg.DICT_PERIOD 5)
  , st (fun d => { (rb n d) with enc := { states := [(0, 1), (3, 258)] } })
  , st (fun d => { (rb (n+4) d) with enc := { states := [(0, 1), (3, 258), (1024, 1)] }})]
def sample (k : Nat) : State := states.getD k State.reset
/-- Operands and states that meet the hypotheses of Dictionary, clause by clause. -/
theorem witness_Dictionary :
    (let s : State := sample 0; let r : Req := Req.hart 0; s.sound ∧ s.reaches r ∧ s.dev.rebState = 0)
    ∧ (let s : State := sample 0; s.sound ∧ s.dev.rdN pgDICT Reg.DICT_PERIOD ≠ 0 ∧ s.dev.rdB pgDICT Reg.DICT_CTL 1 = true ∧ s.dev.rebState = 0)
    ∧ (let s : State := sample 7; s.sound ∧ s.dev.rebState = 1 ∧ (List.any s.dev.heads fun e => e.snd.frames.any fun f => f.bank == 1 - s.dev.dictBank) = false)
    ∧ (let s : State := sample 13; s.sound ∧ s.dev.rebState = 2)
    ∧ (let s : State := sample 19; s.sound ∧ s.dev.rebState = 3 ∧ s.dev.rdB pgPWR Reg.PWR_STAT 0 = false)
    ∧ (let s : State := sample 21; s.sound ∧ s.dev.rebState = 3 ∧ s.dev.rdB pgPWR Reg.PWR_STAT 0 = true) := by
  (try unfold State.sound); (try unfold State.reaches); (try unfold boundary); refine ⟨?_, ?_, ?_, ?_, ?_, ?_⟩ <;> decide
end Dictionary

namespace SessionCommands
def mir (h : Nat) : Mirror := { head := h, ack := 0, needKey := false, needAt := 0, chip := none, sess := 3, snd := 0, evict := [], reset := false }
def tb (n state : Nat) (name : Nat) (d : Dev) : Dev := let a := dramBase + n * 128
  putB [byteOf state 0,0,1,0,0,0,0,0] a (putB (leBytes 8 name) (a+8) (putB [16,16,16,0] (a+24) (putB (leBytes 8 (dramBase + 0x100000)) (a+16) (((((((md 3 d).wrN (pgDDR 0) Reg.DDR_TOTAL 96).wrN pgSESS Reg.SESS_TABLE_HI 0x100).wr64 (pgHD 5) Reg.HB_NAME_LO 7).wrN (pgHD 5) Reg.HB_STAT 2)).wrN pgFAB Reg.FAB_STAT 0))))
/-- The states that the witnesses use. -/
def states : List State := [reset] ++ [0,1,1023].flatMap fun n => [st (tb n 0 7), st (tb n 0 8), st (tb n 0 0), st (tb n 1 7), st (tb n 1 8), st (tb n 2 7), st (fun d => { (tb n 1 7 d) with enc := { control := [(7, n+1)], mirrors := [(n, some (mir 5))] } }), st (fun d => { (tb n 1 7 d) with enc := { control := [(7, 40)], mirrors := [(n, some (mir 5))], sessions := [(n, { remoteSlot := some (3, 1024), txKey := [4] })] } })
 , st (fun d => { (tb n 1 8 d) with enc := { sessions := [(n, { remoteSlot := some (3, 1024), txKey := [4] })] } })]
def sample (k : Nat) : State := states.getD k State.reset
/-- Operands and states that meet the hypotheses of SessionCommands, clause by clause. -/
theorem witness_SessionCommands :
    (let n : Sess := 0; let s : State := sample 1; let h : Nat := 5; s.sound ∧ s.dev.sessState ↑n = 0 ∧ s.dev.headOf (s.dev.sessName ↑n) = some h ∧ s.dev.descOk ↑n = true)
    ∧ (let n : Sess := 0; let s : State := sample 4; s.sound ∧ s.dev.sessState ↑n ≠ 0)
    ∧ (let n : Sess := 0; let s : State := sample 0; s.sound ∧ s.dev.sessState ↑n = 0 ∧ s.dev.headOf (s.dev.sessName ↑n) = none ∧ s.dev.addrValid = false)
    ∧ (let n : Sess := 0; let s : State := sample 0; s.sound ∧ s.dev.sessState ↑n = 0)
    ∧ (let n : Sess := 0; let s : State := sample 4; let h : Nat := 5; s.sound ∧ s.dev.sessState ↑n = 1 ∧ s.dev.headOf (s.dev.sessName ↑n) = some h)
    ∧ (let n : Sess := 0; let s : State := sample 4; s.sound ∧ s.dev.sessState ↑n = 1)
    ∧ (let n : Sess := 0; let s : State := sample 7; let m : Mirror := { head := 5, ack := 0, needKey := false, needAt := 0, chip := none, sess := 3, snd := 0, evict := [], reset := false }; s.sound ∧ s.dev.sessState ↑n = 1 ∧ s.dev.mirror ↑n = some m)
    ∧ (let n : Sess := 0; let s : State := sample 0; s.sound ∧ s.dev.sessState ↑n ≠ 1) := by
  (try unfold State.sound); (try unfold State.reaches); (try unfold boundary); refine ⟨?_, ?_, ?_, ?_, ?_, ?_, ?_, ?_⟩ <;> decide
end SessionCommands

namespace SessionTraffic
def mir (h : Nat) : Mirror := { head := h, ack := 0, needKey := false, needAt := 0, chip := none, sess := 3, snd := 0, evict := [], reset := false }
def tb (n state : Nat) (name : Nat) (d : Dev) : Dev := let a := dramBase + n * 128
  putB [byteOf state 0,0,1,0,0,0,0,0] a (putB (leBytes 8 name) (a+8) (putB [16,16,16,0] (a+24) (putB (leBytes 8 (dramBase + 0x100000)) (a+16) (putB (leBytes 8 (dramBase + 0x200000)) (a+48) (putB (leBytes 8 (dramBase + 0x300000)) (a+56) (putB (leBytes 8 (dramBase + 0x400000)) (a+104) (putB (leBytes 2 5) (a+112) (((((((md 3 d).wrN (pgDDR 0) Reg.DDR_TOTAL 96).wrN pgSESS Reg.SESS_TABLE_HI 0x100).wr64 (pgHD 5) Reg.HB_NAME_LO 7).wrN (pgHD 5) Reg.HB_STAT 2)).wrN pgFAB Reg.FAB_STAT 0 |>.wrN pgSESS Reg.IDU_SESSION n))))))))
def rec5 : List Byte := [23,3,3,0,9]
/-- The states that the witnesses use. -/
def states : List State := [reset] ++ [0,1,1023].flatMap fun n => [st (tb n 0 7), st (tb n 2 7), st (tb n 1 7), st (tb n 1 8), st (fun d => putB (leBytes 4 0x10000) (dramBase + n*128+28) (tb n 1 7 d)),
 st (fun d => putB (leBytes 4 0xFFF0) (dramBase + n*128+28) (tb n 1 7 d)),
 st (fun d => { (tb n 1 7 d) with enc := { control := [(7, n+1)], mirrors := [(n, some (mir 5))] } }), st (fun d => { (putB rec5 (dramBase + 0x200000) (tb n 1 7 d)) with enc := { control := [(7, 40)], mirrors := [(n, some (mir 5))], sessions := [(n, { txKey := [4], rxcProd := 14 })] } })
 , st (fun d => { (tb n 1 8 d) with enc := { sessions := [(n, { remoteSlot := some (3, 1024), txKey := [4] })] } })]
def sample (k : Nat) : State := states.getD k State.reset
/-- Operands and states that meet the hypotheses of SessionTraffic, clause by clause. -/
theorem witness_SessionTraffic :
    (let n : Sess := 0; let s : State := sample 5; s.sound ∧ s.dev.sessState ↑n = 1 ∧ (s.dev.sess ↑n).injects = [] ∧ s.dev.txFree ↑n < max 1 (min 16384 (s.dev.sd (↑n) dINJLEN 2)) + 22)
    ∧ (let n : Sess := 0; let s : State := sample 3; s.sound ∧ s.dev.sessState ↑n = 1 ∧ (s.dev.sess ↑n).injects = [] ∧ max 1 (min 16384 (s.dev.sd (↑n) dINJLEN 2)) + 22 ≤ s.dev.txFree ↑n ∧ s.dev.sd (↑n) dTXPROD 4 % 2 ^ ringLog (s.dev.sd (↑n) dTXLOG2 1) + max 1 (min 16384 (s.dev.sd (↑n) dINJLEN 2)) + 22 ≤ 2 ^ ringLog (s.dev.sd (↑n) dTXLOG2 1) ∧ s.dev.inDram (s.dev.sd (↑n) dTXBASE 8 + s.dev.sd (↑n) dTXPROD 4 % 2 ^ ringLog (s.dev.sd (↑n) dTXLOG2 1)) (max 1 (min 16384 (s.dev.sd (↑n) dINJLEN 2)) + 22) = true ∧ (s.dev.sessAddr ↑n + 128 ≤ s.dev.sd (↑n) dTXBASE 8 + s.dev.sd (↑n) dTXPROD 4 % 2 ^ ringLog (s.dev.sd (↑n) dTXLOG2 1) ∨ s.dev.sd (↑n) dTXBASE 8 + s.dev.sd (↑n) dTXPROD 4 % 2 ^ ringLog (s.dev.sd (↑n) dTXLOG2 1) + max 1 (min 16384 (s.dev.sd (↑n) dINJLEN 2)) + 22 ≤ s.dev.sessAddr ↑n))
    ∧ (let n : Sess := 0; let s : State := sample 7; let m : Mirror := { head := 5, ack := 0, needKey := false, needAt := 0, chip := none, sess := 3, snd := 0, evict := [], reset := false }; s.sound ∧ s.dev.sessState ↑n = 1 ∧ (s.dev.sess ↑n).remoteSlot = none ∧ s.dev.mirror ↑n = some m)
    ∧ (let n : Sess := 0; let s : State := sample 7; let m : Mirror := { head := 5, ack := 0, needKey := false, needAt := 0, chip := none, sess := 3, snd := 0, evict := [], reset := false }; s.sound ∧ s.dev.sessState ↑n = 1 ∧ s.dev.mirror ↑n = some m)
    ∧ (let s : State := sample 0; s.sound)
    ∧ (let n : Sess := 0; let s : State := sample 7; let h : Nat := 5; s.sound ∧ s.dev.rdF pgSESS Reg.IDU_SESSION 9 0 = ↑n ∧ s.dev.sessState ↑n = 1 ∧ s.dev.headOf (s.dev.sessName ↑n) = some h ∧ s.dev.controller (s.dev.sessName ↑n) = some ↑n ∧ s.dev.counterHere (s.dev.sessName ↑n) = true)
    ∧ (let n : Sess := 0; let s : State := sample 0; s.sound ∧ s.dev.rdF pgSESS Reg.IDU_SESSION 9 0 = ↑n ∧ s.dev.sessState ↑n ≠ 1) := by
  (try unfold State.sound); (try unfold State.reaches); (try unfold boundary); refine ⟨?_, ?_, ?_, ?_, ?_, ?_, ?_⟩ <;> decide
end SessionTraffic

namespace EthernetTransmit
def tx (p : Port) (cons prod len fl : Nat) (d : Dev) : Dev :=
  let pg := portPage p
  putB [1,2,3,4,5] (dramBase + 0x1000) (putB (leBytes 8 (dramBase + 0x1000) ++ leBytes 4 len ++ leBytes 4 fl) (dramBase + cons * 32) (((((((md 3 d).wrN (pgDDR 0) Reg.DDR_TOTAL 96).wrN pg Reg.TXQ_BASE_HI 0x100).wrN pg Reg.TXQ_CONS cons).wrN pg Reg.TXQ_PROD prod).wrN pg Reg.ETH_CTL 1).wrN pg Reg.ETH_STAT 1))
/-- The states that the witnesses use. -/
def states : List State := [reset, st (fun d => { d with outs := [.uart 3] })] ++ ([.eth0, .mgmt] : List Port).flatMap fun p => [st (tx p 0 1 5 2), st (tx p 7 10 60 2), st (tx p 0 1 9000 2), st (tx p 0 1 9300 2), st (tx p 0 1 0 2)]
def sample (k : Nat) : State := states.getD k State.reset
/-- Operands and states that meet the hypotheses of EthernetTransmit, clause by clause. -/
theorem witness_EthernetTransmit :
    (let s : State := sample 0; s.sound)
    ∧ (let p : Port := Port.eth0; let s : State := sample 2; s.sound ∧ s.dev.portOn p = true ∧ s.dev.rd (portPage p) Reg.TXQ_PROD ≠ s.dev.rd (portPage p) Reg.TXQ_CONS ∧ s.dev.txFlags p (s.dev.rdN (portPage p) Reg.TXQ_CONS) = 2 ∧ s.dev.ram.poison = [] ∧ s.dev.num (s.dev.txDesc p (s.dev.rdN (portPage p) Reg.TXQ_CONS) + 8) 4 % 2 ^ 24 ≤ s.dev.portLimit p ∧ s.dev.frozen (portPage p) = false) := by
  (try unfold State.sound); (try unfold State.reaches); (try unfold boundary); refine ⟨?_, ?_⟩ <;> decide
end EthernetTransmit

namespace EthernetReceiveAndLinks
def rx (p : Port) (cons prod : Nat) (buf : Nat) (d : Dev) : Dev :=
  let pg := portPage p
  putB (leBytes 8 buf) (dramBase + cons * 16) (((((((md 3 d).wrN (pgDDR 0) Reg.DDR_TOTAL 96).wrN pg Reg.RXQ_BASE_HI 0x100).wrN pg Reg.RXQ_CONS cons).wrN pg Reg.RXQ_PROD prod).wrN pg Reg.ETH_CTL 1).wrN pg Reg.ETH_STAT 1)
/-- The states that the witnesses use. -/
def states : List State := [reset, st (md 3), st (md 7)] ++ ([.eth0, .mgmt] : List Port).flatMap fun p => [st (rx p 0 1 (dramBase + 0x10000)), st (rx p 3 3 0), st (rx p 63 70 (dramBase + 14 + 63*16)), st (rx p 3 5 (dramBase + 5)), st (rx p 3 5 5)]
def sample (k : Nat) : State := states.getD k State.reset
/-- Operands and states that meet the hypotheses of EthernetReceiveAndLinks, clause by clause. -/
theorem witness_EthernetReceiveAndLinks :
    (let p : Port := Port.eth0; let f : List Byte := []; let s : State := sample 3; s.sound ∧ s.dev.portOn p = true ∧ s.dev.rdB (portPage p) Reg.ETH_CTL 2 = false ∧ f.length ≤ s.dev.portLimit p ∧ s.dev.rd (portPage p) Reg.RXQ_PROD ≠ s.dev.rd (portPage p) Reg.RXQ_CONS ∧ (s.dev.num (s.dev.portBase p Reg.RXQ_BASE_LO + s.dev.rdN (portPage p) Reg.RXQ_CONS % s.dev.portRing p Reg.RXQ_SIZE * 16) 8 + f.length ≤ s.dev.portBase p Reg.RXQ_BASE_LO + s.dev.rdN (portPage p) Reg.RXQ_CONS % s.dev.portRing p Reg.RXQ_SIZE * 16 + 8 ∨ s.dev.portBase p Reg.RXQ_BASE_LO + s.dev.rdN (portPage p) Reg.RXQ_CONS % s.dev.portRing p Reg.RXQ_SIZE * 16 + 14 ≤ s.dev.num (s.dev.portBase p Reg.RXQ_BASE_LO + s.dev.rdN (portPage p) Reg.RXQ_CONS % s.dev.portRing p Reg.RXQ_SIZE * 16) 8))
    ∧ (let p : Port := Port.eth0; let s : State := sample 4; s.sound ∧ s.dev.portOn p = true ∧ s.dev.rdB (portPage p) Reg.ETH_CTL 2 = false ∧ s.dev.rd (portPage p) Reg.RXQ_PROD = s.dev.rd (portPage p) Reg.RXQ_CONS)
    ∧ (let s : State := sample 0; s.sound)
    ∧ (let s : State := sample 0; s.sound ∧ s.dev.portsOff = false) := by
  (try unfold State.sound); (try unfold State.reaches); (try unfold boundary); refine ⟨?_, ?_, ?_, ?_⟩ <;> decide
end EthernetReceiveAndLinks

namespace AudioRings
def au (n ctl : Nat) (d : Dev) : Dev := clk (((((laneUp n d).wrN (pgFn n 2) Reg.HF_NEG_LO 0x3C).wrN (pgFn n 2) Reg.PL_CTL ctl).wrN (pgFn n 2) Reg.CP_CTL ctl).wrN (pgFn n 2) Reg.RG_SIZE 12 |>.wrN (pgFn n 2) (Reg.RG_SIZE + 0x20) 12)
def cp (n k : Nat) (d : Dev) : Dev := d.onLane n (fun l => { l with t0 := some 96, block := 2, cap := List.replicate k (some (3, 4)), capNext := some 48 })
/-- The states that the witnesses use. -/
def states : List State := [reset] ++ [0,1,127].flatMap fun n => [st (au n 0), st (fun d => cp n 48 (au n 1 d)), st (fun d => cp n 100 (au n 3 d)), st (fun d => cp n 50 ((au n 3 d).wrN (pgHD n) Reg.HD_MODE 8)),
 st (fun d => cp n 50 (((au n 3 d).wrN (pgFn n 2) Reg.CP_PROD 100).wrN (pgFn n 2) Reg.CP_CONS 4090))]
def sample (k : Nat) : State := states.getD k State.reset
/-- Operands and states that meet the hypotheses of AudioRings, clause by clause. -/
theorem witness_AudioRings :
    (let n : Lane := 0; let s : State := sample 1; s.sound ∧ s.dev.fnHas (↑n) 2 5 = true ∧ s.dev.rdB (pgFn (↑n) 2) Reg.PL_CTL 0 = false)
    ∧ (let n : Lane := 0; let s : State := sample 1; s.sound ∧ s.dev.fnHas (↑n) 2 5 = true ∧ s.dev.rdB (pgFn (↑n) 2) Reg.CP_CTL 0 = false)
    ∧ (let n : Lane := 0; let s : State := sample 2; let t0 : Nat := 96; s.sound ∧ (s.dev.lane ↑n).t0 = some t0 ∧ s.dev.rdB (pgHD ↑n) Reg.HD_MODE 3 = false)
    ∧ (let n : Lane := 0; let s : State := sample 4; let t0 : Nat := 96; s.sound ∧ (s.dev.lane ↑n).t0 = some t0 ∧ s.dev.rdB (pgHD ↑n) Reg.HD_MODE 3 = true)
    ∧ (let n : Lane := 0; let s : State := sample 2; s.sound ∧ 48 ≤ (s.dev.lane ↑n).cap.length ∧ s.dev.rdB (pgHD ↑n) Reg.HD_MODE 3 = false ∧ ((s.dev.rdN (pgFn (↑n) 2) Reg.CP_PROD + 2 ^ 32 - s.dev.rdN (pgFn (↑n) 2) Reg.CP_CONS) % 2 ^ 32 + if s.dev.rdB (pgFn (↑n) 2) Reg.CP_CTL 1 = true then 384 else 192) ≤ s.dev.ringSize (↑n) (Reg.RG_SIZE + 32)) := by
  (try unfold State.sound); (try unfold State.reaches); (try unfold boundary); refine ⟨?_, ?_, ?_, ?_, ?_⟩ <;> decide
end AudioRings

namespace AudioTicks
/-- The states that the witnesses use. -/
def states : List State := [reset, st clk, st (fun d => clk ((((((d.wrN (pgFn 0 0) Reg.HF_NEG_LO 0x10).wrN (pgHD 0) (toneOff 0) 1).wrN (pgHD 0) (toneOff 0 + 8) 1).wrN (pgHD 1) (toneOff 3) 1).wrN (pgHD 1) (toneOff 3 + 8) 5))), st (fun d => { (clk d) with snd := { tick := 240, sndTick := some 0, nodes := [(3, { target := 5, k := 3 })], tones := [(1, {pos := 4})] } }),
 st (fun d => { (clk d) with snd := { tick := 48, msDone := some 48, sndTick := some 0, nodes := [(3, { target := 5, k := 3 })], tones := [(1, {pos := 4})] } })]
def sample (k : Nat) : State := states.getD k State.reset
/-- Operands and states that meet the hypotheses of AudioTicks, clause by clause. -/
theorem witness_AudioTicks :
    (let s : State := sample 1; let pins : AudioPins := { mic := 3, i2s := [[(3, 4)], [(3, 4)], [(3, 4)], [(3, 4)], [(3, 4)], [(3, 4)], [(3, 4)], [(3, 4)]] }; s.sound ∧ pins.i2s.length = 8 ∧ s.dev.clock.started = true)
    ∧ (let s : State := sample 0; let pins : AudioPins := { mic := 3, i2s := [[(3, 4)], [(3, 4)], [(3, 4)], [(3, 4)], [(3, 4)], [(3, 4)], [(3, 4)], [(3, 4)]] }; s.sound ∧ pins.i2s.length = 8 ∧ s.dev.clock.started = false)
    ∧ (let s : State := sample 1; s.sound ∧ s.dev.clock.started = true ∧ s.dev.snd.tick % 48 = 0 ∧ s.dev.snd.msDone ≠ some s.dev.snd.tick)
    ∧ (let s : State := sample 3; let j : Nat := 0; s.sound ∧ s.dev.snd.sndTick = some j) := by
  (try unfold State.sound); (try unfold State.reaches); (try unfold boundary); refine ⟨?_, ?_, ?_, ?_⟩ <;> decide
end AudioTicks

namespace TonesAndFabricAudio
/-- The states that the witnesses use. -/
def states : List State := [reset] ++ [0,1,127].flatMap fun n => [st (fun d => d.wrN (pgFn n 0) Reg.HF_NEG_LO 0x10), st (fun d => (d.wrN (pgFn n 0) Reg.HF_NEG_LO 0x10).wrN (pgHD n) (toneOff 0) 1), st (fun d => { ((d.wrN pgFAB (Reg.FA_IN + 4) 0x80010001).wrN pgFAB (Reg.FA_IN + 0) 0x80000000 |>.wrN pgFAB (Reg.FA_OUT + 4) 3) with snd := { fabDone := [(0, some { tick := 48, frames := List.replicate 48 (some (3,4)) }), (1, some { tick := 48, frames := List.replicate 48 (some (3,4)) }), (63, some { tick := 48, frames := List.replicate 48 (some (3,4)) })], tick := 5 } }),
  st (fun d => { ((d.wrN pgFAB (Reg.FA_IN + 4) 0x80010001).wrN pgFAB (Reg.FA_IN + 0) 0x80000000 |>.wrN pgFAB Reg.FAB_STAT 0x1005) with snd := { fabDone := [(0, some { tick := 48, frames := List.replicate 48 (some (3,4)) })], tick := 5000000 } })]
def sample (k : Nat) : State := states.getD k State.reset
/-- Operands and states that meet the hypotheses of TonesAndFabricAudio, clause by clause. -/
theorem witness_TonesAndFabricAudio :
    (let s : State := sample 1; let h : VHead := 0; s.sound ∧ s.dev.toneOn ↑h = true)
    ∧ (let s : State := sample 0; let h : VHead := 0; s.sound ∧ s.dev.toneOn ↑h = false)
    ∧ (let s : State := sample 3; let k : Fin 64 := 0; let b : FabBlock := { tick := 48, frames := [some (3, 4), some (3, 4), some (3, 4), some (3, 4), some (3, 4), some (3, 4), some (3, 4), some (3, 4), some (3, 4), some (3, 4), some (3, 4), some (3, 4), some (3, 4), some (3, 4), some (3, 4), some (3, 4), some (3, 4), some (3, 4), some (3, 4), some (3, 4), some (3, 4), some (3, 4), some (3, 4), some (3, 4), some (3, 4), some (3, 4), some (3, 4), some (3, 4), some (3, 4), some (3, 4), some (3, 4), some (3, 4), some (3, 4), some (3, 4), some (3, 4), some (3, 4), some (3, 4), some (3, 4), some (3, 4), some (3, 4), some (3, 4), some (3, 4), some (3, 4), some (3, 4), some (3, 4), some (3, 4), some (3, 4), some (3, 4)] }; s.sound ∧ spGet (fun x => none) s.dev.snd.fabDone ↑k = some b)
    ∧ (let s : State := sample 0; let src : BitVec 12 := 0; let k : BitVec 8 := 0; let i : BitVec 8 := 0; let frames : List Frame24 := [(3, 4), (3, 4), (3, 4), (3, 4), (3, 4), (3, 4), (3, 4), (3, 4), (3, 4), (3, 4), (3, 4), (3, 4), (3, 4), (3, 4), (3, 4), (3, 4), (3, 4), (3, 4), (3, 4), (3, 4), (3, 4), (3, 4), (3, 4), (3, 4), (3, 4), (3, 4), (3, 4), (3, 4), (3, 4), (3, 4), (3, 4), (3, 4), (3, 4), (3, 4), (3, 4), (3, 4), (3, 4), (3, 4), (3, 4), (3, 4), (3, 4), (3, 4), (3, 4), (3, 4), (3, 4), (3, 4), (3, 4), (3, 4)]; s.sound ∧ frames.length = 48 ∧ (¬(i.toNat < 22 ∧ bit (s.dev.rd pgFAB (Reg.FA_IN + 4 * i.toNat)) 31 = true ∧ field (s.dev.rd pgFAB (Reg.FA_IN + 4 * i.toNat)) 11 0 = src.toNat ∧ field (s.dev.rd pgFAB (Reg.FA_IN + 4 * i.toNat)) 21 16 = k.toNat)))
    ∧ (let s : State := sample 4; let src : BitVec 12 := 0; let k : BitVec 8 := 0; let i : BitVec 8 := 0; let tick : DWord := 0; let frames : List Frame24 := [(3, 4), (3, 4), (3, 4), (3, 4), (3, 4), (3, 4), (3, 4), (3, 4), (3, 4), (3, 4), (3, 4), (3, 4), (3, 4), (3, 4), (3, 4), (3, 4), (3, 4), (3, 4), (3, 4), (3, 4), (3, 4), (3, 4), (3, 4), (3, 4), (3, 4), (3, 4), (3, 4), (3, 4), (3, 4), (3, 4), (3, 4), (3, 4), (3, 4), (3, 4), (3, 4), (3, 4), (3, 4), (3, 4), (3, 4), (3, 4), (3, 4), (3, 4), (3, 4), (3, 4), (3, 4), (3, 4), (3, 4), (3, 4)]; s.sound ∧ frames.length = 48 ∧ (i.toNat < 22 ∧ bit (s.dev.rd pgFAB (Reg.FA_IN + 4 * i.toNat)) 31 = true ∧ field (s.dev.rd pgFAB (Reg.FA_IN + 4 * i.toNat)) 11 0 = src.toNat ∧ field (s.dev.rd pgFAB (Reg.FA_IN + 4 * i.toNat)) 21 16 = k.toNat) ∧ BitVec.toNat tick + s.dev.rdF pgAUD Reg.AUD_FAB_DELAY 11 0 < s.dev.snd.tick)
    ∧ (let s : State := sample 3; let src : BitVec 12 := 0; let k : BitVec 8 := 0; let i : BitVec 8 := 0; let tick : DWord := 0; let frames : List Frame24 := [(3, 4), (3, 4), (3, 4), (3, 4), (3, 4), (3, 4), (3, 4), (3, 4), (3, 4), (3, 4), (3, 4), (3, 4), (3, 4), (3, 4), (3, 4), (3, 4), (3, 4), (3, 4), (3, 4), (3, 4), (3, 4), (3, 4), (3, 4), (3, 4), (3, 4), (3, 4), (3, 4), (3, 4), (3, 4), (3, 4), (3, 4), (3, 4), (3, 4), (3, 4), (3, 4), (3, 4), (3, 4), (3, 4), (3, 4), (3, 4), (3, 4), (3, 4), (3, 4), (3, 4), (3, 4), (3, 4), (3, 4), (3, 4)]; s.sound ∧ frames.length = 48 ∧ (i.toNat < 22 ∧ bit (s.dev.rd pgFAB (Reg.FA_IN + 4 * i.toNat)) 31 = true ∧ field (s.dev.rd pgFAB (Reg.FA_IN + 4 * i.toNat)) 11 0 = src.toNat ∧ field (s.dev.rd pgFAB (Reg.FA_IN + 4 * i.toNat)) 21 16 = k.toNat) ∧ (¬BitVec.toNat tick + s.dev.rdF pgAUD Reg.AUD_FAB_DELAY 11 0 < s.dev.snd.tick)) := by
  (try unfold State.sound); (try unfold State.reaches); (try unfold boundary); refine ⟨?_, ?_, ?_, ?_, ?_, ?_⟩ <;> decide
end TonesAndFabricAudio

namespace ConvertersAndJack
/-- The states that the witnesses use. -/
def states : List State := [reset, st (fun d => (((((putB (leBytes 2 0x8000) (audioBase + 0x40000 + 8) (putB (leBytes 2 0x8000) (audioBase + 0x40000 + 16 + 8) d)).wrN pgI2S Reg.I2S_CTL 1).wrN pgI2S (Reg.I2S_CTL + 8) 1).wrN pgI2S Reg.I2S_STAT 1).wrN pgJACK Reg.JACK_CTL 7)),
 st (fun d => (((d.setSrc 0 true).setSrc 67 true).setSrc 64 true).wrN pgJACK Reg.JACK_CTL 7 |>.wrN pgJACK Reg.JACK_STAT 2 |>.wrN pgI2S (Reg.I2S_STAT + 8) 1),
 st (fun d => { ((((d.setSrc 0 true).setSrc 67 true).setSrc 64 true).wrN pgJACK Reg.JACK_CTL 7 |>.wrN pgJACK Reg.JACK_STAT 2) with snd := { detLast := some true, clsLast := 2, btnLast := some 1 } }),
 st (fun d => { ((((d.setSrc 0 true).setSrc 67 true).setSrc 64 true).wrN pgJACK Reg.JACK_CTL 7 |>.wrN pgJACK Reg.JACK_STAT 0xA) with snd := { detLast := some false, clsLast := 2, btnLast := some 1 } }),
 st (fun d => { ((((d.setSrc 0 true).setSrc 67 true).setSrc 64 true).wrN pgJACK Reg.JACK_CTL 7 |>.wrN pgJACK Reg.JACK_STAT 0) with snd := { detLast := some true, clsLast := 1, btnLast := some 0 } })]
def sample (k : Nat) : State := states.getD k State.reset
/-- Operands and states that meet the hypotheses of ConvertersAndJack, clause by clause. -/
theorem witness_ConvertersAndJack :
    (let s : State := sample 1; let k : Fin 68 := 0; s.sound ∧ s.dev.srcUsed ↑k = true)
    ∧ (let s : State := sample 2; let k : Fin 68 := 0; s.sound ∧ s.dev.srcLocked ↑k = true)
    ∧ (let s : State := sample 1; let k : Fin 2 := 0; s.sound ∧ s.dev.rdB pgI2S (Reg.I2S_STAT + 8 * ↑k) 0 = true)
    ∧ (let s : State := sample 0; s.sound)
    ∧ (let s : State := sample 0; let low : Bool := false; s.sound ∧ s.dev.rdB pgJACK Reg.JACK_CTL 0 = true ∧ s.dev.snd.detLast ≠ some low ∧ s.dev.frozen pgJACK = false)
    ∧ (let s : State := sample 4; let low : Bool := false; s.sound ∧ s.dev.rdB pgJACK Reg.JACK_CTL 0 = true ∧ s.dev.snd.detLast = some low ∧ s.dev.jackPresent ≠ (if low = true then 2 else 1) ∧ s.dev.frozen pgJACK = false)
    ∧ (let s : State := sample 2; s.sound ∧ s.dev.jackPresent = 2 ∧ s.dev.jackType = 0 ∧ s.dev.frozen pgJACK = false)
    ∧ (let s : State := sample 4; s.sound ∧ s.dev.jackType = 2 ∧ s.dev.rdB pgJACK Reg.JACK_CTL 2 = true ∧ s.dev.rdB pgJACK Reg.JACK_CTL 1 = true ∧ s.dev.frozen pgJACK = false) := by
  (try unfold State.sound); (try unfold State.reaches); (try unfold boundary); refine ⟨?_, ?_, ?_, ?_, ?_, ?_, ?_, ?_⟩ <;> decide
end ConvertersAndJack

namespace LinkStates
def hm (r : Fin 4) (s f : DWord) : HelloMsg := { role := r, serial := s, fabricId := f, feat := 7, addr := 5, addrValid := true, coordHops := 2, coordSerial := 9 }
def al (l : Nat) (k : LinkState) (f : Link → Link) (d : Dev) : Dev := (((md 3 d).onLink l (fun x => f { x with st := k })).wrF (pgAL l) Reg.AL_STAT 2 0 k.code).wrN (pgAL l) Reg.AL_CTL 1
/-- The states that the witnesses use. -/
def states : List State := [reset, st (md 6)] ++ ([0,1,7] : List Nat).flatMap fun l => ([.down, .train, .hello, .attest, .up, .quarantine] : List LinkState).flatMap fun k => [st (al l k id), st (al l k (fun x => { x with passed := true, taken := 5, held := [[1]], queue := [(none, [2])] }))]
def sample (k : Nat) : State := states.getD k State.reset
/-- Operands and states that meet the hypotheses of LinkStates, clause by clause. -/
theorem witness_LinkStates :
    (let l : Al := 0; let s : State := sample 0; s.sound ∧ (s.dev.link ↑l).st = LinkState.down ∧ s.dev.rdB (pgAL ↑l) Reg.AL_CTL 0 = true ∧ s.dev.portsOff = false)
    ∧ (let l : Al := 0; let s : State := sample 4; s.sound ∧ (s.dev.link ↑l).st = LinkState.train ∧ (∀ (c : Nat), c < 6 → s.dev.rxOcc (↑l) c = 0))
    ∧ (let l : Al := 0; let s : State := sample 4; s.sound ∧ (s.dev.link ↑l).st = LinkState.train)
    ∧ (let l : Al := 0; let s : State := sample 6; let m : HelloMsg := { role := 2, serial := 5, fabricId := 9, feat := 7, addr := 5, addrValid := true, coordHops := 2, coordSerial := 9 }; s.sound ∧ (s.dev.link ↑l).st = LinkState.hello ∧ BitVec.toNat m.fabricId ≠ s.dev.rd64 pgFAB Reg.FAB_ID_LO)
    ∧ (let l : Al := 0; let s : State := sample 6; let m : HelloMsg := { role := 1, serial := 0x100000000000000, fabricId := 0, feat := 0, addr := 5, addrValid := true, coordHops := 2, coordSerial := 9 }; s.sound ∧ (s.dev.link ↑l).st = LinkState.hello ∧ BitVec.toNat m.fabricId = s.dev.rd64 pgFAB Reg.FAB_ID_LO ∧ m.role = 1 ∧ ownSerial ≤ BitVec.toNat m.serial ∧ BitVec.toNat m.feat &&& s.dev.fabOffer = BitVec.toNat m.feat ∧ fabDepsOk (BitVec.toNat m.feat) = true)
    ∧ (let l : Al := 0; let s : State := sample 6; let m : HelloMsg := { role := 1, serial := 0x100000000000000, fabricId := 0, feat := 7, addr := 5, addrValid := true, coordHops := 2, coordSerial := 9 }; s.sound ∧ (s.dev.link ↑l).st = LinkState.hello ∧ BitVec.toNat m.fabricId = s.dev.rd64 pgFAB Reg.FAB_ID_LO ∧ m.role = 1 ∧ ownSerial ≤ BitVec.toNat m.serial ∧ BitVec.toNat m.feat &&& s.dev.fabOffer ≠ BitVec.toNat m.feat)
    ∧ (let l : Al := 0; let s : State := sample 9; s.sound ∧ (s.dev.link ↑l).st = LinkState.attest ∧ (s.dev.link ↑l).passed = true)
    ∧ (let l : Al := 0; let s : State := sample 8; s.sound ∧ (s.dev.link ↑l).st = LinkState.attest ∧ (s.dev.link ↑l).passed = false)
    ∧ (let l : Al := 0; let s : State := sample 8; s.sound ∧ (s.dev.link ↑l).st = LinkState.attest ∧ s.dev.canQuote = false)
    ∧ (let l : Al := 0; let s : State := sample 8; s.sound ∧ (s.dev.link ↑l).st = LinkState.attest)
    ∧ (let l : Al := 0; let s : State := sample 12; s.sound ∧ (s.dev.link ↑l).st = LinkState.quarantine)
    ∧ (let l : Al := 0; let s : State := sample 4; s.sound ∧ (s.dev.link ↑l).st ≠ LinkState.down ∧ (s.dev.link ↑l).st ≠ LinkState.quarantine)
    ∧ (let l : Al := 0; let s : State := sample 4; let r : Req := Req.hart 0; s.sound ∧ (s.dev.link ↑l).st ≠ LinkState.down ∧ (s.dev.link ↑l).st ≠ LinkState.quarantine ∧ s.reaches r) := by
  (try unfold State.sound); (try unfold State.reaches); (try unfold boundary); refine ⟨?_, ?_, ?_, ?_, ?_, ?_, ?_, ?_, ?_, ?_, ?_, ?_, ?_⟩ <;> first | decide | (refine ⟨by decide, by decide, by decide, by decide, Nat.le_of_lt Config.chipSerial.isLt, ?_⟩; decide)
end LinkStates

namespace Flits
def crcd (b : List Byte) : List Byte := b.take 60 ++ leBytes 4 (crc32c (b.take 60) % 2^32)
def mk (b : List Byte) : List Byte := crcd ((b ++ List.replicate 64 0).take 64)
def hm : Packet := { cls := 7, epoch := true, dst := 0, src := 3, hops := 0, bytes := [1,2,3,4,5,6,7,8] }
def al (l : Nat) (k : LinkState) (f : Link → Link) (d : Dev) : Dev := (((md 3 d).onLink l (fun x => f { x with st := k })).wrF (pgAL l) Reg.AL_STAT 2 0 k.code).wrN (pgAL l) Reg.AL_CTL 1
/-- The states that the witnesses use. -/
def states : List State := [reset, st (fun d => d.onFab (fun f => { f with unacked := [{ cls := 7, dst := 0, key := 0, seq := 0, due := 0, packet := hm }, { cls := 7, dst := 1, key := 0, seq := 0, due := 0, packet := {hm with via := some 2} }] }))] ++ ([0,1,7] : List Nat).flatMap fun l => ([.down, .hello, .attest, .up, .quarantine] : List LinkState).flatMap fun k => [st (al l k id), st (al l k (fun x => { x with rxSeq := 3, resend := [mk [9], mk [3,0,2]], held := [mk [9], mk [3,0,2]] })), st (al l k (fun x => { x with rxSeq := 4, replays := 7, held := [mk [9], mk [3,0,2]], queue := [(none, mk [1])] })), st (al l k (fun x => { x with rxSeq := 255, replays := 6, waitReplay := true, asm := [(0, [mk [1]])] }))
  , st (fun d => (al l k (fun x => { x with rxSeq := 3 }) d).wrN (pgAL l) (credOff 2 2) 5)]
def sample (k : Nat) : State := states.getD k State.reset
/-- Operands and states that meet the hypotheses of Flits, clause by clause. -/
theorem witness_Flits :
    (let l : Al := 0; let s : State := sample 8; let f : List Byte := [9, 0, 0, 0, 0, 0, 0, 0, 0, 0, 0, 0, 0, 0, 0, 0, 0, 0, 0, 0, 0, 0, 0, 0, 0, 0, 0, 0, 0, 0, 0, 0, 0, 0, 0, 0, 0, 0, 0, 0, 0, 0, 0, 0, 0, 0, 0, 0, 0, 0, 0, 0, 0, 0, 0, 0, 0, 0, 0, 0, 0xA1, 0x18, 0x59, 0x8C]; let rest : List (List Byte) := [[3, 0, 2, 0, 0, 0, 0, 0, 0, 0, 0, 0, 0, 0, 0, 0, 0, 0, 0, 0, 0, 0, 0, 0, 0, 0, 0, 0, 0, 0, 0, 0, 0, 0, 0, 0, 0, 0, 0, 0, 0, 0, 0, 0, 0, 0, 0, 0, 0, 0, 0, 0, 0, 0, 0, 0, 0, 0, 0, 0, 0xC5, 0x22, 0xC0, 0xAB]]; s.sound ∧ (s.dev.link ↑l).st ≠ LinkState.down ∧ (s.dev.link ↑l).st ≠ LinkState.train ∧ (s.dev.link ↑l).resend = f :: rest)
    ∧ (let l : Al := 0; let s : State := sample 7; s.sound ∧ (s.dev.link ↑l).st ≠ LinkState.down ∧ (s.dev.link ↑l).st ≠ LinkState.train ∧ (s.dev.link ↑l).resend = [] ∧ (s.dev.link ↑l).queue = [])
    ∧ (let l : Al := 0; let s : State := sample 7; let f : List Byte := [7, 7, 7, 7, 7, 7, 7, 7, 7, 7, 7, 7, 7, 7, 7, 7, 7, 7, 7, 7, 7, 7, 7, 7, 7, 7, 7, 7, 7, 7, 7, 7, 7, 7, 7, 7, 7, 7, 7, 7, 7, 7, 7, 7, 7, 7, 7, 7, 7, 7, 7, 7, 7, 7, 7, 7, 7, 7, 7, 7, 7, 7, 7, 7]; s.sound ∧ f.length = 64 ∧ (s.dev.link ↑l).st ≠ LinkState.down ∧ (s.dev.link ↑l).st ≠ LinkState.train ∧ crc32c (List.take 60 f) ≠ ofLe (List.drop 60 f))
    ∧ (let l : Al := 0; let s : State := sample 7; let f : List Byte := [0, 0, 7, 0, 0, 0, 0, 0, 0, 0, 0, 0, 0, 0, 0, 0, 0, 0, 0, 0, 0, 0, 0, 0, 0, 0, 0, 0, 0, 0, 0, 0, 0, 0, 0, 0, 0, 0, 0, 0, 0, 0, 0, 0, 0, 0, 0, 0, 0, 0, 0, 0, 0, 0, 0, 0, 0, 0, 0, 0, 0xEE, 0x86, 0x76, 0x5E]; s.sound ∧ f.length = 64 ∧ (s.dev.link ↑l).st ≠ LinkState.down ∧ (s.dev.link ↑l).st ≠ LinkState.train ∧ crc32c (List.take 60 f) = ofLe (List.drop 60 f) ∧ flitClass f = 7 ∧ BitVec.toNat (f.getD 8 0) = 0 ∧ BitVec.toNat (f.getD 3 0) / 8 = 0)
    ∧ (let l : Al := 0; let s : State := sample 17; let f : List Byte := [0, 0, 0, 0, 0, 0, 0, 0, 0, 0, 0, 0, 0, 0, 0, 0, 0, 0, 0, 0, 0, 0, 0, 0, 0, 0, 0, 0, 0, 0, 0, 0, 0, 0, 0, 0, 0, 0, 0, 0, 0, 0, 0, 0, 0, 0, 0, 0, 0, 0, 0, 0, 0, 0, 0, 0, 0, 0, 0, 0, 0x31, 5, 0xB, 0x5A]; s.sound ∧ f.length = 64 ∧ (s.dev.link ↑l).st ≠ LinkState.down ∧ (s.dev.link ↑l).st ≠ LinkState.train ∧ crc32c (List.take 60 f) = ofLe (List.drop 60 f) ∧ flitClass f < 6 ∧ (s.dev.link ↑l).st = LinkState.up ∧ BitVec.toNat (f.getD 0 0) = ((s.dev.link ↑l).rxSeq + 1) % 256 ∧ BitVec.getLsbD (f.getD 2 0) 5 = false)
    ∧ (let l : Al := 0; let s : State := sample 0; let lack : Byte := 0; s.sound ∧ ((s.dev.link ↑l).held.any fun f => BitVec.toNat (f.getD 0 0) == BitVec.toNat lack) = false ∧ (s.dev.link ↑l).replays < 7)
    ∧ (let l : Al := 0; let s : State := sample 19; let lack : Byte := 0; s.sound ∧ ((s.dev.link ↑l).held.any fun f => BitVec.toNat (f.getD 0 0) == BitVec.toNat lack) = false ∧ 7 ≤ (s.dev.link ↑l).replays ∧ (s.dev.link ↑l).st = LinkState.up)
    ∧ (let s : State := sample 1; let dst : BitVec 12 := 0; let u : Unacked := { cls := 7, dst := 0, key := 0, seq := 0, due := 0, packet := { cls := 7, epoch := true, dst := 0, src := 3, hops := 0, bytes := [1, 2, 3, 4, 5, 6, 7, 8], via := none } }; s.sound ∧ List.find? (fun u => u.cls == 7 && u.dst == dst.toNat) s.dev.fab.unacked = some u) := by
  (try unfold State.sound); (try unfold State.reaches); (try unfold boundary); refine ⟨?_, ?_, ?_, ?_, ?_, ?_, ?_, ?_⟩ <;> decide
end Flits

namespace Discovery
def fb (f : FabricSt → FabricSt) (stat : Nat) (d : Dev) : Dev := ((md 3 d).onFab f).wrN pgFAB Reg.FAB_STAT stat
def lc (c : Nat) : Option Loc := some { chip := c, head := 3, moving := false }
/-- The states that the witnesses use. -/
def states : List State := [reset, st (fb id 0), st (fb id 0x2000), st (fb id 0x1005), st (fb id 0xB000), st (fb (fun f => { f with coordSerial := some 5, coordHops := 2, parentLink := some 1 }) 0x1003), st (fb (fun f => { f with coordSerial := some 5, silent := some 0 }) 0x8001),
  st (fb (fun f => { f with coordSerial := some 9, members := [1, 3, 0xFFF], claims := [{ serial := 5, claim := some 3, given := some 3 }], locs := [(5, lc 1), (9, lc 0xFFF), (10, lc 3)] }) 0xB003),
  st (fun d => { (fb (fun f => { f with members := [1, 3, 0xFFF], locs := [(5, lc 1), (9, lc 0xFFF)] }) 0x1003 d) with enc := { mirrors := [(1024, some { head := 4, ack := 0, needKey := true, needAt := 0, chip := some 1, sess := 4, snd := 0, evict := [], reset := false }), (1026, some { head := 4, ack := 0, needKey := true, needAt := 0, chip := some 0xFFF, sess := 4, snd := 0, evict := [], reset := false })], sessions := [(4, { remoteSlot := some (1, 1024) })] } })
 , st (fun d => (fb (fun f => { f with migs := [(0, { st := .precopy, dst := 1 }), (8, { st := .precopy, peer := 1, slots := [1024] })], members := [1,3] }) 0x1003 d))]
def sample (k : Nat) : State := states.getD k State.reset
/-- Operands and states that meet the hypotheses of Discovery, clause by clause. -/
theorem witness_Discovery :
    (let s : State := sample 5; let serial : DWord := 0; let c : DWord := 5; s.sound ∧ s.dev.fab.coordSerial = some c ∧ BitVec.toNat serial < BitVec.toNat c ∧ Option.map BitVec.toNat s.dev.fab.silent ≠ some (BitVec.toNat serial))
    ∧ (let s : State := sample 5; let serial : DWord := 9; let c : DWord := 5; s.sound ∧ s.dev.fab.coordSerial = some c ∧ BitVec.toNat c < BitVec.toNat serial)
    ∧ (let s : State := sample 0; s.sound ∧ s.dev.fab.coordSerial = none ∧ s.dev.rdB pgFAB Reg.FAB_STAT 13 = false)
    ∧ (let s : State := sample 2; s.sound ∧ s.dev.rdB pgFAB Reg.FAB_STAT 13 = true)
    ∧ (let s : State := sample 0; s.sound)
    ∧ (let s : State := sample 3; s.sound ∧ s.dev.addrValid = true ∧ s.dev.rdB pgFAB Reg.FAB_STAT 13 = false)
    ∧ (let s : State := sample 0; s.sound ∧ s.dev.rdB pgFAB Reg.FAB_STAT 13 = false)
    ∧ (let s : State := sample 0; let addr : BitVec 12 := 1; s.sound ∧ addr.toNat ≠ s.dev.myAddr) := by
  (try unfold State.sound); (try unfold State.reaches); (try unfold boundary); refine ⟨?_, ?_, ?_, ?_, ?_, ?_, ?_, ?_⟩ <;> decide
end Discovery

namespace RoutingSwap
def fb (rt stat : Nat) (f : FabricSt → FabricSt) (d : Dev) : Dev := (((md 3 d).onFab f).wrN pgFAB Reg.FAB_STAT stat).wrN pgFAB Reg.RT_CTL rt
def pk : Packet := { cls := 2, epoch := true, dst := 0, src := 3, hops := 0, bytes := [1,2,3,4,5,6,7,8] }
/-- The states that the witnesses use. -/
def states : List State := [reset] ++ ([0,1,2,3] : List Nat).flatMap fun k => [st (fb (8*k) 0 id), st (fb (8*k+4) 0x2000 id), st (fun d => (fb (8*k+4) 0x3000 (fun f => { f with hold := [pk, {pk with via := some 3}], goAt := some 55 }) d).wrN pgPWR Reg.PWR_STAT 1), st (fb (8*k+4) 0x3000 (fun f => { f with hold := [pk, {pk with via := some 3}], goAt := some 55 })), st (fb (8*k+3) 0x2000 (fun f => { f with hold := [pk], lostDraining := true, goAt := some 100000 }))]
def sample (k : Nat) : State := states.getD k State.reset
/-- Operands and states that meet the hypotheses of RoutingSwap, clause by clause. -/
theorem witness_RoutingSwap :
    (let r : Req := Req.hart 0; let s : State := sample 0; s.sound ∧ s.reaches r ∧ s.dev.swapState = 0)
    ∧ (let r : Req := Req.hart 0; let s : State := sample 7; s.sound ∧ s.reaches r ∧ s.dev.swapState = 1 ∧ s.dev.rdB pgFAB Reg.FAB_STAT 13 = true)
    ∧ (let r : Req := Req.hart 0; let s : State := sample 11; s.sound ∧ s.reaches r ∧ s.dev.swapState = 2 ∧ s.dev.rdB pgPWR Reg.PWR_STAT 0 = false)
    ∧ (let r : Req := Req.hart 0; let s : State := sample 13; s.sound ∧ s.reaches r ∧ s.dev.swapState = 2 ∧ s.dev.rdB pgPWR Reg.PWR_STAT 0 = true)
    ∧ (let r : Req := Req.hart 0; let s : State := sample 17; let inj : DWord := 0; let ended : DWord := 0; s.sound ∧ s.reaches r ∧ s.dev.swapState = 3 ∧ s.dev.rdB pgFAB Reg.FAB_STAT 13 = true ∧ inj = ended)
    ∧ (let r : Req := Req.hart 0; let s : State := sample 17; let inj : DWord := 0; let ended : DWord := 1; s.sound ∧ s.reaches r ∧ s.dev.swapState = 3 ∧ s.dev.rdB pgFAB Reg.FAB_STAT 13 = true ∧ inj ≠ ended ∧ s.dev.fab.lostDraining = false)
    ∧ (let r : Req := Req.hart 0; let s : State := sample 16; s.sound ∧ s.reaches r ∧ s.dev.swapState = 3) := by
  (try unfold State.sound); (try unfold State.reaches); (try unfold boundary); refine ⟨?_, ?_, ?_, ?_, ?_, ?_, ?_⟩ <;> decide
end RoutingSwap

namespace FabricTime
def tm (stat : Nat) (f : FabricSt → FabricSt) (d : Dev) : Dev := ((md 3 d).onFab f).wrN pgTIME Reg.TIME_STAT stat
def up (l : Nat) (d : Dev) : Dev := d.onLink l (fun x => { x with st := .up })
/-- The states that the witnesses use. -/
def states : List State := [reset, st clk] ++ ([0,1,2,3,4] : List Nat).flatMap fun k => [st (tm k id), st (fun d => clk (tm (k + 0x1000) id d)), st (fun d => up 1 (up 3 (clk (tm (k + 8) id d)))), st (fun d => up 1 (clk (tm (k + 8) (fun f => { f with parent := some 1, servoI := 5, goodRun := 3, lastSync := 77 }) d))), st (fun d => up 0 (clk (tm k (fun f => { f with parent := some 0, servoI := -5, badRun := 3, lastSync := 77 }) d)))]
def sample (k : Nat) : State := states.getD k State.reset
/-- Operands and states that meet the hypotheses of FabricTime, clause by clause. -/
theorem witness_FabricTime :
    (let s : State := sample 0; s.sound ∧ s.dev.clock.started = false)
    ∧ (let s : State := sample 0; s.sound)
    ∧ (let s : State := sample 5; let l : Al := 1; let t1 : DWord := 0; let t2 : DWord := 0; let t3 : DWord := 0; let t4 : DWord := 0; s.sound ∧ (s.dev.link ↑l).st = LinkState.up ∧ (∀ (k : Nat), k < 8 → k ≠ ↑l → (s.dev.link k).st ≠ LinkState.up) ∧ s.dev.fab.parent = some ↑l ∧ s.dev.isRoot = false ∧ s.dev.timeState ≠ 4 ∧ s.dev.clock.started = true ∧ (syncOffset (BitVec.toNat t1) (BitVec.toNat t2) (BitVec.toNat t3) (BitVec.toNat t4) (signed 16 (s.dev.rdF (pgAL ↑l) Reg.AL_ASYM 15 0))).natAbs ≤ 2 ^ 32)
    ∧ (let s : State := sample 5; let l : Al := 1; let t1 : DWord := 0; let t2 : DWord := 0; let t3 : DWord := 0; let t4 : DWord := 0x300000000; s.sound ∧ (s.dev.link ↑l).st = LinkState.up ∧ (∀ (k : Nat), k < 8 → k ≠ ↑l → (s.dev.link k).st ≠ LinkState.up) ∧ s.dev.fab.parent = some ↑l ∧ s.dev.isRoot = false ∧ s.dev.timeState ≠ 4 ∧ s.dev.clock.started = true ∧ 2 ^ 32 < (syncOffset (BitVec.toNat t1) (BitVec.toNat t2) (BitVec.toNat t3) (BitVec.toNat t4) (signed 16 (s.dev.rdF (pgAL ↑l) Reg.AL_ASYM 15 0))).natAbs)
    ∧ (let s : State := sample 7; s.sound ∧ s.dev.isRoot = false ∧ (s.dev.timeState = 1 ∨ s.dev.timeState = 2)) := by
  (try unfold State.sound); (try unfold State.reaches); (try unfold boundary); refine ⟨?_, ?_, ?_, ?_, ?_⟩ <;> decide
end FabricTime

namespace RemoteConsoles
def nm (d : Dev) : Dev := putB [1] dramBase (((((clk (md 3 d)).wr64 (pgHD 5) Reg.HB_NAME_LO 7).wrN (pgHD 5) Reg.HB_STAT 2).wrN (pgDDR 0) Reg.DDR_TOTAL 96).wrN pgSESS Reg.SESS_TABLE_HI 0x100 |>.wrN pgFAB Reg.FAB_STAT 0x1003 |>.onFab (fun f => { f with members := [3] }))
def lc (c : Nat) : Option Loc := some { chip := c, head := 3, moving := false }
/-- The states that the witnesses use. -/
def states : List State := [reset, st nm, st (fun d => (nm d).onFab (fun f => { f with locs := [(7, lc 4), (8, lc 3)], members := [3, 0xFFF] })), st (fun d => { (nm d) with seqs := [(7, 5)] }), st (fun d => { (nm d) with seqs := [(7, 8)], gaps := [(7, [5])] }), st (fun d => { (nm d) with seqs := [(7, 8)], enc := { control := [(8, 4)], sessions := [(0, { remoteSlot := some (3, 1024), relay := [[2,0,8,0]] })] } }), st (fun d => (nm d).onLane 5 (fun l => { l with pendingIn := [ev0] }))]
def sample (k : Nat) : State := states.getD k State.reset
/-- Operands and states that meet the hypotheses of RemoteConsoles, clause by clause. -/
theorem witness_RemoteConsoles :
    (let s : State := sample 1; let name : DWord := 0; s.sound ∧ s.dev.homeOf (BitVec.toNat name) = some s.dev.myAddr)
    ∧ (let s : State := sample 1; let name : DWord := 7; let h : Nat := 5; let slot : Nat := 1024; let rest : List Nat := [1025, 1026, 1027, 1028, 1029, 1030, 1031, 1032, 1033, 1034, 1035, 1036, 1037, 1038, 1039, 1040, 1041, 1042, 1043, 1044, 1045, 1046, 1047, 1048, 1049, 1050, 1051, 1052, 1053, 1054, 1055, 1056, 1057, 1058, 1059, 1060, 1061, 1062, 1063, 1064, 1065, 1066, 1067, 1068, 1069, 1070, 1071, 1072, 1073, 1074, 1075, 1076, 1077, 1078, 1079, 1080, 1081, 1082, 1083, 1084, 1085, 1086, 1087, 1088, 1089, 1090, 1091, 1092, 1093, 1094, 1095, 1096, 1097, 1098, 1099, 1100, 1101, 1102, 1103, 1104, 1105, 1106, 1107, 1108, 1109, 1110, 1111, 1112, 1113, 1114, 1115, 1116, 1117, 1118, 1119, 1120, 1121, 1122, 1123, 1124, 1125, 1126, 1127, 1128, 1129, 1130, 1131, 1132, 1133, 1134, 1135, 1136, 1137, 1138, 1139, 1140, 1141, 1142, 1143, 1144, 1145, 1146, 1147, 1148, 1149, 1150, 1151, 1152, 1153, 1154, 1155, 1156, 1157, 1158, 1159, 1160, 1161, 1162, 1163, 1164, 1165, 1166, 1167, 1168, 1169, 1170, 1171, 1172, 1173, 1174, 1175, 1176, 1177, 1178, 1179, 1180, 1181, 1182, 1183, 1184, 1185, 1186, 1187, 1188, 1189, 1190, 1191, 1192, 1193, 1194, 1195, 1196, 1197, 1198, 1199, 1200, 1201, 1202, 1203, 1204, 1205, 1206, 1207, 1208, 1209, 1210, 1211, 1212, 1213, 1214, 1215, 1216, 1217, 1218, 1219, 1220, 1221, 1222, 1223, 1224, 1225, 1226, 1227, 1228, 1229, 1230, 1231, 1232, 1233, 1234, 1235, 1236, 1237, 1238, 1239, 1240, 1241, 1242, 1243, 1244, 1245, 1246, 1247, 1248, 1249, 1250, 1251, 1252, 1253, 1254, 1255, 1256, 1257, 1258, 1259, 1260, 1261, 1262, 1263, 1264, 1265, 1266, 1267, 1268, 1269, 1270, 1271, 1272, 1273, 1274, 1275, 1276, 1277, 1278, 1279, 1280, 1281, 1282, 1283, 1284, 1285, 1286, 1287, 1288, 1289, 1290, 1291, 1292, 1293, 1294, 1295, 1296, 1297, 1298, 1299, 1300, 1301, 1302, 1303, 1304, 1305, 1306, 1307, 1308, 1309, 1310, 1311, 1312, 1313, 1314, 1315, 1316, 1317, 1318, 1319, 1320, 1321, 1322, 1323, 1324, 1325, 1326, 1327, 1328, 1329, 1330, 1331, 1332, 1333, 1334, 1335, 1336, 1337, 1338, 1339, 1340, 1341, 1342, 1343, 1344, 1345, 1346, 1347, 1348, 1349, 1350, 1351, 1352, 1353, 1354, 1355, 1356, 1357, 1358, 1359, 1360, 1361, 1362, 1363, 1364, 1365, 1366, 1367, 1368, 1369, 1370, 1371, 1372, 1373, 1374, 1375, 1376, 1377, 1378, 1379, 1380, 1381, 1382, 1383, 1384, 1385, 1386, 1387, 1388, 1389, 1390, 1391, 1392, 1393, 1394, 1395, 1396, 1397, 1398, 1399, 1400, 1401, 1402, 1403, 1404, 1405, 1406, 1407, 1408, 1409, 1410, 1411, 1412, 1413, 1414, 1415, 1416, 1417, 1418, 1419, 1420, 1421, 1422, 1423, 1424, 1425, 1426, 1427, 1428, 1429, 1430, 1431, 1432, 1433, 1434, 1435, 1436, 1437, 1438, 1439, 1440, 1441, 1442, 1443, 1444, 1445, 1446, 1447, 1448, 1449, 1450, 1451, 1452, 1453, 1454, 1455, 1456, 1457, 1458, 1459, 1460, 1461, 1462, 1463, 1464, 1465, 1466, 1467, 1468, 1469, 1470, 1471, 1472, 1473, 1474, 1475, 1476, 1477, 1478, 1479, 1480, 1481, 1482, 1483, 1484, 1485, 1486, 1487, 1488, 1489, 1490, 1491, 1492, 1493, 1494, 1495, 1496, 1497, 1498, 1499, 1500, 1501, 1502, 1503, 1504, 1505, 1506, 1507, 1508, 1509, 1510, 1511, 1512, 1513, 1514, 1515, 1516, 1517, 1518, 1519, 1520, 1521, 1522, 1523, 1524, 1525, 1526, 1527, 1528, 1529, 1530, 1531, 1532, 1533, 1534, 1535, 1536, 1537, 1538, 1539, 1540, 1541, 1542, 1543, 1544, 1545, 1546, 1547, 1548, 1549, 1550, 1551, 1552, 1553, 1554, 1555, 1556, 1557, 1558, 1559, 1560, 1561, 1562, 1563, 1564, 1565, 1566, 1567, 1568, 1569, 1570, 1571, 1572, 1573, 1574, 1575, 1576, 1577, 1578, 1579, 1580, 1581, 1582, 1583, 1584, 1585, 1586, 1587, 1588, 1589, 1590, 1591, 1592, 1593, 1594, 1595, 1596, 1597, 1598, 1599, 1600, 1601, 1602, 1603, 1604, 1605, 1606, 1607, 1608, 1609, 1610, 1611, 1612, 1613, 1614, 1615, 1616, 1617, 1618, 1619, 1620, 1621, 1622, 1623, 1624, 1625, 1626, 1627, 1628, 1629, 1630, 1631, 1632, 1633, 1634, 1635, 1636, 1637, 1638, 1639, 1640, 1641, 1642, 1643, 1644, 1645, 1646, 1647, 1648, 1649, 1650, 1651, 1652, 1653, 1654, 1655, 1656, 1657, 1658, 1659, 1660, 1661, 1662, 1663, 1664, 1665, 1666, 1667, 1668, 1669, 1670, 1671, 1672, 1673, 1674, 1675, 1676, 1677, 1678, 1679, 1680, 1681, 1682, 1683, 1684, 1685, 1686, 1687, 1688, 1689, 1690, 1691, 1692, 1693, 1694, 1695, 1696, 1697, 1698, 1699, 1700, 1701, 1702, 1703, 1704, 1705, 1706, 1707, 1708, 1709, 1710, 1711, 1712, 1713, 1714, 1715, 1716, 1717, 1718, 1719, 1720, 1721, 1722, 1723, 1724, 1725, 1726, 1727, 1728, 1729, 1730, 1731, 1732, 1733, 1734, 1735, 1736, 1737, 1738, 1739, 1740, 1741, 1742, 1743, 1744, 1745, 1746, 1747, 1748, 1749, 1750, 1751, 1752, 1753, 1754, 1755, 1756, 1757, 1758, 1759, 1760, 1761, 1762, 1763, 1764, 1765, 1766, 1767, 1768, 1769, 1770, 1771, 1772, 1773, 1774, 1775, 1776, 1777, 1778, 1779, 1780, 1781, 1782, 1783, 1784, 1785, 1786, 1787, 1788, 1789, 1790, 1791, 1792, 1793, 1794, 1795, 1796, 1797, 1798, 1799, 1800, 1801, 1802, 1803, 1804, 1805, 1806, 1807, 1808, 1809, 1810, 1811, 1812, 1813, 1814, 1815, 1816, 1817, 1818, 1819, 1820, 1821, 1822, 1823, 1824, 1825, 1826, 1827, 1828, 1829, 1830, 1831, 1832, 1833, 1834, 1835, 1836, 1837, 1838, 1839, 1840, 1841, 1842, 1843, 1844, 1845, 1846, 1847, 1848, 1849, 1850, 1851, 1852, 1853, 1854, 1855, 1856, 1857, 1858, 1859, 1860, 1861, 1862, 1863, 1864, 1865, 1866, 1867, 1868, 1869, 1870, 1871, 1872, 1873, 1874, 1875, 1876, 1877, 1878, 1879, 1880, 1881, 1882, 1883, 1884, 1885, 1886, 1887, 1888, 1889, 1890, 1891, 1892, 1893, 1894, 1895, 1896, 1897, 1898, 1899, 1900, 1901, 1902, 1903, 1904, 1905, 1906, 1907, 1908, 1909, 1910, 1911, 1912, 1913, 1914, 1915, 1916, 1917, 1918, 1919, 1920, 1921, 1922, 1923, 1924, 1925, 1926, 1927, 1928, 1929, 1930, 1931, 1932, 1933, 1934, 1935, 1936, 1937, 1938, 1939, 1940, 1941, 1942, 1943, 1944, 1945, 1946, 1947, 1948, 1949, 1950, 1951, 1952, 1953, 1954, 1955, 1956, 1957, 1958, 1959, 1960, 1961, 1962, 1963, 1964, 1965, 1966, 1967, 1968, 1969, 1970, 1971, 1972, 1973, 1974, 1975, 1976, 1977, 1978, 1979, 1980, 1981, 1982, 1983, 1984, 1985, 1986, 1987, 1988, 1989, 1990, 1991, 1992, 1993, 1994, 1995, 1996, 1997, 1998, 1999, 2000, 2001, 2002, 2003, 2004, 2005, 2006, 2007, 2008, 2009, 2010, 2011, 2012, 2013, 2014, 2015, 2016, 2017, 2018, 2019, 2020, 2021, 2022, 2023, 2024, 2025, 2026, 2027, 2028, 2029, 2030, 2031, 2032, 2033, 2034, 2035, 2036, 2037, 2038, 2039, 2040, 2041, 2042, 2043, 2044, 2045, 2046, 2047]; s.sound ∧ s.dev.headOf (BitVec.toNat name) = some h ∧ s.dev.freeSlots = slot :: rest)
    ∧ (let s : State := sample 5; let k : Sess := 0; let slot : BitVec 16 := 0x400; let record : List Byte := [2, 0, 8, 0, 0, 0, 0, 0]; let chip : Nat := 3; s.sound ∧ ((s.dev.sess ↑k).remoteSlot = some (chip, slot.toNat)) ∧ s.dev.sessState ↑k ≠ 0 ∧ recType record = 2)
    ∧ (let s : State := sample 5; let k : Sess := 0; let slot : BitVec 16 := 0x400; let record : List Byte := [0x10, 0, 8, 0, 0, 0, 0, 0]; let chip : Nat := 3; s.sound ∧ ((s.dev.sess ↑k).remoteSlot = some (chip, slot.toNat)) ∧ s.dev.sessState ↑k ≠ 0 ∧ 16 ≤ recType record ∧ recType record < 48)
    ∧ (let s : State := sample 1; let name : DWord := 7; let ev : InputMsg := { seq := 5, arrival := 0, kind := 1, origin := 1, payload := [0, 0, 0, 0, 0, 0, 0, 0, 0, 0, 0, 0] }; let h : Nat := 5; s.sound ∧ s.dev.headOf (BitVec.toNat name) = some h ∧ s.dev.lastSeq (BitVec.toNat name) < ev.seq ∧ (s.dev.lane h).pendingIn.length < 256)
    ∧ (let s : State := sample 0; let name : DWord := 0; s.sound ∧ s.dev.controller (BitVec.toNat name) = none) := by
  (try unfold State.sound); (try unfold State.reaches); (try unfold boundary); refine ⟨?_, ?_, ?_, ?_, ?_, ?_⟩ <;> decide
end RemoteConsoles

namespace DuplicateInput
def nm (d : Dev) : Dev := putB [1] dramBase (((((clk (md 3 d)).wr64 (pgHD 5) Reg.HB_NAME_LO 7).wrN (pgHD 5) Reg.HB_STAT 2).wrN (pgDDR 0) Reg.DDR_TOTAL 96).wrN pgSESS Reg.SESS_TABLE_HI 0x100 |>.wrN pgFAB Reg.FAB_STAT 0x1003 |>.onFab (fun f => { f with members := [3] }))
def lc (c : Nat) : Option Loc := some { chip := c, head := 3, moving := false }
/-- The states that the witnesses use. -/
def states : List State := [reset, st nm, st (fun d => (nm d).onFab (fun f => { f with locs := [(7, lc 4), (8, lc 3)], members := [3, 0xFFF] })), st (fun d => { (nm d) with seqs := [(7, 5)] }), st (fun d => { (nm d) with seqs := [(7, 8)], gaps := [(7, [5])] }), st (fun d => { (nm d) with seqs := [(7, 8)], enc := { control := [(8, 4)], sessions := [(0, { remoteSlot := some (3, 1024), relay := [[2,0,8,0]] })] } }), st (fun d => (nm d).onLane 5 (fun l => { l with pendingIn := [ev0] }))]
def sample (k : Nat) : State := states.getD k State.reset
/-- Operands and states that meet the hypotheses of DuplicateInput, clause by clause. -/
theorem witness_DuplicateInput :
    (let name : DWord := 7; let ev : InputMsg := { seq := 5, arrival := 0, kind := 1, origin := 1, payload := [0, 0, 0, 0, 0, 0, 0, 0, 0, 0, 0, 0] }; let h : Nat := 5; let s : State := sample 3; s.sound ∧ s.dev.headOf (BitVec.toNat name) = some h ∧ ev.seq ≤ s.dev.lastSeq (BitVec.toNat name) ∧ (¬ev.seq ∈ s.dev.gapsOf (BitVec.toNat name))) := by
  (try unfold State.sound); (try unfold State.reaches); (try unfold boundary); decide
end DuplicateInput

namespace Migration
def c0 : Carried := { s1 := 0, regs := [], bytes := [], tones := [], nextSeq := some 5, viewers := [] }
def base (stat : Nat) (d : Dev) : Dev := (((((((clk (tim 6 (tim 5 (md 3 d)))).wr64 (pgHD 5) Reg.HB_NAME_LO 7).wrN (pgHD 5) Reg.HB_STAT 2).wrN pgFAB Reg.FAB_STAT stat).wrN pgTIME Reg.TIME_STAT 2).wrN (pgHD 6) Reg.HD_MODE 8).wrN (pgHD 5) Reg.HD_MODE 1)
def mg (stat : Nat) (l : List (Nat × Mig)) (sel : Nat) (d : Dev) : Dev := ((base stat d).onFab (fun f => { f with migs := l, members := [3, 4] })).wrN pgFAB Reg.MIG_SEL sel
def m0 (s : MigSt) : Mig := { st := s, src := 5, dst := 0x60003, goSrc := 5, goDst := 0x60003, name := 7, va := 5, vb := 6, peer := 4, peerSlot := 0 }
def late (d : Dev) : Dev := { d with clock := { d.clock with started := true, ft := 0x40000000 } }
/-- The states that the witnesses use. -/
def states : List State := [reset, st (fun d => late (mg 0x1003 [(0, m0 .precopy), (8, m0 .precopy)] 0 d))] ++ ([0,7] : List Nat).flatMap fun k => [st (mg 0x1003 [(k, { src := 5, dst := 0x60003 })] k), st (mg 0x1003 [(k, { src := 5, dst := 0x60004 })] k)] ++ (([.reserve, .precopy, .converged, .cutover, .done, .failed] : List MigSt).flatMap fun s => [st (mg 0x1003 [(k, m0 s), (8+k, m0 s)] k), st (mg 0x1003 [(k, {m0 s with acked := true, carried := some c0, frame := 3, auto := true, dirty := [1,2,3]}), (8+k, {m0 s with acked := true, carried := some c0, frame := 3, slots := [1024], viewers := []})] k),
   st (fun d => ((mg 0x1003 [(k, {m0 s with dirty := List.replicate 2000 4, wasDetached := true}), (8+k, { m0 s with frame := 3})] k d).onHead 6 (fun x => { x with adm := .waiting, reserved := 1 }))),
   st (fun d => ((mg 0x1003 [(k, {m0 s with forwarding := true, acked := true}), (8+k, { m0 s with frame := 3, acked := true})] k d).onHead 6 (fun x => { x with adm := .waiting, reserved := 2, first := 3 })).onHead 5 (fun x => { x with adm := .running, cur := some 2, last := some 2 })) ])
def sample (k : Nat) : State := states.getD k State.reset
/-- Operands and states that meet the hypotheses of Migration, clause by clause. -/
theorem witness_Migration :
    (let r : Req := Req.hart 0; let k : Fin 8 := 0; let s : State := sample 2; let auto : Bool := false; s.sound ∧ s.reaches r ∧ s.dev.migSel = ↑k ∧ (s.dev.mig ↑k).active = false ∧ (s.dev.mig ↑k).forwarding = false ∧ s.dev.console (BitVec.toNat (s.dev.mig ↑k).src % 128) ≠ 0 ∧ (s.dev.startCode ({ s.dev.mig ↑k with goSrc := (s.dev.mig ↑k).src, goDst := (s.dev.mig ↑k).dst } : Mig).chipB = 0))
    ∧ (let r : Req := Req.hart 0; let k : Fin 8 := 0; let s : State := sample 3; let auto : Bool := false; s.sound ∧ s.reaches r ∧ s.dev.migSel = ↑k ∧ (s.dev.mig ↑k).active = false ∧ (s.dev.mig ↑k).forwarding = false ∧ s.dev.console (BitVec.toNat (s.dev.mig ↑k).src % 128) ≠ 0 ∧ (s.dev.startCode ({ s.dev.mig ↑k with goSrc := (s.dev.mig ↑k).src, goDst := (s.dev.mig ↑k).dst } : Mig).chipB ≠ 0))
    ∧ (let r : Req := Req.hart 0; let k : Fin 8 := 0; let s : State := sample 4; let code : Nat := 0; s.sound ∧ s.reaches r ∧ (s.dev.mig ↑k).st = MigSt.reserve ∧ code = 0)
    ∧ (let r : Req := Req.hart 0; let k : Fin 8 := 0; let s : State := sample 4; let code : Nat := 8; s.sound ∧ s.reaches r ∧ (s.dev.mig ↑k).st = MigSt.reserve ∧ code ≠ 0)
    ∧ (let r : Req := Req.hart 0; let s : State := sample 1; let a : BitVec 12 := 4; let vb : VHead := 6; let ht : Word := 0x600040; let vt : Word := 0x600040; let fp : Word := 0x600040; let origin : DWord := 7; let dram : Nat := 0; let glyph : Nat := 0; let n : Nat := 0; let al : Bool := true; let slot : Nat := 9; s.sound ∧ s.reaches r ∧ List.find? (fun i => !(s.dev.mig i).active) (List.map (fun i => 8 + i) (List.range 8)) = some slot ∧ (s.dev.takeTiming (↑vb) ht vt fp (BitVec.toNat origin)).reserveCode (↑vb) dram glyph n (decide (a.toNat = s.dev.myAddr)) al = 0)
    ∧ (let r : Req := Req.hart 0; let s : State := sample 0; let a : BitVec 12 := 4; let vb : VHead := 6; let ht : Word := 0x600040; let vt : Word := 0x600040; let fp : Word := 0x600040; let origin : DWord := 7; let dram : Nat := 0; let glyph : Nat := 0; let n : Nat := 0; let al : Bool := false; let slot : Nat := 8; s.sound ∧ s.reaches r ∧ List.find? (fun i => !(s.dev.mig i).active) (List.map (fun i => 8 + i) (List.range 8)) = some slot ∧ (s.dev.takeTiming (↑vb) ht vt fp (BitVec.toNat origin)).reserveCode (↑vb) dram glyph n (decide (a.toNat = s.dev.myAddr)) al ≠ 0)
    ∧ (let r : Req := Req.hart 0; let k : Fin 8 := 0; let s : State := sample 1; s.sound ∧ s.reaches r ∧ (s.dev.mig ↑k).st = MigSt.precopy ∧ (s.dev.mig ↑k).auto = false)
    ∧ (let r : Req := Req.hart 0; let k : Fin 8 := 0; let s : State := sample 12; s.sound ∧ s.reaches r ∧ s.dev.migSel = ↑k ∧ (s.dev.mig ↑k).st = MigSt.converged)
    ∧ (let r : Req := Req.hart 0; let k : Fin 8 := 0; let s : State := sample 1; let c : Carried := { s1 := 4294967296, regs := [], bytes := [], tones := [], nextSeq := some 5, viewers := [] }; s.sound ∧ s.reaches r ∧ (s.dev.mig (8 + ↑k)).st = MigSt.precopy ∧ (s.dev.mig (8 + ↑k)).peer ≠ s.dev.myAddr ∧ s.dev.startFt (s.dev.mig (8 + ↑k)).vb (s.dev.cutFrame (s.dev.mig (8 + ↑k)).vb) ≤ c.s1 + 2 * s.dev.fperiod (s.dev.mig (8 + ↑k)).vb)
    ∧ (let r : Req := Req.hart 0; let k : Fin 8 := 0; let s : State := sample 1; let c : Carried := { s1 := 0, regs := [], bytes := [], tones := [], nextSeq := some 5, viewers := [] }; s.sound ∧ s.reaches r ∧ (s.dev.mig (8 + ↑k)).st = MigSt.precopy ∧ (s.dev.mig (8 + ↑k)).peer ≠ s.dev.myAddr ∧ c.s1 + 2 * s.dev.fperiod (s.dev.mig (8 + ↑k)).vb < s.dev.startFt (s.dev.mig (8 + ↑k)).vb (s.dev.cutFrame (s.dev.mig (8 + ↑k)).vb))
    ∧ (let r : Req := Req.hart 0; let k : Fin 8 := 0; let s : State := sample 16; s.sound ∧ s.reaches r ∧ (s.dev.mig ↑k).st = MigSt.cutover)
    ∧ (let r : Req := Req.hart 0; let k : Fin 8 := 0; let s : State := sample 17; s.sound ∧ s.reaches r ∧ (s.dev.mig (8 + ↑k)).st = MigSt.cutover ∧ s.dev.ft + 4194304 ≤ s.dev.startFt (s.dev.mig (8 + ↑k)).vb (s.dev.mig (8 + ↑k)).frame)
    ∧ (let r : Req := Req.hart 0; let k : Fin 8 := 0; let s : State := sample 17; s.sound ∧ s.reaches r ∧ (s.dev.mig ↑k).st = MigSt.cutover ∧ (s.dev.mig ↑k).acked = true ∧ (s.dev.live (s.dev.mig ↑k).vaOf = false ∨ Option.map (fun f => f + 1) (s.dev.head (s.dev.mig ↑k).vaOf).last = some (s.dev.mig ↑k).frame))
    ∧ (let r : Req := Req.hart 0; let k : Fin 8 := 0; let s : State := sample 19; s.sound ∧ s.reaches r ∧ (s.dev.mig ↑k).st = MigSt.cutover ∧ (s.dev.mig ↑k).acked = true ∧ s.dev.live (s.dev.mig ↑k).vaOf = true ∧ Option.map (fun f => f + 1) (s.dev.head (s.dev.mig ↑k).vaOf).last ≠ some (s.dev.mig ↑k).frame)
    ∧ (let r : Req := Req.hart 0; let k : Fin 8 := 0; let s : State := sample 17; s.sound ∧ s.reaches r ∧ (s.dev.mig (8 + ↑k)).st = MigSt.cutover ∧ (s.dev.mig (8 + ↑k)).acked = true)
    ∧ (let r : Req := Req.hart 0; let k : Fin 8 := 0; let s : State := sample 7; s.sound ∧ s.reaches r ∧ (s.dev.mig ↑k).forwarding = true)
    ∧ (let r : Req := Req.hart 0; let k : Fin 8 := 0; let s : State := sample 1; s.sound ∧ s.reaches r ∧ s.dev.migSel = ↑k ∧ (s.dev.mig ↑k).active = true)
    ∧ (let r : Req := Req.hart 0; let k : Fin 8 := 0; let s : State := sample 16; s.sound ∧ s.reaches r ∧ (s.dev.mig (8 + ↑k)).st = MigSt.cutover ∧ (s.dev.mig (8 + ↑k)).acked = false)
    ∧ (let r : Req := Req.hart 0; let k : Fin 8 := 0; let s : State := sample 1; s.sound ∧ s.reaches r ∧ (s.dev.mig (8 + ↑k)).active = true)
    ∧ (let r : Req := Req.hart 0; let k : Fin 8 := 0; let s : State := sample 1; s.sound ∧ s.reaches r ∧ (s.dev.mig ↑k).active = true) := by
  (try unfold State.sound); (try unfold State.reaches); (try unfold boundary); refine ⟨?_, ?_, ?_, ?_, ?_, ?_, ?_, ?_, ?_, ?_, ?_, ?_, ?_, ?_, ?_, ?_, ?_, ?_, ?_, ?_⟩ <;> decide
end Migration

namespace LogsAndMessages
def r0 : LogRec := { firstFt := 4, lastFt := 5, source := 0x405, origin := 3, kind := 1, type := 7, flags := 0, count := 1, data := 5 }
def lg (sw0 : Nat) (d : Dev) : Dev := ((((md 3 d).wrN (pgDDR 0) Reg.DDR_TOTAL 96).wrN pgLOG Reg.LOG_CTL 0xB).wrN pgLOG Reg.LOG_SW0 sw0).wrN pgLOG Reg.LOG_TRACE_LVL 4
/-- The states that the witnesses use. -/
def states : List State := [reset] ++ ([0,0x105,0x71303, 0x300, 0x200] : List Nat).flatMap fun k => [st (lg k), st (fun d => { (lg k d) with log := { queue := [(false, r0), (true, r0)] } }), st (fun d => (((lg k d).wrN pgLOG Reg.LOG_RING_PROD 7).wrN pgFAB Reg.FSR_RX_PROD 1023).wrN pgFAB Reg.FSR_TX_CONS 5), st (fun d => ((((lg k d).wrN pgLOG Reg.LOG_RING_PROD 40000).wrN pgFAB Reg.FSR_RX_PROD 1030).wrN pgFAB Reg.FSR_RX_CONS 6)),
  st (fun d => { (lg k d) with log := { queue := [(false, r0), (true, r0)] } } |>.wrN pgLOG Reg.LOG_CTL 1), st (fun d => { (lg k d) with log := { queue := [(false, r0), (true, r0)], flying := some 5 } }), st (fun d => { ((lg k d).onFab (fun f => { f with unacked := [{ cls := 5, dst := 3, key := 0, seq := 5, due := 0, packet := { cls := 5, epoch := true, dst := 3, src := 1, hops := 0, bytes := [1] } }] })) with log := { queue := [(false, r0), (true, r0)], flying := some 5 } } ),
  st (fun d => (((((lg k d).wrN pgLOG Reg.LOG_AREA (dramBase / blockBytes)).wrN pgFAB Reg.FSR_BASE (dramBase / blockBytes))).wrN pgLOG Reg.LOG_CTL 5))]
def sample (k : Nat) : State := states.getD k State.reset
/-- Operands and states that meet the hypotheses of LogsAndMessages, clause by clause. -/
theorem witness_LogsAndMessages :
    (let s : State := sample 0; let r : Req := Req.hart 0; s.sound ∧ s.reaches r ∧ field (s.dev.rd pgLOG Reg.LOG_SW0) 9 8 ≤ 1 ∧ s.dev.rdB pgLOG Reg.LOG_CTL 0 = true ∧ s.dev.log.queue = [] ∧ 0 < s.dev.rdN pgLOG Reg.LOG_TRACE_LVL)
    ∧ (let s : State := sample 17; let r : Req := Req.hart 0; s.sound ∧ s.reaches r ∧ field (s.dev.rd pgLOG Reg.LOG_SW0) 9 8 = 3)
    ∧ (let s : State := sample 5; let e : Bool × LogRec := (false, { firstFt := 4, lastFt := 5, source := 1029, origin := 3, kind := 1, type := 7, flags := 0, count := 1, data := 5 }); let rest : List (Bool × LogRec) := [(true, { firstFt := 4, lastFt := 5, source := 1029, origin := 3, kind := 1, type := 7, flags := 0, count := 1, data := 5 })]; s.sound ∧ s.dev.log.queue = e :: rest ∧ s.dev.rdB pgLOG Reg.LOG_CTL 2 = false ∧ s.dev.frozen pgLOG = false ∧ s.dev.rdB pgLOG Reg.LOG_CTL 1 = false)
    ∧ (let s : State := sample 2; let e : Bool × LogRec := (false, { firstFt := 4, lastFt := 5, source := 1029, origin := 3, kind := 1, type := 7, flags := 0, count := 1, data := 5 }); let rest : List (Bool × LogRec) := [(true, { firstFt := 4, lastFt := 5, source := 1029, origin := 3, kind := 1, type := 7, flags := 0, count := 1, data := 5 })]; s.sound ∧ s.dev.log.queue = e :: rest ∧ s.dev.rdB pgLOG Reg.LOG_CTL 2 = false ∧ s.dev.frozen pgLOG = false ∧ s.dev.rdB pgLOG Reg.LOG_CTL 1 = true ∧ s.dev.log.flying = none ∧ s.dev.addrValid = false)
    ∧ (let s : State := sample 7; let e : Bool × LogRec := (false, { firstFt := 4, lastFt := 5, source := 1029, origin := 3, kind := 1, type := 7, flags := 0, count := 1, data := 5 }); let rest : List (Bool × LogRec) := [(true, { firstFt := 4, lastFt := 5, source := 1029, origin := 3, kind := 1, type := 7, flags := 0, count := 1, data := 5 })]; let n : Nat := 5; s.sound ∧ s.dev.log.queue = e :: rest ∧ s.dev.rdB pgLOG Reg.LOG_CTL 2 = false ∧ s.dev.frozen pgLOG = false ∧ s.dev.rdB pgLOG Reg.LOG_CTL 1 = true ∧ s.dev.log.flying = some n ∧ ((s.dev.fab.unacked ++ s.dev.fab.waiting).any fun u => u.cls == 5 && u.seq == n) = true)
    ∧ (let s : State := sample 6; let e : Bool × LogRec := (false, { firstFt := 4, lastFt := 5, source := 1029, origin := 3, kind := 1, type := 7, flags := 0, count := 1, data := 5 }); let rest : List (Bool × LogRec) := [(true, { firstFt := 4, lastFt := 5, source := 1029, origin := 3, kind := 1, type := 7, flags := 0, count := 1, data := 5 })]; let n : Nat := 5; s.sound ∧ s.dev.log.queue = e :: rest ∧ s.dev.rdB pgLOG Reg.LOG_CTL 2 = false ∧ s.dev.frozen pgLOG = false ∧ s.dev.rdB pgLOG Reg.LOG_CTL 1 = true ∧ s.dev.log.flying = some n ∧ ((s.dev.fab.unacked ++ s.dev.fab.waiting).any fun u => u.cls == 5 && u.seq == n) = false)
    ∧ (let s : State := sample 1; s.sound ∧ s.dev.rdB pgLOG Reg.LOG_CTL 3 = true ∧ s.dev.logRingFull = false)
    ∧ (let s : State := sample 0; let r : Req := Req.hart 0; s.sound ∧ s.reaches r)
    ∧ (let s : State := sample 4; let payload : List Byte := [1]; s.sound ∧ 1 ≤ payload.length ∧ payload.length ≤ 1020 ∧ 1024 ≤ (s.dev.rdN pgFAB Reg.FSR_RX_PROD + 2 ^ 32 - s.dev.rdN pgFAB Reg.FSR_RX_CONS) % 2 ^ 32)
    ∧ (let s : State := sample 0; let payload : List Byte := [1]; s.sound ∧ 1 ≤ payload.length ∧ payload.length ≤ 1020 ∧ (¬1024 ≤ (s.dev.rdN pgFAB Reg.FSR_RX_PROD + 2 ^ 32 - s.dev.rdN pgFAB Reg.FSR_RX_CONS) % 2 ^ 32)) := by
  (try unfold State.sound); (try unfold State.reaches); (try unfold boundary); refine ⟨?_, ?_, ?_, ?_, ?_, ?_, ?_, ?_, ?_, ?_⟩ <;> decide
end LogsAndMessages

namespace DramInit
def R (f : MemSt → MemSt) (d : Dev) : Dev := { d with ram := f d.ram }
def tot (d : Dev) : Dev := (d.wrN (pgDDR 0) Reg.DDR_TOTAL 1).wrN (pgDDR 0) Reg.DDR_INIT_END 3
def m1 : SpdInfo := { sizeGB := 16, ranks := 1, speedMts := 4800, x4 := true, rdimm := true }
def m2 : SpdInfo := { sizeGB := 128, ranks := 4, speedMts := 6400, x4 := false, rdimm := true }
def put (a : Nat) (b : Byte) (d : Dev) : Dev := { d with mem := (spPut memDefault d.mem a b) }
/-- The states that the witnesses use. -/
def states : List State := [reset, st open_, st tot,
  st (fun d => put (dramBase+5) 7 (put (dramBase+ 2*blockBytes) 8 (put (dramBase+4*blockBytes) 9 (R (fun m => { m with inited := [(0,5)], poison := [dramBase/64, dramBase/64+1] }) ((tot d).wrN (pgDDR 0) Reg.DDR_INIT_BASE 1))))),
  st (R (fun m => { m with initOp := some (1,0,4), inited := [(1,2)] })), st (R (fun m => { m with initOp := some (2,0,4) })),
  st (fun d => ((d.wrN (pgDDR 0) Reg.DDR_CTL 9).wrN (pgDDR 1) Reg.DDR_CTL 9).wrN (pgDDR 5) Reg.DDR_CTL 1),
  st (fun d => ((d.wrN (pgDDR 0) Reg.DDR_CTL 9).wrN (pgDDR 0) Reg.DDR_MIR 8).wrN (pgDDR 1) Reg.DDR_STAT 0x100)]
def sample (k : Nat) : State := states.getD k State.reset
/-- Operands and states that meet the hypotheses of DramInit, clause by clause. -/
theorem witness_DramInit :
    (let s : State := sample 0; let r : Req := Req.hart 0; s.sound ∧ s.reaches r ∧ s.dev.ram.initOp = none)
    ∧ (let s : State := sample 4; let r : Req := Req.hart 0; s.sound ∧ s.reaches r ∧ s.dev.ram.initOp ≠ none)
    ∧ (let s : State := sample 4; let a : Nat := 0; let b : Nat := 4; s.sound ∧ (s.dev.ram.initOp = some (1, a, b)) ∧ s.dev.frozen (pgDDR 0) = false)
    ∧ (let s : State := sample 6; let ch : Fin 6 := 0; let ms : List SpdInfo := [{ sizeGB := 16, ranks := 1, x4 := true, speedMts := 4800, rdimm := true }]; let m : SpdInfo := { sizeGB := 16, ranks := 1, x4 := true, speedMts := 4800, rdimm := true }; let rest : List SpdInfo := []; s.sound ∧ s.dev.rdB (pgDDR ↑ch) Reg.DDR_CTL 0 = true ∧ s.dev.rdB (pgDDR ↑ch) Reg.DDR_STAT 8 = false ∧ ms = m :: rest ∧ popOk ms = true ∧ (∀ (c : Nat), c < 6 → s.dev.rdB (pgDDR c) Reg.DDR_STAT 8 = false) ∧ 2 * s.dev.rdF (pgDDR 0) Reg.DDR_MIR 7 0 ≤ ms.length * m.sizeGB)
    ∧ (let s : State := sample 6; let ch : Fin 6 := 0; let ms : List SpdInfo := []; s.sound ∧ s.dev.rdB (pgDDR ↑ch) Reg.DDR_CTL 0 = true ∧ s.dev.rdB (pgDDR ↑ch) Reg.DDR_STAT 8 = false ∧ popOk ms = false) := by
  (try unfold State.sound); (try unfold State.reaches); (try unfold boundary); refine ⟨?_, ?_, ?_, ?_, ?_⟩ <;> decide
end DramInit

namespace PatrolScrub
def R (f : MemSt → MemSt) (d : Dev) : Dev := { d with ram := f d.ram }
def on (c : Nat) (d : Dev) : Dev := (((d.wrN (pgDDR 0) Reg.DDR_TOTAL 96).wrN (pgDDR c) Reg.DDR_STAT 0x100100).wrN (pgDDR c) Reg.DDR_CTL 0x51).wrN pgLOG Reg.LOG_CTL 1
/-- The states that the witnesses use. -/
def states : List State := [reset] ++ [0,1,5].flatMap fun c => [st (on c), st (fun d => R (fun m => { m with inited := [(0,3)] }) (on c d)),
  st (fun d => R (fun m => { m with inited := [(0,1)], scrubPos := [(c, 2^21)] }) ((on c d).wrN (pgDDR c) Reg.DDR_PPR_THR 1)),
  st (fun d => R (fun m => { m with rowErrs := (List.range 7).map (fun r => { ch := c, dev := 3, row := 100 + r, n := 3, spare := true, done := false }) }) ((on c d).wrN (pgDDR c) Reg.DDR_PPR_THR 2))]
def ba (n : Nat) : BitVec 48 := BitVec.ofNat 48 n
def sample (k : Nat) : State := states.getD k State.reset
/-- Operands and states that meet the hypotheses of PatrolScrub, clause by clause. -/
theorem witness_PatrolScrub :
    (let ch : Fin 6 := 0; let s : State := sample 0; s.sound ∧ (s.dev.rdB (pgDDR ↑ch) Reg.DDR_STAT 8 && s.dev.rdB (pgDDR ↑ch) Reg.DDR_CTL 4) = false ∧ s.dev.frozen (pgDDR ↑ch) = false)
    ∧ (let ch : Fin 6 := 0; let s : State := sample 1; s.sound ∧ (s.dev.rdB (pgDDR ↑ch) Reg.DDR_STAT 8 && s.dev.rdB (pgDDR ↑ch) Reg.DDR_CTL 4) = true ∧ s.dev.ram.rowErrs = [] ∧ s.dev.frozen (pgDDR ↑ch) = false)
    ∧ (let ch : Fin 6 := 0; let s : State := sample 1; s.sound ∧ (s.dev.rdB (pgDDR ↑ch) Reg.DDR_STAT 8 && s.dev.rdB (pgDDR ↑ch) Reg.DDR_CTL 4) = true ∧ s.dev.frozen (pgDDR ↑ch) = false) := by
  (try unfold State.sound); (try unfold State.reaches); (try unfold boundary); refine ⟨?_, ?_, ?_⟩ <;> decide
end PatrolScrub

namespace MarchTests
def R (f : MemSt → MemSt) (d : Dev) : Dev := { d with ram := f d.ram }
def put (a : Nat) (b : Byte) (d : Dev) : Dev := { d with mem := (spPut memDefault d.mem a b) }
/-- The states that the witnesses use. -/
def states : List State := [reset, st open_, st (fun d => d.wrN pgMARCH Reg.MARCH_CTL 2), st (fun d => md 3 (d.wrN pgMARCH Reg.MARCH_CTL 2)),
  st (md 6), st (fun d => md 3 (d.wrN pgMARCH Reg.MARCH_CTL 0x100)),
  st (fun d => (d.wrN pgMARCH Reg.MARCH_STAT 1).wrN pgMARCH Reg.MARCH_SEL 0x7F), st (fun d => (d.wrN pgMARCH Reg.MARCH_CTL 0).wrN pgMARCH Reg.MARCH_STAT 1),
  st (fun d => put scratchBase 5 (put hashBase 5 (R (fun m => { m with marchMode := true }) ((d.wrN pgMARCH Reg.MARCH_STAT 1).wrN pgMARCH Reg.MARCH_SEL 0x84))))]
def f0 : MarchFail := { pad := 0, bank := 3, row := 7, col := 8 }
def f2 : MarchFail := { pad := 2, bank := 3, row := 7, col := 8 }
def f7 : MarchFail := { pad := 7, bank := 3, row := 7, col := 8 }
def sample (k : Nat) : State := states.getD k State.reset
/-- Operands and states that meet the hypotheses of MarchTests, clause by clause. -/
theorem witness_MarchTests :
    (let s : State := sample 6; let r : Req := Req.hart 0; s.sound ∧ s.reaches r ∧ s.dev.rdF pgMARCH Reg.MARCH_STAT 1 0 = 1)
    ∧ (let s : State := sample 0; let r : Req := Req.hart 0; s.sound ∧ s.reaches r ∧ (¬s.dev.rdF pgMARCH Reg.MARCH_STAT 1 0 = 1))
    ∧ (let s : State := sample 0; let r : Req := Req.hart 0; s.sound ∧ s.reaches r ∧ (¬s.dev.rdF pgMARCH Reg.MARCH_STAT 1 0 = 1) ∧ (if s.dev.rdB pgMARCH Reg.MARCH_CTL 1 = true then s.dev.mode = 1 ∨ s.dev.mode = 2 else s.dev.mode ≠ 6 ∧ s.dev.mode ≠ 7))
    ∧ (let s : State := sample 3; let r : Req := Req.hart 0; s.sound ∧ s.reaches r ∧ (¬s.dev.rdF pgMARCH Reg.MARCH_STAT 1 0 = 1) ∧ (¬if s.dev.rdB pgMARCH Reg.MARCH_CTL 1 = true then s.dev.mode = 1 ∨ s.dev.mode = 2 else s.dev.mode ≠ 6 ∧ s.dev.mode ≠ 7))
    ∧ (let s : State := sample 6; s.sound ∧ s.dev.rdF pgMARCH Reg.MARCH_STAT 1 0 = 1 ∧ s.dev.ram.marchMode = false ∧ s.dev.frozen pgMARCH = false)
    ∧ (let s : State := sample 7; let fails : List MarchFail := [{ pad := 0, bank := 3, row := 7, col := 8 }]; let f : MarchFail := { pad := 0, bank := 3, row := 7, col := 8 }; s.sound ∧ s.dev.rdF pgMARCH Reg.MARCH_STAT 1 0 = 1 ∧ s.dev.rdB pgMARCH Reg.MARCH_CTL 2 = false ∧ f ∈ fails ∧ s.dev.marchPads.testBit ↑f.pad = true ∧ s.dev.frozen pgMARCH = false)
    ∧ (let s : State := sample 0; s.sound ∧ s.dev.rdF pgMARCH Reg.MARCH_CTL 15 8 = 0 ∧ s.dev.frozen pgMARCH = false)
    ∧ (let s : State := sample 5; s.sound ∧ s.dev.rdF pgMARCH Reg.MARCH_CTL 15 8 ≠ 0 ∧ (¬s.dev.rdF pgMARCH Reg.MARCH_STAT 1 0 = 1) ∧ s.dev.mode ≠ 6 ∧ s.dev.mode ≠ 7 ∧ s.dev.frozen pgMARCH = false) := by
  (try unfold State.sound); (try unfold State.reaches); (try unfold boundary); refine ⟨?_, ?_, ?_, ?_, ?_, ?_, ?_, ?_⟩ <;> decide
end MarchTests

namespace MramWrites
def R (f : MemSt → MemSt) (d : Dev) : Dev := { d with ram := f d.ram }
/-- The states that the witnesses use. -/
def states : List State := [reset, st open_, st (R (fun m => { m with mramBuf := [(1,[1,2,3,4]),(2,[5])] })), st (fun d => (R (fun m => { m with mramBuf := [(1,[1,2,3,4])] }) d).wrN pgPWR Reg.PWR_STAT 1),
 st (R (fun m => { m with persist := [(1, some 2)], persistAt := some 0 })), st (R (fun m => { m with persist := [(1, some 2)], mramBuf := [(0x441, List.replicate 64 0xEE)] })),
 st (fun d => R (fun m => { m with persist := [(1, some 2)], persistAt := some 5 }) { d with clock := { d.clock with base := 1200000005 } })]
def sample (k : Nat) : State := states.getD k State.reset
/-- Operands and states that meet the hypotheses of MramWrites, clause by clause. -/
theorem witness_MramWrites :
    (let s : State := sample 2; let w : Nat := 1; let bs : List Byte := [1, 2, 3, 4]; let rest : List (Nat × List Byte) := [(2, [5])]; s.sound ∧ (s.dev.ram.mramBuf = (w, bs) :: rest) ∧ s.dev.mramBlocked = false ∧ s.dev.frozen pgMRAM = false)
    ∧ (let s : State := sample 3; s.sound ∧ s.dev.mramBlocked = true ∧ s.dev.frozen pgMRAM = false)
    ∧ (let s : State := sample 4; let r : Req := Req.hart 0; s.sound ∧ s.reaches r ∧ (∃ t0, s.dev.ram.persistAt = some t0 ∧ s.dev.clock.base < t0 + 1200000000))
    ∧ (let s : State := sample 0; let r : Req := Req.hart 0; s.sound ∧ s.reaches r ∧ (¬∃ t0, s.dev.ram.persistAt = some t0 ∧ s.dev.clock.base < t0 + 1200000000))
    ∧ (let s : State := sample 5; let r : Req := Req.hart 0; let k : Nat := 1; let v : Nat := 2; s.sound ∧ s.reaches r ∧ (¬∃ t0, s.dev.ram.persistAt = some t0 ∧ s.dev.clock.base < t0 + 1200000000) ∧ (s.dev.ram.persist = [(k, some v)]))
    ∧ (let s : State := sample 0; s.sound ∧ s.dev.frozen pgMRAM = false) := by
  (try unfold State.sound); (try unfold State.reaches); (try unfold boundary); refine ⟨?_, ?_, ?_, ?_, ?_, ?_⟩ <;> decide
end MramWrites

namespace RectangleControl
/-- The states that the witnesses use. -/
def states : List State := [reset, st open_, st (fun d => d.wrN pgBLT Reg.BLT_STAT 1), st (fun d => (d.wrN pgBLT Reg.BLT_STAT 0x42).wrN pgBLT Reg.RING_PROD 1),
 st (fun d => { (d.wrN pgBLT Reg.BLT_STAT 0x46) with blt := { cmd := [1,2] } }), st (fun d => (d.wrN pgBLT Reg.RING_CONS 0xFFFFFFFF).wrN pgBLT Reg.BLT_CMD 0x01020304)]
def sample (k : Nat) : State := states.getD k State.reset
/-- Operands and states that meet the hypotheses of RectangleControl, clause by clause. -/
theorem witness_RectangleControl :
    (let r : Req := Req.hart 0; let s : State := sample 0; let v : Word := 0; s.sound ∧ s.reaches r ∧ BitVec.toNat (v - word s.dev.bltCons) ≤ 2 ^ s.dev.bltLog)
    ∧ (let r : Req := Req.hart 0; let s : State := sample 0; let v : Word := 0x11; s.sound ∧ s.reaches r ∧ 2 ^ s.dev.bltLog < BitVec.toNat (v - word s.dev.bltCons))
    ∧ (let r : Req := Req.hart 0; let s : State := sample 0; s.sound ∧ s.reaches r ∧ s.dev.bltState = 0)
    ∧ (let r : Req := Req.hart 0; let s : State := sample 2; s.sound ∧ s.reaches r ∧ s.dev.bltState ≠ 0)
    ∧ (let r : Req := Req.hart 0; let s : State := sample 3; s.sound ∧ s.reaches r ∧ s.dev.bltState = 2)
    ∧ (let r : Req := Req.hart 0; let s : State := sample 0; s.sound ∧ s.reaches r ∧ s.dev.bltState ≠ 2)
    ∧ (let r : Req := Req.hart 0; let s : State := sample 3; s.sound ∧ s.reaches r ∧ s.dev.bltState = 2 ∧ s.dev.bltPath = false)
    ∧ (let r : Req := Req.hart 0; let s : State := sample 4; s.sound ∧ s.reaches r ∧ s.dev.bltState = 2 ∧ s.dev.bltPath = true) := by
  (try unfold State.sound); (try unfold State.reaches); (try unfold boundary); refine ⟨?_, ?_, ?_, ?_, ?_, ?_, ?_, ?_⟩ <;> decide
end RectangleControl

namespace RectangleCommands
def put (l : List Byte) (a : Nat) (d : Dev) : Dev := { d with mem := (l.zipIdx.foldl (fun m e => spPut memDefault m (a+e.2) e.1) d.mem) }
def cmd (l : List (Nat × Nat × Nat)) : List Byte := (List.range 64).map (fun i => match l.find? (fun e => e.1 ≤ i && i < e.1+e.2.1) with | some e => byteOf e.2.2 (i - e.1) | none => 0)
def note := cmd [(0,1,4),(1,1,1),(8,6,glyphBase+64),(56,8,0x1122334455667788)]
def noteBad := cmd [(0,1,4),(1,1,1),(8,6,glyphBase+4)]
def setclip := cmd [(0,1,5),(2,1,0xA),(8,4,1),(12,4,2),(16,4,3),(20,4,4),(24,4,5),(28,4,6),(32,4,7),(36,4,8)]
def copy := cmd [(0,1,2),(3,1,0x44),(4,2,2),(6,2,1),(8,6,glyphBase+0x1000),(16,4,16),(20,2,1),(22,2,1),(24,6,glyphBase+0x1008),(32,4,16),(36,2,0),(38,2,1)]
def fill := cmd [(0,1,1),(1,1,1),(3,1,0x30),(4,2,2),(6,2,1),(8,6,glyphBase+0x1000),(16,4,16),(40,4,0xAABBCCDD)]
def conv := cmd [(0,1,3),(3,1,0x41),(4,2,2),(6,2,1),(8,6,glyphBase+0x1000),(16,4,16),(24,6,glyphBase+0x2000),(32,4,16)]
def bad2 := cmd [(0,1,2),(3,1,0x41),(4,2,2),(6,2,1)]
def bad3 := cmd [(0,1,1),(3,1,0x41),(4,2,0),(6,2,1)]
def bad4 := cmd [(0,1,3),(3,1,0x40),(4,2,1),(6,2,1)]
def ready (d : Dev) : Dev := (d.wrN pgBLT Reg.BLK_CTL 1)
def path (c : List Byte) : State := st (fun d => { put [1,2,3,4,5,6,7,8,9,10,11,12] (glyphBase+0x1008+16) ((ready d).wrN pgBLT Reg.BLT_STAT 5) with blt := { cmd := c } })
def ring (c : List Byte) : State := st (fun d => put c (glyphBase+0x100+15*64) (((((ready d).wrN pgBLT Reg.BLT_CTL 1).wrN pgBLT Reg.RING_BASE_LO (glyphBase+0x100)).wrN pgBLT Reg.RING_PROD 16).wrN pgBLT Reg.RING_CONS 15))
def cmds := [note,noteBad,setclip,copy,fill,conv,bad2,bad3,bad4]
/-- The states that the witnesses use. -/
def states : List State := [reset] ++ cmds.map path ++ cmds.map ring
def sample (k : Nat) : State := states.getD k State.reset
/-- Operands and states that meet the hypotheses of RectangleCommands, clause by clause. -/
theorem witness_RectangleCommands :
    (let i : Instr := .fill; let op : Nat := 1; let s : State := sample 0; s.sound ∧ (i = .fill ∧ op = opFill ∨ i = .copy ∧ op = opCopy ∨ i = .convert ∧ op = opConvert ∨ i = .note ∧ op = opNote ∨ i = .setclip ∧ op = opSetclip) ∧ s.dev.bltReady = false)
    ∧ (let i : Instr := .fill; let op : Nat := 1; let s : State := sample 8; let c : List Byte := [1, 0, 0, 0x41, 0, 0, 1, 0, 0, 0, 0, 0, 0, 0, 0, 0, 0, 0, 0, 0, 0, 0, 0, 0, 0, 0, 0, 0, 0, 0, 0, 0, 0, 0, 0, 0, 0, 0, 0, 0, 0, 0, 0, 0, 0, 0, 0, 0, 0, 0, 0, 0, 0, 0, 0, 0, 0, 0, 0, 0, 0, 0, 0, 0]; s.sound ∧ (i = .fill ∧ op = opFill ∨ i = .copy ∧ op = opCopy ∨ i = .convert ∧ op = opConvert ∨ i = .note ∧ op = opNote ∨ i = .setclip ∧ op = opSetclip) ∧ s.dev.bltReady = true ∧ s.dev.bltFetch = Except.ok c ∧ c.length = 64 ∧ cmdField c 0 1 = op ∧ bltCheck c ≠ 0)
    ∧ (let i : Instr := .fill; let op : Nat := 1; let s : State := sample 5; let c : List Byte := [1, 1, 0, 0x30, 2, 0, 1, 0, 0, 0x10, 0, 0x80, 0, 0, 0, 0, 0x10, 0, 0, 0, 0, 0, 0, 0, 0, 0, 0, 0, 0, 0, 0, 0, 0, 0, 0, 0, 0, 0, 0, 0, 0xDD, 0xCC, 0xBB, 0xAA, 0, 0, 0, 0, 0, 0, 0, 0, 0, 0, 0, 0, 0, 0, 0, 0, 0, 0, 0, 0]; s.sound ∧ (i = .fill ∧ op = opFill ∨ i = .copy ∧ op = opCopy ∨ i = .convert ∧ op = opConvert ∨ i = .note ∧ op = opNote ∨ i = .setclip ∧ op = opSetclip) ∧ s.dev.bltReady = true ∧ s.dev.bltFetch = Except.ok c ∧ c.length = 64 ∧ cmdField c 0 1 = op ∧ bltCheck c = 0 ∧ (s.dev.begin.bltWork c).snd = none)
    ∧ (let i : Instr := .note; let op : Nat := 4; let s : State := sample 1; let c : List Byte := [4, 1, 0, 0, 0, 0, 0, 0, 0x40, 0, 0, 0x80, 0, 0, 0, 0, 0, 0, 0, 0, 0, 0, 0, 0, 0, 0, 0, 0, 0, 0, 0, 0, 0, 0, 0, 0, 0, 0, 0, 0, 0, 0, 0, 0, 0, 0, 0, 0, 0, 0, 0, 0, 0, 0, 0, 0, 0x88, 0x77, 0x66, 0x55, 0x44, 0x33, 0x22, 0x11]; s.sound ∧ (i = .fill ∧ op = opFill ∨ i = .copy ∧ op = opCopy ∨ i = .convert ∧ op = opConvert ∨ i = .note ∧ op = opNote ∨ i = .setclip ∧ op = opSetclip) ∧ s.dev.bltReady = true ∧ s.dev.bltFetch = Except.ok c ∧ c.length = 64 ∧ cmdField c 0 1 = op ∧ op = opNote ∧ bltCheck c = 0 ∧ s.dev.bltReach (cmdField c 8 6) 8 = true)
    ∧ (let i : Instr := .setclip; let op : Nat := 5; let s : State := sample 3; let c : List Byte := [5, 0, 0xA, 0, 0, 0, 0, 0, 1, 0, 0, 0, 2, 0, 0, 0, 3, 0, 0, 0, 4, 0, 0, 0, 5, 0, 0, 0, 6, 0, 0, 0, 7, 0, 0, 0, 8, 0, 0, 0, 0, 0, 0, 0, 0, 0, 0, 0, 0, 0, 0, 0, 0, 0, 0, 0, 0, 0, 0, 0, 0, 0, 0, 0]; s.sound ∧ (i = .fill ∧ op = opFill ∨ i = .copy ∧ op = opCopy ∨ i = .convert ∧ op = opConvert ∨ i = .note ∧ op = opNote ∨ i = .setclip ∧ op = opSetclip) ∧ s.dev.bltReady = true ∧ s.dev.bltFetch = Except.ok c ∧ c.length = 64 ∧ cmdField c 0 1 = op ∧ op = opSetclip)
    ∧ (let i : Instr := .copy; let op : Nat := 2; let s : State := sample 4; let c : List Byte := [2, 0, 0, 0x44, 2, 0, 1, 0, 0, 0x10, 0, 0x80, 0, 0, 0, 0, 0x10, 0, 0, 0, 1, 0, 1, 0, 8, 0x10, 0, 0x80, 0, 0, 0, 0, 0x10, 0, 0, 0, 0, 0, 1, 0, 0, 0, 0, 0, 0, 0, 0, 0, 0, 0, 0, 0, 0, 0, 0, 0, 0, 0, 0, 0, 0, 0, 0, 0]; s.sound ∧ (i = .fill ∧ op = opFill ∨ i = .copy ∧ op = opCopy ∨ i = .convert ∧ op = opConvert ∨ i = .note ∧ op = opNote ∨ i = .setclip ∧ op = opSetclip) ∧ s.dev.bltReady = true ∧ s.dev.bltFetch = Except.ok c ∧ c.length = 64 ∧ cmdField c 0 1 = op ∧ op = opCopy ∧ bltCheck c = 0 ∧ cmdField c 3 1 % 16 ≤ 4 ∧ cmdField c 2 1 % 16 = 0 ∧ cmdFlag c 3 = false ∧ cmdField c 4 2 ≤ 2048 ∧ cmdField c 6 2 = 1 ∧ s.dev.bltReach (cmdField c 24 6 + cmdField c 38 2 * cmdField c 32 4 + cmdField c 36 2 * (bltBpp (cmdField c 3 1 % 16) / 8)) (cmdField c 4 2 * (bltBpp (cmdField c 3 1 % 16) / 8)) = true ∧ s.dev.bltReach (cmdField c 8 6 + cmdField c 22 2 * cmdField c 16 4 + cmdField c 20 2 * (bltBpp (cmdField c 3 1 % 16) / 8)) (cmdField c 4 2 * (bltBpp (cmdField c 3 1 % 16) / 8)) = true ∧ s.dev.ram.poison = []) := by
  (try unfold State.sound); (try unfold State.reaches); (try unfold boundary); refine ⟨?_, ?_, ?_, ?_, ?_, ?_⟩ <;> intros <;> (repeat' apply And.intro) <;> first | decide | exact ok_of (by decide)
end RectangleCommands

namespace FillWrites
def put (l : List Byte) (a : Nat) (d : Dev) : Dev := { d with mem := (l.zipIdx.foldl (fun m e => spPut memDefault m (a+e.2) e.1) d.mem) }
def cmd (l : List (Nat × Nat × Nat)) : List Byte := (List.range 64).map (fun i => match l.find? (fun e => e.1 ≤ i && i < e.1+e.2.1) with | some e => byteOf e.2.2 (i - e.1) | none => 0)
def note := cmd [(0,1,4),(1,1,1),(8,6,glyphBase+64),(56,8,0x1122334455667788)]
def noteBad := cmd [(0,1,4),(1,1,1),(8,6,glyphBase+4)]
def setclip := cmd [(0,1,5),(2,1,0xA),(8,4,1),(12,4,2),(16,4,3),(20,4,4),(24,4,5),(28,4,6),(32,4,7),(36,4,8)]
def copy := cmd [(0,1,2),(3,1,0x44),(4,2,2),(6,2,1),(8,6,glyphBase+0x1000),(16,4,16),(20,2,1),(22,2,1),(24,6,glyphBase+0x1008),(32,4,16),(36,2,0),(38,2,1)]
def fill := cmd [(0,1,1),(1,1,1),(3,1,0x30),(4,2,2),(6,2,1),(8,6,glyphBase+0x1000),(16,4,16),(40,4,0xAABBCCDD)]
def conv := cmd [(0,1,3),(3,1,0x41),(4,2,2),(6,2,1),(8,6,glyphBase+0x1000),(16,4,16),(24,6,glyphBase+0x2000),(32,4,16)]
def bad2 := cmd [(0,1,2),(3,1,0x41),(4,2,2),(6,2,1)]
def bad3 := cmd [(0,1,1),(3,1,0x41),(4,2,0),(6,2,1)]
def bad4 := cmd [(0,1,3),(3,1,0x40),(4,2,1),(6,2,1)]
def ready (d : Dev) : Dev := (d.wrN pgBLT Reg.BLK_CTL 1)
def path (c : List Byte) : State := st (fun d => { put [1,2,3,4,5,6,7,8,9,10,11,12] (glyphBase+0x1008+16) ((ready d).wrN pgBLT Reg.BLT_STAT 5) with blt := { cmd := c } })
def ring (c : List Byte) : State := st (fun d => put c (glyphBase+0x100+15*64) (((((ready d).wrN pgBLT Reg.BLT_CTL 1).wrN pgBLT Reg.RING_BASE_LO (glyphBase+0x100)).wrN pgBLT Reg.RING_PROD 16).wrN pgBLT Reg.RING_CONS 15))
def cmds := [note,noteBad,setclip,copy,fill,conv,bad2,bad3,bad4]
def fl (f w h dp : Nat) := cmd [(0,1,1),(3,1,f*16),(4,2,w),(6,2,h),(8,6,glyphBase+0x1000),(16,4,dp),(20,2,1),(22,2,2),(40,4,0xAABBCCDD)]
/-- The states that the witnesses use. -/
def states : List State := [fl 0 3 2 5, fl 1 3 2 2, fl 2 2 2 0, fl 3 2 3 8, fl 4 2049 2 0x4000].map path
def sample (k : Nat) : State := states.getD k State.reset
/-- Operands and states that meet the hypotheses of FillWrites, clause by clause. -/
theorem witness_FillWrites :
    (let s : State := sample 0; let c : List Byte := [1, 0, 0, 0, 3, 0, 2, 0, 0, 0x10, 0, 0x80, 0, 0, 0, 0, 5, 0, 0, 0, 1, 0, 2, 0, 0, 0, 0, 0, 0, 0, 0, 0, 0, 0, 0, 0, 0, 0, 0, 0, 0xDD, 0xCC, 0xBB, 0xAA, 0, 0, 0, 0, 0, 0, 0, 0, 0, 0, 0, 0, 0, 0, 0, 0, 0, 0, 0, 0]; s.sound ∧ s.dev.bltReady = true ∧ s.dev.bltFetch = Except.ok c ∧ c.length = 64 ∧ cmdField c 0 1 = opFill ∧ bltCheck c = 0 ∧ cmdField c 3 1 / 16 ≤ 4 ∧ cmdField c 2 1 % 16 = 0 ∧ (∀ (x : Nat), x < cmdField c 4 2 → ∀ (y : Nat), y < cmdField c 6 2 → s.dev.bltReach ((fun x y => cmdField c 8 6 + (cmdField c 22 2 + y) * cmdField c 16 4 + (cmdField c 20 2 + x) * (bltBpp (cmdField c 3 1 / 16) / 8)) x y) (bltBpp (cmdField c 3 1 / 16) / 8) = true)) := by
  (try unfold State.sound); (try unfold State.reaches); (try unfold boundary); intros; (repeat' apply And.intro) <;> first | decide | exact ok_of (by decide)
end FillWrites

namespace DmaChannels
def C (c : Nat) (f : ChanSt → ChanSt) (d : Dev) : Dev := d.onChan c f
def sh (c : Nat) (l : List Nat) (d : Dev) : Dev := l.zipIdx.foldl (fun d e => d.wrN pgDMA (Reg.CH_SHADOW + 64*c + 4*e.2) e.1) d
def tot (d : Dev) : Dev := d.wrN (pgDDR 0) Reg.DDR_TOTAL 1
def desc : List Nat := [0,0x100, 16, 16, 2, 0x1000, 0x100, 32, 0, 1, 0x100, 0x2000, 0x100]
def ctl (c v : Nat) (d : Dev) : Dev := d.wrN pgDMA (chCtl c) v
def stt (c v : Nat) (d : Dev) : Dev := d.wrN pgDMA (chStat c) v
def put (l : List Byte) (a : Nat) (d : Dev) : Dev := { d with mem := (l.zipIdx.foldl (fun m e => spPut memDefault m (a+e.2) e.1) d.mem) }
/-- The states that the witnesses use. -/
def states : List State := [reset, st open_] ++ ([0,1,15].flatMap fun c => [st (stt c 1), st (stt c 3), st (fun d => stt c 2 (ctl c 8 d)), st (ctl c 8),
  st (fun d => ((stt c 2 d).wr64 pgDMA (chCount c 2) 7).wr64 pgDMA (chCount c 3) (2^64-3)),
  st (fun d => C c (fun x => { x with handAt := some 5 }) (d.wrN pgDMA Reg.DMA_STAT 1)),
  st (fun d => C c (fun x => { x with handAt := some 5 }) (stt c 1 d)),
  st (fun d => C c (fun x => { x with handAt := some 0, ended := true, active := desc.map word }) (ctl c 1 (stt c 1 d))),
  st (fun d => sh c desc (C c (fun x => { x with handAt := some 9 }) (ctl c 9 (tot d)))),
  st (fun d => put ((List.range 64).map (byteOf 0x123456789 ·)) (dramBase+0x2000) (C c (fun x => { x with fetching := true, active := desc.map word }) (tot d)))])
def sample (k : Nat) : State := states.getD k State.reset
/-- Operands and states that meet the hypotheses of DmaChannels, clause by clause. -/
theorem witness_DmaChannels :
    (let c : Chan := 0; let s : State := sample 0; let r : Req := Req.hart 0; s.sound ∧ s.reaches r ∧ (s.dev.chan ↑c).handAt = none ∧ (s.dev.chState ↑c = 0 ∨ s.dev.chState ↑c = 3 ∧ s.dev.chLink ↑c = false))
    ∧ (let c : Chan := 0; let s : State := sample 2; let r : Req := Req.hart 0; s.sound ∧ s.reaches r ∧ (s.dev.chan ↑c).handAt = none ∧ (s.dev.chState ↑c = 1 ∨ s.dev.chState ↑c = 2) ∧ s.dev.chLink ↑c = false)
    ∧ (let c : Chan := 0; let s : State := sample 4; let r : Req := Req.hart 0; s.sound ∧ s.reaches r ∧ (s.dev.chan ↑c).handAt = none ∧ s.dev.chState ↑c ≠ 0 ∧ s.dev.chLink ↑c = true)
    ∧ (let c : Chan := 0; let s : State := sample 0; let r : Req := Req.hart 0; s.sound ∧ s.reaches r ∧ (s.dev.chan ↑c).handAt = none)
    ∧ (let c : Chan := 0; let s : State := sample 7; let k : Nat := 5; s.sound ∧ (s.dev.chan ↑c).handAt = some k ∧ s.dev.handReady ↑c = false)
    ∧ (let c : Chan := 0; let s : State := sample 8; let k : Nat := 5; s.sound ∧ (s.dev.chan ↑c).handAt = some k ∧ s.dev.handReady ↑c = true ∧ s.dev.chArmed ↑c = false)
    ∧ (let c : Chan := 0; let s : State := sample 9; let k : Nat := 0; s.sound ∧ (s.dev.chan ↑c).handAt = some k ∧ s.dev.handReady ↑c = true ∧ s.dev.chArmed ↑c = true ∧ s.dev.descCheck (↑c) (s.dev.shadow ↑c) ≠ 0)
    ∧ (let c : Chan := 0; let s : State := sample 10; let k : Nat := 9; s.sound ∧ (s.dev.chan ↑c).handAt = some k ∧ s.dev.handReady ↑c = true ∧ s.dev.chArmed ↑c = true ∧ s.dev.descCheck (↑c) (s.dev.shadow ↑c) = 0)
    ∧ (let c : Chan := 0; let s : State := sample 11; s.sound ∧ (s.dev.chan ↑c).fetching = true ∧ s.dev.dmaErr = false ∧ s.dev.chState ↑c ≠ 2 ∧ s.dev.inDram (descNext (s.dev.chan ↑c).active) 64 = true ∧ s.dev.poisoned (descNext (s.dev.chan ↑c).active) 64 = false)
    ∧ (let s : State := sample 7; let r : Req := Req.hart 0; s.sound ∧ s.reaches r ∧ s.dev.dmaErr = true)
    ∧ (let s : State := sample 0; let r : Req := Req.hart 0; s.sound ∧ s.reaches r ∧ s.dev.dmaErr = false) := by
  (try unfold State.sound); (try unfold State.reaches); (try unfold boundary); refine ⟨?_, ?_, ?_, ?_, ?_, ?_, ?_, ?_, ?_, ?_, ?_⟩ <;> decide
end DmaChannels

namespace DmaBurst
def C (c : Nat) (f : ChanSt → ChanSt) (d : Dev) : Dev := d.onChan c f
def tot (d : Dev) : Dev := (d.wrN (pgDDR 0) Reg.DDR_TOTAL 1).wrN pgDMA Reg.BLK_CTL 1
def stt (c v : Nat) (d : Dev) : Dev := d.wrN pgDMA (chStat c) v
def put (l : List Byte) (a : Nat) (d : Dev) : Dev := { d with mem := (l.zipIdx.foldl (fun m e => spPut memDefault m (a+e.2) e.1) d.mem) }
def desc (src dst n w v : Nat) : List Word := [src,0x100, n + w*2^24, 16, 1, dst, 0x100, n + v*2^24, 0, 1, 0x100, 0x2000, 0x100].map word
def bad : List Word := ([5,0x0, 8, 16, 1, 0, 0x100, 8, 0, 1, 0x100, 0x2000, 0x100]).map word
def bad2 : List Word := ([0x01000000,0x0, 8, 16, 1, 0, 0x100, 8, 0, 1, 0x100, 0x2000, 0x100]).map word
/-- The states that the witnesses use. -/
def states : List State := [reset] ++ ([0,1,15].flatMap fun c => ([desc 3 0x1001 17 3 3, desc 0 64 64 6 6, desc 5 100 64 0 0, desc 0x100 0 1 2 2, desc 1 0x101 63 6 0].map fun a =>
   st (fun d => put ((List.range 70).map (fun i => byteOf (i+1) 0)) dramBase (C c (fun x => { x with active := a }) (stt c 1 ((tot d).wr64 pgDMA (chCount c 2) 100))))) ++
   [bad,bad2].map fun a => st (fun d => (C c (fun x => { x with active := a }) (stt c 1 ((tot d).wr64 pgDMA (chCount c 2) 100)))))
def sample (k : Nat) : State := states.getD k State.reset
/-- Operands and states that meet the hypotheses of DmaBurst, clause by clause. -/
theorem witness_DmaBurst :
    (let c : Chan := 0; let s : State := sample 0; s.sound ∧ s.dev.burstReady ↑c = false)
    ∧ (let c : Chan := 0; let s : State := sample 1; s.sound ∧ s.dev.burstReady ↑c = true ∧ (s.dev.chan ↑c).spos = 0 ∧ (s.dev.chan ↑c).dpos = 0 ∧ (s.dev.chan ↑c).held = [] ∧ (s.dev.chan ↑c).left = 0 ∧ descReq (s.dev.chan ↑c).active = 0 ∧ (∀ (i : Nat), i < 16 → i ≠ ↑c → s.dev.chState i ≠ 1) ∧ descLine (s.dev.chan ↑c).active 5 = descLine (s.dev.chan ↑c).active 0 ∧ descLines (s.dev.chan ↑c).active 0 = 1 ∧ descLines (s.dev.chan ↑c).active 5 = 1 ∧ descLine (s.dev.chan ↑c).active 0 ≤ descBurst (s.dev.chan ↑c).active ∧ s.dev.inDram (descAddr (s.dev.chan ↑c).active 0) (descLine (s.dev.chan ↑c).active 0) = true ∧ s.dev.inDram (descAddr (s.dev.chan ↑c).active 5) (descLine (s.dev.chan ↑c).active 0) = true ∧ (descAddr (s.dev.chan ↑c).active 0 + descLine (s.dev.chan ↑c).active 0 ≤ descAddr (s.dev.chan ↑c).active 5 ∨ descAddr (s.dev.chan ↑c).active 5 + descLine (s.dev.chan ↑c).active 0 ≤ descAddr (s.dev.chan ↑c).active 0) ∧ s.dev.ram.poison = [] ∧ descLine (s.dev.chan ↑c).active 0 ≤ s.dev.rd64 pgDMA (chCount (↑c) 2))
    ∧ (let c : Chan := 0; let s : State := sample 6; s.sound ∧ s.dev.burstReady ↑c = true ∧ (s.dev.chan ↑c).spos = 0 ∧ (s.dev.chan ↑c).dpos = 0 ∧ (s.dev.chan ↑c).held = [] ∧ (s.dev.chan ↑c).left = 0 ∧ descReq (s.dev.chan ↑c).active = 0 ∧ (∀ (i : Nat), i < 16 → i ≠ ↑c → s.dev.chState i ≠ 1) ∧ descWidth (s.dev.chan ↑c).active 0 = 0 ∧ s.dev.dmaCause false (descByte (s.dev.chan ↑c).active 0 0) 1 ≠ 0 ∧ s.dev.dmaCause false (descByte (s.dev.chan ↑c).active 0 0) 1 ≠ 4) := by
  (try unfold State.sound); (try unfold State.reaches); (try unfold boundary); refine ⟨?_, ?_, ?_⟩ <;> decide
end DmaBurst

namespace EventController
def EV (f : EvcSt → EvcSt) (d : Dev) : Dev := { d with evc := f d.evc }
def lev (d : Dev) : Dev := ((d.wrN pgBLT Reg.IRQ_STAT 1).wrN pgBLT Reg.IRQ_EN 1).wrN pgEVC (Reg.EVC_EN+4) (2^24)
def free (d : Dev) : Dev := forN 4 (fun c d => d.wrN pgEVC (Reg.CURPRI+64*c) (5 - c/2)) ({ d with sys := { d.sys with resetHarts := 0 } } : Dev)
/-- The states that the witnesses use. -/
def states : List State := [reset, st lev, st (fun d => lev (free d)), st (fun d => (lev (free d)).wrN pgEVC (Reg.EVC_TGT + 28) 0xF),
  st (fun d => (lev (free d)).wrN pgEVC (Reg.EVC_TGT + 28) 0x3),
  st (fun d => EV (fun e => { e with owner := [(1,some (3,true)), (56, some (1,false)), (63, some (0,true))] }) ((lev (free d)).wrN pgEVC (Reg.EVC_TGT + 28) 0x2)),
  st (fun d => EV (fun e => { e with owner := [(0,some (0,true)), (56, some (1,false)), (271, some (2,false))] }) (lev (free d))),
  st (fun d => (d.wrN pgEVC (Reg.MTIMECMP_LO) 0).wrN pgEVC (Reg.MTIMECMP_LO+4) 0),
  st (fun d => { d with clock := { d.clock with base := 1205, timeAdj := 2^40 } })]
def sample (k : Nat) : State := states.getD k State.reset
/-- Operands and states that meet the hypotheses of EventController, clause by clause. -/
theorem witness_EventController :
    (let s : State := sample 2; let src : Nat := 56; let c : Nat := 0; s.sound ∧ src < 272 ∧ s.dev.gpio.unseen = 0 ∧ (∀ (k : Nat), k < 272 → s.dev.eligible k = decide (k = src)) ∧ c < 4 ∧ s.dev.hartFree c = true ∧ s.dev.srcTgt src c = true ∧ (∀ (k : Nat), k < 4 → s.dev.hartFree k = true → s.dev.srcTgt src k = true → s.dev.curpri c < s.dev.curpri k ∨ s.dev.curpri c = s.dev.curpri k ∧ c ≤ k))
    ∧ (let s : State := sample 1; let src : Nat := 56; s.sound ∧ src < 272 ∧ s.dev.gpio.unseen = 0 ∧ (∀ (k : Nat), k < 272 → s.dev.eligible k = decide (k = src)) ∧ (∀ (c : Nat), c < 4 → s.dev.hartFree c = true → s.dev.srcTgt src c = false))
    ∧ (let s : State := sample 0; s.sound ∧ s.dev.clock.base / 12 + s.dev.clock.timeAdj < 2 ^ 64)
    ∧ (let s : State := sample 5; let src : Fin 512 := 56; let c : Nat := 1; s.sound ∧ (s.dev.owner ↑src = some (c, false)) ∧ (s.dev.level ↑src && s.dev.srcEn ↑src && s.dev.srcTgt (↑src) c) = true)
    ∧ (let s : State := sample 6; let src : Fin 512 := 56; let c : Nat := 1; s.sound ∧ (s.dev.owner ↑src = some (c, false)) ∧ (s.dev.level ↑src && s.dev.srcEn ↑src && s.dev.srcTgt (↑src) c) = false) := by
  (try unfold State.sound); (try unfold State.reaches); (try unfold boundary); refine ⟨?_, ?_, ?_, ?_, ?_⟩ <;> decide
end EventController

namespace ClaimSource
def EV (f : EvcSt → EvcSt) (d : Dev) : Dev := { d with evc := f d.evc }
def lev (d : Dev) : Dev := ((d.wrN pgBLT Reg.IRQ_STAT 1).wrN pgBLT Reg.IRQ_EN 1).wrN pgEVC (Reg.EVC_EN+4) (2^24)
def free (d : Dev) : Dev := forN 4 (fun c d => d.wrN pgEVC (Reg.CURPRI+64*c) (5 - c/2)) ({ d with sys := { d.sys with resetHarts := 0 } } : Dev)
/-- The states that the witnesses use. -/
def states : List State := [reset, st lev, st (fun d => lev (free d)), st (fun d => (lev (free d)).wrN pgEVC (Reg.EVC_TGT + 28) 0xF),
  st (fun d => (lev (free d)).wrN pgEVC (Reg.EVC_TGT + 28) 0x3),
  st (fun d => EV (fun e => { e with owner := [(1,some (3,true)), (56, some (1,false)), (63, some (0,true))] }) ((lev (free d)).wrN pgEVC (Reg.EVC_TGT + 28) 0x2)),
  st (fun d => EV (fun e => { e with owner := [(0,some (0,true)), (56, some (1,false)), (271, some (2,false))] }) (lev (free d))),
  st (fun d => (d.wrN pgEVC (Reg.MTIMECMP_LO) 0).wrN pgEVC (Reg.MTIMECMP_LO+4) 0),
  st (fun d => { d with clock := { d.clock with base := 1205, timeAdj := 2^40 } })]
def sample (k : Nat) : State := states.getD k State.reset
/-- Operands and states that meet the hypotheses of ClaimSource, clause by clause. -/
theorem witness_ClaimSource :
    (let c : Hart := 1; let s : State := sample 5; let src : Nat := 56; s.sound ∧ s.dev.sourceOf (↑c) false = src ∧ src ≠ 0)
    ∧ (let c : Hart := 0; let s : State := sample 0; s.sound ∧ s.dev.sourceOf (↑c) false = 0)
    ∧ (let c : Hart := 0; let s : State := sample 5; let k : Nat := 63; s.sound ∧ (s.dev.owner k = some (↑c, true))) := by
  (try unfold State.sound); (try unfold State.reaches); (try unfold boundary); refine ⟨?_, ?_, ?_⟩ <;> decide
end ClaimSource

namespace CompleteSource
def EV (f : EvcSt → EvcSt) (d : Dev) : Dev := { d with evc := f d.evc }
def lev (d : Dev) : Dev := ((d.wrN pgBLT Reg.IRQ_STAT 1).wrN pgBLT Reg.IRQ_EN 1).wrN pgEVC (Reg.EVC_EN+4) (2^24)
def free (d : Dev) : Dev := forN 4 (fun c d => d.wrN pgEVC (Reg.CURPRI+64*c) (5 - c/2)) ({ d with sys := { d.sys with resetHarts := 0 } } : Dev)
/-- The states that the witnesses use. -/
def states : List State := [reset, st lev, st (fun d => lev (free d)), st (fun d => (lev (free d)).wrN pgEVC (Reg.EVC_TGT + 28) 0xF),
  st (fun d => (lev (free d)).wrN pgEVC (Reg.EVC_TGT + 28) 0x3),
  st (fun d => EV (fun e => { e with owner := [(1,some (3,true)), (56, some (1,false)), (63, some (0,true))] }) ((lev (free d)).wrN pgEVC (Reg.EVC_TGT + 28) 0x2)),
  st (fun d => EV (fun e => { e with owner := [(1,some (0,true)), (56, some (1,false)), (271, some (2,false))] }) (lev (free d))),
  st (fun d => EV (fun e => { e with owner := [(63, some (0,true))] }) (lev (free d))), st (fun d => EV (fun e => { e with owner := [(56, some (1,true))] }) (lev (free d))), st (fun d => (d.wrN pgEVC (Reg.MTIMECMP_LO) 0).wrN pgEVC (Reg.MTIMECMP_LO+4) 0),
  st (fun d => { d with clock := { d.clock with base := 1205, timeAdj := 2^40 } })]
def sample (k : Nat) : State := states.getD k State.reset
/-- Operands and states that meet the hypotheses of CompleteSource, clause by clause. -/
theorem witness_CompleteSource :
    (let c : Hart := 0; let v : Word := 0x3F; let s : State := sample 5; s.sound ∧ (s.dev.owner (field v 8 0) = some (↑c, true)))
    ∧ (let c : Hart := 0; let v : Word := 0x3F; let s : State := sample 0; s.sound ∧ (s.dev.owner (field v 8 0) ≠ some (↑c, true))) := by
  (try unfold State.sound); (try unfold State.reaches); (try unfold boundary); refine ⟨?_, ?_⟩ <;> decide
end CompleteSource

namespace Timers
def T (n : Nat) (f : TmrSt → TmrSt) (d : Dev) : Dev := d.setTmr n (f (d.tmr n))
def E (d : Dev) : Dev := d.wrN pgTMR Reg.BLK_CTL 1
def tm (n ctl cnt per : Nat) (d : Dev) : Dev := (((E d).wrB pgTMR Reg.TMR_RUN n true).wrN pgTMR (tmrOff n Reg.TMR_CTL) ctl).wr64 pgTMR (tmrOff n Reg.TMR_CNT_LO) cnt |>.wr64 pgTMR (tmrOff n Reg.TMR_PER_LO) per
/-- The states that the witnesses use. -/
def states : List State := [reset, st open_, st (fun d => d.wrN pgTMR Reg.TMR_RUN 0x8001)] ++ ([0,1,15].flatMap fun n => [
  st (fun d => T n (fun t => { t with nextTick := 77 }) (tm n 0 3 5 d)),
  st (fun d => T n (fun t => { t with perHeld := some 1, cmpHeld := [(1,9),(3,0xFFFFFFFF)] }) (tm n 0 5 5 d)),
  st (tm n 0 5 5), st (tm n 1 0 5), st (tm n 1 (2^63) 5), st (tm n 0 (2^64-2) (2^64-1)),
  st (fun d => (tm n 3 5 5 d).wrN pgTMR (cmpOff n 0 Reg.CMP0_CTL) 3)])
def sample (k : Nat) : State := states.getD k State.reset
/-- Operands and states that meet the hypotheses of Timers, clause by clause. -/
theorem witness_Timers :
    (let s : State := sample 0; let r : Req := Req.hart 0; s.sound ∧ s.reaches r)
    ∧ (let n : Tmr := 0; let s : State := sample 0; s.sound ∧ (s.dev.tmrRuns ↑n = false ∨ s.dev.frozen pgTMR = true ∨ s.dev.mode = 6))
    ∧ (let n : Tmr := 0; let s : State := sample 3; s.sound ∧ s.dev.tmrRuns ↑n = true ∧ s.dev.frozen pgTMR = false ∧ s.dev.mode ≠ 6 ∧ s.dev.tmrMode ↑n = 0 ∧ s.dev.tmrCnt ↑n < s.dev.tmrPer ↑n)
    ∧ (let n : Tmr := 0; let s : State := sample 5; s.sound ∧ s.dev.tmrRuns ↑n = true ∧ s.dev.frozen pgTMR = false ∧ s.dev.mode ≠ 6 ∧ s.dev.tmrMode ↑n = 0 ∧ s.dev.tmrPer ↑n ≤ s.dev.tmrCnt ↑n)
    ∧ (let n : Tmr := 0; let s : State := sample 6; s.sound ∧ s.dev.tmrRuns ↑n = true ∧ s.dev.frozen pgTMR = false ∧ s.dev.mode ≠ 6 ∧ s.dev.tmrMode ↑n = 1 ∧ s.dev.tmrCnt ↑n = 0)
    ∧ (let n : Tmr := 0; let s : State := sample 7; s.sound ∧ s.dev.tmrRuns ↑n = true ∧ s.dev.frozen pgTMR = false ∧ s.dev.mode ≠ 6 ∧ s.dev.tmrMode ↑n = 1 ∧ s.dev.tmrCnt ↑n ≠ 0)
    ∧ (let n : Tmr := 0; let s : State := sample 4; let r : Req := Req.hart 0; let lo : Word := 1; s.sound ∧ s.reaches r ∧ (s.dev.tmr ↑n).perHeld = some lo) := by
  (try unfold State.sound); (try unfold State.reaches); (try unfold boundary); refine ⟨?_, ?_, ?_, ?_, ?_, ?_, ?_⟩ <;> decide
end Timers

namespace Pins
def G (f : GpioSt → GpioSt) (d : Dev) : Dev := { d with gpio := f d.gpio }
/-- The states that the witnesses use. -/
def states : List State := [reset, st open_,
  st (fun d => d.wrN pgGPIO Reg.GPIO_FUNC 0x30),
  st (fun d => G (fun g => { g with inEffect := [(17, 3)] }) (d.wrN pgGPIO Reg.GPIO_FUNC 0x30)),
  st (fun d => G (fun g => { g with level := 2^63+2 , hist := [(0,5)], unseen := 1, armed := [(0, some (.hart 0, 1)), (1, some (.debug, 0)), (3, some (.hart 0, 0xFFFF))]}) (open_ ((d.wrN pgGPIO (Reg.PM_CTL) 0xFFFF0004).wrN pgGPIO (Reg.GPIO_FUNC+28) 0x20000000))),
  st (G (fun g => { g with level := 2^63+2 , hist := [(0,2^63+2)]}))]
def sample (k : Nat) : State := states.getD k State.reset
/-- Operands and states that meet the hypotheses of Pins, clause by clause. -/
theorem witness_Pins :
    (let s : State := sample 0; let pin : Pin := 0; s.sound ∧ s.dev.rdF pgGPIO (Reg.GPIO_FUNC + 4 * (↑pin / 8)) (4 * (↑pin % 8) + 3) (4 * (↑pin % 8)) = s.dev.pinFn ↑pin ∧ s.dev.frozen pgGPIO = false)
    ∧ (let s : State := sample 2; let pin : Pin := 1; s.sound ∧ s.dev.rdF pgGPIO (Reg.GPIO_FUNC + 4 * (↑pin / 8)) (4 * (↑pin % 8) + 3) (4 * (↑pin % 8)) ≠ s.dev.pinFn ↑pin ∧ s.dev.frozen pgGPIO = false)
    ∧ (let s : State := sample 0; let pin : Pin := 0; let b : Bool := false; s.sound ∧ s.dev.gpio.level.testBit ↑pin = b ∧ s.dev.gpio.unseen = 0)
    ∧ (let s : State := sample 0; let pin : Pin := 0; let b : Bool := true; s.sound ∧ s.dev.gpio.level.testBit ↑pin ≠ b)
    ∧ (let s : State := sample 0; let r : Req := Req.hart 0; s.sound ∧ s.reaches r)
    ∧ (let s : State := sample 4; let r : Req := Req.hart 0; let b : Fin 4 := 0; let mask : BitVec 16 := 1; s.sound ∧ s.reaches r ∧ (spGet (fun x => none) s.dev.gpio.armed ↑b = some (r, mask.toNat)))
    ∧ (let s : State := sample 0; let r : Req := Req.hart 0; let b : Fin 4 := 0; let mask : BitVec 16 := 0; s.sound ∧ s.reaches r ∧ (spGet (fun x => none) s.dev.gpio.armed ↑b ≠ some (r, mask.toNat))) := by
  (try unfold State.sound); (try unfold State.reaches); (try unfold boundary); refine ⟨?_, ?_, ?_, ?_, ?_, ?_, ?_⟩ <;> decide
end Pins

namespace Uart
def L (f : LspSt → LspSt) (d : Dev) : Dev := { d with lsp := f d.lsp }
/-- The states that the witnesses use. -/
def states : List State := [reset, st open_, st (fun d => (d.wrN pgLSP Reg.UART_CTL 5)), 
  st (L (fun l => { l with utx := List.replicate 60 1, urx := List.replicate 4 (1,1) })),
  st (fun d => L (fun l => { l with utx := List.replicate 61 1, urx := [(1,1)] }) (d.wrN pgLSP Reg.UART_CTL 7)),
  st (fun d => L (fun l => { l with utx := List.replicate 64 1, urx := List.replicate 64 (0,0) }) (d.wrN pgLSP Reg.UART_CTL 1))]
def sample (k : Nat) : State := states.getD k State.reset
/-- Operands and states that meet the hypotheses of Uart, clause by clause. -/
theorem witness_Uart :
    (let s : State := sample 0; let r : Req := Req.hart 0; s.sound ∧ s.reaches r ∧ s.dev.lsp.utx.length + 4 ≤ 64)
    ∧ (let s : State := sample 4; let r : Req := Req.hart 0; s.sound ∧ s.reaches r ∧ 64 < s.dev.lsp.utx.length + 4)
    ∧ (let s : State := sample 0; let r : Req := Req.hart 0; s.sound ∧ s.reaches r ∧ s.dev.lsp.utx.length < 64)
    ∧ (let s : State := sample 5; let r : Req := Req.hart 0; s.sound ∧ s.reaches r ∧ 64 ≤ s.dev.lsp.utx.length)
    ∧ (let s : State := sample 3; let r : Req := Req.hart 0; s.sound ∧ s.reaches r ∧ 4 ≤ s.dev.lsp.urx.length)
    ∧ (let s : State := sample 0; let r : Req := Req.hart 0; s.sound ∧ s.reaches r ∧ s.dev.lsp.urx.length < 4)
    ∧ (let s : State := sample 0; let r : Req := Req.hart 0; s.sound ∧ s.reaches r ∧ s.dev.lsp.urx = [])
    ∧ (let s : State := sample 3; let r : Req := Req.hart 0; let b : Byte := 1; let flags : Nat := 1; let rest : List (Byte × Nat) := [(1, 1), (1, 1), (1, 1)]; s.sound ∧ s.reaches r ∧ (s.dev.lsp.urx = (b, flags) :: rest))
    ∧ (let s : State := sample 0; s.sound ∧ s.dev.rdB pgLSP Reg.UART_CTL 0 = false)
    ∧ (let s : State := sample 5; s.sound ∧ s.dev.rdB pgLSP Reg.UART_CTL 0 = true ∧ 64 ≤ s.dev.lsp.urx.length)
    ∧ (let s : State := sample 2; s.sound ∧ s.dev.rdB pgLSP Reg.UART_CTL 0 = true ∧ s.dev.lsp.urx.length < 64)
    ∧ (let s : State := sample 4; let b : Byte := 1; let rest : List Byte := [1, 1, 1, 1, 1, 1, 1, 1, 1, 1, 1, 1, 1, 1, 1, 1, 1, 1, 1, 1, 1, 1, 1, 1, 1, 1, 1, 1, 1, 1, 1, 1, 1, 1, 1, 1, 1, 1, 1, 1, 1, 1, 1, 1, 1, 1, 1, 1, 1, 1, 1, 1, 1, 1, 1, 1, 1, 1, 1, 1]; s.sound ∧ s.dev.lsp.utx = b :: rest ∧ s.dev.rdB pgLSP Reg.UART_CTL 0 = true ∧ s.dev.frozen pgLSP = false)
    ∧ (let s : State := sample 0; s.sound ∧ (s.dev.lsp.utx = [] ∨ s.dev.rdB pgLSP Reg.UART_CTL 0 = false) ∧ s.dev.frozen pgLSP = false) := by
  (try unfold State.sound); (try unfold State.reaches); (try unfold boundary); refine ⟨?_, ?_, ?_, ?_, ?_, ?_, ?_, ?_, ?_, ?_, ?_, ?_, ?_⟩ <;> decide
end Uart

namespace XspiAndI3c
/-- The states that the witnesses use. -/
def states : List State := [reset, st open_, st (fun d => (d.wrN pgLSP Reg.XSPI_CTL 1).wrN pgLSP Reg.I3C_CTL 3),
  st (fun d => { (d.wrN pgLSP Reg.XSPI_LEN 0x10005) with lsp := { d.lsp with xfer := some 1, ixfer := some 0x480, xfifo := List.replicate 256 7, ififo := List.replicate 32 9, ibis := [(5,1)] } }),
  st (fun d => { (d.wrN pgLSP Reg.XSPI_LEN 0x5) with lsp := { d.lsp with xfer := some 1, ixfer := some 0x400, xfifo := List.replicate 254 7, ififo := List.replicate 30 9, ibis := [(0,0)] } })]
def sample (k : Nat) : State := states.getD k State.reset
/-- Operands and states that meet the hypotheses of XspiAndI3c, clause by clause. -/
theorem witness_XspiAndI3c :
    (let s : State := sample 2; let r : Req := Req.hart 0; s.sound ∧ s.reaches r ∧ (s.dev.rdB pgLSP Reg.XSPI_CTL 0 && s.dev.lsp.xfer.isNone) = true)
    ∧ (let s : State := sample 0; let r : Req := Req.hart 0; s.sound ∧ s.reaches r ∧ (s.dev.rdB pgLSP Reg.XSPI_CTL 0 && s.dev.lsp.xfer.isNone) = false)
    ∧ (let s : State := sample 2; let r : Req := Req.hart 0; s.sound ∧ s.reaches r ∧ (s.dev.rdB pgLSP Reg.I3C_CTL 0 && s.dev.lsp.ixfer.isNone) = true)
    ∧ (let s : State := sample 0; let r : Req := Req.hart 0; s.sound ∧ s.reaches r ∧ (s.dev.rdB pgLSP Reg.I3C_CTL 0 && s.dev.lsp.ixfer.isNone) = false)
    ∧ (let s : State := sample 0; let r : Req := Req.hart 0; s.sound ∧ s.reaches r ∧ s.dev.lsp.xfifo.length + 4 ≤ 256)
    ∧ (let s : State := sample 3; let r : Req := Req.hart 0; s.sound ∧ s.reaches r ∧ 256 < s.dev.lsp.xfifo.length + 4)
    ∧ (let s : State := sample 0; let r : Req := Req.hart 0; s.sound ∧ s.reaches r ∧ s.dev.lsp.ififo.length + 4 ≤ 32)
    ∧ (let s : State := sample 3; let r : Req := Req.hart 0; s.sound ∧ s.reaches r ∧ 32 < s.dev.lsp.ififo.length + 4)
    ∧ (let s : State := sample 3; let r : Req := Req.hart 0; s.sound ∧ s.reaches r ∧ 4 ≤ s.dev.lsp.xfifo.length)
    ∧ (let s : State := sample 0; let r : Req := Req.hart 0; s.sound ∧ s.reaches r ∧ s.dev.lsp.xfifo.length < 4)
    ∧ (let s : State := sample 3; let r : Req := Req.hart 0; s.sound ∧ s.reaches r ∧ 4 ≤ s.dev.lsp.ififo.length)
    ∧ (let s : State := sample 0; let r : Req := Req.hart 0; s.sound ∧ s.reaches r ∧ s.dev.lsp.ififo.length < 4)
    ∧ (let s : State := sample 0; let r : Req := Req.hart 0; s.sound ∧ s.reaches r ∧ s.dev.lsp.ibis = [])
    ∧ (let s : State := sample 3; let r : Req := Req.hart 0; let a : Nat := 5; let b : Byte := 1; let rest : List (Nat × Byte) := []; s.sound ∧ s.reaches r ∧ (s.dev.lsp.ibis = (a, b) :: rest))
    ∧ (let s : State := sample 3; let c : Word := 1; s.sound ∧ s.dev.lsp.xfer = some c ∧ s.dev.rdB pgLSP Reg.XSPI_LEN 16 = true ∧ s.dev.frozen pgLSP = false)
    ∧ (let s : State := sample 4; let c : Word := 1; s.sound ∧ s.dev.lsp.xfer = some c ∧ s.dev.rdB pgLSP Reg.XSPI_LEN 16 = false ∧ s.dev.frozen pgLSP = false)
    ∧ (let s : State := sample 0; s.sound ∧ s.dev.lsp.xfer = none ∧ s.dev.frozen pgLSP = false)
    ∧ (let s : State := sample 0; s.sound ∧ s.dev.lsp.ixfer = none ∧ s.dev.frozen pgLSP = false)
    ∧ (let s : State := sample 3; let c : Word := 0x480; s.sound ∧ s.dev.lsp.ixfer = some c ∧ s.dev.frozen pgLSP = false)
    ∧ (let s : State := sample 2; s.sound ∧ (s.dev.rdB pgLSP Reg.I3C_CTL 0 && s.dev.rdB pgLSP Reg.I3C_CTL 1) = true)
    ∧ (let s : State := sample 0; s.sound ∧ (s.dev.rdB pgLSP Reg.I3C_CTL 0 && s.dev.rdB pgLSP Reg.I3C_CTL 1) = false) := by
  (try unfold State.sound); (try unfold State.reaches); (try unfold boundary); refine ⟨?_, ?_, ?_, ?_, ?_, ?_, ?_, ?_, ?_, ?_, ?_, ?_, ?_, ?_, ?_, ?_, ?_, ?_, ?_, ?_, ?_⟩ <;> decide
end XspiAndI3c

namespace UsbAndMdio
/-- The states that the witnesses use. -/
def states : List State := [reset, st open_] ++ ([0,1].flatMap fun k => [
  st (fun d => (d.wrN pgUSB Reg.USB_CTL 1).wrN pgUSB (usbStat k) 0x40),
  st (fun d => (d.wrN pgUSB Reg.USB_CTL 1).wrN pgUSB (usbStat k) 0x69),
  st (fun d => (d.wrN pgUSB Reg.USB_CTL 1).wrN pgUSB (usbStat k) 0x51),
  st (fun d => (d.wrN pgUSB Reg.USB_CTL 0x503).wrN pgUSB (usbStat k) 0x51),
  st (fun d => { (((d.wrN pgUSB Reg.USB_CTL 0x503).wrN pgUSB (usbStat k) 0x51).wr64 (pgHD 5) Reg.HB_NAME_LO 77 |>.wrN (pgHD 5) Reg.HB_STAT 2) with mgmt := { d.mgmt with mdio := some 0x800 } })])
def sample (k : Nat) : State := states.getD k State.reset
/-- Operands and states that meet the hypotheses of UsbAndMdio, clause by clause. -/
theorem witness_UsbAndMdio :
    (let k : Fin 2 := 0; let s : State := sample 2; s.sound ∧ s.dev.usbLive ↑k = true)
    ∧ (let k : Fin 2 := 0; let s : State := sample 0; s.sound ∧ s.dev.usbLive ↑k = false)
    ∧ (let k : Fin 2 := 0; let s : State := sample 0; s.sound ∧ s.dev.rdB pgUSB (usbStat ↑k) 0 = false)
    ∧ (let k : Fin 2 := 0; let s : State := sample 3; s.sound ∧ s.dev.rdB pgUSB (usbStat ↑k) 0 = true)
    ∧ (let k : Fin 2 := 0; let s : State := sample 0; s.sound ∧ s.dev.usbLive ↑k = false ∧ s.dev.frozen pgUSB = false)
    ∧ (let k : Fin 2 := 0; let s : State := sample 3; let rep : List Byte := [1, 2, 3, 4]; s.sound ∧ s.dev.usbLive ↑k = true ∧ s.dev.usbKind ↑k = 1 ∧ (∃ b, b ∈ List.take 6 (List.drop 2 rep) ∧ b ≠ 1) ∧ s.dev.rdB pgUSB Reg.USB_CTL 1 = false ∧ s.dev.frozen pgUSB = false)
    ∧ (let k : Fin 2 := 0; let s : State := sample 4; let rep : List Byte := [1, 2, 3, 4]; s.sound ∧ s.dev.usbLive ↑k = true ∧ s.dev.usbKind ↑k = 2 ∧ rep.getD 1 0 ≠ 0 ∧ s.dev.rdB pgUSB Reg.USB_CTL 1 = false ∧ s.dev.frozen pgUSB = false)
    ∧ (let k : Fin 2 := 0; let s : State := sample 6; let rep : List Byte := [1, 2, 3, 4]; s.sound ∧ s.dev.usbLive ↑k = true ∧ s.dev.usbKind ↑k = 2 ∧ rep.getD 1 0 ≠ 0 ∧ s.dev.rdB pgUSB Reg.USB_CTL 1 = true ∧ s.dev.console s.dev.usbHead ≠ 0 ∧ s.dev.frozen pgUSB = false)
    ∧ (let s : State := sample 0; s.sound)
    ∧ (let s : State := sample 0; let r : Req := Req.hart 0; s.sound ∧ s.reaches r ∧ s.dev.mgmt.mdio = none)
    ∧ (let s : State := sample 6; let r : Req := Req.hart 0; s.sound ∧ s.reaches r ∧ s.dev.mgmt.mdio ≠ none)
    ∧ (let s : State := sample 6; let c : Word := 0x800; s.sound ∧ s.dev.mgmt.mdio = some c ∧ s.dev.frozen pgMGMT = false) := by
  (try unfold State.sound); (try unfold State.reaches); (try unfold boundary); refine ⟨?_, ?_, ?_, ?_, ?_, ?_, ?_, ?_, ?_, ?_, ?_, ?_⟩ <;> decide
end UsbAndMdio

namespace ModeRequests
def ddr (d : Dev) : Dev := forN 6 (fun c d => (d.wrN (pgDDR c) Reg.DDR_CTL 1).wrN (pgDDR c) Reg.DDR_STAT 0x101) d
def deg (n : Nat) (d : Dev) : Dev := d.wrN pgSYS Reg.SYS_DEG_CAUSE n
def mf (n : Nat) (d : Dev) : Dev := d.wrN pgSYS Reg.MF_NEG_LO n
/-- The states that the witnesses use. -/
def states : List State := ([1,2,3,4,5,6,7].flatMap fun m => [st (md m), st (fun d => open_ (deg 1 (md m d))), st (fun d => ddr (md m d)), st (fun d => ddr (deg 16 (md m d))), st (fun d => ddr (deg 1 (md m d))),
  st (fun d => mf 15 (md m d)), st (fun d => mf 8 ((md m d).wrN pgSESS Reg.SESS_OPEN 1))])
def sample (k : Nat) : State := states.getD k State.reset
/-- Operands and states that meet the hypotheses of ModeRequests, clause by clause. -/
theorem witness_ModeRequests :
    (let r : Req := Req.hart 0; let s : State := sample 7; s.sound ∧ s.reaches r ∧ s.dev.mode = 2 ∧ s.dev.ddrReady = false)
    ∧ (let r : Req := Req.hart 0; let s : State := sample 9; s.sound ∧ s.reaches r ∧ s.dev.mode = 2 ∧ s.dev.ddrReady = true ∧ (¬s.dev.rd pgSYS Reg.SYS_DEG_CAUSE ≠ 0))
    ∧ (let r : Req := Req.hart 0; let s : State := sample 10; s.sound ∧ s.reaches r ∧ s.dev.mode = 2 ∧ s.dev.ddrReady = true ∧ s.dev.rd pgSYS Reg.SYS_DEG_CAUSE ≠ 0)
    ∧ (let r : Req := Req.hart 0; let s : State := sample 21; s.sound ∧ s.reaches r ∧ s.dev.mode = 4 ∧ (¬s.dev.rd pgSYS Reg.SYS_DEG_CAUSE ≠ 0))
    ∧ (let r : Req := Req.hart 0; let s : State := sample 22; s.sound ∧ s.reaches r ∧ s.dev.mode = 4 ∧ s.dev.rd pgSYS Reg.SYS_DEG_CAUSE ≠ 0)
    ∧ (let r : Req := Req.hart 0; let s : State := sample 28; s.sound ∧ s.reaches r ∧ s.dev.mode = 5 ∧ (¬s.dev.rd pgSYS Reg.SYS_DEG_CAUSE ≠ 0))
    ∧ (let r : Req := Req.hart 0; let s : State := sample 29; s.sound ∧ s.reaches r ∧ s.dev.mode = 5 ∧ s.dev.rd pgSYS Reg.SYS_DEG_CAUSE ≠ 0)
    ∧ (let r : Req := Req.hart 0; let s : State := sample 0; s.sound ∧ s.reaches r ∧ s.dev.mode ≠ 2 ∧ s.dev.mode ≠ 4 ∧ s.dev.mode ≠ 5)
    ∧ (let r : Req := Req.hart 0; let s : State := sample 9; s.sound ∧ s.reaches r ∧ (s.dev.mode = 2 ∧ s.dev.ddrReady = true ∨ s.dev.mode = 3 ∨ s.dev.mode = 5) ∧ s.dev.rdB pgSYS Reg.SYS_DEG_CAUSE 4 = false)
    ∧ (let r : Req := Req.hart 0; let s : State := sample 0; s.sound ∧ s.reaches r ∧ s.dev.mode ≠ 2 ∧ s.dev.mode ≠ 3 ∧ s.dev.mode ≠ 5)
    ∧ (let r : Req := Req.hart 0; let s : State := sample 14; s.sound ∧ s.reaches r ∧ (s.dev.mode = 3 ∨ s.dev.mode = 4))
    ∧ (let r : Req := Req.hart 0; let s : State := sample 0; s.sound ∧ s.reaches r ∧ s.dev.mode ≠ 3 ∧ s.dev.mode ≠ 4)
    ∧ (let r : Req := Req.hart 0; let s : State := sample 0; s.sound ∧ s.reaches r ∧ s.dev.mode ≠ 3 ∧ s.dev.mode ≠ 4 ∧ s.dev.mode ≠ 5)
    ∧ (let r : Req := Req.hart 0; let s : State := sample 14; s.sound ∧ s.reaches r ∧ (s.dev.mode = 3 ∨ s.dev.mode = 4 ∨ s.dev.mode = 5) ∧ s.dev.mf 3 = false)
    ∧ (let r : Req := Req.hart 0; let s : State := sample 20; s.sound ∧ s.reaches r ∧ (s.dev.mode = 3 ∨ s.dev.mode = 4 ∨ s.dev.mode = 5) ∧ s.dev.mf 3 = true ∧ s.dev.restReady = false)
    ∧ (let r : Req := Req.hart 0; let s : State := sample 19; s.sound ∧ s.reaches r ∧ (s.dev.mode = 3 ∨ s.dev.mode = 4 ∨ s.dev.mode = 5) ∧ s.dev.mf 3 = true ∧ s.dev.restReady = true) := by
  (try unfold State.sound); (try unfold State.reaches); (try unfold boundary); refine ⟨?_, ?_, ?_, ?_, ?_, ?_, ?_, ?_, ?_, ?_, ?_, ?_, ?_, ?_, ?_, ?_⟩ <;> decide
end ModeRequests

namespace ChipResets
def S (f : SysSt → SysSt) (d : Dev) : Dev := { d with sys := f d.sys }
def put (a : Nat) (b : Byte) (d : Dev) : Dev := { d with mem := (spPut memDefault d.mem a b) }
def junk (d : Dev) : Dev := put dramBase 5 (put (mramBase+70) 9 ((((d.wrN pgTMR Reg.TMR_RUN 5).wrN pgPWR Reg.PWR_STAT 1).wrN (pgHP 3) Reg.HP_STAT 1).onEng 4 (fun x => { x with st := .running })))
/-- The states that the witnesses use. -/
def states : List State := [reset, st open_, st junk, st (fun d => junk (md 7 d)), st (S (fun x => { x with hold := 0 })), st (fun d => S (fun x => { x with hold := 0, causes := 2 }) (junk (open_ (md 3 d)))),
  st (S (fun x => { x with hold := 2 })), st (S (fun x => { x with hold := 4 })), st (S (fun x => { x with hold := 7 })),
  st (fun d => { (d.wrN pgPWR Reg.PWR_STAT 1).wrN pgPWR Reg.PWR_VCORE 700 with ram := { d.ram with mramBuf := [(1,[2])]}} )]
def sample (k : Nat) : State := states.getD k State.reset
/-- Operands and states that meet the hypotheses of ChipResets, clause by clause. -/
theorem witness_ChipResets :
    (let s : State := sample 0; s.sound)
    ∧ (let s : State := sample 2; s.sound ∧ s.dev.mramBlocked = true)
    ∧ (let s : State := sample 0; let temp : BitVec 16 := 0x3E8; s.sound ∧ 1000 ≤ temp.toInt ∧ s.dev.mode ≠ 7)
    ∧ (let s : State := sample 0; let temp : BitVec 16 := 0; s.sound ∧ (temp.toInt < 1000 ∨ s.dev.mode = 7))
    ∧ (let s : State := sample 7; let temp : BitVec 16 := 0; s.sound ∧ temp.toInt < 920 ∧ s.dev.sys.hold = 4)
    ∧ (let s : State := sample 8; let temp : BitVec 16 := 0; s.sound ∧ temp.toInt < 920 ∧ s.dev.sys.hold.testBit 2 = true ∧ s.dev.sys.hold ≠ 4)
    ∧ (let s : State := sample 0; let temp : BitVec 16 := 0; s.sound ∧ (920 ≤ temp.toInt ∨ s.dev.sys.hold.testBit 2 = false))
    ∧ (let s : State := sample 0; s.sound ∧ s.dev.sys.hold = 1)
    ∧ (let s : State := sample 4; s.sound ∧ s.dev.sys.hold ≠ 1)
    ∧ (let s : State := sample 6; s.sound ∧ s.dev.sys.hold = 2)
    ∧ (let s : State := sample 8; s.sound ∧ s.dev.sys.hold.testBit 1 = true ∧ s.dev.sys.hold ≠ 2)
    ∧ (let s : State := sample 0; s.sound ∧ s.dev.sys.hold.testBit 1 = false)
    ∧ (let s : State := sample 4; let r : Req := Req.hart 0; let v : Word := 0xA5000002; s.sound ∧ s.reaches r ∧ field v 31 24 = 165 ∧ bit v 1 = true ∧ s.dev.mode ≠ 7 ∧ s.dev.sys.hold = 0)
    ∧ (let s : State := sample 0; let r : Req := Req.hart 0; let v : Word := 0; s.sound ∧ s.reaches r ∧ field v 31 24 ≠ 165) := by
  (try unfold State.sound); (try unfold State.reaches); (try unfold boundary); refine ⟨?_, ?_, ?_, ?_, ?_, ?_, ?_, ?_, ?_, ?_, ?_, ?_, ?_, ?_⟩ <;> decide
end ChipResets

namespace Boot
def S (f : SysSt → SysSt) (d : Dev) : Dev := { d with sys := f d.sys }
/-- The states that the witnesses use. -/
def states : List State := [reset, st open_, st (fun d => d.wrN pgSYS Reg.SYS_BOOT_STAT 0x48), st (fun d => (open_ d).wrN pgSYS Reg.MF_NEG_LO 2)]
def sample (k : Nat) : State := states.getD k State.reset
/-- Operands and states that meet the hypotheses of Boot, clause by clause. -/
theorem witness_Boot :
    (let s : State := sample 0; s.sound ∧ s.dev.sys.hold = 1 ∧ s.dev.imageFail (s.dev.slotImage (s.dev.bootActive != s.dev.bootTrial)).fst (s.dev.slotImage (s.dev.bootActive != s.dev.bootTrial)).snd ≠ 0 ∧ s.dev.imageFail (s.dev.slotImage !s.dev.bootActive != s.dev.bootTrial).fst (s.dev.slotImage !s.dev.bootActive != s.dev.bootTrial).snd ≠ 0)
    ∧ (let s : State := sample 0; s.sound ∧ s.dev.rdB pgSYS Reg.SYS_BOOT_STAT 6 = false)
    ∧ (let s : State := sample 2; let img : List Byte := []; s.sound ∧ s.dev.rdB pgSYS Reg.SYS_BOOT_STAT 6 = true ∧ s.dev.imageFail (List.take 256 img) (List.drop 256 img) ≠ 0)
    ∧ (let s : State := sample 3; let r : Req := Req.hart 0; s.sound ∧ s.reaches r ∧ s.dev.mf 1 = true)
    ∧ (let s : State := sample 0; let r : Req := Req.hart 0; s.sound ∧ s.reaches r ∧ s.dev.mf 1 = false)
    ∧ (let s : State := sample 0; let r : Req := Req.hart 0; s.sound ∧ s.reaches r) := by
  (try unfold State.sound); (try unfold State.reaches); (try unfold boundary); refine ⟨?_, ?_, ?_, ?_, ?_, ?_⟩ <;> decide
end Boot

namespace Restarts
def S (f : SysSt → SysSt) (d : Dev) : Dev := { d with sys := f d.sys }
/-- The states that the witnesses use. -/
def states : List State := [reset, st open_, st (fun d => S (fun x => { x with trialAt := some 5, resetHarts := 0, haltedHarts := 3 }) (md 3 d)), 
  st (fun d => (md 3 (d.wrN pgSYS Reg.MF_NEG_LO 3)).wrN pgSYS Reg.SYS_WDOG 10), st (fun d => (d.wrN pgSYS Reg.MF_CTL 1)), st (fun d => (d.wrN pgSYS Reg.MF_OFFER_LO 15).wrN pgSYS Reg.MF_CHOICE_LO 3),
  st (fun d => (d.wrN pgSYS Reg.MF_OFFER_LO 15).wrN pgSYS Reg.MF_CHOICE_LO 2), st (fun d => (d.wrN pgSYS Reg.MF_OFFER_LO 15).wrN pgSYS Reg.MF_CHOICE_LO 17), st (fun d => (d.wrN pgSYS Reg.MF_OFFER_LO 15).wrN pgSYS (Reg.MF_CHOICE_LO+4) 1)]
def sample (k : Nat) : State := states.getD k State.reset
/-- Operands and states that meet the hypotheses of Restarts, clause by clause. -/
theorem witness_Restarts :
    (let s : State := sample 0; let r : Req := Req.hart 0; let v : Word := 0xA5000001; s.sound ∧ s.reaches r ∧ field v 31 24 = 165 ∧ bit v 1 = false ∧ bit v 0 = true ∧ s.dev.portsOff = false)
    ∧ (let s : State := sample 3; s.sound ∧ s.dev.wdogOn = true)
    ∧ (let s : State := sample 0; s.sound ∧ s.dev.wdogOn = false)
    ∧ (let s : State := sample 3; s.sound ∧ s.dev.wdogOn = true ∧ s.dev.sys.wdogWarned = false)
    ∧ (let s : State := sample 2; let t0 : Nat := 5; s.sound ∧ s.dev.sys.trialAt = some t0)
    ∧ (let s : State := sample 0; s.sound ∧ s.dev.sys.trialAt = none)
    ∧ (let s : State := sample 0; let r : Req := Req.hart 0; s.sound ∧ s.reaches r)
    ∧ (let s : State := sample 4; let r : Req := Req.hart 0; s.sound ∧ s.reaches r ∧ s.dev.rdB pgSYS Reg.MF_CTL 0 = true)
    ∧ (let s : State := sample 0; let r : Req := Req.hart 0; s.sound ∧ s.reaches r ∧ s.dev.rdB pgSYS Reg.MF_CTL 0 = false ∧ (if s.dev.rd64 pgSYS Reg.MF_CHOICE_LO &&& s.dev.rd64 pgSYS Reg.MF_OFFER_LO ≠ s.dev.rd64 pgSYS Reg.MF_CHOICE_LO then 1 else if ((s.dev.rd64 pgSYS Reg.MF_CHOICE_LO).testBit 1 && !(s.dev.rd64 pgSYS Reg.MF_CHOICE_LO).testBit 0) = true then 2 else 0) = 0)
    ∧ (let s : State := sample 6; let r : Req := Req.hart 0; s.sound ∧ s.reaches r ∧ s.dev.rdB pgSYS Reg.MF_CTL 0 = false ∧ (if s.dev.rd64 pgSYS Reg.MF_CHOICE_LO &&& s.dev.rd64 pgSYS Reg.MF_OFFER_LO ≠ s.dev.rd64 pgSYS Reg.MF_CHOICE_LO then 1 else if ((s.dev.rd64 pgSYS Reg.MF_CHOICE_LO).testBit 1 && !(s.dev.rd64 pgSYS Reg.MF_CHOICE_LO).testBit 0) = true then 2 else 0) ≠ 0) := by
  (try unfold State.sound); (try unfold State.reaches); (try unfold boundary); refine ⟨?_, ?_, ?_, ?_, ?_, ?_, ?_, ?_, ?_, ?_⟩ <;> decide
end Restarts

namespace Measurement
/-- The states that the witnesses use. -/
def states : List State := [reset, st open_, st (fun d => d.wrN pgSEC Reg.SEC_STAT 1), st (fun d => { (d.wrN pgSEC Reg.SEC_STAT 0x130001).wrN pgSEC Reg.SEC_BUF 0xFF00 with sys := { d.sys with image := 0xFC000000 } }),
 st (fun d => (d.wrN pgSEC Reg.SEC_STAT 0x130001).wrN pgSEC Reg.SEC_BUF 0xFF80)]
def sample (k : Nat) : State := states.getD k State.reset
/-- Operands and states that meet the hypotheses of Measurement, clause by clause. -/
theorem witness_Measurement :
    (let r : Req := Req.hart 0; let s : State := sample 0; s.sound ∧ s.reaches r)
    ∧ (let r : Req := Req.hart 0; let s : State := sample 0; s.sound ∧ s.reaches r ∧ s.dev.canQuote = false)
    ∧ (let r : Req := Req.hart 0; let s : State := sample 4; s.sound ∧ s.reaches r ∧ s.dev.canQuote = true ∧ s.dev.secBuf 160 = none)
    ∧ (let r : Req := Req.hart 0; let s : State := sample 2; let a : Nat := 17694720; s.sound ∧ s.reaches r ∧ s.dev.canQuote = true ∧ s.dev.secBuf 160 = some a) := by
  (try unfold State.sound); (try unfold State.reaches); (try unfold boundary); refine ⟨?_, ?_, ?_, ?_⟩ <;> decide
end Measurement

namespace DebugUnlock
/-- The states that the witnesses use. -/
def states : List State := [reset, st open_, st (fun d => d.wrN pgSEC Reg.SEC_STAT 9), st (fun d => (d.wrN pgSEC Reg.SEC_STAT 0x701)), st (fun d => (d.wrN pgSEC Reg.SEC_STAT 0xF01).wrN pgSEC Reg.SEC_BUF 0xFF80), st (fun d => d.wrF pgSYS Reg.SYS_MODE 2 0 7)]
def sample (k : Nat) : State := states.getD k State.reset
/-- Operands and states that meet the hypotheses of DebugUnlock, clause by clause. -/
theorem witness_DebugUnlock :
    (let s : State := sample 2; s.sound ∧ (s.dev.rdB pgSEC Reg.SEC_STAT 3 || s.dev.mode == 7) = true)
    ∧ (let s : State := sample 0; let token : List Byte := []; s.sound ∧ (s.dev.rdB pgSEC Reg.SEC_STAT 3 || s.dev.mode == 7) = false ∧ s.dev.tokenOk token = false)
    ∧ (let s : State := sample 4; let r : Req := Req.hart 0; s.sound ∧ s.reaches r ∧ s.dev.secBuf 176 = none)
    ∧ (let s : State := sample 2; let r : Req := Req.hart 0; let a : Nat := 17694720; s.sound ∧ s.reaches r ∧ s.dev.secBuf 176 = some a ∧ (s.dev.rdB pgSEC Reg.SEC_STAT 3 || s.dev.mode == 7) = true)
    ∧ (let s : State := sample 0; let r : Req := Req.hart 0; let a : Nat := 17694720; s.sound ∧ s.reaches r ∧ s.dev.secBuf 176 = some a ∧ (s.dev.rdB pgSEC Reg.SEC_STAT 3 || s.dev.mode == 7) = false ∧ s.dev.tokenOk (s.dev.bytes a 176) = false)
    ∧ (let s : State := sample 0; s.sound) := by
  (try unfold State.sound); (try unfold State.reaches); (try unfold boundary); refine ⟨?_, ?_, ?_, ?_, ?_, ?_⟩ <;> decide
end DebugUnlock

namespace Tamper
def put (a : Nat) (b : Byte) (d : Dev) : Dev := { d with mem := (spPut memDefault d.mem a b) }
/-- The states that the witnesses use. -/
def states : List State := [reset, st open_, st (fun d => put scratchBase 5 (put (secureEnd-1) 6 (d.wrN pgSEC Reg.SEC_TAMP_EN 0xF))), st (fun d => { (d.wrN pgSYS Reg.SYS_MODE 3).wrN pgSEC Reg.SEC_STAT 1 with clock := { d.clock with aonReady := true } })]
def sample (k : Nat) : State := states.getD k State.reset
/-- Operands and states that meet the hypotheses of Tamper, clause by clause. -/
theorem witness_Tamper :
    (let sensors : BitVec 7 := 0; let s : State := sample 0; s.sound ∧ (sensors.toNat &&& s.dev.rdF pgSEC Reg.SEC_TAMP_EN 3 0 + if s.dev.clock.aonReady = true then 112 else 0) = 0)
    ∧ (let sensors : BitVec 7 := 1; let s : State := sample 2; s.sound ∧ (sensors.toNat &&& s.dev.rdF pgSEC Reg.SEC_TAMP_EN 3 0 + if s.dev.clock.aonReady = true then 112 else 0) ≠ 0) := by
  (try unfold State.sound); (try unfold State.reaches); (try unfold boundary); refine ⟨?_, ?_⟩ <;> decide
end Tamper

namespace DebugModule
def S (f : SysSt → SysSt) (d : Dev) : Dev := { d with sys := f d.sys }
/-- The states that the witnesses use. -/
def states : List State := [reset, st open_, st (fun d => S (fun x => { x with resetHarts := 0 }) (open_ d)), st (fun d => S (fun x => { x with resetHarts := 0, haltedHarts := 11, dm := [(0x10,1)] }) ((open_ d).onEng 3 (fun x => { x with st := .halted, why := 3 }))),
  st (fun d => S (fun x => { x with resetHarts := 0 }) (((open_ d).onEng 3 (fun x => { x with st := .running })).wrN (pgLE 3) Reg.BLK_CTL 4))]
def sample (k : Nat) : State := states.getD k State.reset
/-- Operands and states that meet the hypotheses of DebugModule, clause by clause. -/
theorem witness_DebugModule :
    (let s : State := sample 1; let c : Hart := 0; s.sound ∧ s.dev.dbgOpen = true ∧ s.dev.hartHeld ↑c = true)
    ∧ (let s : State := sample 2; let c : Hart := 0; s.sound ∧ s.dev.dbgOpen = true ∧ s.dev.hartHeld ↑c = false)
    ∧ (let s : State := sample 1; let c : Hart := 0; s.sound ∧ s.dev.dbgOpen = true ∧ s.dev.sys.haltedHarts.testBit ↑c = false)
    ∧ (let s : State := sample 3; let c : Hart := 0; s.sound ∧ s.dev.dbgOpen = true ∧ s.dev.sys.haltedHarts.testBit ↑c = true)
    ∧ (let s : State := sample 1; s.sound ∧ s.dev.dbgOpen = true)
    ∧ (let s : State := sample 3; s.sound ∧ s.dev.dbgOpen = true ∧ s.dev.dmActive = true) := by
  (try unfold State.sound); (try unfold State.reaches); (try unfold boundary); refine ⟨?_, ?_, ?_, ?_, ?_, ?_⟩ <;> decide
end DebugModule

namespace CoreAccesses
def tot (d : Dev) : Dev := (d.wrN (pgDDR 0) Reg.DDR_TOTAL 1)
def put (a : Nat) (b : Byte) (d : Dev) : Dev := { d with mem := (spPut memDefault d.mem a b) }
/-- The states that the witnesses use. -/
def states : List State := [reset, st (fun d => put (dramBase+3) 7 (tot d)), st (fun d => { put (dramBase+9) 0xF7 (tot d) with resv := [(0,dramBase/64),(1,dramBase/64+1),(3, 5)] }), st (fun d => { tot d with ram := { d.ram with poison := [dramBase/64] } })]
def ba (n : Nat) : BitVec 48 := BitVec.ofNat 48 n
def sample (k : Nat) : State := states.getD k State.reset
/-- Operands and states that meet the hypotheses of CoreAccesses, clause by clause. -/
theorem witness_CoreAccesses :
    (let size : Nat := 0; let s : State := sample 0; let acc : CoreAcc := CoreAcc.load; s.sound ∧ accSize size acc = false)
    ∧ (let addr : BitVec 48 := 0x300000; let size : Nat := 1; let s : State := sample 0; let acc : CoreAcc := CoreAcc.load; s.sound ∧ accSize size acc = true ∧ s.dev.spot addr.toNat = none)
    ∧ (let addr : BitVec 48 := 0x10000000000; let size : Nat := 1; let s : State := sample 1; s.sound ∧ s.dev.inDram addr.toNat size = true ∧ accSize size CoreAcc.load = true ∧ s.dev.poisoned addr.toNat size = false)
    ∧ (let addr : BitVec 48 := 0x10000000000; let size : Nat := 1; let s : State := sample 1; s.sound ∧ s.dev.inDram addr.toNat size = true ∧ accSize size CoreAcc.load = true)
    ∧ (let addr : BitVec 48 := 0x10000000000; let size : Nat := 4; let s : State := sample 1; s.sound ∧ s.dev.inDram addr.toNat size = true ∧ accSize size CoreAcc.lr = true ∧ addr.toNat % size = 0 ∧ s.dev.poisoned addr.toNat size = false)
    ∧ (let c : Hart := 0; let addr : BitVec 48 := 0x10000000000; let size : Nat := 4; let s : State := sample 2; s.sound ∧ s.dev.inDram addr.toNat size = true ∧ accSize size CoreAcc.lr = true ∧ addr.toNat % size = 0 ∧ ((↑c, addr.toNat / 64) ∈ s.dev.resv))
    ∧ (let c : Hart := 0; let addr : BitVec 48 := 0x10000000000; let size : Nat := 4; let s : State := sample 1; s.sound ∧ s.dev.inDram addr.toNat size = true ∧ accSize size CoreAcc.lr = true ∧ addr.toNat % size = 0 ∧ (¬(↑c, addr.toNat / 64) ∈ s.dev.resv)) := by
  (try unfold State.sound); (try unfold State.reaches); (try unfold boundary); refine ⟨?_, ?_, ?_, ?_, ?_, ?_, ?_⟩ <;> decide
end CoreAccesses

namespace Profiles
def tot (d : Dev) : Dev := (d.wrN (pgDDR 0) Reg.DDR_TOTAL 1)
def put (a : Nat) (b : Byte) (d : Dev) : Dev := { d with mem := (spPut memDefault d.mem a b) }
def src (d : Dev) : Dev := ((tot d).wrN pgPROF Reg.PROF_LEN 260).wr64 pgPROF Reg.PROF_SRC_LO dramBase
/-- The states that the witnesses use. -/
def states : List State := [reset, st open_, st (fun d => d.wrN pgPROF Reg.PROF_STAT 2), st (fun d => (d.wrN pgPROF Reg.PROF_STAT 2).wrN pgSYS Reg.MF_NEG_LO 4), st (fun d => (d.wrN pgPROF Reg.PROF_STAT 0).wrN pgSYS Reg.MF_NEG_LO 4),
  st (fun d => (d.wrN pgPROF Reg.PROF_STAT 6).wrN pgPROF (Reg.PROF_AFFECT) 1), st src, st (fun d => put (dramBase+5) 7 (src (d.wrN pgPROF Reg.PROF_ACTIVE 8))), st (fun d => src (d.wrN pgPROF Reg.PROF_ACTIVE 3))]
def sample (k : Nat) : State := states.getD k State.reset
/-- Operands and states that meet the hypotheses of Profiles, clause by clause. -/
theorem witness_Profiles :
    (let r : Req := Req.hart 0; let s : State := sample 2; s.sound ∧ s.reaches r ∧ s.dev.profState ≠ 0)
    ∧ (let r : Req := Req.hart 0; let slot : Fin 4 := 3; let s : State := sample 8; s.sound ∧ s.reaches r ∧ s.dev.profState = 0 ∧ s.dev.activeSlot = some ↑slot)
    ∧ (let r : Req := Req.hart 0; let slot : Fin 4 := 0; let s : State := sample 0; s.sound ∧ s.reaches r ∧ s.dev.profState = 0 ∧ s.dev.activeSlot ≠ some ↑slot ∧ (profLenOk (s.dev.rdN pgPROF Reg.PROF_LEN) && s.dev.inDram (s.dev.rd64 pgPROF Reg.PROF_SRC_LO) (s.dev.rdN pgPROF Reg.PROF_LEN)) = false)
    ∧ (let r : Req := Req.hart 0; let slot : Fin 4 := 0; let s : State := sample 6; s.sound ∧ s.reaches r ∧ s.dev.profState = 0 ∧ s.dev.activeSlot ≠ some ↑slot ∧ (profLenOk (s.dev.rdN pgPROF Reg.PROF_LEN) && s.dev.inDram (s.dev.rd64 pgPROF Reg.PROF_SRC_LO) (s.dev.rdN pgPROF Reg.PROF_LEN)) = true ∧ s.dev.poisoned (s.dev.rd64 pgPROF Reg.PROF_SRC_LO) (s.dev.rdN pgPROF Reg.PROF_LEN) = false)
    ∧ (let r : Req := Req.hart 0; let s : State := sample 0; s.sound ∧ s.reaches r ∧ s.dev.mf 2 = false)
    ∧ (let r : Req := Req.hart 0; let s : State := sample 3; s.sound ∧ s.reaches r ∧ s.dev.mf 2 = true ∧ s.dev.profState ≠ 0)
    ∧ (let r : Req := Req.hart 0; let slot : Fin 4 := 0; let s : State := sample 4; s.sound ∧ s.reaches r ∧ s.dev.mf 2 = true ∧ s.dev.profState = 0 ∧ blobOk (s.dev.profBlob ↑slot) = false)
    ∧ (let r : Req := Req.hart 0; let s : State := sample 2; s.sound ∧ s.reaches r ∧ s.dev.profState = 2)
    ∧ (let r : Req := Req.hart 0; let s : State := sample 0; s.sound ∧ s.reaches r ∧ s.dev.profState ≠ 2)
    ∧ (let r : Req := Req.hart 0; let s : State := sample 0; s.sound ∧ s.reaches r ∧ (decide (s.dev.profState = 2) && s.dev.switchReady) = false)
    ∧ (let r : Req := Req.hart 0; let s : State := sample 2; s.sound ∧ s.reaches r ∧ s.dev.profState = 2 ∧ s.dev.switchReady = true) := by
  (try unfold State.sound); (try unfold State.reaches); (try unfold boundary); refine ⟨?_, ?_, ?_, ?_, ?_, ?_, ?_, ?_, ?_, ?_, ?_⟩ <;> decide
end Profiles

namespace PowerAndWake
/-- The states that the witnesses use. -/
def states : List State := [reset, st open_, st (fun d => { d.wrN pgPWR Reg.PWR_STAT 1 with sys := { d.sys with dipMin := 690 } }), st (fun d => { d.wrN pgPWR Reg.PWR_STAT 0xF with clock := { d.clock with aonReady := true } }),
 st (fun d => (md 6 d).wrN pgPWR Reg.PWR_WAKE_EN 7), st (fun d => { ((md 6 d).wrN pgPWR Reg.PWR_WAKE_EN 5).wrN pgPWR Reg.REST_ALARM_LO 9 with clock := { d.clock with aonReady := true, started := true } })]
def sample (k : Nat) : State := states.getD k State.reset
/-- Operands and states that meet the hypotheses of PowerAndWake, clause by clause. -/
theorem witness_PowerAndWake :
    (let s : State := sample 0; let mv : BitVec 12 := 0x2BC; s.sound ∧ 700 ≤ mv.toNat)
    ∧ (let s : State := sample 0; let mv : BitVec 12 := 0; s.sound ∧ mv.toNat < 700)
    ∧ (let s : State := sample 0; s.sound ∧ s.dev.rdB pgPWR Reg.PWR_STAT 0 = false)
    ∧ (let s : State := sample 2; s.sound ∧ s.dev.rdB pgPWR Reg.PWR_STAT 0 = true ∧ s.dev.rdB pgFAB Reg.RT_CTL 5 = false)
    ∧ (let s : State := sample 0; let temp : BitVec 16 := 0x398; s.sound ∧ s.dev.rdB pgPWR Reg.PWR_STAT 3 = false ∧ 920 ≤ temp.toInt)
    ∧ (let s : State := sample 0; let temp : BitVec 16 := 0; s.sound ∧ (s.dev.rdB pgPWR Reg.PWR_STAT 3 = true ∨ temp.toInt < 920))
    ∧ (let s : State := sample 3; let temp : BitVec 16 := 0; s.sound ∧ s.dev.rdB pgPWR Reg.PWR_STAT 3 = true ∧ temp.toInt < 880)
    ∧ (let s : State := sample 0; let temp : BitVec 16 := 0; s.sound ∧ (s.dev.rdB pgPWR Reg.PWR_STAT 3 = false ∨ 880 ≤ temp.toInt))
    ∧ (let s : State := sample 0; s.sound ∧ s.dev.clock.aonReady = false)
    ∧ (let s : State := sample 3; s.sound ∧ s.dev.clock.aonReady = true)
    ∧ (let s : State := sample 0; let src : WakeSrc := WakeSrc.perst 0; s.sound ∧ (s.dev.mode ≠ 6 ∨ s.dev.rdB pgPWR Reg.PWR_WAKE_EN (match src with | WakeSrc.perst n => 0 | WakeSrc.wakePin => 1 | WakeSrc.alarm => 2) = false))
    ∧ (let s : State := sample 4; let src : WakeSrc := WakeSrc.perst 0; s.sound ∧ s.dev.mode = 6 ∧ s.dev.rdB pgPWR Reg.PWR_WAKE_EN (match src with | WakeSrc.perst n => 0 | WakeSrc.wakePin => 1 | WakeSrc.alarm => 2) = true) := by
  (try unfold State.sound); (try unfold State.reaches); (try unfold boundary); refine ⟨?_, ?_, ?_, ?_, ?_, ?_, ?_, ?_, ?_, ?_, ?_, ?_⟩ <;> decide
end PowerAndWake

end Sys2Proof.Tests
end

/-! PROOFS. Register pages: writes by access codes and through the aliases, IRQ_SET, FENCE, LOCK, soft reset, BLK_CTL.ENABLE,
accounting (R6 to R27, R47, R49), and two refutations. -/
section
namespace Sys2Proof.Machine

/-! ### Rules: a requester's command on a page, and the frame of registers -/

theorem Dev.disarm_begin_hidden (d : Dev) (p : Nat) (hp : p ≠ pgGPIO) : (d.begin.disarm p).hidden = d.hidden :=
  Dev.disarm_hidden _ _ hp

@[simp] theorem Dev.begin_isLocked (d : Dev) (p : Nat) : d.begin.isLocked p = d.isLocked p := rfl
@[simp] theorem Dev.begin_wmask (d : Dev) (p off : Nat) : d.begin.wmask p off = d.wmask p off := rfl
@[simp] theorem Dev.disarm_locked (d : Dev) (p : Nat) : (d.disarm p).locked = d.locked := by
  unfold Dev.disarm; split <;> rfl
@[simp] theorem Dev.disarm_inReset (d : Dev) (p : Nat) : (d.disarm p).inReset = d.inReset := by
  unfold Dev.disarm; split <;> rfl
@[simp] theorem Dev.disarm_isLocked (d : Dev) (p q : Nat) : (d.disarm p).isLocked q = d.isLocked q := by
  simp [Dev.isLocked]
@[simp] theorem Dev.disarm_wmask (d : Dev) (p q off : Nat) : (d.disarm p).wmask q off = d.wmask q off := by
  simp [Dev.wmask]
@[simp] theorem Dev.finish_isLocked (d : Dev) (old : List Host.Cell) (p : Nat) : (Dev.finish old d).isLocked p = d.isLocked p :=
  rfl
@[simp] theorem Dev.finish_rdB (d : Dev) (old : List Host.Cell) (p off n : Nat) :
    (Dev.finish old d).rdB p off n = d.rdB p off n := rfl

/-- A word other than the one written. -/
theorem Dev.rd_wr_else (d : Dev) {p o q off : Nat} (v : Word) (ho : o < 4096) (hoff : off < 4096) (h : ¬(p = q ∧ o = off)) :
    (d.wr q off v).rd p o = d.rd p o :=
  Dev.rd_wr_ne _ _ _ _ _ _ (by simp only [regKey]; omega)

/-- A requester's command on a page: what holds of its effect on the disarmed page. -/
theorem does_onPage {i : Instr} {s : State} {r : Req} {p : Nat} {f : Dev → Dev} {post : Dev → Prop} (h : s.reaches r)
    (he : exec i s = s.onPage r p f) (hp : post ((f (s.dev.begin.disarm p)).finish s.dev.mem)) : Does i s post :=
  does_of_run i s _ post (he.trans (State.onPage_run s r p f h)) hp

/-- A requester's access: what holds of its effect. -/
theorem does_onRead {i : Instr} {s : State} {r : Req} {f : Dev → Dev} {post : Dev → Prop} (h : s.reaches r)
    (he : exec i s = s.onRead r f) (hp : post ((f s.dev.begin).finish s.dev.mem)) : Does i s post :=
  does_of_run i s _ post (he.trans (State.onRead_run s r f h)) hp

/-- Nothing but armed locks differs after a write that only disarms. -/
theorem Dev.onlyRegs_disarm (d : Dev) (p : Nat) (hw : d.wlog = []) (hp : p ≠ pgGPIO) :
    d.onlyRegs (fun _ _ => False) ((d.begin.disarm p).finish d.mem) :=
  Dev.onlyRegs_finish _ _ _ hw (by simp) (by simp) (d.disarm_begin_hidden p hp)

/-- Nothing but the word and armed locks differs after a write of one word. -/
theorem Dev.onlyRegs_wr (d : Dev) (p off : Nat) (v : Word) (hw : d.wlog = []) (hp : p ≠ pgGPIO) (hoff : off < 4096) :
    d.onlyRegs (fun q o => q = p ∧ o = off) (((d.begin.disarm p).wr p off v).finish d.mem) :=
  Dev.onlyRegs_finish _ _ _ hw (by simp) (fun q o ho hk => by simp [Dev.rd_wr_else _ v ho hoff hk])
    (d.disarm_begin_hidden p hp)

theorem Dev.onlyRegs_mono {k k' : Nat → Nat → Prop} {d t : Dev} (h : d.onlyRegs k t) (hk : ∀ p off, k p off → k' p off) :
    d.onlyRegs k' t :=
  ⟨fun p off ho hn => h.1 p off ho (fun hc => hn (hk _ _ hc)), h.2⟩

/-! ### The register tables -/

/-- The rows of a page of R28. -/
theorem pageRows_block (p : Nat) (hp : p < 1024) (hk : pageKind p ≠ .none) :
    pageRows p = commonRows (pageKind p) p ++ rowsOf (pageKind p) := by
  unfold pageRows
  split
  · next h => exact absurd h hk
  · simp [isBlkPage, hp]

/-- BLK_CTL's row (R17, R19, R20). -/
theorem rowAt_blkCtl (p : Nat) (hp : p < 1024) (hk : pageKind p ≠ .none) : rowAt p Reg.BLK_CTL =
    some ⟨Reg.BLK_CTL, 1, 4, 0, (if enableWritable (pageKind p) then 1 else 0) + (if freezeFixed (pageKind p) then 0 else 4),
      0, 2, 1, true⟩ := by
  simp [rowAt, pageRows_block p hp hk, commonRows, Row.has, Reg.BLK_ID, Reg.BLK_VER, Reg.BLK_CTL, Reg.IRQ_STAT, Reg.IRQ_EN]

/-- IRQ_EN's row (R14). -/
theorem rowAt_irqEn (p : Nat) (hp : p < 1024) (hk : pageKind p ≠ .none) :
    rowAt p Reg.IRQ_EN = some ⟨Reg.IRQ_EN, 1, 4, irqBits (pageKind p), 0, 0, 0, 0, false⟩ := by
  simp [rowAt, pageRows_block p hp hk, commonRows, Row.has, Reg.BLK_ID, Reg.BLK_VER, Reg.BLK_CTL, Reg.IRQ_STAT, Reg.IRQ_EN]

/-- A word beyond the common ones is one of its block's own rows. -/
theorem rowAt_own (p off : Nat) (hp : p < 1024) (hk : pageKind p ≠ .none) (hoff : 0x040 ≤ off) :
    rowAt p off = (rowsOf (pageKind p)).find? (fun r => r.has off) := by
  have hc : ∀ r ∈ commonRows (pageKind p) p, r.has off = false := by
    intro r hr
    have near : r.off ≤ Reg.IRQ_EN ∧ r.stride = 4 ∧ r.cnt = 1 := by
      simp only [commonRows, List.mem_cons, List.not_mem_nil, or_false] at hr
      rcases hr with rfl | rfl | rfl | rfl | rfl <;> simp [Reg.BLK_ID, Reg.BLK_VER, Reg.BLK_CTL, Reg.IRQ_STAT, Reg.IRQ_EN]
    obtain ⟨hle, hstride, hcnt⟩ := near
    simp only [Row.has, hstride, hcnt, Reg.IRQ_EN, Bool.and_eq_false_iff, decide_eq_false_iff_not] at hle ⊢
    omega
  rw [rowAt, pageRows_block p hp hk, List.find?_append, List.find?_eq_none.2 (by simpa using hc), Option.none_or]

/-- No bit that a write changes is one that a write of 1 clears. -/
def Row.codesApart (r : Row) : Bool := decide (r.w1c &&& r.rw = 0) && decide (r.w1c &&& (r.rw ||| r.rwl) = 0)

theorem rowsOf_codesApart (k : PK) : (rowsOf k).all Row.codesApart = true := by
  cases k <;> decide

/-- So it is of the bits of a word that a write changes and those that it clears, whether the page is locked or not. -/
theorem Dev.codes_apart (d : Dev) (p off : Nat) (hp : p < 1024) (hoff : 0x040 ≤ off ∨ off = Reg.IRQ_EN) :
    w1cMask p off &&& d.wmask p off = 0 := by
  by_cases hk : pageKind p = .none
  · simp [w1cMask, rowAt, pageRows, hk]
  rcases hoff with hoff | rfl
  · rw [w1cMask, Dev.wmask, rowAt_own p off hp hk hoff]
    cases hr : (rowsOf (pageKind p)).find? (fun r => r.has off) with
    | none => exact BitVec.zero_and
    | some r =>
      have apart := List.all_eq_true.1 (rowsOf_codesApart (pageKind p)) r (List.mem_of_find?_eq_some hr)
      simp only [Row.codesApart, Bool.and_eq_true, decide_eq_true_eq] at apart
      dsimp only
      rw [word, word, ← BitVec.ofNat_and]
      split <;> simp [apart]
  · rw [w1cMask, rowAt_irqEn p hp hk]
    exact BitVec.zero_and

/-! ### Writes through the aliases (R10) -/

/-- What a write of v through the set alias (else the clear alias) leaves of a word, with the bits m writable. -/
def aliasResult (set : Bool) (old v m : Word) : Word := if set then old ||| (v &&& m) else old &&& ~~~ (v &&& m)

theorem and_not_zero (x : Word) : x &&& ~~~ (0 : Word) = x :=
  (congrArg (x &&& ·) BitVec.not_zero).trans BitVec.and_allOnes

theorem and_not_and_zero (x v : Word) : x &&& ~~~ (v &&& 0) = x :=
  (congrArg (x &&& ~~~ ·) BitVec.and_zero).trans (and_not_zero x)

theorem aliasResult_zero (set : Bool) (old v : Word) : aliasResult set old v 0 = old := by
  cases set with
  | false => exact and_not_and_zero old v
  | true => simp [aliasResult]

/-- A word that its access codes alone govern: a write in the direct view stores by them, a read shows what is stored. -/
structure CodeWord (p off : Nat) : Prop where
  write : ∀ (d : Dev) r was pins v, d.wordWrite r p off was pins v = d.regStore p off v
  read : ∀ d : Dev, d.pageWord p off = d.rd p off
  apart : ∀ d : Dev, w1cMask p off &&& d.wmask p off = 0
  named : off ≠ Reg.FENCE ∧ off ≠ Reg.LOCK ∧ off ≠ Reg.IRQ_SET
  aligned : off % 4 = 0

theorem plainPage_kind {p : Nat} (h : plainPage p = true) : pageKind p = .lead ∨ pageKind p = .enc ∨ pageKind p = .time := by
  simpa [plainPage, or_assoc] using h

theorem plainPage_ne_gpio {p : Nat} (h : plainPage p = true) : p ≠ pgGPIO := by
  rintro rfl
  exact absurd h (by decide)

/-- The words of LEAD and ENC but ACCT_CTL. -/
theorem codeWord_plain (p off : Nat) (hp : p < 1024) (hplain : plainPage p = true) (ht : pageKind p ≠ .time)
    (hoff : 0x040 ≤ off) (hctl : off ≠ Reg.LEAD_ACCT_CTL) (ha : off % 4 = 0) : CodeWord p off where
  write d r was pins v := by
    have hlow : ¬off < 0x040 := by omega
    rcases (plainPage_kind hplain).imp_right (·.resolve_right ht) with hk | hk <;>
      simp [Dev.wordWrite, hk, hlow, acctAt, Ne.symm hctl]
  read d := by
    have hlow : ¬off < 0x040 := by omega
    rcases (plainPage_kind hplain).imp_right (·.resolve_right ht) with hk | hk <;>
      simp [Dev.pageWord, hk, hlow]
  apart d := d.codes_apart p off hp (.inl hoff)
  named := by simp only [Reg.FENCE, Reg.LOCK, Reg.IRQ_SET]; omega
  aligned := ha

/-- IRQ_EN, but of TMR and GPIO, whose outputs follow it at once. -/
theorem codeWord_irqEn (p : Nat) (hp : p < 1024) (hk : pageKind p ≠ .none) (htmr : p ≠ pgTMR) (hgpio : p ≠ pgGPIO) :
    CodeWord p Reg.IRQ_EN where
  write d r was pins v := by
    simp only [Dev.wordWrite, Dev.commonWrite, if_neg htmr, if_neg hgpio]
    rfl
  read d := by
    rw [Dev.pageWord, if_pos (by decide), Dev.commonRead, if_neg (by simp [hk, Reg.IRQ_EN, Reg.IRQ_SET])]
    rfl
  apart d := d.codes_apart p _ hp (.inr rfl)
  named := by decide
  aligned := rfl

/-- Storing the value that an alias write amounts to: the bits m that v names are set or cleared. -/
theorem codeWrite_alias (set : Bool) (old v m w held : Word) (hw : w &&& m = 0) :
    codeWrite old ((if set then old ||| v else old &&& ~~~ v) &&& m) m (w &&& ~~~ held) = aliasResult set old v m := by
  ext i hi
  have apart : w[i] = true → m[i] = false := by simpa using congrArg (fun x : Word => x[i]) hw
  cases hm : m[i] with
  | false => cases set <;> simp [codeWrite, aliasResult, hm]
  | true =>
    have hx : w[i] = false := by simpa [hm] using apart
    cases set <;> simp [codeWrite, aliasResult, hm, hx]

/-- An alias write of such a word: it takes the alias's result, or no bit of it is writable and nothing is written. -/
theorem CodeWord.pageWrite_alias {p off : Nat} (c : CodeWord p off) (set : Bool) (d : Dev) (r : Req) (v : Word)
    (hp : p ≠ pgGPIO) : d.pageWrite r p (if set then 1 else 2) off v
      = if d.wmask p off = 0 then d.disarm p else (d.disarm p).wr p off (aliasResult set (d.rd p off) v (d.wmask p off)) := by
  have halign : off / 4 * 4 = off := by have := c.aligned; omega
  obtain ⟨hf, hl, hi⟩ := c.named
  have store : ∀ w, w = (if set then d.rd p off ||| v else d.rd p off &&& ~~~ v) &&& d.wmask p off →
      (d.disarm p).wordWrite r p off none [] w = (d.disarm p).wr p off (aliasResult set (d.rd p off) v (d.wmask p off)) := by
    rintro w rfl
    rw [c.write, Dev.regStore, Dev.disarm_rd, Dev.disarm_wmask, codeWrite_alias _ _ _ _ _ _ (c.apart d)]
  by_cases hm : d.wmask p off = 0
  · rw [if_pos hm]
    cases set <;> simp [Dev.pageWrite, Dev.aliasWord, halign, hp, hm]
  · have hm0 : d.wmask p off ≠ 0#32 := hm
    rw [if_neg hm, ← store _ rfl]
    cases set <;> simp [Dev.pageWrite, Dev.aliasWord, halign, hp, hm0, hf, hl, hi, c.read]

/-- SET_ALIAS_WRITE and CLEAR_ALIAS_WRITE of such a word. -/
theorem CodeWord.does_alias {p off : Nat} (c : CodeWord p off) (set : Bool) {i : Instr} {r : Req} {v : Word} {s : State}
    (hs : s.sound) (hr : s.reaches r) (hp : p ≠ pgGPIO) (hoff : off < 4096)
    (he : exec i s = s.onRead r (fun d => d.pageWrite r p (if set then 1 else 2) off v)) :
    Does i s (fun t => t.rd p off = aliasResult set (s.dev.rd p off) v (s.dev.wmask p off)
      ∧ s.dev.onlyRegs (fun q o => q = p ∧ o = off) t) := by
  refine does_onRead hr he ?_
  rw [c.pageWrite_alias set _ r v hp, Dev.begin_wmask, Dev.begin_rd]
  split
  · next hm =>
    refine ⟨?_, Dev.onlyRegs_mono (s.dev.onlyRegs_disarm p hs.2 hp) (fun _ _ h => h.elim)⟩
    rw [Dev.finish_rd, Dev.disarm_rd, Dev.begin_rd, hm, aliasResult_zero]
  · exact ⟨by simp, s.dev.onlyRegs_wr p off _ hs.2 hp hoff⟩

/-! ### IRQ_SET, FENCE and LOCK (R14, R24, R26) -/

/-- A write in the direct view of a page but GPIO disarms its lock and writes the word. -/
theorem Dev.pageWrite_direct (d : Dev) (r : Req) (p off : Nat) (v : Word) (hp : p ≠ pgGPIO) (ha : off % 4 = 0) :
    d.pageWrite r p 0 off v = (d.disarm p).wordWrite r p off (spGet (fun _ => none) d.armed p) d.gpio.armed v := by
  have halign : off / 4 * 4 = off := by omega
  simp [Dev.pageWrite, hp, halign]

theorem Dev.wordWrite_fence (d : Dev) (r : Req) (p : Nat) (was : Option Req) (pins : Sparse (Option (Req × Nat))) (v : Word) :
    d.wordWrite r p Reg.FENCE was pins v = if p = pgGPIO then d.gpioMark else d := rfl

theorem Dev.wordWrite_lock (d : Dev) (r : Req) (p : Nat) (was : Option Req) (pins : Sparse (Option (Req × Nat))) (v : Word) :
    d.wordWrite r p Reg.LOCK was pins v = d.lockWrite r p was v := rfl

theorem aliasWrites : Claims.AliasWrites := by
  intro r p off v s hs hr ha hword
  have ⟨c, hp⟩ : CodeWord p off.toNat ∧ p.val ≠ pgGPIO := by
    rcases hword with ⟨hplain, ht, hoff, hctl⟩ | ⟨hoff, hk, htmr, hgpio⟩
    · exact ⟨codeWord_plain p _ p.isLt hplain ht hoff hctl ha, plainPage_ne_gpio hplain⟩
    · exact ⟨hoff ▸ codeWord_irqEn p p.isLt hk htmr hgpio, hgpio⟩
  exact ⟨c.does_alias true hs hr hp off.isLt rfl, c.does_alias false hs hr hp off.isLt rfl⟩

theorem irqSetAndFence : Claims.IrqSetAndFence := by
  intro r p v s hs hr hp
  constructor
  · refine does_onPage (f := fun d => d.irqSet p v) hr rfl ⟨?_, s.dev.onlyRegs_wr p Reg.IRQ_STAT _ hs.2 hp (by decide), ?_⟩
    · simp [Dev.irqSet]
    · simp [Dev.irqSet]
  · refine does_onRead hr rfl ?_
    rw [Dev.pageWrite_direct _ _ _ _ _ hp rfl, Dev.wordWrite_fence, if_neg hp]
    exact ⟨s.dev.onlyRegs_disarm p hs.2 hp, by simp⟩

/-- Settles O31: IRQ_SET and FENCE by their equations, the alias writes by the value that the access codes make of one. -/
theorem pageWrites : Obligations.PageWrites := ⟨irqSetAndFence, aliasWrites⟩

/-- Bits [31:24] of a key with 24 bits below it. -/
theorem lockKey (k : Nat) (low : BitVec 24) (hk : k < 256) : field (word (k * 2 ^ 24 + low.toNat)) 31 24 = k := by
  have := low.isLt
  simp only [field, toNat_word, Nat.shiftRight_eq_div_pow]
  omega

/-- What a write to LOCK with a key in bits [31:24] does, where was is what was armed before it. -/
theorem Dev.lockWrite_arm (d : Dev) (r : Req) (p : Nat) (was : Option Req) (low : BitVec 24) (hk : pageKind p ≠ .none)
    (hw : was ≠ some r) : d.lockWrite r p was (word (0xC3000000 + low.toNat)) =
      { d with armed := spPut (fun _ => none) d.armed p (some r) } := by
  rw [Dev.lockWrite, show 0xC3000000 = 0xC3 * 2 ^ 24 from rfl, lockKey _ _ (by decide)]
  simp [hk, hw]

theorem Dev.lockWrite_key (d : Dev) (r : Req) (p : Nat) (was : Option Req) (low : BitVec 24) (hk : pageKind p ≠ .none) :
    d.lockWrite r p was (word (0x3C000000 + low.toNat)) =
      if was = some r ∧ d.isLocked p = false then { d with locked := p :: d.locked } else d := by
  rw [Dev.lockWrite, show 0x3C000000 = 0x3C * 2 ^ 24 from rfl, lockKey _ _ (by decide)]
  by_cases hw : was = some r <;> by_cases hl : d.isLocked p = true <;> simp [hk, hw, hl]

/-- Settles O5: a write to LOCK disarms, and then its key arms or locks by what was armed before it. -/
theorem pageLock : Obligations.PageLock := by
  intro r p low s hs hr hk hp
  have direct : ∀ v, s.dev.begin.pageWrite r p 0 Reg.LOCK v
      = (s.dev.begin.disarm p).lockWrite r p (spGet (fun _ => none) s.dev.armed p) v := fun v => by
    rw [Dev.pageWrite_direct _ _ _ _ _ hp rfl, Dev.wordWrite_lock]; rfl
  refine ⟨fun hw => does_onRead hr rfl ?_, fun hw => does_onRead hr rfl ?_, fun hw => does_onRead hr rfl ?_⟩
  · rw [direct, Dev.lockWrite_arm _ _ _ _ _ hk hw]
    exact ⟨by simp, s.dev.onlyRegs_disarm p hs.2 hp⟩
  · rw [direct, Dev.lockWrite_key _ _ _ _ _ hk]
    obtain ⟨hregs, hmem, hhid⟩ := s.dev.onlyRegs_disarm p hs.2 hp
    split
    · refine ⟨by simp [Dev.isLocked], by simp, fun q hq => by simp [Dev.isLocked, hq], hregs, hmem, ?_⟩
      exact congrArg (fun d : Dev => { d with locked := [] }) hhid
    · next hl =>
      exact ⟨by simpa [hw] using hl, by simp, fun q _ => by simp, hregs, hmem,
        congrArg (fun d : Dev => { d with locked := [] }) hhid⟩
  · rw [direct, Dev.lockWrite_key _ _ _ _ _ hk, if_neg (fun h => hw h.1)]
    exact ⟨by simp, by simp, s.dev.onlyRegs_disarm p hs.2 hp⟩

/-! ### BLK_CTL.ENABLE (R19) -/

/-- A write to BLK_CTL that asks for no reset, where the block has nothing to freeze or stop by it. -/
theorem Dev.blkCtlWrite_store (d : Dev) (p : Nat) (v : Word) (hp : p = pgDMA ∨ p = pgBLT) (hv : bit v 1 = false) :
    d.blkCtlWrite p v = d.regStore p Reg.BLK_CTL v := by
  rcases hp with rfl | rfl <;> exact if_neg (by simp [hv])

/-- A bit of a word stored by access codes that clear none of its bits. -/
theorem bit_codeWrite (old v rw : Word) (n : Nat) : bit (codeWrite old v rw 0) n = if bit rw n then bit v n else bit old n := by
  rw [codeWrite, and_not_and_zero]
  by_cases hn : n < 32 <;> cases h : bit rw n <;> simp_all [bit]

/-- ENABLE and FREEZE are the bits of BLK_CTL that a write changes, unless the page is locked; none is cleared by a 1. -/
theorem Dev.blkCtl_codes (d : Dev) (p : Nat) (hp : p = pgDMA ∨ p = pgBLT) :
    d.wmask p Reg.BLK_CTL = (if d.isLocked p then 0 else 5) ∧ w1cMask p Reg.BLK_CTL = 0 := by
  have hk : p < 1024 ∧ pageKind p ≠ .none ∧ enableWritable (pageKind p) = true ∧ freezeFixed (pageKind p) = false := by
    rcases hp with rfl | rfl <;> decide
  obtain ⟨hlt, hnone, hen, hfr⟩ := hk
  simp only [Dev.wmask, w1cMask, rowAt_blkCtl p hlt hnone, hen, hfr]
  cases d.isLocked p <;> exact ⟨rfl, rfl⟩

theorem blockEnable : Claims.BlockEnable := by
  intro r p en s hs hr hp
  have hgpio : p.val ≠ pgGPIO := by simp only [pgDMA, pgBLT, pgGPIO] at hp ⊢; omega
  have hreset : ∀ w : Word, bit (putBit (w &&& 4) 0 en) 1 = false := fun w => by
    rw [bit_putBit_other _ _ _ _ (by decide) (by decide)]; simp [bit]
  refine does_onPage (p := p) (f := fun d => d.blkCtlWrite p (putBit (d.rd p Reg.BLK_CTL &&& 4) 0 en)) hr rfl ?_
  rw [Dev.blkCtlWrite_store _ _ _ hp (hreset _), Dev.regStore]
  refine ⟨fun hl => ?_, s.dev.onlyRegs_wr p Reg.BLK_CTL _ hs.2 hgpio (by decide)⟩
  obtain ⟨hmask, hw1c⟩ := s.dev.blkCtl_codes p hp
  rw [Dev.finish_rdB, Dev.rdB, Dev.rd_wr_same, hw1c, Dev.disarm_wmask, Dev.begin_wmask, hmask,
    show (0 : Word) &&& _ = 0 from BitVec.zero_and, bit_codeWrite,
    hl, if_pos (by decide), bit_putBit _ _ _ (by decide)]

/-! ### Accounting (R49) -/

theorem Dev.snap_sys (d : Dev) : d.snap pgSYS = (d.snapPair pgSYS Reg.ING_SH_SNAP Reg.ING_SH_USED Reg.ING_SH_FREE).snapCount
    pgSYS Reg.SYS_ACCT_STAT := rfl

theorem Dev.inject_sys (d : Dev) (hen : d.rdB pgSYS Reg.SYS_ACCT_CTL 1 = true) (hsel : d.rdF pgSYS Reg.SYS_ACCT_CTL 11 8 = 0) :
    d.inject pgSYS = d.acctErr pgSYS Reg.SYS_ACCT_STAT 0 true := by
  show (if d.rdB pgSYS Reg.SYS_ACCT_CTL 1 && hasIdentity .sys (d.rdF pgSYS Reg.SYS_ACCT_CTL 11 8) then _ else d) = _
  rw [hen, hsel]; rfl

@[simp] theorem Dev.puts_regs (d : Dev) (a : Nat) (bs : List Byte) : (d.puts a bs).regs = d.regs := by
  induction bs generalizing d a with
  | nil => rfl
  | cons b bs ih => exact ih (d.put a b) (a + 1)

@[simp] theorem Dev.store_regs (d : Dev) (a : Nat) (bs : List Byte) : (d.store a bs).regs = d.regs := by
  simp only [Dev.store, Dev.puts_regs, Dev.markInit]
  repeat' split
  all_goals rfl

@[simp] theorem Dev.logCount_regs (d : Dev) (src k : Nat) (n : Int) : (d.logCount src k n).regs = d.regs := by
  simp only [Dev.logCount, Dev.storeArea]
  split
  · exact Dev.store_regs _ _ _
  · rfl

/-- A word of another page than the one whose IRQ_STAT hardware sets a bit of. -/
theorem Dev.irq_rd_else (d : Dev) {p q o : Nat} (n : Nat) (h : p ≠ q) (ho : o < 4096) : (d.irq q n).rd p o = d.rd p o :=
  Dev.rd_wr_page d p o q Reg.IRQ_STAT _ h ho (by decide)

/-- A log record sets bits of the LOG page's IRQ_STAT and no other word of the registers. -/
theorem Dev.logAdmit_rd_else (d : Dev) (r : LogRec) {p o : Nat} (h : p ≠ pgLOG) (ho : o < 4096) :
    (d.logAdmit r).rd p o = d.rd p o := by
  have count : ∀ (e : Dev) k n, (e.logCount r.source k n).rd p o = e.rd p o := fun e k n => by
    rw [Dev.rd, Dev.logCount_regs]; rfl
  have push : ∀ b, ((d.logPush b r).logCount r.source 4 1).rd p o = d.rd p o := fun b => count _ _ _
  have merge : ∀ b, (d.logMerge b r).rd p o = d.rd p o := fun b => by
    rw [Dev.logMerge, Dev.irq_rd_else _ _ h ho, count]; rfl
  have raise : ∀ e : Dev, (e.irq pgLOG 1).rd p o = e.rd p o := fun e => Dev.irq_rd_else _ _ h ho
  simp only [Dev.logAdmit, apply_ite (fun e : Dev => e.rd p o), raise, push, merge, count, ite_self]

theorem Dev.logRecord_rd_else (d : Dev) (r : LogRec) {p o : Nat} (h : p ≠ pgLOG) (ho : o < 4096) :
    (d.logRecord r).rd p o = d.rd p o := by
  have tail : ((d.logTail r).irq pgLOG 0).rd p o = d.rd p o := Dev.irq_rd_else _ _ h ho
  have count : ∀ e : Dev, (e.logCount r.source 0 1).rd p o = e.rd p o := fun e => by rw [Dev.rd, Dev.logCount_regs]; rfl
  simp only [Dev.logRecord, apply_ite (fun e : Dev => e.rd p o), Dev.logAdmit_rd_else _ _ h ho, count, tail, ite_self]

/-- An identity that fails its check (R47): its error bit and the page's ACCT_ERR bit. -/
theorem Dev.acctErr_bits (d : Dev) (p stat i : Nat) (inj : Bool) (hp : p ≠ pgLOG) (hstat : stat < 4096)
    (hirq : stat ≠ Reg.IRQ_STAT) (hi : i < 32) :
    (d.acctErr p stat i inj).rdB p stat i = true ∧ (d.acctErr p stat i inj).rdB p Reg.IRQ_STAT 31 = true := by
  have before : ∀ o < 4096, (d.acctErr p stat i inj).rd p o = ((d.wrB p stat i true).irq p 31).rd p o :=
    fun o ho => Dev.logRecord_rd_else _ _ hp ho
  rw [Dev.rdB, Dev.rdB, before _ hstat, before _ (by decide), Dev.irq, Dev.setBits]
  constructor
  · show bit (((d.wrB p stat i true).wr p Reg.IRQ_STAT _).rd p stat) i = true
    rw [Dev.rd_wr_off _ _ _ _ _ hirq, Dev.wrB, Dev.rd_wr_same, bit_putBit _ _ _ hi]
  · show bit (((d.wrB p stat i true).wr p Reg.IRQ_STAT _).rd p Reg.IRQ_STAT) 31 = true
    rw [Dev.rd_wr_same]
    simp [bit, word]

/-- The snapshot of two 16-bit terms in one word. -/
theorem Dev.snapPair_fields (d : Dev) (p dst a b : Nat) :
    (d.snapPair p dst a b).rdF p dst 15 0 = d.rdF p a 15 0 ∧ (d.snapPair p dst a b).rdF p dst 31 16 = d.rdF p b 15 0 := by
  simp only [Dev.snapPair, Dev.wrN, Dev.rdF, Dev.rd_wr_same, field, toNat_word, Nat.shiftRight_eq_div_pow]
  omega

/-- A snapshot taken is counted, modulo 2^16 (R50). -/
theorem Dev.snapCount_field (d : Dev) (p stat : Nat) :
    (d.snapCount p stat).rdF p stat 31 16 = (d.rdF p stat 31 16 + 1) % 65536 := by
  rw [Dev.snapCount, Dev.wrF, Dev.rdF, Dev.rd_wr_same]
  exact field_putField _ 31 16 _ (by decide) (by decide)

/-- What a snapshot of two terms leaves alone. -/
theorem Dev.snap_rd_else (d : Dev) {p dst a b stat q o : Nat} (hd : dst < 4096) (hs : stat < 4096) (ho : o < 4096)
    (h : ¬(q = p ∧ (o = dst ∨ o = stat))) : ((d.snapPair p dst a b).snapCount p stat).rd q o = d.rd q o :=
  (Dev.rd_wr_else _ _ ho hs (fun hc => h ⟨hc.1, .inr hc.2⟩)).trans
    (Dev.rd_wr_else _ _ ho hd (fun hc => h ⟨hc.1, .inl hc.2⟩))

theorem accounting : Claims.Accounting := by
  intro r s hs hr
  constructor
  · refine does_onPage (p := pgSYS) (f := fun d => d.snap pgSYS) hr rfl ?_
    obtain ⟨hused, hfree⟩ := Dev.snapPair_fields (s.dev.begin.disarm pgSYS) pgSYS Reg.ING_SH_SNAP Reg.ING_SH_USED
      Reg.ING_SH_FREE
    have kept : ∀ (d : Dev) v, (d.wr pgSYS Reg.SYS_ACCT_STAT v).rd pgSYS Reg.ING_SH_SNAP = d.rd pgSYS Reg.ING_SH_SNAP :=
      fun d v => d.rd_wr_off _ _ _ v (by decide)
    rw [Dev.snap_sys]
    refine ⟨?_, ?_, ?_, Dev.onlyRegs_finish _ _ _ hs.2 rfl (fun q o ho hk => ?_) rfl⟩
    · exact (congrArg (field · 15 0) (kept _ _)).trans hused
    · exact (congrArg (field · 31 16) (kept _ _)).trans hfree
    · refine (Dev.snapCount_field _ _ _).trans ?_
      rw [Dev.rdF, Dev.snapPair, Dev.wrN, Dev.rd_wr_off _ _ _ _ _ (by decide)]
      rfl
    · exact Dev.snap_rd_else _ (by decide) (by decide) ho hk
  · intro hen hsel
    refine does_onPage (p := pgSYS) (f := fun d => d.inject pgSYS) hr rfl ?_
    rw [Dev.inject_sys _ (by simpa [Dev.rdB] using hen) (by simpa [Dev.rdF] using hsel)]
    exact Dev.acctErr_bits _ _ _ _ _ (by decide) (by decide) (by decide) (by decide)

/-- Settles O32: ENABLE by BLK_CTL's access codes, SNAP word by word, INJECT since no log record touches the SYS page. -/
theorem enableAndCounters : Obligations.EnableAndCounters := ⟨blockEnable, accounting⟩

/-! ### Soft reset (R17, R18) -/

/-- On a page without a block behind it a soft reset is that of the page's words. -/
theorem Dev.softReset_plain (d : Dev) (p : Nat) (h : plainPage p = true) (hr : d.inReset.contains p = false) :
    d.softReset p = { (d.softWords p).wrB p Reg.BLK_CTL 1 true with inReset := p :: (d.softWords p).inReset } := by
  have hm : ¬p ∈ d.inReset := by simpa using hr
  rcases plainPage_kind h with hk | hk | hk <;> simp [Dev.softReset, Dev.softBefore, Dev.softBlock, hk, hm]

/-- Words of a page set one after another, each to a value of its own. -/
theorem rd_forL_wr (p : Nat) (g : Nat → Word) (l : List Nat) (hl : ∀ o ∈ l, o < 4096) (d : Dev) {q o : Nat}
    (ho : o < 4096) : (forL l (fun off x => x.wr p off (g off)) d).rd q o = if q = p ∧ o ∈ l then g o else d.rd q o := by
  induction l generalizing d with
  | nil => simp [forL]
  | cons a l ih =>
    have step := ih (fun o h => hl o (.tail _ h)) (d.wr p a (g a))
    refine Eq.trans step ?_
    by_cases hq : q = p ∧ o = a
    · obtain ⟨rfl, rfl⟩ := hq
      simp
    · rw [Dev.rd_wr_else _ _ ho (hl a (.head _)) hq]
      have : q = p ∧ o ∈ a :: l ↔ q = p ∧ o ∈ l := by simp only [List.mem_cons]; tauto
      simp only [this]

/-- Setting words of a page changes registers alone. -/
theorem forL_wr_frame (p : Nat) (g : Nat → Word) (l : List Nat) (d : Dev) :
    (forL l (fun off x => x.wr p off (g off)) d).hidden = d.hidden
      ∧ (forL l (fun off x => x.wr p off (g off)) d).wlog = d.wlog :=
  forL_rel (fun a b : Dev => b.hidden = a.hidden ∧ b.wlog = a.wlog) (fun _ => ⟨rfl, rfl⟩)
    (fun _ _ _ h h' => ⟨h'.1.trans h.1, h'.2.trans h.2⟩) l (fun off x => x.wr p off (g off)) (fun _ _ => ⟨rfl, rfl⟩) d

theorem spFind_eq_none {α : Type} (l : Sparse α) (k : Nat) (h : ∀ e ∈ l, e.1 ≠ k) : spFind l k = none := by
  induction l with
  | nil => rfl
  | cons e l ih => rw [spFind, if_neg (h e (.head _)), ih (fun e he => h e (.tail _ he))]

/-- The offsets of a page's words that are listed, but for BLK_CTL. -/
def Dev.listedWords (d : Dev) (p : Nat) : List Nat :=
  (d.regs.filter (fun e => e.1 / 4096 == p && e.1 % 4096 != Reg.BLK_CTL)).map (fun e => e.1 % 4096)

theorem Dev.listedWords_lt (d : Dev) (p : Nat) : ∀ o ∈ d.listedWords p, o < 4096 := by
  intro o ho
  obtain ⟨e, _, rfl⟩ := List.mem_map.1 ho
  exact Nat.mod_lt _ (by decide)

/-- A word that is not listed reads its reset value. -/
theorem Dev.rd_unlisted (d : Dev) (p o : Nat) (ho : o < 4096) (hc : o ≠ Reg.BLK_CTL) (h : o ∉ d.listedWords p) :
    d.rd p o = resetWord (regKey p o) := by
  rw [Dev.rd, spGet, spFind_eq_none, Option.getD_none]
  rintro e he hkey
  refine h (List.mem_map.2 ⟨e, List.mem_filter.2 ⟨he, ?_⟩, ?_⟩) <;> simp only [regKey] at hkey
  · have : e.1 / 4096 = p ∧ e.1 % 4096 = o := by omega
    simp [this, hc]
  · omega

/-- A soft reset returns a word that is neither kept nor locked to its reset value. -/
theorem Dev.softWord_reset (d : Dev) (p o : Nat) (hp : p ≠ pgGPIO) (ho : o < 4096)
    (h : ∀ row, rowAt p o = some row → row.keep = false ∧ (row.rwl = 0 ∨ d.isLocked p = false)) :
    d.softWord p o = resetWord (regKey p o) := by
  unfold Dev.softWord
  split
  · next hr =>
    have hkey : regKey p o / 4096 = p ∧ regKey p o % 4096 = o := by simp only [regKey]; omega
    rw [resetWord, hkey.1, hkey.2, resetNat, hr]; rfl
  · next row hr =>
    obtain ⟨hkeep, hrwl⟩ := h row hr
    have mask : (if d.isLocked p = true then word row.rwl else 0) = 0 := by
      rcases hrwl with h0 | h0 <;> simp [h0, word]
    simp only [hkeep, hp, mask, if_false]
    exact (congrArg₂ (· ||| ·) BitVec.and_zero (and_not_zero _)).trans BitVec.zero_or

/-- The words of a page after a soft reset. -/
theorem Dev.softWords_rd (d : Dev) (p : Nat) {q o : Nat} (ho : o < 4096) :
    (d.softWords p).rd q o = if q = p ∧ o ∈ d.listedWords p then d.softWord p o else d.rd q o :=
  rd_forL_wr p _ _ (d.listedWords_lt p) d ho

/-- A word of the page that is neither kept nor locked reads its reset value after a soft reset, listed or not. -/
theorem Dev.softWords_rd_reset (d : Dev) (p o : Nat) (hp : p ≠ pgGPIO) (ho : o < 4096) (hc : o ≠ Reg.BLK_CTL)
    (h : ∀ row, rowAt p o = some row → row.keep = false ∧ (row.rwl = 0 ∨ d.isLocked p = false)) :
    (d.softWords p).rd p o = resetWord (regKey p o) := by
  rw [Dev.softWords_rd _ _ ho]
  split
  · exact d.softWord_reset p o hp ho h
  · next hl => exact d.rd_unlisted p o ho hc (fun hm => hl ⟨rfl, hm⟩)

/-- Settles O6: listed words are reset one by one, unlisted words read their reset value. -/
theorem softReset : Obligations.SoftReset := by
  intro r p s hs hr hp
  have hgpio := plainPage_ne_gpio hp
  refine ⟨fun hrst => does_onPage (p := p) (f := fun d => d.softReset p) hr rfl ?_,
    fun hrst => does_of_run _ s (fun d => d.softDone p) _ rfl ?_⟩
  · rw [Dev.softReset_plain _ _ hp (by simpa using hrst)]
    set d := s.dev.begin.disarm p with hd
    obtain ⟨hhid, hwlog⟩ := forL_wr_frame p (fun o => d.softWord p o) (d.listedWords p) d
    refine ⟨by simp, ?_, fun o ho hc hrow => ?_, fun q o ho hq => ?_, ?_, ?_⟩
    · show bit (((d.softWords p).wr p Reg.BLK_CTL _).rd p Reg.BLK_CTL) 1 = true
      rw [Dev.rd_wr_same, bit_putBit _ _ _ (by decide)]
    · show ((d.softWords p).wr p Reg.BLK_CTL _).rd p o = _
      rw [Dev.rd_wr_off _ _ _ _ _ hc]
      exact d.softWords_rd_reset p o hgpio ho hc (by simpa [hd] using hrow)
    · show ((d.softWords p).wr p Reg.BLK_CTL _).rd q o = _
      rw [Dev.rd_wr_else _ _ ho (by decide) (fun h => hq h.1), Dev.softWords_rd _ _ ho, if_neg (fun h => hq h.1), hd,
        Dev.disarm_rd, Dev.begin_rd]
    · exact Dev.sameMem_finish _ _ hs.2 (hwlog.trans (by simp [hd]))
    · exact congrArg (fun e : Dev => { e with inReset := [] }) (hhid.trans (s.dev.disarm_begin_hidden p hgpio))
  · rw [Dev.softDone, if_pos (by simpa using hrst)]
    refine ⟨by simp, ?_, fun q o ho hk => ?_, Dev.sameMem_finish _ _ hs.2 rfl, rfl⟩
    · show bit ((s.dev.begin.wr p Reg.BLK_CTL _).rd p Reg.BLK_CTL) 1 = false
      rw [Dev.rd_wr_same, bit_putBit _ _ _ (by decide)]
    · exact Dev.rd_wr_else s.dev.begin _ ho (by decide) hk

/-! ### What one command leaves in one word -/

/-- What a word of a page reads as once a command has completed. -/
def rdAfter (i : Instr) (s : State) (p off : Nat) : Option Word :=
  match exec i s with
  | .next t => some (t.dev.rd p off)
  | _ => none

theorem rdAfter_of_next {i : Instr} {s t : State} (h : exec i s = .next t) (p off : Nat) :
    rdAfter i s p off = some (t.dev.rd p off) := by
  rw [rdAfter, h]

theorem rdAfter_of_run {i : Instr} {s : State} {f : Dev → Dev} (h : exec i s = s.run f) (p off : Nat) :
    rdAfter i s p off = some ((f s.dev.begin).rd p off) := rdAfter_of_next h p off

/-! ### Halting harts while no engine runs -/

/-- No engine runs, and none is asked to halt. -/
def Dev.enginesIdle (d : Dev) : Prop := ∀ e, (d.eng e).st = .stopped ∧ (d.eng e).haltReq = none

/-- A freeze that begins or ends leaves an engine alone that neither runs nor has a halt on its way. -/
theorem Dev.leFreeze_of_idle (d : Dev) (e : Nat) (h : d.enginesIdle) : d.leFreeze e = d := by
  obtain ⟨hst, hreq⟩ := h e
  simp [Dev.leFreeze, hst, hreq]

/-- The prescalers' phases are no registers and no engine's state. -/
theorem Dev.tmrFreezeEdge_frame (d : Dev) : d.tmrFreezeEdge.regs = d.regs ∧ d.tmrFreezeEdge.engines = d.engines := by
  refine forN_rel (fun a b : Dev => b.regs = a.regs ∧ b.engines = a.engines) (fun _ => ⟨rfl, rfl⟩)
    (fun _ _ _ h h' => ⟨h'.1.trans h.1, h'.2.trans h.2⟩) _ _ (fun n a => ?_) d
  dsimp only
  split
  · exact ⟨rfl, rfl⟩
  · split <;> exact ⟨rfl, rfl⟩

/-- Halting or resuming harts while no engine is concerned: the registers are those that the pattern-match units leave. -/
theorem Dev.setHalted_rd_of_idle (d : Dev) (m p off : Nat) (h : d.gpioSettle.enginesIdle) :
    (d.setHalted m).rd p off = d.gpioSettle.rd p off := by
  have still : ∀ n (a : Dev), a.enginesIdle → forN n (fun e d => d.leFreeze e) a = a := fun n =>
    forN_rel (fun a b : Dev => a.enginesIdle → b = a) (fun _ _ => rfl)
      (fun _ _ _ hab hbc ha => by obtain rfl := hab ha; exact hbc ha) n _ (fun e a ha => a.leFreeze_of_idle e ha)
  obtain ⟨hregs, heng⟩ := (d.gpioSettle.onSys (fun s => { s with haltedHarts := m })).tmrFreezeEdge_frame
  rw [Dev.setHalted, still 32 _ (by simpa only [Dev.enginesIdle, Dev.eng, heng, Dev.onSys_engines] using h), Dev.rd, hregs]
  rfl

theorem exec_debugHalt (c : Hart) (s : State) : exec (.debugHalt c) s = s.run (fun d => d.asReq .debug (fun d =>
    if d.hartHeld c then d else d.setHalted (d.sys.haltedHarts ||| 2 ^ c.val))) := rfl

/-! ### A halt while a pattern-match unit has a level to evaluate (R528) -/

/-- Debug access is open; pattern-match unit 0 matches whenever its levels are evaluated (R528). Pin 0 rose before the first
LCLK edge, and that level has come through the synchroniser (R527) without having been evaluated. -/
def patternDue : State :=
  let d := (State.reset.dev.wrB pgSEC Reg.SEC_STAT 1 true).wrN pgGPIO Reg.PM_CTL 4
  { dev := { d with
      clock := { d.clock with base := 36 }
      gpio := { d.gpio with level := 1, hist := [(1, 1)], unseen := 1 }
      sys := { d.sys with resetHarts := 0 } } }

/-- Evaluating that level sets IRQ_STAT[0] of the GPIO page. -/
theorem patternDue_settle : patternDue.dev.begin.gpioSettle.rd pgGPIO Reg.IRQ_STAT = 1
    ∧ patternDue.dev.begin.gpioSettle.engines = [] ∧ patternDue.dev.rd pgGPIO Reg.IRQ_STAT = 0 := by decide

/-- Halting hart 0 evaluates the level first. -/
theorem patternDue_halt : rdAfter (.debugHalt 0) patternDue pgGPIO Reg.IRQ_STAT = some 1 := by
  obtain ⟨hit, heng, _⟩ := patternDue_settle
  have hidle : patternDue.dev.begin.gpioSettle.enginesIdle := by
    intro e
    rw [Dev.eng, heng]
    exact ⟨rfl, rfl⟩
  rw [rdAfter_of_run (exec_debugHalt _ _), Dev.asReq_open _ _ _ rfl (fun _ => by decide), if_neg (by decide),
    Dev.setHalted_rd_of_idle _ _ _ _ hidle, hit]

/-- Refutes O30, in its clause on halting a hart (R502): the levels that the pins had before the halt are evaluated as the halt
comes (R17, R528), and a match sets a bit of the GPIO page's IRQ_STAT, which is no register of an engine's page. -/
theorem not_debugPath : ¬ Obligations.DebugPath := by
  intro ⟨_, _, h⟩
  obtain ⟨_, halts, _⟩ := (h patternDue (by unfold State.sound; decide) (by decide)).1 0
  obtain ⟨t, ht, _, _, hregs, _⟩ := halts (by decide)
  have kept := hregs pgGPIO Reg.IRQ_STAT (by decide) (by rintro ⟨e, _, he⟩; simp only [pgGPIO, pgLE] at he; omega)
  have after := patternDue_halt
  rw [rdAfter_of_next ht, kept, patternDue_settle.2.2] at after
  exact absurd after (by decide)

/-! ### A write of 1 to an error bit that hardware sets in the same cycle (R23, R51) -/

/-- ERR[0] of the LEAD page is 1, and hardware set it in this cycle. -/
def errorHeld : State :=
  { dev := { State.reset.dev.wrN pgLEAD Reg.LEAD_ACCT_STAT 1 with setNow := [(regKey pgLEAD Reg.LEAD_ACCT_STAT, 1)] } }

/-- A write of 1 then leaves it 1. -/
theorem errorHeld_write :
    rdAfter (.registerWrite (.hart 0) (regAddr pgLEAD Reg.LEAD_ACCT_STAT) 4 1) errorHeld pgLEAD Reg.LEAD_ACCT_STAT
      = some 1 := by
  decide

/-- Refutes O4, in its clause on REGISTER_WRITE: a write of 1 does not clear a W1C bit that hardware sets in the same cycle (R23,
R51), and the clause has every W1C bit that is written 1 read 0. The state is sound: sound leaves the note of the bits set in the
present cycle free. -/
theorem not_registerAccess : ¬ Obligations.RegisterAccess := by
  intro h
  obtain ⟨writes, _⟩ := h (.hart 0) 19 Reg.LEAD_ACCT_STAT 1 errorHeld (by unfold State.sound; decide)
    (by unfold State.reaches; decide) (by decide)
  obtain ⟨t, ht, _, bits, _⟩ := writes (by decide) (by decide) (by decide) (by decide)
  have stays : t.dev.rd pgLEAD Reg.LEAD_ACCT_STAT = 1 := Option.some.inj ((rdAfter_of_next ht _ _).symm.trans errorHeld_write)
  have cleared : bit (t.dev.rd pgLEAD Reg.LEAD_ACCT_STAT) 0 = false := (bits 0 (by decide)).trans (by decide)
  rw [stays] at cleared
  exact absurd cleared (by decide)

end Sys2Proof.Machine
end

/-! PROOFS. Feature negotiation of a host function, and PRESENT (R52, R74, R86): what a host's single-word write and an event of
a function leave alone, and the two claims. -/
section
namespace Sys2Proof.Machine

/-! ### Rules: IRQ_STAT, 64-bit words, and a head's own words -/

/-- Words other than the two of a 64-bit value that is set. -/
theorem Dev.wr64_rd_else (d : Dev) {p o q off : Nat} (v : Nat) (ho : o < 4096) (hoff : off + 4 < 4096)
    (h : ¬(p = q ∧ (o = off ∨ o = off + 4))) : (d.wr64 q off v).rd p o = d.rd p o :=
  (Dev.rd_wr_else _ _ ho hoff (fun hc => h ⟨hc.1, .inr hc.2⟩)).trans
    (Dev.rd_wr_else _ _ ho (by omega) (fun hc => h ⟨hc.1, .inl hc.2⟩))

/-- The bit of IRQ_STAT that hardware sets. -/
theorem Dev.irq_rdB_same (d : Dev) (p n : Nat) (hn : n < 32) : (d.irq p n).rdB p Reg.IRQ_STAT n = true := by
  show bit ((d.wr p Reg.IRQ_STAT (d.rd p Reg.IRQ_STAT ||| word (2 ^ n))).rd p Reg.IRQ_STAT) n = true
  rw [Dev.rd_wr_same, bit, word, BitVec.getLsbD_or, BitVec.getLsbD_ofNat, Nat.testBit_two_pow_self]
  simp [hn]

theorem Dev.wr64_heads (d : Dev) (p off v : Nat) : (d.wr64 p off v).heads = d.heads := rfl

theorem filter_spDrop {α : Type} (l : Sparse α) (k : Nat) (q : Nat × α → Bool) (h : ∀ v, q (k, v) = false) :
    (spDrop l k).filter q = l.filter q := by
  induction l with
  | nil => rfl
  | cons e l ih =>
    obtain ⟨j, v⟩ := e
    by_cases hj : j = k
    · subst hj; simp [spDrop, ih, h v]
    · simp [spDrop, hj, List.filter_cons, ih]

theorem filter_spInsert {α : Type} (l : Sparse α) (k : Nat) (v : α) (q : Nat × α → Bool) (h : q (k, v) = false) :
    (spInsert l k v).filter q = l.filter q := by
  induction l with
  | nil => simp [spInsert, h]
  | cons e l ih =>
    by_cases hl : k < e.1
    · simp [spInsert, hl, h]
    · simp [spInsert, hl, List.filter_cons, ih]

/-- A write of a key that a filter leaves out does not change what is filtered. -/
theorem filter_spPut {α : Type} [DecidableEq α] (dflt : Nat → α) (l : Sparse α) (k : Nat) (v : α) (q : Nat × α → Bool)
    (h : ∀ x, q (k, x) = false) : (spPut dflt l k v).filter q = l.filter q := by
  unfold spPut
  split
  · exact filter_spDrop l k q h
  · rw [filter_spInsert _ _ _ _ (h v), filter_spDrop _ _ _ h]

/-- A head's own words are those of its page alone. -/
theorem Dev.wr_ownRegs (d : Dev) {q off h : Nat} (v : Word) (hoff : off < 4096) (hq : q ≠ pgHD h) :
    (d.wr q off v).ownRegs h = d.ownRegs h := by
  have other : regKey q off / 4096 ≠ pgHD h := by simp only [regKey]; omega
  exact congrArg (List.map _) (filter_spPut _ _ _ _ _ (fun _ => beq_false_of_ne other))

theorem Dev.wr64_ownRegs (d : Dev) {q off h : Nat} (v : Nat) (hoff : off + 4 < 4096) (hq : q ≠ pgHD h) :
    (d.wr64 q off v).ownRegs h = d.ownRegs h :=
  (Dev.wr_ownRegs _ _ hoff hq).trans (Dev.wr_ownRegs _ _ (by omega) hq)

/-! ### A host's write of one word (R78, R79) -/

theorem Dev.commitCycle_frame (d : Dev) (n : Nat) :
    (d.commitCycle n).regs = d.regs ∧ (d.commitCycle n).heads = d.heads := by
  unfold Dev.commitCycle; split <;> exact ⟨rfl, rfl⟩

/-- Counting a commit: two counters of the lane page, then the time of the commit in ING_LAST_FT and HF_FENCE. -/
theorem Dev.countCommit_eq (d e : Dev) (n f bytes : Nat)
    (he : e = (d.add64 (pgHP n) Reg.ING_COMMITS 1).add64 (pgHP n) Reg.ING_BYTES bytes) : d.countCommit n f bytes =
      ((e.wr64 (pgHP n) Reg.ING_LAST_FT e.ft).wr64 (pgFn n f) Reg.HF_FENCE e.ft).onLane n
        (fun l => { l with lastCyc := some e.cyc }) := by
  subst he; rfl

/-- The registers after a commit is counted: three 64-bit values of the lane page, and the function's HF_FENCE. -/
theorem Dev.countCommit_regs (d : Dev) (n f bytes : Nat) : ∃ c b x, (d.countCommit n f bytes).regs =
    ((((d.wr64 (pgHP n) Reg.ING_COMMITS c).wr64 (pgHP n) Reg.ING_BYTES b).wr64 (pgHP n) Reg.ING_LAST_FT x).wr64 (pgFn n f)
      Reg.HF_FENCE x).regs := by
  rw [Dev.countCommit_eq _ _ _ _ _ rfl, Dev.onLane, Dev.setLane_regs, Dev.add64, Dev.add64]
  exact ⟨_, _, _, rfl⟩

theorem Dev.countCommit_heads (d : Dev) (n f bytes : Nat) : (d.countCommit n f bytes).heads = d.heads := by
  rw [Dev.countCommit_eq _ _ _ _ _ rfl, Dev.onLane, Dev.setLane_heads, Dev.wr64_heads, Dev.wr64_heads, Dev.add64,
    Dev.wr64_heads, Dev.add64, Dev.wr64_heads]

/-- The device that the effect of a host's single-word write finds. -/
def Dev.hostReady (d : Dev) (n f : Nat) : Dev := (d.commitCycle n).countCommit n f 4

theorem Dev.hostWord_eq (d : Dev) (n f : Nat) (g : Dev → Dev) : d.hostWord n f g = g (d.hostReady n f) := rfl

/-- Of the function's registers it finds every word but HF_FENCE as it was. -/
theorem Dev.hostReady_rd (d : Dev) (n : Lane) (f : Nat) {o : Nat} (ho : o < 4096) 
    (hf : o ≠ Reg.HF_FENCE ∧ o ≠ Reg.HF_FENCE + 4) :
    (d.hostReady n f).rd (pgFn n f) o = d.rd (pgFn n f) o := by
  have hn := n.isLt
  have hp : pgFn n f ≠ pgHP n := by simp only [pgFn, pgHP]; omega
  obtain ⟨c, b, x, hregs⟩ := (d.commitCycle n).countCommit_regs n f 4
  rw [Dev.hostReady, Dev.rd, hregs, ← Dev.rd, Dev.wr64_rd_else _ _ ho (by decide) (fun h => h.2.elim hf.1 hf.2),
    Dev.wr64_rd_else _ _ ho (by decide) (fun h => hp h.1), Dev.wr64_rd_else _ _ ho (by decide) (fun h => hp h.1),
    Dev.wr64_rd_else _ _ ho (by decide) (fun h => hp h.1), Dev.rd, (d.commitCycle_frame n).1, Dev.rd]

/-- It finds every head as it was. -/
theorem Dev.hostReady_head (d : Dev) (n f h : Nat) : (d.hostReady n f).head h = d.head h := by
  rw [Dev.hostReady, Dev.head, Dev.countCommit_heads, (d.commitCycle_frame n).2, Dev.head]

/-- It finds every head's own words as they were. -/
theorem Dev.hostReady_ownRegs (d : Dev) (n : Lane) (f : Nat) {h : Nat} (hh : h < 132) :
    (d.hostReady n f).ownRegs h = d.ownRegs h := by
  have hn := n.isLt
  have hp : pgHP n ≠ pgHD h := by simp only [pgHP, pgHD]; omega
  obtain ⟨c, b, x, hregs⟩ := (d.commitCycle n).countCommit_regs n f 4
  rw [Dev.hostReady, Dev.ownRegs, hregs, ← Dev.ownRegs, Dev.wr64_ownRegs _ _ (by decide) (by simp only [pgFn, pgHD]; omega),
    Dev.wr64_ownRegs _ _ (by decide) hp, Dev.wr64_ownRegs _ _ (by decide) hp, Dev.wr64_ownRegs _ _ (by decide) hp,
    Dev.ownRegs, (d.commitCycle_frame n).1, Dev.ownRegs]

/-! ### An event of a function (R72) -/

/-- An interrupt message sets at most the function's pending bits. -/
theorem Dev.fnMsg_rd_else (d : Dev) (n f vec : Nat) {p o : Nat} (ho : o < 4096) (h : ¬(p = pgFn n f ∧ o = Reg.MSIX_PBA)) :
    (d.fnMsg n f vec).rd p o = d.rd p o := by
  unfold Dev.fnMsg
  split
  · split
    · exact Dev.rd_wr_else _ _ ho (by decide) h
    · rfl
  · split <;> rfl

/-- An event sets its bit of HF_EVT_STAT; of the function's other words, only its pending bits may change. -/
theorem Dev.fnEvent_rd_else (d : Dev) (n f i : Nat) {p o : Nat} (ho : o < 4096)
    (h : ¬(p = pgFn n f ∧ (o = Reg.HF_EVT_STAT ∨ o = Reg.MSIX_PBA))) : (d.fnEvent n f i).rd p o = d.rd p o := by
  have set : (d.wrB (pgFn n f) Reg.HF_EVT_STAT i true).rd p o = d.rd p o :=
    Dev.rd_wr_else _ _ ho (by decide) (fun hc => h ⟨hc.1, .inl hc.2⟩)
  unfold Dev.fnEvent
  dsimp only
  split
  · exact (Dev.fnMsg_rd_else _ _ _ _ ho (fun hc => h ⟨hc.1, .inr hc.2⟩)).trans set
  · exact set

theorem Dev.fnEvent_stat (d : Dev) (n f i : Nat) (hi : i < 32) : (d.fnEvent n f i).rdB (pgFn n f) Reg.HF_EVT_STAT i = true := by
  have set : (d.wrB (pgFn n f) Reg.HF_EVT_STAT i true).rdB (pgFn n f) Reg.HF_EVT_STAT i = true := by
    rw [Dev.rdB, Dev.wrB, Dev.rd_wr_same, bit_putBit _ _ _ hi]
  unfold Dev.fnEvent
  dsimp only
  split
  · rw [Dev.rdB, Dev.fnMsg_rd_else _ _ _ _ (by decide) (fun h => absurd h.2 (by decide))]; exact set
  · exact set

/-! ### Feature negotiation (R52, R74) -/

/-- What the answer to a negotiation leaves in the function's words, before its event: the choice negotiated, or refused. -/
def Dev.featSettled (d : Dev) (n f : Nat) : Dev :=
  let p := pgFn n f
  if d.featCode n f = 0 then
    ((d.wr p Reg.HF_NEG_LO (d.rd p Reg.HF_DRV_FEAT_LO)).wr p Reg.HF_NEG_HI (d.rd p Reg.HF_DRV_FEAT_HI)).wrB p Reg.HF_STAT 0 true
  else ((d.wrB p Reg.HF_STAT 1 true).wrF p Reg.HF_STAT 15 8 (d.featCode n f)).wrB p Reg.HF_CTL 0 false

/-- The answer to a negotiation that runs settles it, and then comes the function's event and the lane's interrupt. -/
theorem Dev.featAnswer_eq (d : Dev) (n f : Nat) (hrun : d.rdB (pgFn n f) Reg.HF_CTL 0 = true)
    (hopen : d.rdB (pgFn n f) Reg.HF_STAT 0 = false) :
    d.featAnswer n f = ((d.featSettled n f).fnEvent n f 0).irq (pgHP n) 5 := by
  unfold Dev.featAnswer Dev.featSettled
  cases d.featCode n f with
  | zero => exact if_neg (by simp [hrun, hopen])
  | succ c => exact if_neg (by simp [hrun, hopen])

theorem Dev.featCode_le (d : Dev) (n f : Nat) : d.featCode n f ≤ 2 := by
  unfold Dev.featCode
  dsimp only
  split
  · decide
  · split <;> decide

/-- A choice that is accepted becomes the negotiated set. -/
theorem Dev.featSettled_accept (d : Dev) (n f : Nat) (hc : d.featCode n f = 0) :
    (d.featSettled n f).rdB (pgFn n f) Reg.HF_STAT 0 = true
      ∧ (d.featSettled n f).rd (pgFn n f) Reg.HF_NEG_LO = d.rd (pgFn n f) Reg.HF_DRV_FEAT_LO
      ∧ (d.featSettled n f).rd (pgFn n f) Reg.HF_NEG_HI = d.rd (pgFn n f) Reg.HF_DRV_FEAT_HI := by
  rw [Dev.featSettled, if_pos hc, Dev.wrB]
  refine ⟨?_, ?_, ?_⟩
  · rw [Dev.rdB, Dev.rd_wr_same, bit_putBit _ _ _ (by decide)]
  · rw [Dev.rd_wr_off _ _ _ _ _ (by decide), Dev.rd_wr_off _ _ _ _ _ (by decide), Dev.rd_wr_same]
  · rw [Dev.rd_wr_off _ _ _ _ _ (by decide), Dev.rd_wr_same]

/-- A choice that is rejected is not settled: its code stands in HF_STAT, and FEAT_OK reads 0 again. -/
theorem Dev.featSettled_reject (d : Dev) (n f : Nat) (hc : d.featCode n f ≠ 0)
    (hopen : d.rdB (pgFn n f) Reg.HF_STAT 0 = false) :
    (d.featSettled n f).rdB (pgFn n f) Reg.HF_STAT 0 = false ∧ (d.featSettled n f).rdB (pgFn n f) Reg.HF_STAT 1 = true
      ∧ (d.featSettled n f).rdB (pgFn n f) Reg.HF_CTL 0 = false
      ∧ (d.featSettled n f).rdF (pgFn n f) Reg.HF_STAT 15 8 = d.featCode n f := by
  have stat : (d.featSettled n f).rd (pgFn n f) Reg.HF_STAT
      = putField (putBit (d.rd (pgFn n f) Reg.HF_STAT) 1 true) 15 8 (d.featCode n f) := by
    rw [Dev.featSettled, if_neg hc, Dev.wrB, Dev.rd_wr_off _ _ _ _ _ (by decide), Dev.wrF, Dev.rd_wr_same,
      Dev.wrB, Dev.rd_wr_same]
  refine ⟨?_, ?_, ?_, ?_⟩
  · rw [Dev.rdB, stat, bit_putField _ _ _ _ _ (by decide) (by decide), if_neg (by decide),
      bit_putBit_other _ _ _ _ (by decide) (by decide)]
    exact hopen
  · rw [Dev.rdB, stat, bit_putField _ _ _ _ _ (by decide) (by decide), if_neg (by decide), bit_putBit _ _ _ (by decide)]
  · rw [Dev.featSettled, if_neg hc, Dev.rdB, Dev.wrB, Dev.rd_wr_same, bit_putBit _ _ _ (by decide)]
  · have := d.featCode_le n f
    rw [Dev.rdF, stat, field_putField _ _ _ _ (by decide) (by decide)]
    omega

/-- The event and the interrupt of an answer leave what it settled. -/
theorem Dev.featAnswer_rd (d : Dev) (n : Lane) (f : Nat) {o : Nat} (hrun : d.rdB (pgFn n f) Reg.HF_CTL 0 = true)
    (hopen : d.rdB (pgFn n f) Reg.HF_STAT 0 = false) (ho : o < 4096) (he : o ≠ Reg.HF_EVT_STAT ∧ o ≠ Reg.MSIX_PBA) :
    (d.featAnswer n f).rd (pgFn n f) o = (d.featSettled n f).rd (pgFn n f) o := by
  have hn := n.isLt
  rw [Dev.featAnswer_eq _ _ _ hrun hopen, Dev.irq_rd_else _ _ (by simp only [pgFn, pgHP]; omega) ho,
    Dev.fnEvent_rd_else _ _ _ _ ho (fun h => h.2.elim he.1 he.2)]

/-- An answer raises the function's feature event and the lane's interrupt for it. -/
theorem Dev.featAnswer_events (d : Dev) (n : Lane) (f : Nat) (hrun : d.rdB (pgFn n f) Reg.HF_CTL 0 = true)
    (hopen : d.rdB (pgFn n f) Reg.HF_STAT 0 = false) :
    (d.featAnswer n f).rdB (pgFn n f) Reg.HF_EVT_STAT 0 = true ∧ (d.featAnswer n f).rdB (pgHP n) Reg.IRQ_STAT 5 = true := by
  have hn := n.isLt
  rw [Dev.featAnswer_eq _ _ _ hrun hopen]
  constructor
  · rw [Dev.rdB, Dev.irq_rd_else _ _ (by simp only [pgFn, pgHP]; omega) (by decide)]
    exact Dev.fnEvent_stat _ _ _ _ (by decide)
  · exact Dev.irq_rdB_same _ _ _ (by decide)

/-- FEAT_OK of a function that negotiates nothing sets HF_CTL.FEAT_OK and clears what the latest refusal set. -/
theorem Dev.featStart_bits (d : Dev) (n f : Nat) (hidle : d.rdB (pgFn n f) Reg.HF_CTL 0 = false) :
    (d.featStart n f).rdB (pgFn n f) Reg.HF_CTL 0 = true ∧ (d.featStart n f).rdB (pgFn n f) Reg.HF_STAT 1 = false := by
  rw [Dev.featStart, if_neg (by simp [hidle]), Dev.wrB, Dev.wrB, Dev.rdB, Dev.rdB]
  constructor
  · rw [Dev.rd_wr_off _ _ _ _ _ (by decide), Dev.rd_wr_same, bit_putBit _ _ _ (by decide)]
  · rw [Dev.rd_wr_same, bit_putBit _ _ _ (by decide)]

theorem negotiation : Claims.Negotiation := by
  intro n f s
  refine ⟨fun hidle => ?_, fun hrun hopen => ?_⟩
  · refine does_of_run _ s (fun d => d.hostWord n (fnIx f) (fun d => d.featStart n (fnIx f))) _ rfl ?_
    rw [Dev.hostWord_eq]
    exact Dev.featStart_bits _ _ _ (by rw [Dev.rdB, Dev.hostReady_rd _ _ _ (by decide) (by decide)]; exact hidle)
  · obtain ⟨hevent, hirq⟩ := Dev.featAnswer_events s.dev.begin n (fnIx f) hrun hopen
    have settles := fun o => Dev.featAnswer_rd (o := o) s.dev.begin n (fnIx f) hrun hopen
    have stat := settles Reg.HF_STAT (by decide) (by decide)
    have ctl := settles Reg.HF_CTL (by decide) (by decide)
    have lo := settles Reg.HF_NEG_LO (by decide) (by decide)
    have hi := settles Reg.HF_NEG_HI (by decide) (by decide)
    refine does_of_run _ s (fun d => d.featAnswer n (fnIx f)) _ rfl ⟨hevent, hirq, fun hc => ?_, fun hc => ?_⟩
    · simp only [Dev.rdB, Dev.finish_rd, stat, lo, hi]
      exact Dev.featSettled_accept _ _ _ hc
    · simp only [Dev.rdB, Dev.rdF, Dev.finish_rd, stat, ctl]
      exact Dev.featSettled_reject _ _ _ hc hopen

/-! ### PRESENT (R86) -/

/-- A PRESENT joins the end of the head's queue; where FENCE is in effect it also squashes (R165). -/
theorem Dev.present_eq (d e : Dev) (h : Nat) (tag : Word) (he : e =
      d.onHead h (fun x => { x with presents := x.presents ++ [{ tag := tag, stamp := d.ft, regs := d.ownRegs h }] })) :
    d.present h tag = if (e.head h).fence then e.squash h d.ft (fun b => decide (d.ft < e.startFt h b.frame)) else e := by
  subst he; rfl

/-- Where FENCE is not in effect, that is all. -/
theorem Dev.present_of_no_fence (d : Dev) (h : Nat) (tag : Word) (hf : (d.head h).fence = false) : d.present h tag =
    d.onHead h (fun x => { x with presents := x.presents ++ [{ tag := tag, stamp := d.ft, regs := d.ownRegs h }] }) := by
  rw [Dev.present_eq _ _ _ _ rfl, Dev.onHead, Dev.head_setHead, if_neg (ne_true_of_eq_false hf)]

theorem presentQueued : Claims.PresentQueued := by
  intro n tag s hf
  have hhead : (s.dev.begin.hostReady n 0).head n = s.dev.head n := Dev.hostReady_head _ _ _ _
  have hregs : (s.dev.begin.hostReady n 0).ownRegs n = s.dev.ownRegs n := Dev.hostReady_ownRegs _ n 0 (by omega)
  refine does_of_run _ s (fun d => d.hostWord n 0 (fun d => d.present n tag)) _ rfl ?_
  rw [Dev.hostWord_eq, Dev.present_of_no_fence _ _ _ (by rw [hhead, hf])]
  refine ⟨{ tag := tag, stamp := (s.dev.begin.hostReady n 0).ft, regs := s.dev.ownRegs n }, ?_, rfl, ?_, rfl⟩
  · rw [Dev.finish_head, Dev.onHead, Dev.head_setHead, hhead, hregs]
  · rw [Dev.ft, Dev.ft, Dev.finish_clock, Dev.onHead, Dev.setHead_clock]

/-- Settles O41: an answer settles a negotiation before its event; a PRESENT finds the head as the command found it. -/
theorem negotiateAndPresent : Obligations.NegotiateAndPresent := ⟨negotiation, presentQueued⟩

end Sys2Proof.Machine
end

/-! PROOFS. What operations shared by the host lanes' commands leave alone: packets into the fabric (R377 to R395), borrowing of
credits (R81 to R83), squashes (R164 to R167). -/
section
namespace Sys2Proof.Machine

/-! ### Counted loops -/

theorem forN_succ {σ : Type} (n : Nat) (f : Nat → σ → σ) (s : σ) : forN (n + 1) f s = f n (forN n f s) := by
  simp [forN, List.range_succ]

/-- A relation that every round keeps, of a loop whose rounds know their number. -/
theorem forN_rel_lt {σ : Type} (P : σ → σ → Prop) (hr : ∀ s, P s s) (ht : ∀ a b c, P a b → P b c → P a c)
    (n : Nat) (f : Nat → σ → σ) (hf : ∀ i < n, ∀ s, P s (f i s)) (s : σ) : P s (forN n f s) := by
  induction n with
  | zero => exact hr s
  | succ n ih =>
    rw [forN_succ]
    exact ht _ _ _ (ih (fun i hi => hf i (by omega))) (hf n (by omega) _)

/-! ### Registers left alone -/

/-- What a command that completes leaves is what its effect leaves. -/
theorem post_of_does {i : Instr} {s : State} {post : Dev → Prop} (f : Dev → Dev) (h : Does i s post)
    (he : exec i s = s.run f) : post ((f s.dev.begin).finish s.dev.mem) := by
  obtain ⟨t, ht, _, hp⟩ := h
  rw [he, State.run_next] at ht
  cases ht
  exact hp

theorem Dev.regsBut_refl (k : Nat → Nat → Prop) (d : Dev) : d.regsBut k d := fun _ _ _ _ => rfl

theorem Dev.regsBut.trans {k : Nat → Nat → Prop} {a b c : Dev} (h : a.regsBut k b) (h' : b.regsBut k c) : a.regsBut k c :=
  fun p off ho hk => (h' p off ho hk).trans (h p off ho hk)

theorem Dev.regsBut.mono {k k' : Nat → Nat → Prop} {d e : Dev} (h : d.regsBut k e) (hk : ∀ p off, k p off → k' p off) :
    d.regsBut k' e := fun p off ho hn => h p off ho (fun hc => hn (hk _ _ hc))

theorem Dev.regsBut_wr {k : Nat → Nat → Prop} (d : Dev) {p off : Nat} (v : Word) (hk : k p off) (hoff : off < 4096) :
    d.regsBut k (d.wr p off v) :=
  fun _ _ ho hn => Dev.rd_wr_else _ _ ho hoff (fun hc => hn (hc.1 ▸ hc.2 ▸ hk))

theorem Dev.regsBut_irq {k : Nat → Nat → Prop} (d : Dev) {p : Nat} (n : Nat) (hk : k p Reg.IRQ_STAT) : d.regsBut k (d.irq p n) :=
  Dev.regsBut_wr d (d.rd p Reg.IRQ_STAT ||| word (2 ^ n)) hk (by decide)

theorem Dev.regsBut_wr64 {k : Nat → Nat → Prop} (d : Dev) {p off : Nat} (v : Nat) (hk : k p off) (hk' : k p (off + 4))
    (hoff : off + 4 < 4096) : d.regsBut k (d.wr64 p off v) :=
  (Dev.regsBut_wr d _ hk (by omega)).trans (Dev.regsBut_wr _ _ hk' hoff)

theorem Dev.regsBut_add64 {k : Nat → Nat → Prop} (d : Dev) {p off : Nat} (n : Nat) (hk : k p off) (hk' : k p (off + 4))
    (hoff : off + 4 < 4096) : d.regsBut k (d.add64 p off n) := d.regsBut_wr64 _ hk hk' hoff

/-- A 64-bit value set is registers set. -/
theorem Dev.wr64_eq (d : Dev) (p off v : Nat) : ∃ r, d.wr64 p off v = { d with regs := r } := ⟨_, rfl⟩

theorem Dev.add64_eq (d : Dev) (p off n : Nat) : ∃ r, d.add64 p off n = { d with regs := r } := d.wr64_eq p off _

/-- A 64-bit value read after it was set. -/
theorem Dev.rd64_wr64 (d : Dev) (p off v : Nat) : (d.wr64 p off v).rd64 p off = v % 2 ^ 64 := by
  simp only [Dev.rd64, Dev.wr64, Dev.rdN, Dev.wrN, Dev.rd_wr_same, Dev.rd_wr_off _ _ _ _ _ (show off ≠ off + 4 by omega),
    toNat_word]
  omega

/-- A 64-bit counter advanced. -/
theorem Dev.rd64_add64 (d : Dev) (p off n : Nat) : (d.add64 p off n).rd64 p off = (d.rd64 p off + n) % 2 ^ 64 :=
  Dev.rd64_wr64 _ _ _ _

/-- A 64-bit value of which no word was written. -/
theorem Dev.regsBut.rd64 {k : Nat → Nat → Prop} {d e : Dev} (h : d.regsBut k e) {p off : Nat} (hoff : off + 4 < 4096)
    (hk : ¬k p off) (hk' : ¬k p (off + 4)) : e.rd64 p off = d.rd64 p off := by
  rw [Dev.rd64, Dev.rdN, Dev.rdN, h p off (by omega) hk, h p (off + 4) hoff hk']
  rfl

@[simp] theorem Dev.begin_rd64 (d : Dev) (p off : Nat) : d.begin.rd64 p off = d.rd64 p off := by
  simp only [Dev.rd64, Dev.rdN, Dev.begin_rd]

@[simp] theorem Dev.finish_rd64 (d : Dev) (old : List Host.Cell) (p off : Nat) : (Dev.finish old d).rd64 p off = d.rd64 p off := by
  simp only [Dev.rd64, Dev.rdN, Dev.finish_rd]

theorem Dev.rd64_lt (d : Dev) (p off : Nat) : d.rd64 p off < 2 ^ 64 := by
  have lo := (d.rd p off).isLt
  have hi := (d.rd p (off + 4)).isLt
  simp only [Dev.rd64, Dev.rdN]
  omega

/-! ### Borrowing of credits -/

/-- Borrowing moves credits between registers and notes the lane that borrowed last. -/
theorem Dev.borrow_eq (d : Dev) : ∃ r k, d.borrow = { d with regs := r, lastBorrow := k } := by
  refine forN_rel (fun a b : Dev => ∃ r k, b = { a with regs := r, lastBorrow := k }) (fun a => ⟨_, _, rfl⟩) ?_ _ _
    (fun i a => ?_) d
  · rintro a _ _ ⟨_, _, rfl⟩ ⟨_, _, rfl⟩
    exact ⟨_, _, rfl⟩
  · dsimp only
    split
    · exact ⟨_, _, rfl⟩
    · exact ⟨_, _, rfl⟩

theorem Dev.borrow_clock (d : Dev) : d.borrow.clock = d.clock := by
  obtain ⟨_, _, h⟩ := d.borrow_eq
  rw [h]

/-! ### Packets of this chip -/

/-- Nothing but the fabric's state, registers of its page, and the note of the bits set in this cycle differs. -/
def Dev.fabricOnly (d e : Dev) : Prop :=
  (∃ r k f, e = { d with regs := r, setNow := k, fab := f }) ∧ d.regsBut (fun p _ => p = pgFAB) e

theorem Dev.fabricOnly_refl (d : Dev) : d.fabricOnly d := ⟨⟨_, _, _, rfl⟩, d.regsBut_refl _⟩

theorem Dev.fabricOnly.trans {a b c : Dev} (h : a.fabricOnly b) (h' : b.fabricOnly c) : a.fabricOnly c := by
  obtain ⟨⟨_, _, _, rfl⟩, hr⟩ := h
  obtain ⟨⟨_, _, _, rfl⟩, hr'⟩ := h'
  exact ⟨⟨_, _, _, rfl⟩, hr.trans hr'⟩

theorem Dev.fabricOnly_onFab (d : Dev) (f : FabricSt → FabricSt) : d.fabricOnly (d.onFab f) :=
  ⟨⟨_, _, _, rfl⟩, fun _ _ _ _ => rfl⟩

theorem Dev.fabricOnly_wr (d : Dev) {off : Nat} (v : Word) (hoff : off < 4096) : d.fabricOnly (d.wr pgFAB off v) :=
  ⟨⟨_, _, _, rfl⟩, d.regsBut_wr v rfl hoff⟩

theorem Dev.fabricOnly_irq (d : Dev) (n : Nat) : d.fabricOnly (d.irq pgFAB n) := ⟨⟨_, _, _, rfl⟩, d.regsBut_irq n rfl⟩

theorem Dev.fabricOnly_add64 (d : Dev) {off : Nat} (n : Nat) (hoff : off + 4 < 4096) : d.fabricOnly (d.add64 pgFAB off n) :=
  (d.fabricOnly_wr _ (by omega)).trans (Dev.fabricOnly_wr _ _ hoff)

/-- A packet that came in on no link holds no receive buffers. -/
theorem Dev.freePkt_of_own (d : Dev) {p : Packet} (hp : p.via = none) : d.freePkt p = d := by
  rw [Dev.freePkt, hp]; rfl

theorem Dev.fabricOnly_epEnd (d : Dev) {p : Packet} (hp : p.via = none) : d.fabricOnly (d.epEnd p) := by
  rw [Dev.epEnd, d.freePkt_of_own hp]
  exact d.fabricOnly_add64 _ (by cases p.epoch <;> decide)

theorem Dev.fabricOnly_noRoute (d : Dev) {p : Packet} (hp : p.via = none) : d.fabricOnly (d.noRoute p) :=
  ((d.fabricOnly_add64 1 (by decide)).trans (Dev.fabricOnly_irq _ 9)).trans (Dev.fabricOnly_epEnd _ hp)

theorem Dev.fabricOnly_toLink (d : Dev) (l : Nat) (p : Packet) : d.fabricOnly (d.toLink l p) :=
  d.fabricOnly_onFab (fun f => { f with links := spPut (fun _ => {}) f.links l _ })

theorem Dev.fabricOnly_atHome (d : Dev) {p : Packet} (hp : p.via = none) : d.fabricOnly (d.atHome p).1 := by
  unfold Dev.atHome
  split
  · dsimp only
    split
    · exact ((d.fabricOnly_wr _ (by decide)).trans (Dev.fabricOnly_irq _ 8)).trans (Dev.fabricOnly_epEnd _ hp)
    · rw [d.freePkt_of_own hp]
      exact (d.fabricOnly_onFab _).trans (Dev.fabricOnly_wr _ _ (by decide))
  · exact d.fabricOnly_epEnd hp

theorem Dev.fabricOnly_routePkt (d : Dev) {p : Packet} (hp : p.via = none) : d.fabricOnly (d.routePkt p).1 := by
  unfold Dev.routePkt
  split
  · exact d.fabricOnly_atHome hp
  · dsimp only
    split
    · exact d.fabricOnly_atHome hp
    · split
      · exact d.fabricOnly_noRoute hp
      · split
        · exact d.fabricOnly_noRoute hp
        · split
          · exact (d.fabricOnly_wr _ (by decide)).trans (Dev.fabricOnly_epEnd _ hp)
          · exact d.fabricOnly_toLink _ p

/-- A packet injected is counted for the active bit, and routed. -/
theorem Dev.inject1_def : Dev.inject1 = fun d p =>
    let e := d.rtActive
    ((d.add64 pgFAB (Reg.EP_INJ + 8 * e.toNat) 1).routePkt { p with epoch := e }).1 := rfl

theorem Dev.fabricOnly_inject1 (d : Dev) {p : Packet} (hp : p.via = none) : d.fabricOnly (d.inject1 p) := by
  rw [Dev.inject1_def]
  exact (d.fabricOnly_add64 1 (by cases d.rtActive <;> decide)).trans (Dev.fabricOnly_routePkt _ hp)

theorem Dev.fabricOnly_depart (d : Dev) {u : Unacked} (hu : u.packet.via = none) : d.fabricOnly (d.depart u) := by
  unfold Dev.depart
  split
  · exact d.fabricOnly_toLink _ _
  · exact d.fabricOnly_inject1 hu

theorem Dev.fabricOnly_sendItem (d : Dev) {u : Unacked} (hu : u.packet.via = none) : d.fabricOnly (d.sendItem u) := by
  unfold Dev.sendItem
  split
  · exact d.fabricOnly_depart hu
  · split
    · exact d.fabricOnly_onFab _
    · exact (d.fabricOnly_onFab _).trans (Dev.fabricOnly_depart _ hu)

/-- A message to another chip, or to this one, is the fabric's business alone. -/
theorem Dev.fabricOnly_msg (d : Dev) (cls dst kind : Nat) (args : List Nat) : d.fabricOnly (d.msg cls dst kind args) := by
  have item : ∀ (a : Dev) key seq args', a.fabricOnly (a.msgItem cls dst kind key seq args') := by
    intro a key seq args'
    unfold Dev.msgItem
    split
    · exact a.fabricOnly_refl
    · exact a.fabricOnly_sendItem rfl
  unfold Dev.msg
  split
  · exact d.fabricOnly_refl
  · exact (d.fabricOnly_onFab _).trans (item _ _ _ _)

end Sys2Proof.Machine
end

/-! PROOFS. What a squash of a head's window (R164 to R167) leaves alone. -/
section
namespace Sys2Proof.Machine

/-- Words that a squash may change: those of LEAD, and of head pages the event bits and the counters from 0x140 on. -/
def squashWord (p off : Nat) : Prop := p = pgLEAD ∨ 0x100 ≤ p ∧ (off = Reg.IRQ_STAT ∨ 0x140 ≤ off)

/-- Nothing but such words, heads' run-ahead and the note of the bits set in this cycle differs; a CONSIST change still waits. -/
def Dev.squashOnly (d e : Dev) : Prop :=
  (∃ r k hs, e = { d with regs := r, setNow := k, heads := hs }) ∧ d.regsBut squashWord e
    ∧ ∀ g, (e.head g).consAt = (d.head g).consAt

theorem Dev.squashOnly_refl (d : Dev) : d.squashOnly d := ⟨⟨_, _, _, rfl⟩, d.regsBut_refl _, fun _ => rfl⟩

theorem Dev.squashOnly.trans {a b c : Dev} (h : a.squashOnly b) (h' : b.squashOnly c) : a.squashOnly c := by
  obtain ⟨⟨_, _, _, rfl⟩, hr, hc⟩ := h
  obtain ⟨⟨_, _, _, rfl⟩, hr', hc'⟩ := h'
  exact ⟨⟨_, _, _, rfl⟩, hr.trans hr', fun g => (hc' g).trans (hc g)⟩

theorem Dev.squashOnly_setHead (d : Dev) (h : Nat) (x : HeadSt) (hx : x.consAt = (d.head h).consAt) :
    d.squashOnly (d.setHead h x) := by
  refine ⟨⟨_, _, _, rfl⟩, fun _ _ _ _ => rfl, fun g => ?_⟩
  by_cases hg : g = h
  · rw [hg, Dev.head_setHead, hx]
  · rw [Dev.head_setHead_ne _ _ _ _ hg]

theorem Dev.squashOnly_wr (d : Dev) {p off : Nat} (v : Word) (hk : squashWord p off) (hoff : off < 4096) :
    d.squashOnly (d.wr p off v) := ⟨⟨_, _, _, rfl⟩, d.regsBut_wr v hk hoff, fun _ => rfl⟩

theorem Dev.squashOnly_add64 (d : Dev) {p off : Nat} (n : Nat) (hk : squashWord p off) (hk' : squashWord p (off + 4))
    (hoff : off + 4 < 4096) : d.squashOnly (d.add64 p off n) :=
  (d.squashOnly_wr _ hk (by omega)).trans (Dev.squashOnly_wr _ _ hk' hoff)

theorem Dev.squashOnly_irq (d : Dev) (h n : Nat) : d.squashOnly (d.irq (pgHD h) n) :=
  ⟨⟨_, _, _, rfl⟩, d.regsBut_irq n (.inr ⟨by simp only [pgHD]; omega, .inl rfl⟩), fun _ => rfl⟩

/-- A counter of a head page from 0x140 on. -/
theorem squashWord_counter (h : Nat) {off : Nat} (hoff : 0x140 ≤ off) : squashWord (pgHD h) off :=
  .inr ⟨by simp only [pgHD]; omega, .inr hoff⟩

theorem Dev.squashOnly_squashAt (d : Dev) (h i : Nat) : d.squashOnly (d.squashAt h i) := by
  unfold Dev.squashAt
  dsimp only
  split
  · exact d.squashOnly_refl
  · next b rest _ =>
    have counters : ∀ (fresh : Bool) (a : Dev), a.squashOnly
        (if fresh then (a.add64 (pgHD h) Reg.SQUASHES 1).add64 pgLEAD Reg.SQUASH_ALL 1 else a) := by
      intro fresh a
      cases fresh with
      | false => exact a.squashOnly_refl
      | true =>
        exact (a.squashOnly_add64 1 (squashWord_counter h (by decide)) (squashWord_counter h (by decide)) (by decide)).trans
          (Dev.squashOnly_add64 _ 1 (.inl rfl) (.inl rfl) (by decide))
    have halved : ∀ (c : Prop) [Decidable c] (a : Dev) v, a.squashOnly
        (if c then (a.wrF (pgHD h) Reg.WINDOW_HALVINGS 15 0 v).irq (pgHD h) 4 else a) := by
      intro c _ a v
      split
      · exact (a.squashOnly_wr _ (squashWord_counter h (by decide)) (by decide)).trans (Dev.squashOnly_irq _ h 4)
      · exact a.squashOnly_refl
    refine ((Dev.squashOnly.trans (d.squashOnly_setHead h _ ?_) (Dev.squashOnly_add64 _ _ ?_ ?_ ?_)).trans (counters _ _)).trans
      (halved _ _ _)
    · rfl
    · exact squashWord_counter h (by decide)
    · exact squashWord_counter h (by decide)
    · decide

theorem Dev.squashOnly_squash (d : Dev) (h c : Nat) (p : LineBuf → Bool) : d.squashOnly (d.squash h c p) := by
  unfold Dev.squash
  split
  · exact d.squashOnly_squashAt h _
  · exact d.squashOnly_refl

end Sys2Proof.Machine
end

/-! PROOFS. Configuration of a function over its lane (R104, R105). -/
section
namespace Sys2Proof.Machine

/-- A bit after a write by access codes: the direct write of R6, with W1C bits. -/
theorem bit_codeWrite_w1c (old v rw w1c : Word) (b : Nat) (hb : b < 32) :
    bit (codeWrite old v rw w1c) b = if bit w1c b && bit v b then false else if bit rw b then bit v b else bit old b := by
  have bits : ∀ o r w x : Bool, ((o && !r || x && r) && !(x && w)) = if w && x then false else if r then x else o := by decide
  simp only [codeWrite, bit, BitVec.getLsbD_and, BitVec.getLsbD_or, BitVec.getLsbD_not, hb, decide_true, Bool.true_and]
  exact bits _ _ _ _

/-- A plain store of a word follows its access codes when hardware sets none of its bits in this cycle. -/
theorem Dev.bit_regStore (d : Dev) (p o : Nat) (v : Word) (b : Nat) (hb : b < 32) (hh : d.heldSet p o = 0) :
    bit ((d.regStore p o v).rd p o) b = bitAfter d p o v b := by
  have free : w1cMask p o &&& ~~~(0 : Word) = w1cMask p o := BitVec.and_allOnes
  rw [Dev.regStore, Dev.rd_wr_same, hh, free, bit_codeWrite_w1c _ _ _ _ _ hb, bitAfter]

/-- A function's configuration before CFG_READY, and outside the operating modes. -/
theorem Dev.configRequest_retry (d : Dev) (n : Nat) (f : Fn) (off : Nat) (wr : Option Word) (hl : d.linkLive n = true)
    (h : d.cfgReady n = false ∨ ¬(d.mode = 3 ∨ d.mode = 4 ∨ d.mode = 5)) :
    d.configRequest n f off wr = d.reply .retryStatus := by
  have refused : (!d.cfgReady n || !(d.mode == 3 || d.mode == 4 || d.mode == 5)) = true := by
    cases h with
    | inl hr => simp [hr]
    | inr hm => simp only [Bool.or_eq_true, Bool.not_eq_true', Bool.or_eq_false_iff, beq_eq_false_iff_ne]; omega
  unfold Dev.configRequest
  rw [hl, if_neg (by decide), if_pos refused]

theorem Dev.not_refused (d : Dev) {n : Nat} (hr : d.cfgReady n = true) (hm : d.mode = 3 ∨ d.mode = 4 ∨ d.mode = 5) :
    ¬(!d.cfgReady n || !(d.mode == 3 || d.mode == 4 || d.mode == 5)) = true := by
  rcases hm with h | h | h <;> simp [hr, h]

section Ready
variable (d : Dev) (n : Nat) (f : Fn) (off : Nat) (hl : d.linkLive n = true) (hr : d.cfgReady n = true)
  (hm : d.mode = 3 ∨ d.mode = 4 ∨ d.mode = 5)
include hl hr hm

theorem Dev.configRequest_read :
    d.configRequest n f off none = d.reply (.data ((d.cfgRead n f (off / 4 * 4)).setWidth 64)) :=
  (if_neg (by simp [hl])).trans (if_neg (d.not_refused hr hm))

theorem Dev.configRequest_write (v : Word) :
    d.configRequest n f off (some v) = (d.cfgWrite n f (off / 4 * 4) v).reply .done :=
  (if_neg (by simp [hl])).trans (if_neg (d.not_refused hr hm))

/-- A write of a word that shows something fixed changes nothing. -/
theorem Dev.configRequest_fixed (v : Word) (hfix : (d.cfgFixed n f (off / 4 * 4)).isSome = true) :
    d.configRequest n f off (some v) = d.reply .done := by
  have same : d.cfgWrite n f (off / 4 * 4) v = d := if_pos hfix
  rw [d.configRequest_write n f off hl hr hm]
  exact congrArg (Dev.reply · .done) same

/-- A write of a plain word stores it. -/
theorem Dev.configRequest_plain (v : Word) (hfix : (d.cfgFixed n f (off / 4 * 4)).isSome = false)
    (hpm : off / 4 * 4 ≠ Reg.CFG_PMCSR) (hdc : off / 4 * 4 ≠ Reg.CFG_DEVCTL) (hmsix : off / 4 * 4 ≠ Reg.CFG_MSIX)
    (hbar : off / 4 * 4 ≠ Reg.CFG_BAR0_LO) :
    d.configRequest n f off (some v) = (d.regStore (pgCfg n (fnIx f)) (off / 4 * 4) v).reply .done := by
  have stored : d.cfgWrite n f (off / 4 * 4) v = d.regStore (pgCfg n (fnIx f)) (off / 4 * 4) v := by
    unfold Dev.cfgWrite
    rw [if_neg (by simp [hfix]), if_neg hpm, if_neg hdc, if_neg (fun hc => hbar hc.1), if_neg hmsix]
  rw [d.configRequest_write n f off hl hr hm]
  exact congrArg (Dev.reply · .done) stored

end Ready

/-- What a function shows at offset 0 is its identity. -/
theorem Dev.cfgRead_identity (d : Dev) (n : Nat) (f : Fn) :
    (d.cfgRead n f 0).setWidth 64 = BitVec.ofNat 64 (0x1E4C + (0x0128 + fnIx f) * 65536) := by
  have fixed : d.cfgRead n f 0 = word (0x1E4C + (0x0128 + fnIx f) * 65536) := rfl
  rw [fixed]
  cases f <;> decide

/-- Settles O7: each answer is one branch of the request; a plain word's bits follow its access codes one by one. -/
theorem configuration : Obligations.Configuration := by
  intro n s hs
  obtain ⟨_, hw⟩ := hs
  have unchanged : ∀ a : Answer, s.dev.onlyRegs (fun _ _ => False) ((s.dev.begin.reply a).finish s.dev.mem) := fun a =>
    Dev.onlyRegs_finish _ _ _ hw rfl (fun _ _ _ _ => rfl) rfl
  refine ⟨fun hperst hup => ?_, fun hl f off => ⟨fun hno wr => ?_, fun hr hup => ⟨?_, ?_, fun v => ⟨fun hfix => ?_, ?_⟩⟩⟩⟩
  · refine does_of_run _ s (fun d => d.becomeReady n) _ rfl ?_
    have ready : s.dev.begin.becomeReady n = (s.dev.begin.allocClear n).wrB (pgHP n) Reg.HP_STAT 10 true := by
      refine if_neg ?_
      change ¬(s.dev.rdB (pgHP n) Reg.HP_STAT 0 || !(s.dev.mode == 3 || s.dev.mode == 4 || s.dev.mode == 5)) = true
      rcases hup with h | h | h <;> simp [hperst, h]
    rw [ready, Dev.cfgReady, Dev.finish_rdB, Dev.rdB, Dev.wrB, Dev.rd_wr_same, bit_putBit _ _ _ (by decide)]
  · refine does_of_run _ s (fun d => d.configRequest n f off.toNat wr) _ rfl ?_
    rw [s.dev.begin.configRequest_retry _ _ _ _ hl hno]
    exact ⟨rfl, unchanged _⟩
  · refine does_of_run _ s (fun d => d.configRequest n f off.toNat none) _ rfl ?_
    rw [s.dev.begin.configRequest_read _ _ _ hl hr hup]
    exact ⟨rfl, unchanged _⟩
  · refine does_of_run _ s (fun d => d.configRequest n f 0 none) _ rfl ?_
    rw [s.dev.begin.configRequest_read _ _ _ hl hr hup]
    exact congrArg Answer.data (s.dev.begin.cfgRead_identity n f)
  · refine does_of_run _ s (fun d => d.configRequest n f off.toNat (some v)) _ rfl ?_
    rw [s.dev.begin.configRequest_fixed _ _ _ hl hr hup v hfix]
    exact ⟨rfl, unchanged _⟩
  · intro hfix hpm hdc hmsix hbar hheld
    refine does_of_run _ s (fun d => d.configRequest n f off.toNat (some v)) _ rfl ?_
    rw [s.dev.begin.configRequest_plain _ _ _ hl hr hup v hfix hpm hdc hmsix hbar]
    have hoff : off.toNat / 4 * 4 < 4096 := by have := off.isLt; omega
    exact ⟨rfl, fun b hb => s.dev.begin.bit_regStore _ _ v b hb hheld,
      Dev.onlyRegs_finish _ _ _ hw rfl (fun q o ho hk => Dev.rd_wr_else s.dev.begin _ ho hoff hk) rfl⟩

end Sys2Proof.Machine
end

/-! PROOFS. A head's DETACHED bit (R109) and its consistency mode (R157). -/
section
namespace Sys2Proof.Machine

/-! ### DETACHED -/

/-- What a change of DETACHED does in one function of a virtual head. -/
def Dev.detachFn (d : Dev) (h : Nat) (on : Bool) (f : Nat) : Dev := (d.wrB (pgFn h f) Reg.HF_STAT 3 on).fnEvent h f 2

theorem Dev.detachFn_rd_else (d : Dev) (h : Nat) (on : Bool) (f : Nat) {p o : Nat} (hp : p ≠ pgFn h f) (ho : o < 4096) :
    (d.detachFn h on f).rd p o = d.rd p o :=
  (Dev.fnEvent_rd_else _ _ _ _ ho (fun hc => hp hc.1)).trans (Dev.rd_wr_page _ _ _ _ _ _ hp ho (by decide))

/-- The function has raised DETACH_CHANGE and shows the bit. -/
def Dev.showsDetached (d : Dev) (h : Nat) (on : Bool) (f : Nat) : Prop :=
  d.rdB (pgFn h f) Reg.HF_EVT_STAT 2 = true ∧ d.rdB (pgFn h f) Reg.HF_STAT 3 = on

theorem Dev.detachFn_shows (d : Dev) (h : Nat) (on : Bool) (f : Nat) : (d.detachFn h on f).showsDetached h on f := by
  refine ⟨Dev.fnEvent_stat _ _ _ _ (by decide), ?_⟩
  rw [Dev.rdB, Dev.detachFn, Dev.fnEvent_rd_else _ _ _ _ (by decide) (fun hc => absurd hc.2 (by decide)), Dev.wrB, Dev.rd_wr_same,
    bit_putBit _ _ _ (by decide)]

theorem Dev.detachFns_rd_else (d : Dev) (h : Nat) (on : Bool) (n : Nat) {p o : Nat} (hp : p < 1024) (ho : o < 4096) :
    (forN n (fun f d => d.detachFn h on f) d).rd p o = d.rd p o := by
  induction n with
  | zero => rfl
  | succ n ih => rw [forN_succ, Dev.detachFn_rd_else _ _ _ _ (by simp only [pgFn]; omega) ho, ih]

theorem Dev.detachFns_show (d : Dev) (h : Nat) (on : Bool) (n : Nat) :
    ∀ f < n, (forN n (fun f d => d.detachFn h on f) d).showsDetached h on f := by
  induction n with
  | zero => exact fun f hf => absurd hf (by omega)
  | succ n ih =>
    intro f hf
    rw [forN_succ]
    by_cases hfn : f = n
    · subst hfn; exact Dev.detachFn_shows _ _ _ _
    · have page : pgFn h f ≠ pgFn h n := by simp only [pgFn]; omega
      obtain ⟨hevt, hstat⟩ := ih f (by omega)
      constructor
      · rw [Dev.rdB, Dev.detachFn_rd_else _ _ _ _ page (by decide)]; exact hevt
      · rw [Dev.rdB, Dev.detachFn_rd_else _ _ _ _ page (by decide)]; exact hstat

theorem Dev.setDetached_same (d : Dev) (h : Nat) (on : Bool) (hs : d.rdB (pgHD h) Reg.HD_MODE 3 = on) :
    d.setDetached h on = d := if_pos hs

/-- A change of DETACHED stores the bit, and on a virtual head goes on to its three functions. -/
theorem Dev.setDetached_change (d : Dev) (h : Nat) (on : Bool) (hs : d.rdB (pgHD h) Reg.HD_MODE 3 ≠ on) :
    ∃ x, d.setDetached h on = if isV h then forN 3 (fun f d => d.detachFn h on f) ((d.setHead h x).wrB (pgHD h) Reg.HD_MODE 3 on)
      else (d.setHead h x).wrB (pgHD h) Reg.HD_MODE 3 on :=
  ⟨_, if_neg hs⟩

theorem detach : Claims.Detach := by
  intro h on s
  refine does_of_run _ s (fun d => (d.disarm (pgHD h)).setDetached h on) _ rfl ?_
  have found : (s.dev.begin.disarm (pgHD h)).rdB (pgHD h) Reg.HD_MODE 3 = s.dev.rdB (pgHD h) Reg.HD_MODE 3 := by
    rw [Dev.rdB, Dev.disarm_rd, Dev.begin_rd]; rfl
  by_cases hs : s.dev.rdB (pgHD h) Reg.HD_MODE 3 = on
  · rw [Dev.setDetached_same _ _ _ (found.trans hs)]
    exact ⟨found.trans hs, fun _ hne => absurd hs hne, fun _ p off => by simp⟩
  · obtain ⟨x, hx⟩ := Dev.setDetached_change _ h on (fun hc => hs (found.symm.trans hc))
    rw [hx]
    have stored : ∀ d : Dev, (d.wrB (pgHD h) Reg.HD_MODE 3 on).rdB (pgHD h) Reg.HD_MODE 3 = on := fun d => by
      rw [Dev.rdB, Dev.wrB, Dev.rd_wr_same, bit_putBit _ _ _ (by decide)]
    cases hv : isV h with
    | false => exact ⟨stored _, fun hc => absurd hc (by simp), fun hc => absurd hc hs⟩
    | true =>
      refine ⟨?_, fun _ _ f hf => Dev.detachFns_show _ _ _ 3 f hf, fun hc => absurd hc hs⟩
      rw [if_pos rfl, Dev.finish_rdB, Dev.rdB, Dev.detachFns_rd_else _ _ _ _ (by simp only [pgHD]; omega) (by decide)]
      exact stored _

/-! ### CONSIST -/

theorem Dev.disarm_heads (d : Dev) (p : Nat) : (d.disarm p).heads = d.heads := by
  unfold Dev.disarm; split <;> rfl

theorem Dev.disarm_clock (d : Dev) (p : Nat) : (d.disarm p).clock = d.clock := by
  unfold Dev.disarm; split <;> rfl

theorem Dev.disarm_feats (d : Dev) (p h : Nat) : (d.disarm p).feats h = d.feats h := by
  simp [Dev.feats]

/-- A mode that the features allow is written. -/
theorem Dev.consistField_of_allowed (d : Dev) (h who v : Nat) (hv : v = 1 → bit (d.feats h) 1 = true) :
    d.consistField h who v = d.consistWrite h v :=
  if_neg (fun hc => by simp [hv hc.1] at hc)

theorem Dev.consistWrite_same (d : Dev) (h v : Nat) (hv : v = d.rdF (pgHD h) Reg.HD_MODE 1 0) : d.consistWrite h v = d :=
  if_pos (.inr hv)

/-- A change of CONSIST is stored, waits from now on, and squashes the window. -/
theorem Dev.consistWrite_change (d : Dev) (h v : Nat) (h2 : v < 2) (hv : v ≠ d.rdF (pgHD h) Reg.HD_MODE 1 0) :
    d.consistWrite h v = ((d.wrF (pgHD h) Reg.HD_MODE 1 0 v).onHead h (fun x => { x with consAt := some d.ft })).squashWindow h
      d.ft :=
  if_neg (fun hc => hc.elim (fun h => absurd h (by omega)) hv)

/-- A squash does not write HD_MODE. -/
theorem mode_not_squashWord (h : Nat) : ¬squashWord (pgHD h) Reg.HD_MODE := by
  simp only [squashWord, pgHD, pgLEAD, Reg.HD_MODE, Reg.IRQ_STAT]
  omega

theorem Dev.consistWrite_stores (d : Dev) (h v : Nat) (h2 : v < 2) : (d.consistWrite h v).rdF (pgHD h) Reg.HD_MODE 1 0 = v
    ∧ (v ≠ d.rdF (pgHD h) Reg.HD_MODE 1 0 → ((d.consistWrite h v).head h).consAt = some d.ft) := by
  by_cases hv : v = d.rdF (pgHD h) Reg.HD_MODE 1 0
  · rw [d.consistWrite_same h v hv]
    exact ⟨hv.symm, fun hne => absurd hv hne⟩
  · rw [d.consistWrite_change h v h2 hv, Dev.squashWindow]
    obtain ⟨_, hregs, hcons⟩ := Dev.squashOnly_squash ((d.wrF (pgHD h) Reg.HD_MODE 1 0 v).onHead h
      (fun x => { x with consAt := some d.ft })) h d.ft (fun _ => true)
    constructor
    · rw [Dev.rdF, hregs _ _ (by decide) (mode_not_squashWord h), Dev.onHead, Dev.setHead_rd,
        Dev.wrF, Dev.rd_wr_same, field_putField _ _ _ _ (by decide) (by decide)]
      omega
    · rw [hcons, Dev.onHead, Dev.head_setHead]
      exact fun _ => rfl

/-- A CONSIST change that waits takes effect at the start of its frame. -/
theorem Dev.consistEffect_waiting (d : Dev) (h c : Nat) (hc : (d.head h).consAt = some c)
    (hl : (d.head h).adm = .waiting ∨ (d.head h).adm = .running) :
    ∃ x, d.consistEffect h = (d.toFt (d.startFt h (d.consistFrame h c))).setHead h x ∧ x.consAt = none
      ∧ x.fence = decide (d.rdF (pgHD h) Reg.HD_MODE 1 0 = 1) ∧ x.fenceAt = d.startFt h (d.consistFrame h c) := by
  have live : ¬¬((d.head h).adm = .waiting ∨ (d.head h).adm = .running ∨ d.stopLate h) := not_not_intro (hl.imp_right .inl)
  unfold Dev.consistEffect
  simp only [hc]
  exact ⟨_, if_neg live, rfl, rfl, rfl⟩

theorem consistency : Claims.Consistency := by
  intro h s
  refine ⟨fun mode hmode => ?_, fun c hc hl => ?_⟩
  · refine does_of_run _ s (fun d => (d.disarm (pgHD h)).consistField h byMgmt mode.toNat) _ rfl ?_
    have feats : (s.dev.begin.disarm (pgHD h)).feats h = s.dev.feats h := Dev.disarm_feats _ _ _
    have found : (s.dev.begin.disarm (pgHD h)).rdF (pgHD h) Reg.HD_MODE 1 0 = s.dev.rdF (pgHD h) Reg.HD_MODE 1 0 := by
      rw [Dev.rdF, Dev.disarm_rd, Dev.begin_rd]; rfl
    have now : (s.dev.begin.disarm (pgHD h)).ft = s.dev.ft := by rw [Dev.ft, Dev.disarm_clock]; rfl
    rw [Dev.consistField_of_allowed _ _ _ _ (fun h1 => by rw [feats]; exact (hmode.resolve_left (by omega)).2), ← found, ← now]
    exact Dev.consistWrite_stores _ _ _ (by omega)
  · refine does_of_run _ s (fun d => d.consistEffect h) _ rfl ?_
    obtain ⟨x, hx, hnone, hfence, hat⟩ := s.dev.begin.consistEffect_waiting h c hc hl
    rw [hx, Dev.finish_head, Dev.head_setHead]
    exact ⟨hnone, hfence, hat⟩

/-- Settles O43: a change of DETACHED goes to the three functions one by one; a squash leaves CONSIST and what waits of it. -/
theorem headModes : Obligations.HeadModes := ⟨detach, consistency⟩

end Sys2Proof.Machine
end

/-! PROOFS. Host writes entering a lane's ingress (R58, R59, R76, R81, R83), and host reads (R80). -/
section
namespace Sys2Proof.Machine

/-! ### Writes that enter -/

/-- The words that borrowing of credits changes (R82, R83). -/
def borrowWord (p o : Nat) : Prop :=
  (∃ k < 128, p = pgHP k) ∧ o = Reg.HP_SHARE_USED ∨ p = pgSYS ∧ (o = Reg.ING_SH_USED ∨ o = Reg.ING_SH_FREE)

theorem Dev.borrow_regs (d : Dev) : d.regsBut borrowWord d.borrow := by
  refine forN_rel (fun a b : Dev => a.regsBut borrowWord b) (fun a => a.regsBut_refl _) (fun _ _ _ h h' => h.trans h') _ _
    (fun i a => ?_) d
  dsimp only
  split
  · exact ((a.regsBut_wr _ (.inl ⟨⟨_, Nat.mod_lt _ (by decide), rfl⟩, rfl⟩) (by decide)).trans
      (Dev.regsBut_wr _ _ (.inr ⟨rfl, .inl rfl⟩) (by decide))).trans (Dev.regsBut_wr _ _ (.inr ⟨rfl, .inr rfl⟩) (by decide))
  · exact a.regsBut_refl _

theorem Dev.borrow_lane (d : Dev) (n : Nat) : d.borrow.lane n = d.lane n := by
  obtain ⟨_, _, h⟩ := d.borrow_eq
  rw [h]; rfl

theorem Dev.borrow_wlog (d : Dev) : d.borrow.wlog = d.wlog := by
  obtain ⟨_, _, h⟩ := d.borrow_eq
  rw [h]

/-- The write as it stands in the queue, with the floor and shared credits that it holds. -/
def queued (f : Fn) (bar : Bar) (off : Nat) (data : List (Option Byte)) (relaxed : Bool) (floor share : Nat) : Tlp :=
  { fn := f, bar := bar, off := off, data := data, relaxed := relaxed, floor := floor, share := share }

/-- The lane with that write taken in, before it borrows. -/
def Dev.enqueue (d : Dev) (n : Nat) (t : Tlp) : Dev :=
  (d.setFloor n (d.rdN (pgHP n) Reg.HP_FLOOR_USED + t.floor)).onLane n
    (fun l => { l with shareBusy := l.shareBusy + t.share, queue := l.queue ++ [t] })

section Good
variable (d : Dev) (n : Nat) (f : Fn) (bar : Bar) (off : Nat) (data : List (Option Byte)) (relaxed : Bool)
  (hl : d.linkLive n = true) (hr : d.cfgReady n = true) (h0 : d.inD0 n (fnIx f) = true) (hrom : bar ≠ .rom)
  (hfit : off + data.length ≤ barSize f bar) (hbar : bar = .bar0 → bar0WriteOk off data = true)
include hl hr h0 hrom hfit hbar

/-- A good write that fits its BAR enters or waits, as the header and data credits say. -/
theorem Dev.hostWrite_good : d.hostWrite n f bar off data relaxed .good =
    if 32 ≤ (d.lane n).queue.length ∨ d.rdN (pgHP n) Reg.HP_SHARE_USED < (d.lane n).shareBusy
        + (ceilDiv data.length 64 - min (ceilDiv data.length 64) (d.rdN (pgHP n) Reg.HP_FLOOR_FREE)) then d.borrow.reply .waits
    else (d.enqueue n (queued f bar off data relaxed (min (ceilDiv data.length 64) (d.rdN (pgHP n) Reg.HP_FLOOR_FREE))
      (ceilDiv data.length 64 - min (ceilDiv data.length 64) (d.rdN (pgHP n) Reg.HP_FLOOR_FREE)))).borrow := by
  have live : ¬(!d.linkLive n) = true := by simp [hl]
  have accepted : ¬(TlpFlaw.good ≠ .good ∨ bar = .rom ∨ barSize f bar < off + data.length ∨ (!d.cfgReady n) = true
      ∨ (!d.inD0 n (fnIx f)) = true) := by
    rintro (h | h | h | h | h)
    · exact h rfl
    · exact hrom h
    · omega
    · simp [hr] at h
    · simp [h0] at h
  have aligned : ¬(bar = .bar0 ∧ (!bar0WriteOk off data) = true) := fun hc => by simp [hbar hc.1] at hc
  unfold Dev.hostWrite
  rw [if_neg live, if_neg accepted, if_neg aligned]
  rfl

theorem Dev.hostWrite_waits (hq : 32 ≤ (d.lane n).queue.length) :
    d.hostWrite n f bar off data relaxed .good = d.borrow.reply .waits := by
  rw [d.hostWrite_good n f bar off data relaxed hl hr h0 hrom hfit hbar, if_pos (.inl hq)]

/-- Floor credits that cover the write, and a free header credit, take it in. -/
theorem Dev.hostWrite_enters (hfloor : ceilDiv data.length 64 ≤ d.rdN (pgHP n) Reg.HP_FLOOR_FREE)
    (hshare : (d.lane n).shareBusy ≤ d.rdN (pgHP n) Reg.HP_SHARE_USED) (hq : (d.lane n).queue.length < 32) :
    d.hostWrite n f bar off data relaxed .good
      = (d.enqueue n (queued f bar off data relaxed (ceilDiv data.length 64) 0)).borrow := by
  rw [d.hostWrite_good n f bar off data relaxed hl hr h0 hrom hfit hbar, Nat.min_eq_left hfloor, Nat.sub_self,
    if_neg (by omega)]

end Good

theorem Dev.enqueue_queue (d : Dev) (n : Nat) (t : Tlp) : ((d.enqueue n t).lane n).queue = (d.lane n).queue ++ [t] := by
  rw [Dev.enqueue, Dev.onLane, Dev.lane_setLane]
  rfl

theorem Dev.enqueue_floor (d : Dev) (n : Nat) (t : Tlp) :
    (d.enqueue n t).rd (pgHP n) Reg.HP_FLOOR_USED = word (d.rdN (pgHP n) Reg.HP_FLOOR_USED + t.floor) := by
  rw [Dev.enqueue, Dev.onLane, Dev.setLane_rd, Dev.setFloor, Dev.wrN, Dev.wrN, Dev.rd_wr_off _ _ _ _ _ (by decide),
    Dev.rd_wr_same]

/-! ### Flawed writes -/

/-- The words of a function's AER capability from its status to the header log. -/
def aerWord (n f p o : Nat) : Prop := p = pgCfg n f ∧ Reg.CFG_AER_UES ≤ o ∧ o < Reg.CFG_AER_HDR + 16

/-- Only registers, draws, and the note of the bits set in this cycle differ; of registers only those that k names. -/
def Dev.drawnRegs (k : Nat → Nat → Prop) (d e : Dev) : Prop :=
  (∃ r x c, e = { d with regs := r, setNow := x, draws := c }) ∧ d.regsBut k e

theorem Dev.drawnRegs.trans {k : Nat → Nat → Prop} {a b c : Dev} (h : a.drawnRegs k b) (h' : b.drawnRegs k c) :
    a.drawnRegs k c := by
  obtain ⟨⟨_, _, _, rfl⟩, hr⟩ := h
  obtain ⟨⟨_, _, _, rfl⟩, hr'⟩ := h'
  exact ⟨⟨_, _, _, rfl⟩, hr.trans hr'⟩

theorem Dev.drawnRegs.mono {k k' : Nat → Nat → Prop} {d e : Dev} (h : d.drawnRegs k e) (hk : ∀ p off, k p off → k' p off) :
    d.drawnRegs k' e := ⟨h.1, h.2.mono hk⟩

theorem Dev.drawnRegs_refl (k : Nat → Nat → Prop) (d : Dev) : d.drawnRegs k d := ⟨⟨_, _, _, rfl⟩, d.regsBut_refl k⟩

theorem Dev.drawnRegs_wr {k : Nat → Nat → Prop} (d : Dev) {p off : Nat} (v : Word) (hk : k p off) (hoff : off < 4096) :
    d.drawnRegs k (d.wr p off v) := ⟨⟨_, _, _, rfl⟩, d.regsBut_wr v hk hoff⟩

theorem Dev.drawnRegs_setBits {k : Nat → Nat → Prop} (d : Dev) {p off : Nat} (m : Word) (hk : k p off) (hoff : off < 4096) :
    d.drawnRegs k (d.setBits p off m) := ⟨⟨_, _, _, rfl⟩, Dev.regsBut_wr d (d.rd p off ||| m) hk hoff⟩

theorem Dev.drawnRegs_drew {k : Nat → Nat → Prop} (d : Dev) : d.drawnRegs k d.drew := ⟨⟨_, _, _, rfl⟩, d.regsBut_refl k⟩

/-- A bit of a word that hardware sets. -/
theorem Dev.setBits_rdB (d : Dev) (p o b : Nat) (hb : b < 32) : (d.setBits p o (word (2 ^ b))).rdB p o b = true := by
  change bit ((d.wr p o (d.rd p o ||| word (2 ^ b))).rd p o) b = true
  rw [Dev.rd_wr_same, bit, word, BitVec.getLsbD_or, BitVec.getLsbD_ofNat, Nat.testBit_two_pow_self]
  simp [hb]

/-- Logging an error sets its status bit, and after it at most the number of the first error and the header log. -/
theorem Dev.aerLog_after (d : Dev) (n f b : Nat) :
    (d.setBits (pgCfg n f) Reg.CFG_AER_UES (word (2 ^ b))).drawnRegs
      (fun p o => p = pgCfg n f ∧ Reg.CFG_AER_CAP ≤ o ∧ o < Reg.CFG_AER_HDR + 16) (d.aerLog n f b) := by
  unfold Dev.aerLog
  dsimp only
  split
  · generalize d.setBits (pgCfg n f) Reg.CFG_AER_UES (word (2 ^ b)) = e
    refine (e.drawnRegs_wr (putField (e.rd (pgCfg n f) Reg.CFG_AER_CAP) 4 0 b) ⟨rfl, Nat.le_refl _, by decide⟩ (by decide)).trans ?_
    refine forN_rel_lt (Dev.drawnRegs _) (Dev.drawnRegs_refl _) (fun _ _ _ => Dev.drawnRegs.trans) 4 _ (fun i hi a => ?_) _
    have cap : Reg.CFG_AER_CAP ≤ Reg.CFG_AER_HDR + 4 * i := by simp only [Reg.CFG_AER_CAP, Reg.CFG_AER_HDR]; omega
    have hdr : Reg.CFG_AER_HDR + 4 * i < Reg.CFG_AER_HDR + 16 := by omega
    have inPage : Reg.CFG_AER_HDR + 4 * i < 4096 := by simp only [Reg.CFG_AER_HDR]; omega
    exact (a.drawnRegs_wr _ ⟨rfl, cap, hdr⟩ inPage).trans (Dev.drawnRegs_drew _)
  · exact Dev.drawnRegs_refl _ _

theorem Dev.aerLog_drawn (d : Dev) (n f b : Nat) : d.drawnRegs (aerWord n f) (d.aerLog n f b) :=
  (Dev.drawnRegs_setBits d _ ⟨rfl, Nat.le_refl _, by decide⟩ (by decide)).trans
    ((d.aerLog_after n f b).mono (fun _ _ h => ⟨h.1, le_trans (by decide) h.2.1, h.2.2⟩))

/-- The words of a lane's page that count a discarded write and raise its interrupts. -/
def discardWord (n p o : Nat) : Prop :=
  p = pgHP n ∧ (o = Reg.IRQ_STAT ∨ o = Reg.ING_DISCARDS ∨ o = Reg.ING_DISCARDS + 4)

/-- A TLP with an error is logged, and after that counted. -/
theorem Dev.aerDiscard_after (d : Dev) (n f : Nat) (flaw : TlpFlaw) :
    (d.aerLog n f (aerBit flaw)).drawnRegs (discardWord n) (d.aerDiscard n f flaw) := by
  have counted : ∀ a : Dev, a.drawnRegs (discardWord n) (a.add64 (pgHP n) Reg.ING_DISCARDS 1) := fun a =>
    (Dev.drawnRegs_wr a _ ⟨rfl, .inr (.inl rfl)⟩ (by decide)).trans
      (Dev.drawnRegs_wr _ _ ⟨rfl, .inr (.inr rfl)⟩ (by decide))
  have raised : ∀ (a : Dev) b, a.drawnRegs (discardWord n) (a.irq (pgHP n) b) := fun a b =>
    Dev.drawnRegs_setBits a (word (2 ^ b)) ⟨rfl, .inl rfl⟩ (by decide)
  exact ((raised _ 6).trans (counted _)).trans (raised _ 8)

theorem Dev.aerDiscard_drawn (d : Dev) (n f : Nat) (flaw : TlpFlaw) :
    d.drawnRegs (fun p o => discardWord n p o ∨ aerWord n f p o) (d.aerDiscard n f flaw) :=
  ((d.aerLog_drawn n f _).mono (fun _ _ => .inr)).trans ((d.aerDiscard_after n f flaw).mono (fun _ _ => .inl))

theorem Dev.aerDiscard_status (d : Dev) (n f : Nat) (flaw : TlpFlaw) :
    (d.aerDiscard n f flaw).rdB (pgCfg n f) Reg.CFG_AER_UES (aerBit flaw) = true := by
  have small : aerBit flaw < 32 := by cases flaw <;> decide
  rw [Dev.rdB, (d.aerDiscard_after n f flaw).2 _ _ (by decide) (fun hc => by simp only [discardWord, pgCfg, pgHP] at hc; omega),
    (d.aerLog_after n f _).2 _ _ (by decide) (fun hc => absurd hc.2.1 (by decide))]
  exact d.setBits_rdB _ _ _ small

/-- A discard is counted. -/
theorem Dev.discard_counts (d : Dev) (n : Nat) :
    (d.discard n).rd64 (pgHP n) Reg.ING_DISCARDS = (d.rd64 (pgHP n) Reg.ING_DISCARDS + 1) % 2 ^ 64 := by
  have kept := (Dev.regsBut_irq (k := fun _ o => o = Reg.IRQ_STAT) (p := pgHP n) (d.add64 (pgHP n) Reg.ING_DISCARDS 1) 8 rfl).rd64
    (p := pgHP n) (off := Reg.ING_DISCARDS) (by decide) (by decide) (by decide)
  exact kept.trans (d.rd64_add64 _ _ _)

theorem Dev.irq_rdB_mono (d : Dev) (p n b : Nat) (h : d.rdB p Reg.IRQ_STAT b = true) : (d.irq p n).rdB p Reg.IRQ_STAT b = true := by
  change bit ((d.wr p Reg.IRQ_STAT (d.rd p Reg.IRQ_STAT ||| word (2 ^ n))).rd p Reg.IRQ_STAT) b = true
  rw [Dev.rd_wr_same, bit, BitVec.getLsbD_or]
  simp only [Dev.rdB, bit] at h
  rw [h, Bool.true_or]

theorem Dev.discard_irq (d : Dev) (n b : Nat) (h : d.rdB (pgHP n) Reg.IRQ_STAT b = true) :
    (d.discard n).rdB (pgHP n) Reg.IRQ_STAT b = true := by
  refine Dev.irq_rdB_mono _ _ _ _ ?_
  rw [Dev.rdB, d.regsBut_add64 (k := fun _ o => o ≠ Reg.IRQ_STAT) 1 (by decide) (by decide) (by decide) _ _ (by decide) (fun hc => hc rfl)]
  exact h

/-- A TLP with an error is counted, and raises AER_UNCORR. -/
theorem Dev.aerDiscard_counts (d : Dev) (n f : Nat) (flaw : TlpFlaw) :
    (d.aerDiscard n f flaw).rd64 (pgHP n) Reg.ING_DISCARDS = (d.rd64 (pgHP n) Reg.ING_DISCARDS + 1) % 2 ^ 64
      ∧ (d.aerDiscard n f flaw).rdB (pgHP n) Reg.IRQ_STAT 6 = true := by
  refine ⟨(Dev.discard_counts _ n).trans ?_, Dev.discard_irq _ n 6 (Dev.irq_rdB_same _ _ _ (by decide))⟩
  have kept : d.regsBut (fun p o => aerWord n f p o ∨ o = Reg.IRQ_STAT) ((d.aerLog n f (aerBit flaw)).irq (pgHP n) 6) :=
    ((d.aerLog_drawn n f _).2.mono (fun _ _ => .inl)).trans (Dev.regsBut_irq _ 6 (.inr rfl))
  have lane : ∀ o, ¬aerWord n f (pgHP n) o := fun o hc => by simp only [aerWord, pgCfg, pgHP] at hc; omega
  rw [kept.rd64 (by decide) (fun hc => hc.elim (lane _) (by decide)) (fun hc => hc.elim (lane _) (by decide))]

theorem Dev.hostWrite_flawed (d : Dev) (n : Nat) (f : Fn) (bar : Bar) (off : Nat) (data : List (Option Byte)) (relaxed : Bool)
    (flaw : TlpFlaw) (hl : d.linkLive n = true) (hf : flaw ≠ .good) :
    d.hostWrite n f bar off data relaxed flaw = d.aerDiscard n (fnIx f) flaw := by
  unfold Dev.hostWrite
  rw [if_neg (by simp [hl]), if_pos (.inl hf)]

theorem hostWriteEnters : Claims.HostWriteEnters := by
  intro n f bar off data relaxed s hs h1 h256 hl
  obtain ⟨_, hw⟩ := hs
  have fits : ¬(data.length = 0 ∨ 256 < data.length) := by omega
  have runs : ∀ flaw, exec (.hostWrite n f bar off data relaxed flaw) s
      = s.run (fun d => d.hostWrite n f bar off.toNat data relaxed flaw) := fun flaw =>
    congrArg (fun x => s.run (fun d => d.hostWrite n f bar off.toNat data relaxed x)) (if_neg fits)
  refine ⟨fun hr h0 hrom hfit hbar hfloor hshare hq => ?_, fun hr h0 hrom hfit hbar hq => ?_, fun flaw hflaw => ?_⟩
  · refine does_of_run _ s _ _ (runs _) ?_
    rw [s.dev.begin.hostWrite_enters n f bar off.toNat data relaxed hl hr h0 hrom hfit hbar hfloor hshare hq]
    refine ⟨?_, ?_, Dev.sameMem_finish _ _ hw (Dev.borrow_wlog _)⟩
    · rw [Dev.finish_lane, Dev.borrow_lane, Dev.enqueue_queue]
      rfl
    · rw [Dev.finish_rd, Dev.borrow_regs _ _ _ (by decide) (by simp [borrowWord]), Dev.enqueue_floor]
      rfl
  · refine does_of_run _ s _ _ (runs _) ?_
    rw [s.dev.begin.hostWrite_waits n f bar off.toNat data relaxed hl hr h0 hrom hfit hbar hq]
    refine ⟨rfl, ?_, Dev.sameMem_finish _ _ hw (by rw [Dev.reply_wlog, Dev.borrow_wlog, Dev.begin_wlog])⟩
    rw [Dev.finish_lane, Dev.reply_lane, Dev.borrow_lane, Dev.begin_lane]
  · refine does_of_run _ s _ _ (runs _) ?_
    rw [s.dev.begin.hostWrite_flawed n f bar off.toNat data relaxed flaw hl hflaw]
    obtain ⟨⟨_, _, _, heq⟩, hregs⟩ := s.dev.begin.aerDiscard_drawn n (fnIx f) flaw
    obtain ⟨hcount, hirq⟩ := s.dev.begin.aerDiscard_counts n (fnIx f) flaw
    refine ⟨?_, hirq, s.dev.begin.aerDiscard_status n (fnIx f) flaw, hregs, Dev.sameMem_finish _ _ hw (by rw [heq]; rfl),
      by rw [heq]; rfl⟩
    rw [Dev.finish_rd64, hcount, Dev.begin_rd64]

/-! ### Reads -/

theorem Dev.bytes_eq_map (d : Dev) (a n : Nat) : d.bytes a n = (List.range n).map (fun i => d.byte (a + i)) := by
  induction n generalizing a with
  | zero => rfl
  | succ n ih => rw [Dev.bytes, ih, List.range_succ_eq_map, List.map_cons, List.map_map]; simp [Nat.add_assoc, Nat.add_comm 1]

section
variable (d : Dev) (n : Nat) (off len : Nat) (hl : d.linkLive n = true) (hr : d.cfgReady n = true) (h0 : d.inD0 n 0 = true)
  (hfit : off + len ≤ 0x20000000)
include hl hr h0 hfit

theorem Dev.hostRead_waits (hq : (d.lane n).queue.any (fun t => t.fn == .display) = true) :
    d.hostRead n .display .bar2 off len false = d.reply .waits := by
  have fits : ¬barSize .display .bar2 < off + len := by simp only [barSize, if_pos]; omega
  unfold Dev.hostRead
  rw [if_neg (by simp [hl]), if_neg (by simp [hr, fnIx, h0, fits]), if_pos hq]

/-- A read of memory with no poisoned burst answers what BAR2 shows, once no write of the function waits. -/
theorem Dev.hostRead_answers (hq : (d.lane n).queue.any (fun t => t.fn == .display) = false) (hp : d.ram.poison = []) :
    d.hostRead n .display .bar2 off len false = d.reply (.bytes ((List.range len).map (fun i => d.bar2Byte n (off + i)))) := by
  have fits : ¬barSize .display .bar2 < off + len := by simp only [barSize, if_pos]; omega
  have clean : ∀ l : List Nat, l.filter (fun a => d.poisoned a 1) = [] := fun l => by simp [Dev.poisoned, hp]
  unfold Dev.hostRead
  rw [if_neg (by simp [hl]), if_neg (by simp [hr, fnIx, h0, fits]), if_neg (by simp [hq])]
  dsimp only
  rw [clean]

end

/-- What BAR2 shows of an attached head's allocation is the bytes stored there. -/
theorem Dev.bar2Bytes_eq (d : Dev) (n off len a : Nat) (hd : d.rdB (pgHD n) Reg.HD_MODE 3 = false)
    (ha : ∀ i < len, d.bar2 n (off + i) = some (a + i)) :
    (List.range len).map (fun i => d.bar2Byte n (off + i)) = d.bytes a len := by
  rw [Dev.bytes_eq_map]
  refine List.map_congr_left (fun i hi => ?_)
  rw [Dev.bar2Byte, if_neg (by simp [hd]), ha i (List.mem_range.mp hi)]
  rfl

theorem hostReadAnswers : Claims.HostReadAnswers := by
  intro n off len a s hs h1 h4096 hl hr h0 hfit
  obtain ⟨_, hw⟩ := hs
  have good : (false || len == 0 || decide (4096 < len)) = false := by simp; omega
  have runs : exec (.hostRead n .display .bar2 off len false) s
      = s.run (fun d => d.hostRead n .display .bar2 off.toNat len false) :=
    congrArg (fun x => s.run (fun d => d.hostRead n .display .bar2 off.toNat len x)) good
  have unchanged : ∀ x : Answer, s.dev.onlyRegs (fun _ _ => False) ((s.dev.begin.reply x).finish s.dev.mem) := fun x =>
    Dev.onlyRegs_finish _ _ _ hw rfl (fun _ _ _ _ => rfl) rfl
  refine ⟨fun hq hd hp ha => ?_, fun hq => ?_⟩
  · refine does_of_run _ s _ _ runs ?_
    rw [s.dev.begin.hostRead_answers n off.toNat len hl hr h0 hfit hq hp, s.dev.begin.bar2Bytes_eq n off.toNat len a hd ha]
    refine ⟨congrArg Answer.bytes ?_, unchanged _⟩
    rw [Dev.bytes_eq_map, Dev.bytes_eq_map]
    exact List.map_congr_left (fun i _ => by rw [Dev.byte_sound _ hw, Dev.byte_sound _ rfl]; rfl)
  · refine does_of_run _ s _ _ runs ?_
    rw [s.dev.begin.hostRead_waits n off.toNat len hl hr h0 hfit hq]
    exact ⟨rfl, unchanged _⟩

/-- Settles O40: the queue, credits and AER words of one write; a read's bytes are those stored, as no burst is poisoned. -/
theorem hostAccesses : Obligations.HostAccesses := ⟨hostWriteEnters, hostReadAnswers⟩

end Sys2Proof.Machine
end

/-! PROOFS. A lane's link coming up (R57, R100, R104). -/
section
namespace Sys2Proof.Machine

/-- The state words of a lane's page. -/
def linkWord (n p o : Nat) : Prop := p = pgHP n ∧ (o = Reg.HP_STAT ∨ o = Reg.IRQ_STAT)

/-- A bit of a field that is set. -/
theorem bit_putField (w : Word) (hi lo v b : Nat) (hi32 : hi < 32) (h : lo ≤ hi) :
    bit (putField w hi lo v) b = if lo ≤ b ∧ b ≤ hi then v.testBit (b - lo) else bit w b := putField_getLsbD w hi lo v b hi32 h

/-- A change of the link draws HP_STAT.LTSSM and nothing else. -/
theorem Dev.ltssm_drawn (d : Dev) (n : Nat) : d.drawnRegs (fun p o => p = pgHP n ∧ o = Reg.HP_STAT) (d.ltssm n) :=
  (d.drawnRegs_wr (putField (d.rd (pgHP n) Reg.HP_STAT) 9 4 d.free.toNat) ⟨rfl, rfl⟩ (by decide)).trans (Dev.drawnRegs_drew _)

theorem Dev.ltssm_stat (d : Dev) (n : Nat) :
    (d.ltssm n).rd (pgHP n) Reg.HP_STAT = putField (d.rd (pgHP n) Reg.HP_STAT) 9 4 d.free.toNat := Dev.rd_wr_same _ _ _ _

/-- A lane's bits outside LTSSM. -/
theorem Dev.ltssm_bit (d : Dev) (n b : Nat) (hb : ¬(4 ≤ b ∧ b ≤ 9)) :
    (d.ltssm n).rdB (pgHP n) Reg.HP_STAT b = d.rdB (pgHP n) Reg.HP_STAT b := by
  rw [Dev.rdB, Dev.ltssm_stat, bit_putField _ _ _ _ _ (by decide) (by decide), if_neg hb]
  rfl

theorem Dev.wrB_bit (d : Dev) (p o m b : Nat) (on : Bool) (hm : m < 32) :
    (d.wrB p o m on).rdB p o b = if b = m then on else d.rdB p o b := by
  rw [Dev.rdB, Dev.wrB, Dev.rd_wr_same]
  split
  · next hb => rw [hb, bit_putBit _ _ _ hm]
  · next hb => rw [bit_putBit_other _ _ _ _ hm hb]; rfl

theorem Dev.irq_stat_else (d : Dev) (p q o b : Nat) (ho : o < 4096) (hne : o ≠ Reg.IRQ_STAT) :
    (d.irq p b).rd q o = d.rd q o :=
  (Dev.regsBut_irq (k := fun _ o => o = Reg.IRQ_STAT) d b rfl) q o ho hne

/-- The lane's link comes up at a speed. -/
def Dev.linkRises (d : Dev) (n speed : Nat) : Dev :=
  (((d.wrB (pgHP n) Reg.HP_STAT 1 true).wrF (pgHP n) Reg.HP_STAT 3 2 speed).ltssm n).irq (pgHP n) 2

theorem Dev.laneLinkUp_trained (d : Dev) (n speed : Nat) (hperst : d.rdB (pgHP n) Reg.HP_STAT 0 = false)
    (hl : d.linkLive n = false) (hen : d.rdB (pgHP n) Reg.HP_CTL 0 = true) (hon : d.portsOff = false) :
    d.laneLinkUp n speed = d.linkRises n (min speed (d.rdF (pgHP n) Reg.HP_CTL 2 1)) := by
  obtain ⟨h6, h7⟩ : (d.mode == 6) = false ∧ (d.mode == 7) = false := by simpa [Dev.portsOff] using hon
  refine if_neg ?_
  rw [hperst, hl, hen, h6, h7]
  decide

theorem Dev.linkRises_drawn (d : Dev) (n speed : Nat) : d.drawnRegs (linkWord n) (d.linkRises n speed) := by
  have stat : ∀ (a : Dev) v, a.drawnRegs (linkWord n) (a.wr (pgHP n) Reg.HP_STAT v) := fun a v =>
    a.drawnRegs_wr v ⟨rfl, .inl rfl⟩ (by decide)
  exact (((stat d _).trans (stat _ _)).trans ((Dev.ltssm_drawn _ n).mono (fun _ _ h => ⟨h.1, .inl h.2⟩))).trans
    (Dev.drawnRegs_setBits _ (word (2 ^ 2)) ⟨rfl, .inr rfl⟩ (by decide))

/-- The link is up at that speed, and LINK_UP is raised. -/
theorem Dev.linkRises_up (d : Dev) (n speed : Nat) (h4 : speed < 4) :
    (d.linkRises n speed).linkLive n = true ∧ (d.linkRises n speed).rdF (pgHP n) Reg.HP_STAT 3 2 = speed
      ∧ (d.linkRises n speed).rdB (pgHP n) Reg.IRQ_STAT 2 = true := by
  have stat : (d.linkRises n speed).rd (pgHP n) Reg.HP_STAT = putField (putField (putBit (d.rd (pgHP n) Reg.HP_STAT) 1 true)
      3 2 speed) 9 4 ((d.wrB (pgHP n) Reg.HP_STAT 1 true).wrF (pgHP n) Reg.HP_STAT 3 2 speed).free.toNat := by
    rw [Dev.linkRises, Dev.irq_stat_else _ _ _ _ _ (by decide) (by decide), Dev.ltssm_stat, Dev.wrF, Dev.rd_wr_same, Dev.wrB,
      Dev.rd_wr_same]
  refine ⟨?_, ?_, Dev.irq_rdB_same _ _ _ (by decide)⟩
  · rw [Dev.linkLive, Dev.rdB, stat, bit_putField _ _ _ _ _ (by decide) (by decide), if_neg (by decide),
      bit_putField _ _ _ _ _ (by decide) (by decide), if_neg (by decide), bit_putBit _ _ _ (by decide)]
  · rw [Dev.rdF, stat, field_putField_other _ _ _ _ _ _ (by decide) (by decide) (by decide),
      field_putField _ _ _ _ (by decide) (by decide)]
    omega

/-- L1 shows on a live lane, which stays live, and lanes may borrow. -/
theorem Dev.setL1_live (d : Dev) (n : Nat) (on : Bool) (hl : d.linkLive n = true) :
    d.setL1 n on = ((d.wrB (pgHP n) Reg.HP_STAT 13 on).ltssm n).borrow := if_pos hl

theorem Dev.borrow_bit (d : Dev) (n b : Nat) : d.borrow.rdB (pgHP n) Reg.HP_STAT b = d.rdB (pgHP n) Reg.HP_STAT b := by
  rw [Dev.rdB, d.borrow_regs _ _ (by decide) (by simp [borrowWord])]
  rfl

theorem Dev.setL1_wlog (d : Dev) (n : Nat) (on : Bool) : (d.setL1 n on).wlog = d.wlog := by
  unfold Dev.setL1
  split
  · rw [Dev.borrow_wlog]; rfl
  · rfl

theorem laneLinkUp : Claims.LaneLinkUp := by
  intro n s hs
  obtain ⟨_, hw⟩ := hs
  refine ⟨fun hperst => ?_, fun speed hperst hl hen hon => ?_, fun on hl => ?_⟩
  · refine does_of_run _ s (fun d => d.perstRelease n) _ rfl ?_
    have released : s.dev.begin.perstRelease n = (s.dev.begin.wrB (pgHP n) Reg.HP_STAT 0 false).irq (pgHP n) 1 := if_pos hperst
    rw [released]
    have regs : s.dev.begin.regsBut (linkWord n) ((s.dev.begin.wrB (pgHP n) Reg.HP_STAT 0 false).irq (pgHP n) 1) :=
      (s.dev.begin.regsBut_wr _ ⟨rfl, .inl rfl⟩ (by decide)).trans (Dev.regsBut_irq _ 1 ⟨rfl, .inr rfl⟩)
    refine ⟨?_, ?_, Dev.onlyRegs_finish _ _ _ hw rfl (fun _ _ ho hk => regs _ _ ho hk) rfl⟩
    · rw [Dev.finish_rdB, Dev.rdB, Dev.irq_stat_else _ _ _ _ _ (by decide) (by decide)]
      exact (Dev.wrB_bit _ _ _ _ _ _ (by decide)).trans (if_pos rfl)
    · exact Dev.irq_rdB_same _ _ _ (by decide)
  · refine does_of_run _ s (fun d => d.laneLinkUp n speed) _ rfl ?_
    rw [s.dev.begin.laneLinkUp_trained n speed hperst hl hen hon]
    obtain ⟨⟨_, _, _, heq⟩, hregs⟩ := s.dev.begin.linkRises_drawn n (min speed (s.dev.begin.rdF (pgHP n) Reg.HP_CTL 2 1))
    obtain ⟨hup, hspeed, hirq⟩ := s.dev.begin.linkRises_up n (min speed (s.dev.begin.rdF (pgHP n) Reg.HP_CTL 2 1)) (by omega)
    exact ⟨hup, hspeed, hirq, hregs, Dev.sameMem_finish _ _ hw (by rw [heq]; rfl), by rw [heq]; rfl⟩
  · refine does_of_run _ s (fun d => d.setL1 n on) _ rfl ?_
    have same : Dev.sameMem s.dev ((s.dev.begin.setL1 n on).finish s.dev.mem) :=
      Dev.sameMem_finish _ _ hw (Dev.setL1_wlog _ _ _)
    refine ⟨?_, ?_, ?_, same⟩ <;> rw [s.dev.begin.setL1_live n on hl]
    · rw [Dev.finish_rdB, Dev.borrow_bit, Dev.ltssm_bit _ _ _ (by decide), Dev.wrB_bit _ _ _ _ _ _ (by decide), if_pos rfl]
    · rw [Dev.linkLive, Dev.finish_rdB, Dev.borrow_bit, Dev.ltssm_bit _ _ _ (by decide), Dev.wrB_bit _ _ _ _ _ _ (by decide),
        if_neg (by decide)]
      exact hl
    · have shown : s.dev.begin.regsBut (fun p o => p = pgHP n ∧ o = Reg.HP_STAT)
          ((s.dev.begin.wrB (pgHP n) Reg.HP_STAT 13 on).ltssm n) :=
        (s.dev.begin.regsBut_wr _ ⟨rfl, rfl⟩ (by decide)).trans (Dev.ltssm_drawn _ n).2
      have regs : s.dev.begin.regsBut (fun p o => p = pgHP n ∧ o = Reg.HP_STAT ∨ borrowWord p o)
          ((s.dev.begin.wrB (pgHP n) Reg.HP_STAT 13 on).ltssm n).borrow :=
        (shown.mono (fun _ _ => .inl)).trans ((Dev.borrow_regs _).mono (fun _ _ => .inr))
      intro p o ho hk
      rw [Dev.finish_rd]
      exact regs p o ho hk

end Sys2Proof.Machine
end

/-! PROOFS. What no part of a lane's reset (R106) undoes: once cleared, what a reset clears stays cleared through the rest of it. -/
section
namespace Sys2Proof.Machine

/-! ### What no part of a reset undoes -/

/-- The function has nothing negotiated and is not READY. -/
def Dev.fnCleared (d : Dev) (n f : Nat) : Prop :=
  d.rd (pgFn n f) Reg.HF_NEG_LO = 0 ∧ d.rd (pgFn n f) Reg.HF_DRV_FEAT_LO = 0 ∧ d.rdB (pgFn n f) Reg.HF_STAT 0 = false

/-- No write of the function waits. -/
def Dev.fnEmpty (d : Dev) (n : Nat) (f : Fn) : Prop := ∀ x ∈ (d.lane n).queue, x.fn ≠ f

/-- From d to e the link's bits of HP_STAT stay, interrupts stay raised, and what is cleared stays cleared. -/
structure Dev.clears (n : Nat) (d e : Dev) : Prop where
  stat : ∀ b, b < 11 → e.rdB (pgHP n) Reg.HP_STAT b = d.rdB (pgHP n) Reg.HP_STAT b
  irq : ∀ b, d.rdB (pgHP n) Reg.IRQ_STAT b = true → e.rdB (pgHP n) Reg.IRQ_STAT b = true
  fn : ∀ f < 3, d.fnCleared n f → e.fnCleared n f
  queue : ∀ f, d.fnEmpty n f → e.fnEmpty n f
  pending : (d.lane n).pendingIn = [] → (e.lane n).pendingIn = []

theorem Dev.clears_refl (n : Nat) (d : Dev) : Dev.clears n d d := ⟨fun _ _ => rfl, fun _ h => h, fun _ _ h => h, fun _ h => h, id⟩

theorem Dev.clears.trans {n : Nat} {a b c : Dev} (h : Dev.clears n a b) (h' : Dev.clears n b c) : Dev.clears n a c :=
  ⟨fun i hi => (h'.stat i hi).trans (h.stat i hi), fun i hi => h'.irq i (h.irq i hi), fun f hf hc => h'.fn f hf (h.fn f hf hc),
    fun f hc => h'.queue f (h.queue f hc), fun hc => h'.pending (h.pending hc)⟩

/-- The words of which `Dev.clears` speaks. -/
def resetGuard (n p o : Nat) : Prop :=
  p = pgHP n ∧ (o = Reg.HP_STAT ∨ o = Reg.IRQ_STAT)
    ∨ (∃ f < 3, p = pgFn n f) ∧ (o = Reg.HF_NEG_LO ∨ o = Reg.HF_DRV_FEAT_LO ∨ o = Reg.HF_STAT)

/-- A change of other words and of nothing that a lane holds. -/
theorem Dev.clears_of_regsBut {n : Nat} {k : Nat → Nat → Prop} {d e : Dev} (hr : d.regsBut k e) (hl : e.lanes = d.lanes)
    (hk : ∀ p o, resetGuard n p o → ¬k p o) : Dev.clears n d e := by
  have lane : e.lane n = d.lane n := by rw [Dev.lane, Dev.lane, hl]
  have fnWord : ∀ f < 3, ∀ o, o < 4096 → (o = Reg.HF_NEG_LO ∨ o = Reg.HF_DRV_FEAT_LO ∨ o = Reg.HF_STAT) →
      e.rd (pgFn n f) o = d.rd (pgFn n f) o := fun f hf o ho hw => hr _ _ ho (hk _ _ (.inr ⟨⟨f, hf, rfl⟩, hw⟩))
  refine ⟨fun b _ => ?_, fun b h => ?_, fun f hf h => ?_, fun f h => ?_, fun h => ?_⟩
  · rw [Dev.rdB, hr _ _ (by decide) (hk _ _ (.inl ⟨rfl, .inl rfl⟩))]; rfl
  · rw [Dev.rdB, hr _ _ (by decide) (hk _ _ (.inl ⟨rfl, .inr rfl⟩))]; exact h
  · rw [Dev.fnCleared, Dev.rdB, fnWord f hf _ (by decide) (.inl rfl), fnWord f hf _ (by decide) (.inr (.inl rfl)),
      fnWord f hf _ (by decide) (.inr (.inr rfl))]
    exact h
  · rw [Dev.fnEmpty, lane]; exact h
  · rw [lane]; exact h

/-- A change of neither registers nor lanes. -/
theorem Dev.clears_of_same {n : Nat} {d e : Dev} (hr : e.regs = d.regs) (hl : e.lanes = d.lanes) : Dev.clears n d e :=
  Dev.clears_of_regsBut (k := fun _ _ => False) (fun p o _ _ => by rw [Dev.rd, Dev.rd, hr]) hl (fun _ _ _ h => h)

theorem Dev.clears_wr {n : Nat} (d : Dev) {p o : Nat} (v : Word) (ho : o < 4096) (hg : ¬resetGuard n p o) :
    Dev.clears n d (d.wr p o v) :=
  Dev.clears_of_regsBut (d.regsBut_wr (k := fun q w => q = p ∧ w = o) v ⟨rfl, rfl⟩ ho) rfl
    (fun _ _ h hc => hg (hc.1 ▸ hc.2 ▸ h))

theorem Dev.clears_wr64 {n : Nat} (d : Dev) {p o : Nat} (v : Nat) (ho : o + 4 < 4096) (hg : ¬resetGuard n p o)
    (hg' : ¬resetGuard n p (o + 4)) : Dev.clears n d (d.wr64 p o v) :=
  (d.clears_wr _ (by omega) hg).trans (Dev.clears_wr _ _ ho hg')

theorem Dev.clears_add64 {n : Nat} (d : Dev) {p o : Nat} (k : Nat) (ho : o + 4 < 4096) (hg : ¬resetGuard n p o)
    (hg' : ¬resetGuard n p (o + 4)) : Dev.clears n d (d.add64 p o k) := d.clears_wr64 _ ho hg hg'

/-- An interrupt raised on any page of a block. -/
theorem Dev.clears_irq {n : Nat} (d : Dev) (p b : Nat) (hp : p < 1024) : Dev.clears n d (d.irq p b) := by
  have fnWord : ∀ f o, o < 4096 → (d.irq p b).rd (pgFn n f) o = d.rd (pgFn n f) o := fun f o ho =>
    Dev.irq_rd_else _ _ (fun hc => by simp only [pgFn] at hc; omega) ho
  refine ⟨fun i _ => ?_, fun i h => ?_, fun f _ h => ?_, fun f h => h, fun h => h⟩
  · rw [Dev.rdB, Dev.irq_stat_else _ _ _ _ _ (by decide) (by decide)]; rfl
  · by_cases hq : p = pgHP n
    · exact hq ▸ Dev.irq_rdB_mono _ _ _ _ (hq ▸ h)
    · rw [Dev.rdB, Dev.irq_rd_else _ _ (Ne.symm hq) (by decide)]; exact h
  · rw [Dev.fnCleared, Dev.rdB, fnWord f _ (by decide), fnWord f _ (by decide), fnWord f _ (by decide)]
    exact h

theorem Dev.clears_forL {n : Nat} {α : Type} (l : List α) (f : α → Dev → Dev) (hf : ∀ a d, Dev.clears n d (f a d)) (d : Dev) :
    Dev.clears n d (forL l f d) := forL_rel (Dev.clears n) (Dev.clears_refl n) (fun _ _ _ => Dev.clears.trans) l f hf d

theorem Dev.clears_forN {n : Nat} (k : Nat) (f : Nat → Dev → Dev) (hf : ∀ i d, Dev.clears n d (f i d)) (d : Dev) :
    Dev.clears n d (forN k f d) := forN_rel (Dev.clears n) (Dev.clears_refl n) (fun _ _ _ => Dev.clears.trans) k f hf d

/-- A step taken or not. -/
theorem Dev.clears_ite {n : Nat} {c : Prop} [Decidable c] {d a b : Dev} (ha : Dev.clears n d a) (hb : Dev.clears n d b) :
    Dev.clears n d (if c then a else b) := by
  split
  · exact ha
  · exact hb

theorem Dev.clears_onHead {n : Nat} (d : Dev) (h : Nat) (f : HeadSt → HeadSt) : Dev.clears n d (d.onHead h f) :=
  Dev.clears_of_same rfl rfl

theorem Dev.clears_setHead {n : Nat} (d : Dev) (h : Nat) (x : HeadSt) : Dev.clears n d (d.setHead h x) :=
  Dev.clears_of_same rfl rfl

/-! ### Effects on heads -/

/-- A squash changes LEAD and heads' counters only. -/
theorem Dev.clears_squash {n : Nat} (hn : n < 128) (d : Dev) (h c : Nat) (p : LineBuf → Bool) : Dev.clears n d (d.squash h c p) := by
  obtain ⟨⟨_, _, _, heq⟩, hregs, _⟩ := d.squashOnly_squash h c p
  refine Dev.clears_of_regsBut hregs (by rw [heq]) ?_
  rintro p o (⟨rfl, rfl | rfl⟩ | ⟨⟨f, hf, rfl⟩, rfl | rfl | rfl⟩) hc <;>
    simp only [squashWord, pgHP, pgFn, pgLEAD, Reg.HP_STAT, Reg.IRQ_STAT, Reg.HF_NEG_LO, Reg.HF_DRV_FEAT_LO, Reg.HF_STAT] at hc <;>
    omega

/-- A page of a block that is no lane's. -/
theorem not_resetGuard_of_page {n p o : Nat} (hp : p < 1024) (hq : p ≠ pgHP n) : ¬resetGuard n p o := by
  rintro (⟨h, _⟩ | ⟨⟨f, _, h⟩, _⟩)
  · exact hq h
  · simp only [pgFn] at h; omega

/-- A word of a lane's page that is not its state. -/
theorem not_resetGuard_of_lane {n o : Nat} (hn : n < 128) (h1 : o ≠ Reg.HP_STAT) (h2 : o ≠ Reg.IRQ_STAT) :
    ¬resetGuard n (pgHP n) o := by
  rintro (⟨_, h⟩ | ⟨⟨f, _, h⟩, _⟩)
  · exact h.elim h1 h2
  · simp only [pgFn, pgHP] at h; omega

theorem Dev.clears_keepDue {n : Nat} (d : Dev) : Dev.clears n d d.keepDue := by
  refine Dev.clears_forL _ _ (fun h a => ?_) d
  exact Dev.clears_ite (a.clears_refl n) (a.clears_onHead h _)

/-! ### Words dropped -/

theorem Dev.dropRegs_rd_else (d : Dev) {p q o : Nat} (f : Nat → Bool) (ho : o < 4096) (h : ¬(q = p ∧ f o = true)) :
    (d.dropRegs p f).rd q o = d.rd q o := by
  refine congrArg (Option.getD · _) (spFind_filter _ _ _ (fun v => ?_))
  have hp : regKey q o / 4096 = q := by simp only [regKey]; omega
  have hq : regKey q o % 4096 = o := by simp only [regKey]; omega
  simpa [hp, hq, imp_iff_not_or] using h

theorem Dev.dropRegs_rd_gone (d : Dev) {p o : Nat} (f : Nat → Bool) (ho : o < 4096) (h : f o = true) :
    (d.dropRegs p f).rd p o = resetWord (regKey p o) := by
  refine congrArg (Option.getD · _) (spFind_filter_out _ _ _ (fun v => ?_))
  have hp : regKey p o / 4096 = p := by simp only [regKey]; omega
  have hq : regKey p o % 4096 = o := by simp only [regKey]; omega
  simp [hp, hq, h]

/-- A function's page is one of the three kinds. -/
theorem pageKind_pgFn (n f : Nat) (hn : n < 128) (hf : f < 3) :
    pageKind (pgFn n f) = .fnd ∨ pageKind (pgFn n f) = .fni ∨ pageKind (pgFn n f) = .fna := by
  have which : (1024 + 4 * n + f) % 4 = f := by omega
  unfold pageKind pgFn
  rw [if_neg (by omega), if_neg (by omega), if_neg (by omega), if_neg (by omega), if_neg (by omega), if_pos (by omega), which]
  match f, hf with
  | 0, _ => exact .inl rfl
  | 1, _ => exact .inr (.inl rfl)
  | 2, _ => exact .inr (.inr rfl)

/-- A function's features, negotiated and asked for, are 0 at reset. -/
theorem resetWord_pgFn (n f o : Nat) (hn : n < 128) (hf : f < 3) (ho : o = Reg.HF_NEG_LO ∨ o = Reg.HF_DRV_FEAT_LO) :
    resetWord (regKey (pgFn n f) o) = 0 := by
  have key : regKey (pgFn n f) o / 4096 = pgFn n f ∧ regKey (pgFn n f) o % 4096 = o := by
    rcases ho with rfl | rfl <;> simp only [regKey, Reg.HF_NEG_LO, Reg.HF_DRV_FEAT_LO] <;> omega
  have plain : isBlkPage (pgFn n f) = false := by simp only [isBlkPage, pgFn, decide_eq_false_iff_not]; omega
  rw [resetWord, key.1, key.2, resetNat, rowAt, pageRows]
  rcases pageKind_pgFn n f hn hf with kind | kind | kind <;> rcases ho with rfl | rfl <;> simp only [kind, plain] <;> rfl

end Sys2Proof.Machine
end

/-! PROOFS. Reports of a reset head's changes (R41, R87, R164) undo nothing that the lane's reset cleared. -/
section
namespace Sys2Proof.Machine

/-! ### Reports of changes to a head -/

section Head
variable {n : Nat} (hn : n < 128)
include hn

theorem Dev.clears_squashWindow (d : Dev) (h c : Nat) : Dev.clears n d (d.squashWindow h c) := d.clears_squash hn h c _

theorem Dev.clears_reportReg (d : Dev) (h off : Nat) (old : Word) : Dev.clears n d (d.reportReg h off old) := by
  have noted : ∀ (c : Prop) [Decidable c] (a : Dev) f, Dev.clears n a (if c then a.onHead h f else a) := fun c _ a f =>
    Dev.clears_ite (a.clears_onHead h f) (a.clears_refl n)
  unfold Dev.reportReg
  exact Dev.clears_ite (d.clears_refl n) ((((noted _ _ _).trans (noted _ _ _)).trans (noted _ _ _)).trans
    (Dev.clears_ite (Dev.clears_squash hn _ h _ _) (Dev.clears_refl n _)))

omit hn in
theorem Dev.clears_encNote (d : Dev) (h : Nat) (parts : List (Nat × Nat)) (c : Nat) (changed : Bool) :
    Dev.clears n d (d.encNote h parts c changed) :=
  Dev.clears_forL _ _ (fun _ a => (a.clears_onHead h _).trans
    (Dev.clears_forN 2 _ (fun _ b => Dev.clears_ite (b.clears_onHead h _) (b.clears_refl n)) _)) d

/-- A counter or an interrupt of a head's page. -/
theorem Dev.clears_headCount (d : Dev) (off k : Nat) (ho : off + 4 < 4096) : Dev.clears n d (d.add64 (pgHD n) off k) := by
  have page : pgHD n < 1024 ∧ pgHD n ≠ pgHP n := by simp only [pgHD, pgHP]; omega
  exact d.clears_add64 k ho (not_resetGuard_of_page page.1 page.2) (not_resetGuard_of_page page.1 page.2)

theorem Dev.clears_encCount (d : Dev) (off v : Nat) (ho : off < 4096) : Dev.clears n d (d.wrN pgENC off v) :=
  d.clears_wr _ ho (not_resetGuard_of_page (by decide) (by simp only [pgENC, pgHP]; omega))

theorem Dev.clears_dropRegion (d : Dev) (h : Nat) : Dev.clears n d (d.dropRegion h) :=
  ((d.clears_setHead h _).trans (Dev.clears_encCount hn _ Reg.HS_USED _ (by decide))).trans
    (Dev.clears_encCount hn _ Reg.HS_FREE _ (by decide))

theorem Dev.clears_endPending (d : Dev) (f counter : Nat) (ho : counter + 4 < 4096) :
    Dev.clears n d (d.endPending n f counter) := by
  unfold Dev.endPending
  dsimp only
  split
  · exact d.clears_refl n
  · have left := d.clears_setHead (n := n) n { d.head n with frames := (d.head n).frames.filter (fun e => e.num != f) }
    generalize d.setHead n { d.head n with frames := (d.head n).frames.filter (fun e => e.num != f) } = a at left ⊢
    have ended := left.trans (a.clears_headCount hn counter 1 ho)
    generalize a.add64 (pgHD n) counter 1 = b at ended ⊢
    exact (ended.trans (b.clears_encCount hn Reg.ENC_BACKLOG _ (by decide))).trans
      (Dev.clears_ite (Dev.clears_dropRegion hn _ n) (Dev.clears_refl n _))

theorem Dev.clears_abandon (d : Dev) (f k : Nat) : Dev.clears n d (d.abandon n f k) :=
  (d.clears_onHead n _).trans (Dev.clears_headCount hn _ Reg.ABANDONED_LINES _ (by decide))

theorem Dev.clears_withhold (d : Dev) (f : Nat) : Dev.clears n d (d.withhold n f false) := by
  have page : pgHD n < 1024 := by simp only [pgHD]; omega
  have counted := (d.clears_headCount hn Reg.WITHHELD_FRAMES 1 (by decide)).trans (Dev.clears_irq _ (pgHD n) 1 page)
  have left : ∀ a : Dev, Dev.clears n a (((a.abandon n f (a.unfinal n f)).onHead n (fun x => { x with spoiled := some f })).endPending
      n f Reg.ENC_WITHHELD) := fun a =>
    ((a.clears_abandon hn f _).trans (Dev.clears_onHead _ n _)).trans (Dev.clears_endPending hn _ f _ (by decide))
  exact counted.trans (left _)

theorem Dev.clears_violate (d : Dev) (f : Nat) : Dev.clears n d (d.violate n f) :=
  Dev.clears_ite (d.clears_refl n) (Dev.clears_ite (d.clears_withhold hn f) (d.clears_onHead n _))

/-- A violating write of the chip's own is counted in the lane's page alone. -/
theorem Dev.clears_countViolation (d : Dev) : Dev.clears n d (d.countViolation n false) := by
  have page : pgHP n < 1024 := by simp only [pgHP]; omega
  have counted := (d.clears_wr (word (d.rdN (pgHP n) Reg.HP_FENCE_VIOL + 1)) (by decide)
    (not_resetGuard_of_lane hn (by decide) (by decide) : ¬resetGuard n (pgHP n) Reg.HP_FENCE_VIOL)).trans
      (Dev.clears_irq _ (pgHP n) 9 page)
  exact Dev.clears_ite counted (d.clears_refl n)

theorem Dev.clears_judge (d : Dev) (w : FenceWr) (hw : w.byHost = false) : Dev.clears n d (d.judge n w).1 := by
  unfold Dev.judge
  dsimp only
  split
  · split
    · rw [hw]
      exact (d.clears_violate hn _).trans (Dev.clears_ite (Dev.clears_refl n _) (Dev.clears_countViolation hn _))
    · exact d.clears_refl n
  · exact d.clears_refl n

/-- The write as a FENCE-consistent head remembers it. -/
def fenceWr (parts : List (Nat × Nat)) (c : Nat) (byHost : Bool) : FenceWr :=
  { stamp := c, parts := parts, byHost := byHost, counted := false }

omit hn in
theorem Dev.fenceWrite_eq (d : Dev) (h : Nat) (parts : List (Nat × Nat)) (c : Nat) (byHost : Bool) :
    ∃ f, d.fenceWrite h parts c byHost = (d.judge h (fenceWr parts c byHost)).1.onHead h f :=
  ⟨fun x => { x with writes := x.writes ++ [{ fenceWr parts c byHost with
    counted := (d.judge h (fenceWr parts c byHost)).2 }] }, rfl⟩

theorem Dev.clears_fenceWrite (d : Dev) (parts : List (Nat × Nat)) (c : Nat) : Dev.clears n d (d.fenceWrite n parts c false) := by
  obtain ⟨f, hf⟩ := d.fenceWrite_eq n parts c false
  rw [hf]
  exact (d.clears_judge hn _ rfl).trans (Dev.clears_onHead _ n _)

theorem Dev.clears_reportMem (d : Dev) (parts : List (Nat × Nat)) (c : Nat) (changed : Bool) :
    Dev.clears n d (d.reportMem n parts c false changed) := by
  have noted : ∀ (p : Prop) [Decidable p] (a : Dev), Dev.clears n a (if p then a.encNote n parts c changed else a) := fun p _ a =>
    Dev.clears_ite (a.clears_encNote n parts c changed) (a.clears_refl n)
  have badge : ∀ (p : Prop) [Decidable p] (a : Dev), Dev.clears n a (if p then a.squashWindow n c else a) := fun p _ a =>
    Dev.clears_ite (a.clears_squashWindow hn n c) (a.clears_refl n)
  have judged : ∀ (p : Prop) [Decidable p] (a : Dev), Dev.clears n a (if p then a.fenceWrite n parts c false else a) :=
    fun p _ a => Dev.clears_ite (a.clears_fenceWrite hn parts c) (a.clears_refl n)
  unfold Dev.reportMem
  extract_lets x a b rs op whole e
  have ha : Dev.clears n d a := noted _ d
  have hb : Dev.clears n a b := badge _ a
  have he : Dev.clears n b e := judged _ b
  exact Dev.clears_ite ha (Dev.clears_ite (ha.trans hb) (((ha.trans hb).trans he).trans
    (Dev.clears_ite (Dev.clears_squash hn _ n c _) (Dev.clears_squash hn _ n c _))))

end Head

end Sys2Proof.Machine
end

/-! PROOFS. Resets of heads, of functions and of a whole lane (R104, R106), put together of parts that undo nothing. -/
section
namespace Sys2Proof.Machine

/-! ### Resets of a head -/

section Head
variable {n : Nat} (hn : n < 128)
include hn

/-- Words of the head dropped. -/
theorem Dev.clears_dropRegs (d : Dev) (f : Nat → Bool) : Dev.clears n d (d.dropRegs (pgHD n) f) :=
  Dev.clears_of_regsBut (k := fun p _ => p = pgHD n)
    (fun _ _ ho hk => d.dropRegs_rd_else f ho (fun hc => hk hc.1)) rfl
    (fun p _ hg hp => not_resetGuard_of_page (by simp only [hp, pgHD]; omega) (by simp only [hp, pgHD, pgHP]; omega) hg)

theorem Dev.clears_resetHead (d : Dev) (c : Nat) : Dev.clears n d (d.resetHead n c) := by
  have page : pgHD n < 1024 ∧ pgHD n ≠ pgHP n := by simp only [pgHD, pgHP]; omega
  unfold Dev.resetHead
  extract_lets a b old e g
  have ha : Dev.clears n d a :=
    d.clears_keepDue.trans (Dev.clears_wr _ _ (by decide) (not_resetGuard_of_page page.1 page.2))
  have hb : Dev.clears n a b := a.clears_onHead n _
  have he : Dev.clears n b e := b.clears_dropRegs hn _
  have hg : Dev.clears n e g := Dev.clears_forL _ _ (fun (w : Nat × Word) x => Dev.clears_reportReg hn x n w.1 w.2) e
  exact (((ha.trans hb).trans he).trans hg).trans (Dev.clears_ite (g.clears_squashWindow hn n c) (g.clears_refl n))

omit hn in
theorem Dev.clears_markInit (d : Dev) (lo hi : Nat) : Dev.clears n d (d.markInit lo hi) :=
  Dev.clears_ite (d.clears_refl n) (Dev.clears_of_same rfl rfl)

omit hn in
theorem Dev.clears_noteDirty (d : Dev) (a k : Nat) : Dev.clears n d (d.noteDirty a k) := by
  refine Dev.clears_forN 8 _ (fun i b => ?_) d
  extract_lets m pages new
  exact Dev.clears_ite (Dev.clears_ite (b.clears_refl n) (Dev.clears_of_same rfl rfl)) (b.clears_refl n)

theorem Dev.clears_clearAllocs (d : Dev) (c : Nat) : Dev.clears n d (d.clearAllocs n c) := by
  unfold Dev.clearAllocs
  extract_lets a
  have ha : Dev.clears n d a := d.clears_keepDue
  generalize a.alloc n = area
  obtain ⟨db, ds, gb, gs⟩ := area
  dsimp -zeta only
  extract_lets g b ram e dram glyphs parts told
  have he : Dev.clears n a e := Dev.clears_of_same rfl rfl
  have hdram : Dev.clears n a dram := Dev.clears_ite (a.clears_refl n)
    ((he.trans (e.clears_markInit _ _)).trans (Dev.clears_noteDirty _ db ds))
  have wiped : Dev.clears n dram (dram.clear g (min (g + gs) glyphEnd)) := Dev.clears_of_same rfl rfl
  have hglyphs : Dev.clears n dram glyphs := Dev.clears_ite (dram.clears_refl n) (wiped.trans (Dev.clears_noteDirty _ g gs))
  have htold : Dev.clears n glyphs told := Dev.clears_ite (glyphs.clears_refl n) (glyphs.clears_reportMem hn parts c true)
  exact (((ha.trans hdram).trans hglyphs).trans htold).trans
    (Dev.clears_forL _ _ (fun h x => Dev.clears_ite (x.clears_squashWindow hn h c) (x.clears_refl n)) told)

theorem Dev.clears_headReset (d : Dev) : Dev.clears n d (d.headReset n) :=
  Dev.clears_ite ((d.clears_resetHead hn _).trans (Dev.clears_clearAllocs hn _ _))
    (Dev.clears_ite (d.clears_refl n) (d.clears_onHead n _))

end Head

/-! ### Writes dropped -/

/-- A change of a lane that adds no write and no input event. -/
theorem Dev.clears_onLane {n : Nat} (d : Dev) (f : LaneSt → LaneSt) (hq : ∀ x ∈ (f (d.lane n)).queue, x ∈ (d.lane n).queue)
    (hp : (d.lane n).pendingIn = [] → (f (d.lane n)).pendingIn = []) : Dev.clears n d (d.onLane n f) := by
  have now : (d.onLane n f).lane n = f (d.lane n) := Dev.lane_setLane _ _ _
  refine ⟨fun _ _ => rfl, fun _ h => h, fun _ _ h => h, fun g h x hx => ?_, fun h => ?_⟩
  · rw [now] at hx
    exact h x (hq x hx)
  · rw [now]
    exact hp h

section Lane
variable {n : Nat} (hn : n < 128)
include hn

/-- A word of credits of the lane, or of the pool. -/
theorem Dev.clears_credit (d : Dev) (v : Nat) {p o : Nat} (h : p = pgHP n ∧ o ≠ Reg.HP_STAT ∧ o ≠ Reg.IRQ_STAT ∨ p = pgSYS)
    (ho : o < 4096) : Dev.clears n d (d.wrN p o v) := by
  refine d.clears_wr _ ho ?_
  rcases h with ⟨rfl, h1, h2⟩ | rfl
  · exact not_resetGuard_of_lane hn h1 h2
  · exact not_resetGuard_of_page (by decide) (by simp only [pgHP, pgSYS]; omega)

theorem Dev.clears_returnCredits (d : Dev) (t : Tlp) : Dev.clears n d (d.returnCredits n t) := by
  have floor : ∀ (a : Dev) u, Dev.clears n a (a.setFloor n u) := fun a u =>
    (a.clears_credit hn u (.inl ⟨rfl, by decide, by decide⟩) (by decide)).trans
      (Dev.clears_credit hn _ _ (.inl ⟨rfl, by decide, by decide⟩) (by decide))
  have share : ∀ (a : Dev) u, Dev.clears n a (a.setShare n u) := fun a u =>
    ((a.clears_credit hn u (.inl ⟨rfl, by decide, by decide⟩) (by decide)).trans
      (Dev.clears_credit hn _ _ (.inr rfl) (by decide))).trans (Dev.clears_credit hn _ _ (.inr rfl) (by decide))
  unfold Dev.returnCredits
  extract_lets a b
  have ha : Dev.clears n d a := floor d _
  have hb : Dev.clears n a b := share a _
  exact (ha.trans hb).trans (b.clears_onLane _ (fun _ h => h) id)

theorem Dev.clears_lane64 (d : Dev) {o : Nat} (v : Nat) (ho : o + 4 < 4096) (h : Reg.HP_STAT < o) :
    Dev.clears n d (d.wr64 (pgHP n) o v) := by
  have late : ∀ w, o ≤ w → ¬resetGuard n (pgHP n) w := fun w hw =>
    not_resetGuard_of_lane hn (by omega) (by simp only [Reg.HP_STAT, Reg.IRQ_STAT] at *; omega)
  exact d.clears_wr64 v ho (late _ (by omega)) (late _ (by omega))

theorem Dev.clears_laneCount (d : Dev) {o : Nat} (k : Nat) (ho : o + 4 < 4096) (h : Reg.HP_STAT < o) :
    Dev.clears n d (d.add64 (pgHP n) o k) := d.clears_lane64 hn _ ho h

theorem Dev.clears_laneIrq (d : Dev) (b : Nat) : Dev.clears n d (d.irq (pgHP n) b) :=
  d.clears_irq _ b (by simp only [pgHP]; omega)

theorem Dev.clears_discard (d : Dev) : Dev.clears n d (d.discard n) :=
  (d.clears_laneCount hn 1 (by decide) (by decide)).trans (Dev.clears_laneIrq hn _ 8)

theorem Dev.clears_borrow (d : Dev) : Dev.clears n d d.borrow := by
  obtain ⟨_, _, heq⟩ := d.borrow_eq
  refine Dev.clears_of_regsBut d.borrow_regs (by rw [heq]) ?_
  rintro p o hg (⟨⟨k, hk, rfl⟩, rfl⟩ | ⟨rfl, _⟩)
  · by_cases hkn : pgHP k = pgHP n
    · exact not_resetGuard_of_lane hn (by decide) (by decide) (hkn ▸ hg)
    · exact not_resetGuard_of_page (by simp only [pgHP]; omega) hkn hg
  · exact not_resetGuard_of_page (by decide) (by simp only [pgHP, pgSYS]; omega) hg

/-- The writes that q chooses go. -/
theorem Dev.dropWrites_clears (d : Dev) (q : Fn → Bool) :
    Dev.clears n d (d.dropWrites n q) ∧ ∀ f, q f = true → (d.dropWrites n q).fnEmpty n f := by
  unfold Dev.dropWrites
  extract_lets gone a
  have ha : Dev.clears n d a := d.clears_onLane _ (fun x hx => List.mem_of_mem_filter hx) id
  have rest : Dev.clears n a (forL gone (fun t d => (d.returnCredits n t).discard n) a).borrow :=
    (Dev.clears_forL _ _ (fun t b => (b.clears_returnCredits hn t).trans (Dev.clears_discard hn _)) a).trans
      (Dev.clears_borrow hn _)
  refine ⟨ha.trans rest, fun f hf => rest.queue f (fun x hx => ?_)⟩
  have now : (a.lane n).queue = (d.lane n).queue.filter (fun t => !q t.fn) := congrArg LaneSt.queue (Dev.lane_setLane _ _ _)
  rw [now, List.mem_filter] at hx
  rintro rfl
  simp [hf] at hx

/-- Every input event that waits is refused. -/
theorem Dev.refusePending_clears (d : Dev) : Dev.clears n d (d.refusePending n) ∧ ((d.refusePending n).lane n).pendingIn = [] := by
  unfold Dev.refusePending
  extract_lets k
  split
  · next h => exact ⟨d.clears_refl n, List.eq_nil_of_length_eq_zero h⟩
  · refine ⟨?_, by rw [Dev.onLane, Dev.lane_setLane]⟩
    have refused := d.clears_laneCount hn (o := Reg.IN_REFUSED) k (by decide) (by decide)
    generalize d.add64 (pgHP n) Reg.IN_REFUSED k = a at refused ⊢
    exact ((refused.trans (a.clears_lane64 hn (o := Reg.IN_PENDING) _ (by decide) (by decide))).trans
      (Dev.clears_laneIrq hn _ 7)).trans (Dev.clears_onLane _ _ (fun _ h => h) (fun _ => rfl))

/-! ### Functions reset -/

omit hn in
/-- The words of a function's pages. -/
theorem Dev.fnRegsReset_regs (d : Dev) (f : Nat) : d.regsBut (fun p _ => p = pgFn n f ∨ p = pgCfg n f) (d.fnRegsReset n f) := by
  unfold Dev.fnRegsReset
  extract_lets p det a
  have ha : d.regsBut (fun q _ => q = p ∨ q = pgCfg n f) a := fun _ _ ho hk => d.dropRegs_rd_else _ ho (fun hc => hk (.inl hc.1))
  have hb : a.regsBut (fun q _ => q = p ∨ q = pgCfg n f) (a.wr p Reg.HF_STAT det) := a.regsBut_wr _ (.inl rfl) (by decide)
  exact (ha.trans hb).trans (fun _ _ ho hk => Dev.dropRegs_rd_else _ _ ho (fun hc => hk (.inr hc.1)))

/-- A function's own registers after its reset. -/
theorem Dev.fnRegsReset_cleared (d : Dev) (f : Nat) (hf : f < 3) : (d.fnRegsReset n f).fnCleared n f := by
  have page : pgFn n f ≠ pgCfg n f := by simp only [pgFn, pgCfg]; omega
  unfold Dev.fnRegsReset
  extract_lets p det a
  have gone : ∀ o, o = Reg.HF_NEG_LO ∨ o = Reg.HF_DRV_FEAT_LO → ((a.wr p Reg.HF_STAT det).dropRegs (pgCfg n f) (fun _ => true)).rd p o
      = 0 := by
    intro o ho
    have small : o < 4096 := by rcases ho with rfl | rfl <;> decide
    rw [Dev.dropRegs_rd_else _ _ small (fun hc => page hc.1), Dev.rd_wr_off _ _ _ _ _ (by rcases ho with rfl | rfl <;> decide),
      Dev.dropRegs_rd_gone _ _ small (by rcases ho with rfl | rfl <;> decide), resetWord_pgFn n f o hn hf ho]
  refine ⟨gone _ (.inl rfl), gone _ (.inr rfl), ?_⟩
  rw [Dev.rdB, Dev.dropRegs_rd_else _ _ (by decide) (fun hc => page hc.1), Dev.rd_wr_same, bit, BitVec.getLsbD_and]
  simp

theorem Dev.fnRegsReset_clears (d : Dev) (f : Nat) (hf : f < 3) : Dev.clears n d (d.fnRegsReset n f) := by
  have regs := d.fnRegsReset_regs (n := n) f
  have lanePage : ∀ g < 3, ¬(pgHP n = pgFn n g ∨ pgHP n = pgCfg n g) := by
    intro g _; simp only [pgHP, pgFn, pgCfg]; omega
  refine ⟨fun b _ => ?_, fun b h => ?_, fun g hg h => ?_, fun _ h => h, id⟩
  · rw [Dev.rdB, regs _ _ (by decide) (lanePage f hf)]; rfl
  · rw [Dev.rdB, regs _ _ (by decide) (lanePage f hf)]; exact h
  · by_cases hgf : g = f
    · subst hgf
      exact d.fnRegsReset_cleared hn g hg
    · have other : ¬(pgFn n g = pgFn n f ∨ pgFn n g = pgCfg n f) := by simp only [pgFn, pgCfg]; omega
      rw [Dev.fnCleared, Dev.rdB, regs _ _ (by decide) other, regs _ _ (by decide) other, regs _ _ (by decide) other]
      exact h

omit hn in
/-- Words at other offsets than those of which `Dev.clears` speaks. -/
theorem not_resetGuard_of_offset {p o : Nat}
    (h : ∀ w ∈ [Reg.HP_STAT, Reg.IRQ_STAT, Reg.HF_NEG_LO, Reg.HF_DRV_FEAT_LO, Reg.HF_STAT], o ≠ w) : ¬resetGuard n p o := by
  rintro (⟨_, rfl | rfl⟩ | ⟨_, rfl | rfl | rfl⟩) <;> exact h _ (by simp) rfl

/-- The power state in HP_STAT is none of the link's bits. -/
theorem Dev.clears_power (d : Dev) : Dev.clears n d (d.wrF (pgHP n) Reg.HP_STAT 12 11 0) := by
  have page : ∀ g, pgFn n g ≠ pgHP n := by intro g; simp only [pgFn, pgHP]; omega
  refine ⟨fun b hb => ?_, fun b h => ?_, fun g _ h => ?_, fun _ h => h, id⟩
  · rw [Dev.rdB, Dev.wrF, Dev.rd_wr_same, bit_putField _ _ _ _ _ (by decide) (by decide), if_neg (by omega)]; rfl
  · rw [Dev.rdB, Dev.wrF, Dev.rd_wr_off _ _ _ _ _ (by decide)]; exact h
  · rw [Dev.fnCleared, Dev.rdB, Dev.wrF, Dev.rd_wr_page _ _ _ _ _ _ (page g) (by decide) (by decide),
      Dev.rd_wr_page _ _ _ _ _ _ (page g) (by decide) (by decide), Dev.rd_wr_page _ _ _ _ _ _ (page g) (by decide) (by decide)]
    exact h

omit hn in
theorem Dev.clears_plStop (d : Dev) (n : Nat) : Dev.clears n d (d.plStop n) := d.clears_onLane _ (fun _ h => h) id

omit hn in
theorem Dev.clears_cpStop (d : Dev) (n : Nat) : Dev.clears n d (d.cpStop n) := d.clears_onLane _ (fun _ h => h) id

/-- What a function's reset does once its writes are gone and its words are reset. -/
theorem Dev.fnReset_rest (d : Dev) (f : Fn) :
    Dev.clears n ((d.dropWrites n (fun x => x == f)).fnRegsReset n (fnIx f)) (d.fnReset n f)
      ∧ (f = .input → ((d.fnReset n f).lane n).pendingIn = []) := by
  have ringOff : ∀ (a : Dev) p o, o = Reg.IR_CTL ∨ o = Reg.CP_CTL → Dev.clears n a (a.wrB p o 0 false) := fun a p o ho =>
    a.clears_wr _ (by rcases ho with rfl | rfl <;> decide) (not_resetGuard_of_offset (by rcases ho with rfl | rfl <;> decide))
  unfold Dev.fnReset
  cases f with
  | display =>
    extract_lets a neg b e g
    have he : Dev.clears n b e := b.clears_power hn
    have hg : Dev.clears n e g := Dev.clears_ite (e.clears_onHead n _) (e.clears_refl n)
    exact ⟨(he.trans hg).trans (g.clears_headReset hn), fun h => absurd h (by decide)⟩
  | input =>
    extract_lets a neg b
    have off := ringOff b (pgFn n 1) Reg.IR_CTL (.inl rfl)
    obtain ⟨refused, none⟩ := Dev.refusePending_clears hn (b.wrB (pgFn n 1) Reg.IR_CTL 0 false)
    exact ⟨off.trans refused, fun _ => none⟩
  | audio =>
    extract_lets a neg b
    have play : Dev.clears n b (b.wrB (pgFn n 2) Reg.PL_CTL 0 false) := ringOff b _ _ (.inl rfl)
    have rings := play.trans (ringOff (b.wrB (pgFn n 2) Reg.PL_CTL 0 false) (pgFn n 2) Reg.CP_CTL (.inr rfl))
    exact ⟨(rings.trans (Dev.clears_plStop _ n)).trans (Dev.clears_cpStop _ n), fun h => absurd h (by decide)⟩

/-- A function reset leaves none of its writes waiting and nothing of it negotiated; the input function's events go too. -/
theorem Dev.fnReset_clears (d : Dev) (f : Fn) : Dev.clears n d (d.fnReset n f) ∧ (d.fnReset n f).fnCleared n (fnIx f)
    ∧ (d.fnReset n f).fnEmpty n f ∧ (f = .input → ((d.fnReset n f).lane n).pendingIn = []) := by
  have hf : fnIx f < 3 := by cases f <;> decide
  obtain ⟨dropped, gone⟩ := d.dropWrites_clears hn (fun x => x == f)
  obtain ⟨rest, pending⟩ := d.fnReset_rest hn f
  have words := (d.dropWrites n (fun x => x == f)).fnRegsReset_clears hn (fnIx f) hf
  have cleared := (d.dropWrites n (fun x => x == f)).fnRegsReset_cleared hn (fnIx f) hf
  exact ⟨(dropped.trans words).trans rest, rest.fn _ hf cleared, (words.trans rest).queue f (gone f (by simp)), pending⟩

/-- All three functions reset: the lane is cleared, and keeps its link's state. -/
theorem Dev.laneReset_clears (d : Dev) : Dev.clears n d (d.laneReset n) ∧ ((d.laneReset n).lane n).queue = []
    ∧ ((d.laneReset n).lane n).pendingIn = [] ∧ ∀ f : Fn, (d.laneReset n).fnCleared n (fnIx f) := by
  obtain ⟨h1, c1, e1, _⟩ := d.fnReset_clears hn .display
  obtain ⟨h2, c2, e2, p2⟩ := (d.fnReset n .display).fnReset_clears hn .input
  obtain ⟨h3, c3, e3, _⟩ := ((d.fnReset n .display).fnReset n .input).fnReset_clears hn .audio
  have empty : ∀ f, (d.laneReset n).fnEmpty n f := fun f => match f with
    | .display => h3.queue _ (h2.queue _ e1)
    | .input => h3.queue _ e2
    | .audio => e3
  refine ⟨(h1.trans h2).trans h3, List.eq_nil_iff_forall_not_mem.mpr (fun x hx => empty x.fn x hx rfl), h3.pending (p2 rfl),
    fun f => ?_⟩
  cases f with
  | display => exact h3.fn _ (by decide) (h2.fn _ (by decide) c1)
  | input => exact h3.fn _ (by decide) c2
  | audio => exact c3

end Lane

/-! ### Resets of a lane -/

/-- What a lane's reset leaves at the end of a command that ends with it. -/
theorem laneCleared_of_laneReset (n : Lane) (d : Dev) (old : List Host.Cell) : laneCleared n ((d.laneReset n).finish old) := by
  obtain ⟨_, queue, pending, fns⟩ := d.laneReset_clears n.isLt
  rw [laneCleared, Dev.finish_lane]
  refine ⟨queue, pending, fun f => ?_⟩
  rw [Dev.finish_rd, Dev.finish_rd, Dev.finish_rdB]
  exact fns f

/-- The bits of HP_STAT once the link has fallen. -/
theorem Dev.linkFalls_stat (d : Dev) (n b : Nat) (hb : ¬(4 ≤ b ∧ b ≤ 9)) : (d.linkFalls n).rdB (pgHP n) Reg.HP_STAT b
    = if b = 13 ∨ b = 10 ∨ 1 ≤ b ∧ b ≤ 3 then false else d.rdB (pgHP n) Reg.HP_STAT b := by
  unfold Dev.linkFalls
  extract_lets up a
  have ha : a.rdB (pgHP n) Reg.HP_STAT b = if b = 13 ∨ b = 10 ∨ 1 ≤ b ∧ b ≤ 3 then false else d.rdB (pgHP n) Reg.HP_STAT b := by
    have field : (d.wrF (pgHP n) Reg.HP_STAT 3 1 0).rdB (pgHP n) Reg.HP_STAT b
        = if 1 ≤ b ∧ b ≤ 3 then false else d.rdB (pgHP n) Reg.HP_STAT b := by
      rw [Dev.rdB, Dev.wrF, Dev.rd_wr_same, bit_putField _ _ _ _ _ (by decide) (by decide), Nat.zero_testBit]
      rfl
    rw [Dev.ltssm_bit _ _ _ hb, Dev.wrB_bit _ _ _ _ _ _ (by decide), Dev.wrB_bit _ _ _ _ _ _ (by decide), field]
    by_cases h13 : b = 13
    · simp [h13]
    · by_cases h10 : b = 10
      · simp [h10]
      · simp [h13, h10]
  split
  · rw [Dev.rdB, Dev.irq_stat_else _ _ _ _ _ (by decide) (by decide)]
    exact ha
  · exact ha

/-- The fall of a live link raises LINK_DOWN; interrupts raised before it stay. -/
theorem Dev.linkFalls_irq (d : Dev) (n b : Nat) (h : d.rdB (pgHP n) Reg.IRQ_STAT b = true ∨ b = 3 ∧ d.linkLive n = true) :
    (d.linkFalls n).rdB (pgHP n) Reg.IRQ_STAT b = true := by
  unfold Dev.linkFalls
  extract_lets up a
  have ha : a.rd (pgHP n) Reg.IRQ_STAT = d.rd (pgHP n) Reg.IRQ_STAT := by
    rw [(Dev.ltssm_drawn _ n).2 _ _ (by decide) (fun hc => absurd hc.2 (by decide)), Dev.wrB, Dev.wrB, Dev.wrF,
      Dev.rd_wr_off _ _ _ _ _ (by decide), Dev.rd_wr_off _ _ _ _ _ (by decide), Dev.rd_wr_off _ _ _ _ _ (by decide)]
  rcases h with h | ⟨rfl, hl⟩
  · have stays : a.rdB (pgHP n) Reg.IRQ_STAT b = true := by rw [Dev.rdB, ha]; exact h
    split
    · exact Dev.irq_rdB_mono _ _ _ _ stays
    · exact stays
  · rw [if_pos hl]
    exact Dev.irq_rdB_same _ _ _ (by decide)

/-- A bit of the link's after a lane's reset. -/
theorem Dev.laneReset_stat (n : Lane) (d : Dev) (old : List Host.Cell) (b : Nat) (hb : b < 11) :
    ((d.laneReset n).finish old).rdB (pgHP n) Reg.HP_STAT b = d.rdB (pgHP n) Reg.HP_STAT b := by
  rw [Dev.finish_rdB]
  exact (d.laneReset_clears n.isLt).1.stat b hb

theorem Dev.laneReset_irq (n : Lane) (d : Dev) (old : List Host.Cell) (b : Nat) (h : d.rdB (pgHP n) Reg.IRQ_STAT b = true) :
    ((d.laneReset n).finish old).rdB (pgHP n) Reg.IRQ_STAT b = true := by
  rw [Dev.finish_rdB]
  exact (d.laneReset_clears n.isLt).1.irq b h

theorem laneResets : Claims.LaneResets := by
  intro n s
  refine ⟨fun hperst => ?_, fun hl => ?_, fun hl => ?_⟩
  · refine does_of_run _ s (fun d => d.perstAssert n) _ rfl ?_
    have asserted : s.dev.begin.perstAssert n
        = (((s.dev.begin.wrB (pgHP n) Reg.HP_STAT 0 true).irq (pgHP n) 0).linkFalls n).laneReset n := 
      if_neg (show ¬s.dev.rdB (pgHP n) Reg.HP_STAT 0 = true by simp [hperst])
    rw [asserted]
    have perst : ((s.dev.begin.wrB (pgHP n) Reg.HP_STAT 0 true).irq (pgHP n) 0).rdB (pgHP n) Reg.HP_STAT 0 = true := by
      rw [Dev.rdB, Dev.irq_stat_else _ _ _ _ _ (by decide) (by decide)]
      exact (Dev.wrB_bit _ _ _ _ _ _ (by decide)).trans (if_pos rfl)
    refine ⟨?_, ?_, ?_, Dev.laneReset_irq _ _ _ _ (Dev.linkFalls_irq _ _ _ (.inl (Dev.irq_rdB_same _ _ _ (by decide)))),
      laneCleared_of_laneReset _ _ _⟩
    · rw [Dev.laneReset_stat _ _ _ _ (by decide), Dev.linkFalls_stat _ _ _ (by decide), if_neg (by decide), perst]
    · rw [Dev.linkLive, Dev.laneReset_stat _ _ _ _ (by decide), Dev.linkFalls_stat _ _ _ (by decide), if_pos (by decide)]
    · rw [Dev.cfgReady, Dev.laneReset_stat _ _ _ _ (by decide), Dev.linkFalls_stat _ _ _ (by decide), if_pos (by decide)]
  · refine does_of_run _ s (fun d => d.hotReset n) _ rfl ?_
    have reset : s.dev.begin.hotReset n = (s.dev.begin.wrB (pgHP n) Reg.HP_STAT 10 false).laneReset n :=
      if_neg (show ¬(!s.dev.linkLive n) = true by simp [hl])
    rw [reset]
    refine ⟨?_, ?_, laneCleared_of_laneReset _ _ _⟩
    · rw [Dev.linkLive, Dev.laneReset_stat _ _ _ _ (by decide), Dev.wrB_bit _ _ _ _ _ _ (by decide), if_neg (by decide)]
      exact hl
    · rw [Dev.cfgReady, Dev.laneReset_stat _ _ _ _ (by decide), Dev.wrB_bit _ _ _ _ _ _ (by decide), if_pos rfl]
  · refine does_of_run _ s (fun d => d.laneLinkDown n) _ rfl ?_
    have fell : s.dev.begin.laneLinkDown n = (s.dev.begin.linkFalls n).laneReset n := if_pos hl
    rw [fell]
    refine ⟨?_, ?_, Dev.laneReset_irq _ _ _ _ (Dev.linkFalls_irq _ _ _ (.inr ⟨rfl, hl⟩)), laneCleared_of_laneReset _ _ _⟩
    · rw [Dev.linkLive, Dev.laneReset_stat _ _ _ _ (by decide), Dev.linkFalls_stat _ _ _ (by decide), if_pos (by decide)]
    · rw [Dev.cfgReady, Dev.laneReset_stat _ _ _ _ (by decide), Dev.linkFalls_stat _ _ _ (by decide), if_pos (by decide)]

/-- Settles O33: each step of a reset keeps what an earlier one cleared, so the three functions' resets add up; a link that
comes up or changes L1 writes HP_STAT alone. -/
theorem laneStates : Obligations.LaneStates := ⟨laneResets, laneLinkUp⟩

end Sys2Proof.Machine
end

/-! PROOFS. Input events that arrive with their numbers (R93, R95). -/
section
namespace Sys2Proof.Machine

/-- A console's head is virtual. -/
theorem Dev.headOf_lt (d : Dev) {name h : Nat} (hh : d.headOf name = some h) : h < 128 := by
  unfold Dev.headOf at hh
  split at hh
  · exact absurd hh (by simp)
  · exact List.mem_range.1 (List.mem_of_find?_eq_some hh)

/-- An event whose number has been accepted is counted and no more. -/
theorem Dev.arriveEvent_duplicate (d : Dev) (n name : Nat) (e : InputMsg) (hl : e.seq ≤ d.lastSeq name)
    (hg : e.seq ∉ d.gapsOf name) : d.arriveEvent n name e = d.add64 (pgHP n) Reg.IN_DUPLICATE 1 := by
  simp [Dev.arriveEvent, hl, hg]

/-- Settles O20: the event is counted, and the acknowledgement that follows is the fabric's alone. -/
theorem duplicateInput : Obligations.DuplicateInput := by
  intro src name ev h s hs hh hl hg
  have hlt := s.dev.headOf_lt hh
  have arrives : s.dev.begin.inputPacket src.toNat name.toNat ev = (s.dev.begin.add64 (pgHP h) Reg.IN_DUPLICATE 1).msg 1
      src.toNat msgInputAck [name.toNat, ev.seq] := by
    rw [Dev.inputPacket, show s.dev.begin.headOf name.toNat = some h from hh]
    exact congrArg (fun e : Dev => e.msg 1 src.toNat msgInputAck [name.toNat, ev.seq])
      (s.dev.begin.arriveEvent_duplicate h name.toNat { ev with origin := fabOrigin ev } hl hg)
  refine does_of_run _ s (fun d => d.inputPacket src.toNat name.toNat ev) _ rfl ?_
  rw [arrives]
  have counts := s.dev.begin.rd64_add64 (pgHP h) Reg.IN_DUPLICATE 1
  have others : s.dev.begin.regsBut (fun _ o => o = Reg.IN_DUPLICATE ∨ o = Reg.IN_DUPLICATE + 4)
      (s.dev.begin.add64 (pgHP h) Reg.IN_DUPLICATE 1) := Dev.regsBut_wr64 _ _ (.inl rfl) (.inr rfl) (by decide)
  obtain ⟨r, hcount⟩ := s.dev.begin.add64_eq (pgHP h) Reg.IN_DUPLICATE 1
  generalize s.dev.begin.add64 (pgHP h) Reg.IN_DUPLICATE 1 = d at hcount counts others ⊢
  obtain ⟨⟨_, _, _, hsent⟩, hregs⟩ := d.fabricOnly_msg 1 src.toNat msgInputAck [name.toNat, ev.seq]
  have page : ¬pgHP h = pgFAB := by simp only [pgHP, pgFAB]; omega
  refine ⟨fun n => ?_, ?_, ?_, ?_, ?_, Dev.sameMem_finish _ _ hs.2 ?_⟩
  · rw [hsent, hcount]; rfl
  · rw [hsent, hcount]; rfl
  · rw [hsent, hcount]; rfl
  · rw [Dev.finish_rd64, hregs.rd64 (by decide) page page, others.rd64 (by decide) (by decide) (by decide), Dev.begin_rd64]
  · rw [Dev.finish_rd64, hregs.rd64 (by decide) page page, counts, Dev.begin_rd64]
  · rw [hsent, hcount]; rfl

end Sys2Proof.Machine
end

/-! PROOFS. Refutations: an event, a bind request and a bind answer that wait or come late where the statements have them take
effect at once (R93, R108, R404), and a time of 65 bits. -/
section
namespace Sys2Proof.Machine

/-! ### A delivery that waits for a number that has not arrived (R93, R94) -/

/-- The oldest pending event of a lane waits while a lower number of its console may still arrive. -/
theorem Dev.deliverInput_of_lowerMissing (d : Dev) (n : Nat) {e : InputMsg} {rest : List InputMsg}
    (hp : (d.lane n).pendingIn = e :: rest) (hc : d.canDeliver n = true) (hm : d.lowerMissing n e = true) :
    d.deliverInput n = d.reply .waits := by
  simp [Dev.deliverInput, hp, hc, hm]

/-- Event 2 of console 7, which head V0 serves. -/
def secondEvent : InputMsg := { seq := 2, arrival := 0, kind := 1, origin := 1, payload := List.replicate 12 0 }

/-- Lane 0 is up and its input ring is negotiated, enabled and empty; event 2 of the lane's console is pending, and number 1 has
not arrived yet. -/
def firstEventMissing : State :=
  let d := (((State.reset.dev.wrN (pgHP 0) Reg.HP_STAT 0x402).wrN (pgFn 0 1) Reg.HF_NEG_LO 0x40).wrN (pgFn 0 1) Reg.IR_CTL 1)
  let d := (d.wrN (pgHD 0) Reg.HB_NAME_LO 7).wrN (pgHD 0) Reg.HB_STAT 2
  { dev := { d.onLane 0 (fun l => { l with pendingIn := [secondEvent] }) with seqs := [(7, 2)], gaps := [(7, [1])] } }

/-- Refutes O8, in its clause on INPUT_DELIVER: an event beyond a number of its console that may still arrive waits (R93, R94,
assumption log 62), and the clause has every event of a lane that can deliver leave the queue. -/
theorem not_inputRing : ¬ Obligations.InputRing := by
  intro h
  obtain ⟨taken, _⟩ := post_of_does (fun d => d.deliverInput 0)
    ((h 0 0 firstEventMissing).2 secondEvent [] (by decide) (by decide)) rfl
  have waits : firstEventMissing.dev.begin.deliverInput 0 = firstEventMissing.dev.begin.reply .waits :=
    Dev.deliverInput_of_lowerMissing _ 0 (e := secondEvent) (rest := []) (by decide) (by decide) (by decide)
  rw [waits] at taken
  exact absurd taken (by decide)

/-! ### A bind request that waits at a new home (R404) -/

theorem homeAmong_singleton (a name : Nat) : homeAmong [a] name = some a := by
  unfold homeAmong
  by_cases h : crc32c (leBytes 8 name) % 4096 ≤ a <;> simp [h]

theorem Dev.locBind_of_unsettled (d : Dev) (name chip head : Nat) (hh : d.homeOf name = some d.myAddr)
    (hu : d.unsettled name = true) : d.locBind name chip head = d.reply .waits := by
  simp [Dev.locBind, hh, hu]

/-- This chip has address 1 and is the only member since base 0. Before, chip 2 was, and its entries may come until base 1. -/
def newHome : State :=
  { dev := (State.reset.dev.wrN pgFAB Reg.FAB_STAT 0x1001).onFab (fun f => { f with members := [1], locFrom := [2], locUntil := 1 }) }

theorem newHome_homeOf (name : Nat) : newHome.dev.homeOf name = some newHome.dev.myAddr := by
  rw [Dev.homeOf, if_pos (by decide), show newHome.dev.fab.members = [1] from rfl, homeAmong_singleton]
  decide

theorem newHome_unsettled (name : Nat) : newHome.dev.unsettled name = true := by
  have entry : newHome.dev.loc name = none := rfl
  rw [Dev.unsettled, newHome_homeOf, show newHome.dev.fab.locFrom = [2] from rfl, homeAmong_singleton, entry]
  decide

/-- Refutes O19, in its clause on LOC_BIND: a request waits at a new home of its name while the name's entry may still come from
the old one (R404, assumption log 74), and the clause has the home grant every name without an entry at once. -/
theorem not_remoteConsoles : ¬ Obligations.RemoteConsoles := by
  intro h
  obtain ⟨bound, _⟩ := (h newHome (by unfold State.sound; decide)).1 7 1 0 (newHome_homeOf _)
  obtain ⟨granted, _⟩ := post_of_does (fun d => d.locBind 7 1 0) bound rfl
  have waits : newHome.dev.begin.locBind 7 1 0 = newHome.dev.begin.reply .waits :=
    Dev.locBind_of_unsettled _ _ _ _ (newHome_homeOf 7) (newHome_unsettled 7)
  rw [waits] at granted
  exact absurd (granted (by decide)) (by decide)

/-! ### An answer to an abandoned request (R108) -/

/-- Outside any fabric the answer to a request that an UNBIND abandoned changes nothing but that list. -/
theorem Dev.bindAnswer_abandoned (d : Dev) (h : Nat) (grant : Bool) {name : DWord} {rest : List DWord}
    (ha : (d.head h).abandoned = name :: rest) (hv : d.addrValid = false) :
    d.bindAnswer h grant = d.onHead h (fun x => { x with abandoned := rest }) := by
  have home : d.homeOf name.toNat = none := by simp [Dev.homeOf, hv]
  have settled : d.unsettled name.toNat = false := by simp [Dev.unsettled, home]
  have after : ∀ x, (d.onHead h x).addrValid = false := fun x => hv
  simp [Dev.bindAnswer, ha, settled, Dev.enterName, Dev.releaseName, Dev.homeOf, after]

/-- Head V0 has asked for name 9; an UNBIND abandoned its request for name 7, which is still to be answered. The chip is in no
fabric any more. -/
def askedTwice : State :=
  let d := (State.reset.dev.wrN (pgHD 0) Reg.HB_NAME_LO 9).wrN (pgHD 0) Reg.HB_STAT 1
  { dev := d.onHead 0 (fun x => { x with abandoned := [7] }) }

/-- Refutes O42, in its clause on BIND_ANSWER: answers come in the order of the requests (assumption log 14), so the first one
after an abandoned request settles that and not the present one, which the clause has granted. -/
theorem not_names : ¬ Obligations.Names := by
  intro h
  obtain ⟨_, answers, _⟩ := h.1 0 askedTwice (by unfold State.sound; decide)
  obtain ⟨_, _, granted, _⟩ := post_of_does (fun d => d.bindAnswer 0 true) (answers (by decide) (by decide) true) rfl
  have kept : askedTwice.dev.begin.bindAnswer 0 true = askedTwice.dev.begin.onHead 0 (fun x => { x with abandoned := [] }) :=
    Dev.bindAnswer_abandoned _ 0 true (name := 7) (rest := []) (by decide) (by decide)
  rw [kept] at granted
  exact absurd (granted (by decide) (by decide)) (by decide)

/-! ### The time of a commit (R79) -/

theorem Dev.commitCycle_lanes (d : Dev) (n : Nat) : (d.commitCycle n).lanes = d.lanes := by
  unfold Dev.commitCycle; split <;> rfl

/-- The oldest write of a lane leaves its queue, its credits return, it takes effect, and then lanes borrow. -/
theorem Dev.commitAt_oldest (d e : Dev) (n : Nat) {w : Tlp} {rest : List Tlp} (hq : (d.lane n).queue = w :: rest)
    (he : e = ((d.commitCycle n).onLane n (fun l => { l with queue := rest })).returnCredits n w) :
    d.commitAt n w.fn 0 = (if w.bar = .bar2 then e.bar2Commit n w else e.bar0Commit n w).borrow := by
  have hq' : ((d.commitCycle n).lane n).queue = w :: rest := by rw [Dev.lane, Dev.commitCycle_lanes]; exact hq
  subst he
  simp [Dev.commitAt, Dev.mayCommit, hq, hq', Dev.onLane]

/-- A host's write to IR_WB_LO. -/
def writeBackWrite : Tlp where
  fn := .input
  bar := .bar0
  off := 0x50
  data := [some 8, some 0, some 0, some 0]
  relaxed := false
  floor := 1
  share := 0

/-- That write is the oldest of lane 0, and fabric time reads 2^64. -/
def commitPastTime : State :=
  let d := State.reset.dev.onLane 0 (fun l => { l with queue := [writeBackWrite] })
  { dev := { d with clock := { d.clock with ft := 2 ^ 64 } } }

theorem commitPastTime_ft : (commitPastTime.dev.begin.commitAt 0 writeBackWrite.fn 0).ft = 2 ^ 64 := by
  rw [Dev.commitAt_oldest _ _ 0 (rest := []) (by decide) rfl, Dev.ft, Dev.borrow_clock]
  rfl

theorem Dev.thawed_of_not_frozen (d : Dev) (p : Nat) (f : Dev → Dev) (h : d.frozen p = false) : d.thawed p f = f d := by
  rw [Dev.thawed, if_neg (by simp [h])]

/-- Refutes O36, in its clause on the commits of register writes: HF_FENCE holds 64 bits, and the clause has it equal fabric time,
which here needs 65. The state is sound: sound leaves the value of fabric time free, though Dev.pass, by which time passes,
keeps it below 2^64. -/
theorem not_commits : ¬ Obligations.Commits := by
  intro h
  have running : commitPastTime.dev.frozen (pgHP 0) = false := by decide
  obtain ⟨writes, _⟩ := h.2 0 commitPastTime (by unfold State.sound; decide) running
  obtain ⟨_, counted⟩ := writes writeBackWrite [] rfl
  obtain ⟨_, _, _, stamp⟩ := post_of_does (fun d => d.thawed (pgHP 0) (fun d => d.commitAt 0 writeBackWrite.fn 0))
    (counted (by decide) (by decide)) rfl
  rw [Dev.thawed_of_not_frozen commitPastTime.dev.begin _ _ running] at stamp
  rw [Dev.ft, Dev.finish_clock, ← Dev.ft, Fin.val_zero, commitPastTime_ft] at stamp
  exact absurd stamp (ne_of_lt (Dev.rd64_lt _ _ _))

end Sys2Proof.Machine
end

/-! PROOFS. Lines that leave the lead window in time, and lines that are missed (R161, R163, R168, R171). -/
section
namespace Sys2Proof.Machine

/-! ### What time and stores leave alone -/

/-- Time that passes changes the clock, and ends the note of the bits set in a cycle. -/
theorem Dev.toFt_eq (d : Dev) (x : Nat) : ∃ k c, d.toFt x = { d with setNow := k, clock := c } := ⟨_, _, rfl⟩

theorem Dev.pastFt_eq (d : Dev) (x : Nat) : ∃ k c, d.pastFt x = { d with setNow := k, clock := c } := by
  unfold Dev.pastFt
  dsimp only
  split
  · exact ⟨_, _, rfl⟩
  · exact ⟨_, _, rfl⟩

@[simp] theorem Dev.puts_heads (d : Dev) (a : Nat) (bs : List Byte) : (d.puts a bs).heads = d.heads := by
  induction bs generalizing d a with
  | nil => rfl
  | cons b bs ih => exact ih (d.put a b) (a + 1)

@[simp] theorem Dev.store_heads (d : Dev) (a : Nat) (bs : List Byte) : (d.store a bs).heads = d.heads := by
  simp only [Dev.store, Dev.puts_heads, Dev.markInit]
  repeat' split
  all_goals rfl

/-- A store into an area changes no register and no head. -/
theorem Dev.storeArea_frame (d : Dev) (a : Nat) (bs : List Byte) :
    (d.storeArea a bs).regs = d.regs ∧ (d.storeArea a bs).heads = d.heads := by
  unfold Dev.storeArea
  split
  · exact ⟨Dev.store_regs _ _ _, Dev.store_heads _ _ _⟩
  · exact ⟨rfl, rfl⟩

theorem Dev.regsBut_of_regs {d e : Dev} (h : e.regs = d.regs) : d.regsBut (fun _ _ => False) e :=
  fun p off _ _ => by rw [Dev.rd, Dev.rd, h]

theorem Dev.regsBut_setHead {k : Nat → Nat → Prop} (d : Dev) (h : Nat) (x : HeadSt) : d.regsBut k (d.setHead h x) :=
  fun _ _ _ _ => rfl

theorem Dev.regsBut_onHead {k : Nat → Nat → Prop} (d : Dev) (h : Nat) (f : HeadSt → HeadSt) : d.regsBut k (d.onHead h f) :=
  d.regsBut_setHead h _

@[simp] theorem Dev.add64_head (d : Dev) (p off n h : Nat) : (d.add64 p off n).head h = d.head h := by
  obtain ⟨_, hr⟩ := d.add64_eq p off n
  rw [hr]; rfl

@[simp] theorem Dev.add64_wlog (d : Dev) (p off n : Nat) : (d.add64 p off n).wlog = d.wlog := by
  obtain ⟨_, hr⟩ := d.add64_eq p off n
  rw [hr]

/-! ### A line becomes final (R163) -/

/-- Line l of frame f is final, and the next one is to become so. -/
def Dev.noteFinal (d : Dev) (h f l : Nat) : Dev := d.onHead h (fun x => { x with
  lines := markFinal f l x.lines, fin := if d.vactive h ≤ l + 1 then (f + 1, 0) else (f, l + 1) })

/-- The last line of a virtual head's frame completes it. -/
def Dev.settleLine (d : Dev) (h f l : Nat) : Dev :=
  if decide (d.vactive h ≤ l + 1) && isV h then (d.noteFinal h f l).add64 (pgHD h) Reg.FRAMES_COMPLETE 1 else d.noteFinal h f l

theorem Dev.lineFinal_of_composed (d : Dev) (h : Nat) {f l : Nat} (hfin : (d.head h).fin = (f, l))
    (hcur : (d.head h).cur = some f) (hl : (d.head h).lines.any (fun b => decide (b.frame = f ∧ b.line = l)) = true) :
    d.lineFinal h = (d.pastFt (d.sampleFt h f l)).settleLine h f l := by
  unfold Dev.lineFinal Dev.settleLine Dev.noteFinal
  simp only [hfin, hcur, hl, decide_eq_true_eq]
  exact if_neg (by simp)

theorem Dev.noteFinal_head (d : Dev) (h f l : Nat) : (d.noteFinal h f l).head h = { d.head h with
    lines := markFinal f l (d.head h).lines, fin := if d.vactive h ≤ l + 1 then (f + 1, 0) else (f, l + 1) } := by
  rw [Dev.noteFinal, Dev.onHead, Dev.head_setHead]

theorem Dev.noteFinal_regs {k : Nat → Nat → Prop} (d : Dev) (h f l : Nat) : d.regsBut k (d.noteFinal h f l) :=
  d.regsBut_onHead h _

theorem Dev.settleLine_head (d : Dev) (h f l : Nat) : (d.settleLine h f l).head h = (d.noteFinal h f l).head h := by
  unfold Dev.settleLine
  split
  · exact Dev.add64_head _ _ _ _ _
  · rfl

theorem Dev.settleLine_regs (d : Dev) (h f l : Nat) : d.regsBut
    (fun p o => p = pgHD h ∧ (o = Reg.FRAMES_COMPLETE ∨ o = Reg.FRAMES_COMPLETE + 4)) (d.settleLine h f l) := by
  unfold Dev.settleLine
  split
  · have counted := Dev.regsBut_add64 (k := fun p o => p = pgHD h ∧ (o = Reg.FRAMES_COMPLETE ∨ o = Reg.FRAMES_COMPLETE + 4))
      (d.noteFinal h f l) 1 ⟨rfl, .inl rfl⟩ ⟨rfl, .inr rfl⟩ (by decide)
    exact (d.noteFinal_regs h f l).trans counted
  · exact d.noteFinal_regs h f l

theorem Dev.settleLine_wlog (d : Dev) (h f l : Nat) : (d.settleLine h f l).wlog = d.wlog := by
  unfold Dev.settleLine
  split
  · exact Dev.add64_wlog _ _ _ _
  · rfl

/-! ### A final line leaves the window (R161, R171) -/

/-- A pending frame with the line added, if it is the line's own. -/
def keepLine (b : LineBuf) (e : EncFrame) : EncFrame := if e.num = b.frame then { e with lines := e.lines ++ [b] } else e

theorem map_keepLine_of_find_none (b : LineBuf) (l : List EncFrame) (h : l.find? (fun e => e.num == b.frame) = none) :
    l.map (keepLine b) = l := by
  have other : ∀ e ∈ l, keepLine b e = e := fun e he => if_neg (by simpa using List.find?_eq_none.1 h e he)
  rw [List.map_congr_left other, List.map_id']

/-- The encoder keeps a line with the frame that is pending, or nothing of it; no register changes. -/
theorem Dev.encTake_head (d : Dev) (h : Nat) (b : LineBuf) :
    (d.encTake h b).head h = { d.head h with frames := (d.head h).frames.map (keepLine b) } := by
  unfold Dev.encTake
  split
  · next hnone => rw [map_keepLine_of_find_none b _ hnone]
  · rw [Dev.head, (Dev.storeArea_frame _ _ _).2, ← Dev.head, Dev.onHead, Dev.head_setHead]
    rfl

theorem Dev.encTake_regs (d : Dev) (h : Nat) (b : LineBuf) : (d.encTake h b).regs = d.regs := by
  unfold Dev.encTake
  split
  · rfl
  · exact (Dev.storeArea_frame _ _ _).1

/-- The oldest line taken out of the window, and handed on: to the encoder, or to the back output frame. -/
def Dev.handOn (d : Dev) (h : Nat) (b : LineBuf) (rest : List LineBuf) : Dev :=
  let a := d.setHead h { d.head h with lines := rest }
  if isV h then a.encTake h b
  else (a.onHead h (fun x => { x with written := x.written + 1 })).storeArea
    (a.outFrame h (1 - (d.head h).front) + b.line * (a.hactive h * 4)) (b.pixels.flatMap (fun w => leBytes 4 w.toNat))

theorem Dev.lineTake_of_final (d : Dev) (h : Nat) {b : LineBuf} {rest : List LineBuf} (hl : (d.head h).lines = b :: rest)
    (hb : b.final = true) : d.lineTake h = d.handOn h b rest := by
  unfold Dev.lineTake
  simp only [hl]
  exact if_neg (by simp [hb])

theorem Dev.handOn_head (d : Dev) (h : Nat) (b : LineBuf) (rest : List LineBuf) : (d.handOn h b rest).head h =
    if isV h then { d.head h with lines := rest, frames := (d.head h).frames.map (keepLine b) }
    else { d.head h with lines := rest, written := (d.head h).written + 1 } := by
  unfold Dev.handOn
  dsimp only
  split
  · rw [Dev.encTake_head, Dev.head_setHead]
  · rw [Dev.head, (Dev.storeArea_frame _ _ _).2, ← Dev.head, Dev.onHead, Dev.head_setHead, Dev.head_setHead]

theorem Dev.handOn_regs (d : Dev) (h : Nat) (b : LineBuf) (rest : List LineBuf) : (d.handOn h b rest).regs = d.regs := by
  unfold Dev.handOn
  dsimp only
  split
  · exact Dev.encTake_regs _ _ _
  · exact (Dev.storeArea_frame _ _ _).1

theorem linesLeave : Claims.LinesLeave := by
  intro h s hs
  refine ⟨fun f l hfin hcur hl => ?_, fun b rest hl hb => ?_⟩
  · refine does_of_run _ s (fun d => d.lineFinal h) _ rfl ?_
    rw [s.dev.begin.lineFinal_of_composed h hfin hcur hl]
    obtain ⟨k, c, hpast⟩ := s.dev.begin.pastFt_eq (s.dev.begin.sampleFt h f l)
    rw [hpast]
    refine ⟨?_, ?_, Dev.settleLine_regs _ h f l, Dev.sameMem_finish _ _ hs.2 (Dev.settleLine_wlog _ h f l)⟩
    · rw [Dev.finish_head, Dev.settleLine_head, Dev.noteFinal_head]; rfl
    · rw [Dev.finish_head, Dev.settleLine_head, Dev.noteFinal_head]; rfl
  · refine does_of_run _ s (fun d => d.lineTake h) _ rfl ?_
    rw [s.dev.begin.lineTake_of_final h hl hb]
    have head := s.dev.begin.handOn_head h b rest
    refine ⟨?_, fun hv => ?_, fun hv => ?_, Dev.regsBut_of_regs (s.dev.begin.handOn_regs h b rest)⟩
    · rw [Dev.finish_head, head]
      split <;> rfl
    · rw [Dev.finish_head, head, if_pos hv]; rfl
    · rw [Dev.finish_head, head, if_neg (by simp [hv])]; rfl

/-! ### A deadline missed (R168, R171) -/

theorem Dev.dropRegion_head (d : Dev) (h : Nat) : (d.dropRegion h).head h =
    { d.head h with region := 0, pages := [], granted := false, releasing := false, tiles := [], hashes := [] } := by
  rw [Dev.dropRegion, Dev.wrN, Dev.wrN, Dev.wr_head, Dev.wr_head, Dev.head_setHead]

theorem Dev.dropRegion_regs (d : Dev) (h : Nat) : d.regsBut (fun p _ => p = pgENC) (d.dropRegion h) := by
  have enc : ∀ (a : Dev) {o : Nat} (v : Nat), o < 4096 → a.regsBut (fun p _ => p = pgENC) (a.wrN pgENC o v) := fun a _ v ho =>
    a.regsBut_wr _ rfl ho
  exact ((d.regsBut_setHead h _).trans (enc _ _ (by decide))).trans (enc _ _ (by decide))

/-- The words that the end of a frame of head h changes: the encoder's, and the head's counters from ABANDONED_LINES on. -/
def frameEndWord (h p o : Nat) : Prop := p = pgENC ∨ p = pgHD h ∧ Reg.ABANDONED_LINES ≤ o

theorem Dev.frameEnd_add64 (d : Dev) (h : Nat) {o : Nat} (n : Nat) (ho : Reg.ABANDONED_LINES ≤ o) (ho' : o + 4 < 4096) :
    d.regsBut (frameEndWord h) (d.add64 (pgHD h) o n) :=
  d.regsBut_add64 n (.inr ⟨rfl, ho⟩) (.inr ⟨rfl, by omega⟩) ho'

/-- A pending frame that ends: its other state is kept, the counter advances, and the encoder's backlog sinks. -/
def Dev.unpend (d : Dev) (h counter : Nat) (e : EncFrame) (rest : List EncFrame) : Dev :=
  let d := d.setHead h { d.head h with frames := rest }
  (d.add64 (pgHD h) counter 1).wrN pgENC Reg.ENC_BACKLOG (d.rdN pgENC Reg.ENC_BACKLOG - e.backlog)

theorem Dev.unpend_head (d : Dev) (h counter : Nat) (e : EncFrame) (rest : List EncFrame) :
    (d.unpend h counter e rest).head h = { d.head h with frames := rest } := by
  rw [Dev.unpend, Dev.wrN, Dev.wr_head, Dev.add64_head, Dev.head_setHead]

theorem Dev.unpend_regs (d : Dev) (h : Nat) {counter : Nat} (e : EncFrame) (rest : List EncFrame)
    (hc : Reg.ABANDONED_LINES ≤ counter) (hc' : counter + 4 < 4096) :
    d.regsBut (frameEndWord h) (d.unpend h counter e rest) :=
  ((d.regsBut_setHead h _).trans (Dev.frameEnd_add64 _ h 1 hc hc')).trans (Dev.regsBut_wr _ _ (.inl rfl) (by decide))

/-- A frame that is pending ends; the region of a stopped head may go with it. -/
theorem Dev.endPending_cases (d : Dev) (h f counter : Nat) :
    (d.head h).frames.find? (fun e => e.num == f) = none ∧ d.endPending h f counter = d
    ∨ ∃ e, d.endPending h f counter = d.unpend h counter e ((d.head h).frames.filter (fun e => e.num != f))
      ∨ d.endPending h f counter = (d.unpend h counter e ((d.head h).frames.filter (fun e => e.num != f))).dropRegion h := by
  unfold Dev.endPending Dev.unpend
  dsimp only
  split
  · next hnone => exact .inl ⟨hnone, rfl⟩
  · next e _ =>
    refine .inr ⟨e, ?_⟩
    split
    · exact .inr rfl
    · exact .inl rfl

/-- A frame that leaves PENDING is pending no more, and the head's spoiled frame stays. -/
theorem Dev.endPending_head (d : Dev) (h f counter : Nat) : ((d.endPending h f counter).head h).spoiled = (d.head h).spoiled
    ∧ ((d.endPending h f counter).head h).frames.any (fun e => e.num == f) = false := by
  obtain ⟨hnone, heq⟩ | ⟨e, heq | heq⟩ := d.endPending_cases h f counter <;> rw [heq]
  · exact ⟨rfl, by simpa using hnone⟩
  · rw [Dev.unpend_head]
    exact ⟨rfl, by simp⟩
  · rw [Dev.dropRegion_head, Dev.unpend_head]
    exact ⟨rfl, by simp⟩

theorem Dev.endPending_regs (d : Dev) (h f : Nat) {counter : Nat} (hc : Reg.ABANDONED_LINES ≤ counter)
    (hc' : counter + 4 < 4096) :
    d.regsBut (frameEndWord h) (d.endPending h f counter) := by
  have ended := fun e rest => d.unpend_regs h e rest hc hc'
  obtain ⟨_, heq⟩ | ⟨e, heq | heq⟩ := d.endPending_cases h f counter <;> rw [heq]
  · exact d.regsBut_refl _
  · exact ended e _
  · exact (ended e _).trans ((Dev.dropRegion_regs _ h).mono (fun _ _ => .inl))

/-- A deadline missed, counted. -/
def Dev.countLate (d : Dev) (h : Nat) : Dev :=
  (((d.add64 (pgHD h) Reg.WITHHELD_FRAMES 1).irq (pgHD h) 1).add64 (pgHD h) Reg.LATE_LINES 1).irq (pgHD h) 2

/-- What withholding a frame does once it is counted. -/
def Dev.spoil (d : Dev) (h f : Nat) : Dev :=
  ((d.abandon h f (d.unfinal h f)).onHead h (fun x => { x with spoiled := some f })).endPending h f Reg.ENC_WITHHELD

theorem Dev.late_of_missed (d : Dev) (h : Nat) {f l : Nat} (hfin : (d.head h).fin = (f, l)) (hcur : (d.head h).cur = some f)
    (hv : l < d.vactive h) (hl : (d.head h).lines.any (fun b => decide (b.frame = f ∧ b.line = l)) = false) :
    d.late h = ((d.toFt (d.sampleFt h f (l + 1))).countLate h).spoil h f := by
  unfold Dev.late
  simp only [hfin, hcur, hl]
  exact if_neg (by simp [hv])

theorem Dev.spoil_head (d : Dev) (h f : Nat) : ((d.spoil h f).head h).spoiled = some f
    ∧ ((d.spoil h f).head h).frames.any (fun e => e.num == f) = false := by
  obtain ⟨kept, gone⟩ := Dev.endPending_head ((d.abandon h f (d.unfinal h f)).onHead h (fun x => { x with spoiled := some f }))
    h f Reg.ENC_WITHHELD
  refine ⟨kept.trans ?_, gone⟩
  rw [Dev.onHead, Dev.head_setHead]

theorem Dev.spoil_regs (d : Dev) (h f : Nat) : d.regsBut (frameEndWord h) (d.spoil h f) := by
  have abandoned : d.regsBut (frameEndWord h) (d.abandon h f (d.unfinal h f)) :=
    (d.regsBut_onHead h _).trans (Dev.frameEnd_add64 _ h _ (le_refl _) (by decide))
  exact (abandoned.trans (Dev.regsBut_onHead _ h _)).trans (Dev.endPending_regs _ h f (by decide) (by decide))

/-- Both interrupts of a missed deadline are raised and the withheld frame is counted. -/
theorem Dev.countLate_words (d : Dev) (h : Nat) :
    (d.countLate h).rdB (pgHD h) Reg.IRQ_STAT 1 = true ∧ (d.countLate h).rdB (pgHD h) Reg.IRQ_STAT 2 = true
      ∧ (d.countLate h).rd64 (pgHD h) Reg.WITHHELD_FRAMES = (d.rd64 (pgHD h) Reg.WITHHELD_FRAMES + 1) % 2 ^ 64 := by
  have counted := d.rd64_add64 (pgHD h) Reg.WITHHELD_FRAMES 1
  unfold Dev.countLate
  generalize d.add64 (pgHD h) Reg.WITHHELD_FRAMES 1 = a at counted ⊢
  have raised := a.irq_rdB_same (pgHD h) 1 (by decide)
  have first : a.regsBut (fun _ o => o = Reg.IRQ_STAT) (a.irq (pgHD h) 1) := a.regsBut_irq 1 rfl
  generalize a.irq (pgHD h) 1 = b at raised first ⊢
  have late : b.regsBut (fun _ o => o = Reg.LATE_LINES ∨ o = Reg.LATE_LINES + 4) (b.add64 (pgHD h) Reg.LATE_LINES 1) :=
    b.regsBut_add64 1 (.inl rfl) (.inr rfl) (by decide)
  generalize b.add64 (pgHD h) Reg.LATE_LINES 1 = c at late ⊢
  have second : c.regsBut (fun _ o => o = Reg.IRQ_STAT) (c.irq (pgHD h) 2) := c.regsBut_irq 2 rfl
  refine ⟨Dev.irq_rdB_mono _ _ _ _ ?_, Dev.irq_rdB_same _ _ _ (by decide), ?_⟩
  · rw [Dev.rdB, late _ _ (by decide) (by dsimp only; decide)]; exact raised
  · rw [second.rd64 (by decide) (by decide) (by decide), late.rd64 (by decide) (by decide) (by decide),
      first.rd64 (by decide) (by decide) (by decide), counted]

theorem not_frameEndWord {h o : Nat} (ho : o < Reg.ABANDONED_LINES) : ¬frameEndWord h (pgHD h) o := by
  rintro (hp | ⟨_, ho'⟩)
  · simp only [pgHD, pgENC] at hp; omega
  · omega

/-- A physical head's frame in progress given up: the lines up to it leave the window. -/
def Dev.giveUp (d : Dev) (h f : Nat) : Dev :=
  d.onHead h (fun x => { x with
    spoiled := some f, lines := x.lines.filter (fun b => decide (f < b.frame))
    next := if x.next.1 ≤ f then (f + 1, 0) else x.next, high := if x.high.1 ≤ f then (f + 1, 0) else x.high
    fin := if x.fin.1 ≤ f then (f + 1, 0) else x.fin })

theorem Dev.giveUp_regs {k : Nat → Nat → Prop} (d : Dev) (h f : Nat) : d.regsBut k (d.giveUp h f) := d.regsBut_onHead h _

theorem Dev.incomplete_of_unwritten (d : Dev) (h : Nat) {f : Nat} (hcur : (d.head h).cur = some f)
    (hw : (d.head h).written ≠ d.vactive h) :
    d.incomplete h = (d.toFt (d.sampleFt h f (d.vtotal h - 1))).giveUp h f := by
  unfold Dev.incomplete
  simp only [hcur]
  exact if_neg hw

theorem missedLines : Claims.MissedLines := by
  refine ⟨fun h s f l hfin hcur hv hl => ?_, fun k s f hs hcur hw => ?_⟩
  · refine does_of_run _ s (fun d => d.late h) _ rfl ?_
    rw [s.dev.begin.late_of_missed h hfin hcur hv hl]
    obtain ⟨n, c, htime⟩ := s.dev.begin.toFt_eq (s.dev.begin.sampleFt h f (l + 1))
    rw [htime]
    obtain ⟨withheld, late, counted⟩ := Dev.countLate_words { s.dev.begin with setNow := n, clock := c } h
    generalize Dev.countLate { s.dev.begin with setNow := n, clock := c } h = d at withheld late counted ⊢
    obtain ⟨spoiled, gone⟩ := d.spoil_head h f
    have kept := d.spoil_regs h f
    rw [Dev.finish_head]
    refine ⟨spoiled, ?_, ?_, ?_, gone⟩
    · rw [Dev.finish_rdB, Dev.rdB, kept _ _ (by decide) (not_frameEndWord (by decide))]; exact withheld
    · rw [Dev.finish_rdB, Dev.rdB, kept _ _ (by decide) (not_frameEndWord (by decide))]; exact late
    · rw [Dev.finish_rd64, kept.rd64 (by decide) (not_frameEndWord (by decide)) (not_frameEndWord (by decide)), counted]
      rfl
  · refine does_of_run _ s (fun d => d.incomplete (128 + k)) _ rfl ?_
    rw [s.dev.begin.incomplete_of_unwritten (128 + k) hcur hw]
    obtain ⟨n, c, htime⟩ := s.dev.begin.toFt_eq (s.dev.begin.sampleFt (128 + k) f (s.dev.begin.vtotal (128 + k) - 1))
    rw [htime]
    refine ⟨?_, ?_, Dev.giveUp_regs _ (128 + k) f, Dev.sameMem_finish _ _ hs.2 rfl⟩
    · rw [Dev.finish_head, Dev.giveUp, Dev.onHead, Dev.head_setHead]
    · intro b hb
      rw [Dev.finish_head, Dev.giveUp, Dev.onHead, Dev.head_setHead] at hb
      simpa using (List.mem_filter.1 hb).2

/-- Settles O45: time that passes leaves heads and registers alone, and each step then changes one head by its own equation;
what ends a withheld frame changes neither the count nor the interrupts of the missed deadline. -/
theorem scanOut : Obligations.ScanOut := ⟨linesLeave, missedLines⟩

end Sys2Proof.Machine
end

/-! PROOFS. The end of a head's run (R155), admission (R152, R153) in sound states, and a refutation: a state that no command
leaves. -/
section
namespace Sys2Proof.Machine

/-! ### The end of a run (R155) -/

@[simp] theorem Dev.setEnable_head (d : Dev) (h : Nat) (b : Bool) (k : Nat) : (d.setEnable h b).head k = d.head k := rfl

theorem Dev.setEnable_rdB (d : Dev) (h : Nat) (b : Bool) : (d.setEnable h b).rdB (pgHD h) Reg.HD_MODE 2 = b := by
  rw [Dev.setEnable, Dev.wrB_bit _ _ _ _ _ _ (by decide), if_pos rfl]

theorem Dev.dropTokens_head (d : Dev) (h : Nat) : (d.dropTokens h).head h = { d.head h with scan := 0, line := 0 } := by
  simp only [Dev.dropTokens, Dev.wrN, Dev.wr_head, Dev.head_setHead]

/-- The head's run is over: it is OFF and holds no tokens and no lines, and ENABLE reads 0. -/
def Dev.runOver (d : Dev) (h : Nat) : Prop := (d.head h).adm = .off ∧ (d.head h).scan = 0 ∧ (d.head h).line = 0
  ∧ (d.head h).lines = [] ∧ d.rdB (pgHD h) Reg.HD_MODE 2 = false

theorem Dev.runOver.dropRegion {d : Dev} {h : Nat} (ho : d.runOver h) : (d.dropRegion h).runOver h := by
  have page : pgHD h ≠ pgENC := by simp only [pgHD, pgENC]; omega
  rw [Dev.runOver, Dev.dropRegion_head, Dev.rdB, d.dropRegion_regs h _ _ (by decide) page]
  exact ho

theorem Dev.runOver.releasing {d : Dev} {h : Nat} (ho : d.runOver h) :
    (d.onHead h (fun x => { x with releasing := true })).runOver h := by
  rw [Dev.runOver, Dev.onHead, Dev.head_setHead]
  exact ho

/-- A head that leaves its run returns its tokens whatever the run leaves to the encoder. -/
theorem Dev.leaveRun_over (d : Dev) (h : Nat) : (d.leaveRun h).runOver h := by
  unfold Dev.leaveRun
  generalize d.closeRun h = a
  have left : (((a.dropTokens h).onHead h (fun x => { x with
      adm := .off, eff := 0, cur := none, stopAt := none, lines := [], due := [], sq := 0, written := 0, spoiled := none
      })).setEnable h false).runOver h := by
    rw [Dev.runOver, Dev.setEnable_head, Dev.onHead, Dev.head_setHead, Dev.dropTokens_head]
    exact ⟨rfl, rfl, rfl, rfl, Dev.setEnable_rdB _ h false⟩
  dsimp only
  split
  · exact left
  · split
    · exact left.dropRegion
    · exact left.releasing

theorem Dev.disable_waiting (d : Dev) (h : Nat) (hw : (d.head h).adm = .waiting) :
    d.disable h = (d.setEnable h false).leaveRun h := by
  simp only [Dev.disable, Dev.setEnable_head, hw]

theorem Dev.disable_running (d : Dev) (h : Nat) (hr : (d.head h).adm = .running) :
    d.disable h = (d.setEnable h false).onHead h (fun x => { x with adm := .stopping, stopAt := some d.ft }) := by
  simp only [Dev.disable, Dev.setEnable_head, hr]
  rfl

/-- A stopping head whose last frame has begun leaves its run. -/
theorem Dev.headStop_leaves (d : Dev) (h : Nat) (hs : (d.head h).adm = .stopping) (hl : d.stopLate h = false) :
    ∃ e, d.headStop h = Dev.leaveRun e h := by
  unfold Dev.headStop
  exact ⟨_, if_neg (by simp [hs, hl])⟩

theorem headStops : Claims.HeadStops := by
  intro h s
  have head : (s.dev.begin.disarm (pgHD h)).head h = s.dev.head h := by
    rw [Dev.head, Dev.disarm_heads]; rfl
  refine ⟨fun hw => ?_, fun hr => ?_, fun hs hl => ?_⟩
  · refine does_of_run _ s (fun d => (d.disarm (pgHD h)).disable h) _ rfl ?_
    rw [Dev.disable_waiting _ h (by rw [head, hw])]
    obtain ⟨hoff, hscan, hline, _, hen⟩ := Dev.leaveRun_over ((s.dev.begin.disarm (pgHD h)).setEnable h false) h
    rw [Dev.finish_head, Dev.finish_rdB]
    exact ⟨hoff, hscan, hline, hen⟩
  · refine does_of_run _ s (fun d => (d.disarm (pgHD h)).disable h) _ rfl ?_
    have now : (s.dev.begin.disarm (pgHD h)).ft = s.dev.ft := by rw [Dev.ft, Dev.disarm_clock]; rfl
    rw [Dev.disable_running _ h (by rw [head, hr]), now, Dev.finish_head, Dev.finish_rdB, Dev.onHead, Dev.head_setHead,
      Dev.setEnable_head, head]
    exact ⟨rfl, rfl, Dev.setEnable_rdB _ h false, rfl⟩
  · refine does_of_run _ s (fun d => d.headStop h) _ rfl ?_
    obtain ⟨e, he⟩ := s.dev.begin.headStop_leaves h hs hl
    obtain ⟨hoff, hscan, hline, hlines, _⟩ := e.leaveRun_over h
    rw [he, Dev.finish_head]
    exact ⟨hoff, hscan, hline, hlines⟩

/-! ### Admission (R152, R153) -/

/-- A request of a head that is OFF joins the queue of its requests, and ENABLE reads 1. -/
theorem Dev.requestAdmit_off (d : Dev) (h : Nat) (ho : (d.head h).adm = .off) : d.requestAdmit h =
    (d.setEnable h true).setHead h { d.head h with reqAt := (d.head h).reqAt ++ [(false, d.ft, d.cyc)] } := by
  unfold Dev.requestAdmit
  simp only [ho]
  rfl

theorem does_admissionRequest (h : Head) (s : State) (ho : (s.dev.head h).adm = .off) (hq : (s.dev.head h).reqAt = []) :
    Does (.admissionRequest h) s (fun t => (t.head h).reqAt = [(false, s.dev.ft, s.dev.cyc)]
      ∧ t.rdB (pgHD h) Reg.HD_MODE 2 = true ∧ (t.head h).adm = .off) := by
  refine does_of_run _ s (fun d => (d.disarm (pgHD h)).requestAdmit h) _ rfl ?_
  have head : (s.dev.begin.disarm (pgHD h)).head h = s.dev.head h := by
    rw [Dev.head, Dev.disarm_heads]; rfl
  have clock : (s.dev.begin.disarm (pgHD h)).clock = s.dev.clock := Dev.disarm_clock _ _
  rw [Dev.requestAdmit_off _ h (by rw [head, ho]), Dev.finish_head, Dev.finish_rdB, Dev.head_setHead, head, hq,
    Dev.ft, Dev.cyc, clock]
  exact ⟨rfl, Dev.setEnable_rdB _ h true, ho⟩

/-- A head's needs and EFF's limit follow from words of its page other than IRQ_STAT. -/
theorem Dev.needs_congr {d e : Dev} {h : Nat}
    (words : ∀ o, o < 4096 → o ≠ Reg.IRQ_STAT → e.rd (pgHD h) o = d.rd (pgHD h) o) :
    e.scanNeed h = d.scanNeed h ∧ e.lineNeed h = d.lineNeed h ∧ e.leadLines h = d.leadLines h := by
  have period : e.fperiod h = d.fperiod h := congrArg BitVec.toNat (words _ (by decide) (by decide))
  have slots : e.htotal h = d.htotal h := congrArg (field · 27 16) (words _ (by decide) (by decide))
  have lines : e.vtotal h = d.vtotal h := congrArg (field · 27 16) (words _ (by decide) (by decide))
  have width : e.hactive h = d.hactive h := congrArg (field · 11 0) (words _ (by decide) (by decide))
  have lead : e.leadLines h = d.leadLines h :=
    congrArg (fun w => max 2 (min 32 (field w 21 16))) (words _ (by decide) (by decide))
  refine ⟨?_, ?_, lead⟩
  · rw [Dev.scanNeed, period, slots, lines, Dev.scanNeed]
  · rw [Dev.lineNeed, lead, width, Dev.lineNeed]

/-- Words that an answer changes before the run begins: the head's IRQ_STAT and words of host functions. -/
def answerWord (h p o : Nat) : Prop := p = pgHD h ∧ o = Reg.IRQ_STAT ∨ 1024 ≤ p

/-- An answer shown (R152): its code and need, ADMIT_DONE, and the event of a virtual head's display function. -/
def Dev.showAnswer (d : Dev) (h code need : Nat) : Dev :=
  let d := (d.onHead h (fun x => { x with code := code, need := need })).irq (pgHD h) 0
  if isV h then d.fnEvent h 0 4 else d

theorem Dev.fnEvent_heads (d : Dev) (n f i : Nat) : (d.fnEvent n f i).heads = d.heads := by
  unfold Dev.fnEvent Dev.fnMsg
  dsimp only
  repeat' split
  all_goals rfl

theorem Dev.showAnswer_head (d : Dev) (h code need : Nat) :
    (d.showAnswer h code need).head h = { d.head h with code := code, need := need } := by
  have shown : ((d.onHead h (fun x => { x with code := code, need := need })).irq (pgHD h) 0).head h
      = { d.head h with code := code, need := need } := Dev.head_setHead d h _
  unfold Dev.showAnswer
  dsimp only
  split
  · rw [Dev.head, Dev.fnEvent_heads]; exact shown
  · exact shown

theorem Dev.showAnswer_regs (d : Dev) (h code need : Nat) : d.regsBut (answerWord h) (d.showAnswer h code need) := by
  have raised : d.regsBut (answerWord h) ((d.onHead h (fun x => { x with code := code, need := need })).irq (pgHD h) 0) :=
    (d.regsBut_onHead h _).trans (Dev.regsBut_irq _ 0 (.inl ⟨rfl, rfl⟩))
  unfold Dev.showAnswer
  dsimp only
  split
  · refine raised.trans (fun p o ho hk => Dev.fnEvent_rd_else _ _ _ _ ho (fun hc => hk (.inr ?_)))
    rw [hc.1]; simp only [pgFn]; omega
  · exact raised

theorem Dev.showAnswer_irq (d : Dev) (h code need : Nat) (hh : h < 132) :
    (d.showAnswer h code need).rdB (pgHD h) Reg.IRQ_STAT 0 = true := by
  have raised := Dev.irq_rdB_same (d.onHead h (fun x => { x with code := code, need := need })) (pgHD h) 0 (by decide)
  unfold Dev.showAnswer
  dsimp only
  split
  · rw [Dev.rdB, Dev.fnEvent_rd_else _ _ _ _ (by decide) (fun hc => by simp only [pgHD, pgFn] at hc; omega)]
    exact raised
  · exact raised

theorem Dev.admitAnswer_eq (d : Dev) (h : Nat) (stopping : Bool) (c : Nat) : ∃ need, d.admitAnswer h stopping c =
    let e := d.showAnswer h (d.admitCode h stopping) need
    if d.admitCode h stopping = 1 then e.enterRun h (d.runOrigin h c).1 (d.runOrigin h c).2
    else (e.setEnable h (decide ((e.head h).reqAt ≠ []))).irq pgCOMPOSE 0 := by
  -- Unfolded as a constant: unfolding its application has the kernel evaluate runOrigin, with its large numerals.
  generalize hA : Dev.admitAnswer = A
  delta Dev.admitAnswer at hA
  subst hA
  beta_reduce
  generalize d.runOrigin h c = run
  obtain ⟨o, f⟩ := run
  exact ⟨_, rfl⟩

/-- The words that a new run sets in its head's page. -/
def Dev.runWords (d : Dev) (h origin : Nat) : Dev :=
  let d := d.wr64 (pgHD h) Reg.HD_ORIGIN_LO origin
  (d.setEnable h true).wrB (pgHD h) Reg.HD_MODE 4 (!d.clock.locked)

theorem Dev.runWords_head (d : Dev) (h origin : Nat) : (d.runWords h origin).head h = d.head h := by
  obtain ⟨_, hr⟩ := d.wr64_eq (pgHD h) Reg.HD_ORIGIN_LO origin
  rw [Dev.runWords, hr]; rfl

theorem Dev.runWords_rd_else (d : Dev) (h origin : Nat) {p o : Nat} (ho : o < 4096)
    (hk : ¬(p = pgHD h ∧ (o = Reg.HD_ORIGIN_LO ∨ o = Reg.HD_ORIGIN_LO + 4 ∨ o = Reg.HD_MODE))) :
    (d.runWords h origin).rd p o = d.rd p o :=
  ((Dev.rd_wr_else _ _ ho (by decide) (fun hc => hk ⟨hc.1, .inr (.inr hc.2)⟩)).trans
    (Dev.rd_wr_else _ _ ho (by decide) (fun hc => hk ⟨hc.1, .inr (.inr hc.2)⟩))).trans
      (Dev.wr64_rd_else _ _ ho (by decide) (fun hc => hk ⟨hc.1, hc.2.imp_right .inl⟩))

/-- ENABLE reads 1, and HD_MODE's fields from bit 5 on stay. -/
theorem Dev.runWords_mode (d : Dev) (h origin : Nat) : (d.runWords h origin).rdB (pgHD h) Reg.HD_MODE 2 = true
    ∧ (d.runWords h origin).leadLines h = d.leadLines h := by
  have mode : (d.runWords h origin).rd (pgHD h) Reg.HD_MODE
      = putBit (putBit (d.rd (pgHD h) Reg.HD_MODE) 2 true) 4 (!(d.wr64 (pgHD h) Reg.HD_ORIGIN_LO origin).clock.locked) := by
    rw [Dev.runWords, Dev.wrB, Dev.rd_wr_same, Dev.setEnable, Dev.wrB, Dev.rd_wr_same,
      Dev.wr64_rd_else _ _ (by decide) (by decide) (fun hc => absurd hc.2 (by decide))]
  constructor
  · rw [Dev.rdB, mode, bit_putBit_other _ _ _ _ (by decide) (by decide), bit_putBit _ _ _ (by decide)]
  · rw [Dev.leadLines, Dev.rdF, mode, field_putBit_other _ _ _ _ _ (by decide) (by decide),
      field_putBit_other _ _ _ _ _ (by decide) (by decide)]
    rfl

theorem Dev.takeTokens_head (d : Dev) (h scan line : Nat) :
    (d.takeTokens h scan line).head h = { d.head h with scan := scan, line := line } := by
  simp only [Dev.takeTokens, Dev.wrN, Dev.wr_head, Dev.onHead, Dev.head_setHead]

theorem Dev.takeTokens_regs (d : Dev) (h scan line : Nat) :
    d.regsBut (fun p _ => p = pgCOMPOSE ∨ p = pgLEAD) (d.takeTokens h scan line) := by
  have pool : ∀ (a : Dev) {p o : Nat} (v : Nat), p = pgCOMPOSE ∨ p = pgLEAD → o < 4096 →
      a.regsBut (fun p _ => p = pgCOMPOSE ∨ p = pgLEAD) (a.wrN p o v) := fun a _ _ v hp ho => a.regsBut_wr _ hp ho
  exact ((((d.regsBut_onHead h _).trans (pool _ _ (.inl rfl) (by decide))).trans (pool _ _ (.inl rfl) (by decide))).trans
    (pool _ _ (.inr rfl) (by decide))).trans (pool _ _ (.inr rfl) (by decide))

/-- What both pools hold once the tokens are taken. -/
theorem Dev.takeTokens_held (d : Dev) (h scan line : Nat) :
    (d.takeTokens h scan line).rd pgCOMPOSE Reg.TOK_HELD = word (d.rdN pgCOMPOSE Reg.TOK_HELD + scan)
      ∧ (d.takeTokens h scan line).rd pgLEAD Reg.LTOK_HELD = word (d.rdN pgLEAD Reg.LTOK_HELD + line) := by
  have page : ∀ (a : Dev) {p q o w : Nat} (v : Nat), p ≠ q → o < 4096 → w < 4096 → (a.wrN q w v).rd p o = a.rd p o :=
    fun a _ _ _ _ v hp ho hw => a.rd_wr_page _ _ _ _ _ hp ho hw
  have off : ∀ (a : Dev) {p o w : Nat} (v : Nat), o ≠ w → (a.wrN p w v).rd p o = a.rd p o :=
    fun a _ _ _ v ho => a.rd_wr_off _ _ _ _ ho
  unfold Dev.takeTokens
  dsimp only
  constructor
  · rw [page _ _ (by decide) (by decide) (by decide), page _ _ (by decide) (by decide) (by decide), off _ _ (by decide), Dev.wrN,
      Dev.rd_wr_same]
    rfl
  · rw [off _ _ (by decide), Dev.wrN, Dev.rd_wr_same, Dev.rdN, page _ _ (by decide) (by decide) (by decide),
      page _ _ (by decide) (by decide) (by decide)]
    rfl

/-- A new run: the tokens that the head's timing asks for are held, the head is WAITING for its first frame, its window may grow
to LEAD_LINES. -/
structure Dev.runEntered (d e : Dev) (h first : Nat) : Prop where
  adm : (e.head h).adm = .waiting
  enable : e.rdB (pgHD h) Reg.HD_MODE 2 = true
  scan : (e.head h).scan = (d.scanNeed h).getD 0
  line : (e.head h).line = d.lineNeed h
  first : (e.head h).first = first
  eff : (e.head h).eff = d.leadLines h
  tokens : e.rd pgCOMPOSE Reg.TOK_HELD = word (d.rdN pgCOMPOSE Reg.TOK_HELD + (d.scanNeed h).getD 0)
  lineTokens : e.rd pgLEAD Reg.LTOK_HELD = word (d.rdN pgLEAD Reg.LTOK_HELD + d.lineNeed h)

/-- A run's needs are those found before its words were set. -/
theorem Dev.runEntered.of_words {d e t : Dev} {h first : Nat} (r : e.runEntered t h first)
    (words : ∀ o, o < 4096 → o ≠ Reg.IRQ_STAT → e.rd (pgHD h) o = d.rd (pgHD h) o)
    (htok : e.rd pgCOMPOSE Reg.TOK_HELD = d.rd pgCOMPOSE Reg.TOK_HELD)
    (hltok : e.rd pgLEAD Reg.LTOK_HELD = d.rd pgLEAD Reg.LTOK_HELD) :
    d.runEntered t h first := by
  obtain ⟨hscan, hline, hlead⟩ := Dev.needs_congr words
  refine ⟨r.adm, r.enable, r.scan.trans (by rw [hscan]), r.line.trans hline, r.first, r.eff.trans hlead, ?_, ?_⟩
  · rw [r.tokens, hscan, Dev.rdN, htok]; rfl
  · rw [r.lineTokens, hline, Dev.rdN, hltok]; rfl

theorem Dev.runEntered.finish {d t : Dev} {h first : Nat} (r : d.runEntered t h first) (old : List Host.Cell) :
    d.runEntered (t.finish old) h first :=
  ⟨r.adm, r.enable, r.scan, r.line, r.first, r.eff, r.tokens, r.lineTokens⟩

/-- What the head holds in a new run, beside its tokens. -/
theorem Dev.enterRun_eq (d e : Dev) (h origin first : Nat)
    (he : e = (d.takeTokens h ((d.scanNeed h).getD 0) (d.lineNeed h)).runWords h origin) :
    ∃ x, d.enterRun h origin first = e.setHead h x ∧ x.adm = .waiting ∧ x.eff = e.leadLines h ∧ x.first = first
      ∧ x.scan = (e.head h).scan ∧ x.line = (e.head h).line ∧ x.reqAt = (e.head h).reqAt ∧ x.code = (e.head h).code := by
  subst he
  exact ⟨_, rfl, rfl, rfl, rfl, rfl, rfl, rfl, rfl⟩

theorem Dev.enterRun_entered (d : Dev) (h origin first : Nat) : d.runEntered (d.enterRun h origin first) h first
    ∧ ((d.enterRun h origin first).head h).reqAt = (d.head h).reqAt
    ∧ ((d.enterRun h origin first).head h).code = (d.head h).code
    ∧ (d.enterRun h origin first).rd (pgHD h) Reg.IRQ_STAT = d.rd (pgHD h) Reg.IRQ_STAT := by
  obtain ⟨x, heq, hadm, heff, hfirst, hscan, hline, hreq, hcode⟩ := d.enterRun_eq _ h origin first rfl
  rw [heq, Dev.head_setHead, Dev.setHead_rd]
  have own : ∀ q, q = pgCOMPOSE ∨ q = pgLEAD → q ≠ pgHD h := by
    intro q hq; simp only [pgHD, pgCOMPOSE, pgLEAD] at hq ⊢; omega
  have taken := d.takeTokens_head h ((d.scanNeed h).getD 0) (d.lineNeed h)
  have regs := d.takeTokens_regs h ((d.scanNeed h).getD 0) (d.lineNeed h)
  obtain ⟨held, lineHeld⟩ := d.takeTokens_held h ((d.scanNeed h).getD 0) (d.lineNeed h)
  generalize d.takeTokens h ((d.scanNeed h).getD 0) (d.lineNeed h) = a at *
  obtain ⟨enabled, lead⟩ := a.runWords_mode h origin
  have kept := fun p o => a.runWords_rd_else h origin (p := p) (o := o)
  have mode : a.leadLines h = d.leadLines h := by
    rw [Dev.leadLines, Dev.rdF, regs _ _ (by decide) (fun hc => own _ hc rfl)]; rfl
  rw [a.runWords_head, taken] at hscan hline hreq hcode
  generalize a.runWords h origin = b at *
  refine ⟨⟨?_, enabled, ?_, ?_, ?_, ?_, ?_, ?_⟩, hreq, hcode, ?_⟩
  · rw [Dev.head_setHead, hadm]
  · rw [Dev.head_setHead, hscan]
  · rw [Dev.head_setHead, hline]
  · rw [Dev.head_setHead, hfirst]
  · rw [Dev.head_setHead, heff, lead, mode]
  · exact (kept _ _ (by decide) (fun hc => own _ (.inl rfl) hc.1)).trans held
  · exact (kept _ _ (by decide) (fun hc => own _ (.inr rfl) hc.1)).trans lineHeld
  · exact (kept _ _ (by decide) (fun hc => absurd hc.2 (by decide))).trans (regs _ _ (by decide) (fun hc => own _ hc rfl))

theorem Dev.answerAdmit_of_earlierAsk (d : Dev) (h : Nat) {a : Bool × Nat × Nat} {rest : List (Bool × Nat × Nat)}
    (hq : (d.head h).reqAt = a :: rest) (he : d.earlierAsk h a.2.2 = true) : d.answerAdmit h = d.reply .waits := by
  obtain ⟨stopping, c, cyc⟩ := a
  simp only [Dev.answerAdmit, hq]
  exact if_pos he

/-- The oldest request of a head leaves the queue. -/
def Dev.popAsk (d : Dev) (h : Nat) (rest : List (Bool × Nat × Nat)) : Dev := d.onHead h (fun x => { x with reqAt := rest })

theorem Dev.popAsk_head (d : Dev) (h : Nat) (rest : List (Bool × Nat × Nat)) :
    (d.popAsk h rest).head h = { d.head h with reqAt := rest } := Dev.head_setHead d h _

theorem Dev.answerAdmit_of_turn (d : Dev) (h : Nat) {a : Bool × Nat × Nat} {rest : List (Bool × Nat × Nat)}
    (hq : (d.head h).reqAt = a :: rest) (he : d.earlierAsk h a.2.2 = false) (ha : a.1 = true ∨ d.live h = false) :
    d.answerAdmit h = (d.popAsk h rest).admitAnswer h a.1 a.2.1 := by
  obtain ⟨stopping, c, cyc⟩ := a
  have live : (d.popAsk h rest).live h = d.live h := by rw [Dev.live, Dev.popAsk_head]; rfl
  have turn : (stopping || !(d.popAsk h rest).live h) = true := by
    rw [live]; rcases ha with ha | ha <;> simp_all
  simp only [Dev.answerAdmit, hq]
  exact (if_neg (by simp [he])).trans (if_pos turn)

/-- A run's origin and first frame follow from the registers and the last frame. -/
theorem Dev.runOrigin_congr {d e : Dev} {h : Nat} (c : Nat) (words : ∀ o, e.rd (pgHD h) o = d.rd (pgHD h) o)
    (hl : (e.head h).last = (d.head h).last) : e.runOrigin h c = d.runOrigin h c := by
  have period : e.fperiod h = d.fperiod h := congrArg BitVec.toNat (words _)
  have origin : e.origin h = d.origin h := congrArg₂ (fun a b => a.toNat + b.toNat * 4294967296) (words _) (words _)
  rw [Dev.runOrigin, period, origin, hl, Dev.runOrigin]

/-- No pool is touched before the run begins. -/
theorem Dev.showAnswer_pools (d : Dev) (h code need : Nat) :
    (d.showAnswer h code need).rd pgCOMPOSE Reg.TOK_HELD = d.rd pgCOMPOSE Reg.TOK_HELD
      ∧ (d.showAnswer h code need).rd pgLEAD Reg.LTOK_HELD = d.rd pgLEAD Reg.LTOK_HELD := by
  have regs := d.showAnswer_regs h code need
  constructor
  · exact regs _ _ (by decide) (by simp [answerWord, pgCOMPOSE])
  · exact regs _ _ (by decide) (by simp [answerWord, pgLEAD])

theorem Dev.admitAnswer_granted (d : Dev) (h : Nat) (stopping : Bool) (c : Nat) (hh : h < 132) (hc : d.admitCode h stopping = 1) :
    ((d.admitAnswer h stopping c).head h).reqAt = (d.head h).reqAt ∧ ((d.admitAnswer h stopping c).head h).code = 1
      ∧ (d.admitAnswer h stopping c).rdB (pgHD h) Reg.IRQ_STAT 0 = true
      ∧ d.runEntered (d.admitAnswer h stopping c) h (d.runOrigin h c).2 := by
  obtain ⟨need, heq⟩ := d.admitAnswer_eq h stopping c
  rw [hc] at heq
  obtain ⟨entered, hreq, hcode, hirq⟩ := (d.showAnswer h 1 need).enterRun_entered h (d.runOrigin h c).1 (d.runOrigin h c).2
  rw [heq.trans (if_pos rfl)]
  rw [Dev.showAnswer_head] at hreq hcode
  obtain ⟨htok, hltok⟩ := d.showAnswer_pools h 1 need
  refine ⟨hreq, hcode, ?_, entered.of_words (fun o ho hne => d.showAnswer_regs h 1 need _ _ ho ?_) htok hltok⟩
  · rw [Dev.rdB, hirq]; exact d.showAnswer_irq h 1 need hh
  · simp only [answerWord, pgHD]; omega

theorem Dev.admitAnswer_refused (d : Dev) (h : Nat) (stopping : Bool) (c : Nat) (hh : h < 132)
    (hc : d.admitCode h stopping ≠ 1) :
    ((d.admitAnswer h stopping c).head h).reqAt = (d.head h).reqAt
      ∧ ((d.admitAnswer h stopping c).head h).code = d.admitCode h stopping
      ∧ ((d.admitAnswer h stopping c).head h).adm = (d.head h).adm
      ∧ (d.admitAnswer h stopping c).rdB (pgHD h) Reg.IRQ_STAT 0 = true
      ∧ (d.admitAnswer h stopping c).rdB (pgHD h) Reg.HD_MODE 2 = decide ((d.head h).reqAt ≠ [])
      ∧ (d.admitAnswer h stopping c).rd pgCOMPOSE Reg.TOK_HELD = d.rd pgCOMPOSE Reg.TOK_HELD
      ∧ (d.admitAnswer h stopping c).rd pgLEAD Reg.LTOK_HELD = d.rd pgLEAD Reg.LTOK_HELD := by
  obtain ⟨need, heq⟩ := d.admitAnswer_eq h stopping c
  have head := d.showAnswer_head h (d.admitCode h stopping) need
  have raised := d.showAnswer_irq h (d.admitCode h stopping) need hh
  obtain ⟨htok, hltok⟩ := d.showAnswer_pools h (d.admitCode h stopping) need
  rw [heq.trans (if_neg hc)]
  generalize d.showAnswer h (d.admitCode h stopping) need = e at *
  have kept : ((e.setEnable h (decide ((e.head h).reqAt ≠ []))).irq pgCOMPOSE 0).head h = e.head h := rfl
  rw [kept, head]
  have refused : ∀ (b : Bool) p o, o < 4096 → o ≠ Reg.HD_MODE → p ≠ pgCOMPOSE ∨ o ≠ Reg.IRQ_STAT →
      ((e.setEnable h b).irq pgCOMPOSE 0).rd p o = e.rd p o := fun b p o ho hm hi =>
    (Dev.regsBut_irq (k := fun p o => p = pgCOMPOSE ∧ o = Reg.IRQ_STAT) _ 0 ⟨rfl, rfl⟩ _ _ ho (by tauto)).trans
      (Dev.rd_wr_else _ _ ho (by decide) (fun hc => hm hc.2))
  have page : pgHD h ≠ pgCOMPOSE := by simp only [pgHD, pgCOMPOSE]; omega
  refine ⟨rfl, rfl, rfl, ?_, ?_, ?_, ?_⟩
  · rw [Dev.rdB, refused _ _ _ (by decide) (by decide) (.inl page)]; exact raised
  · rw [Dev.rdB, Dev.irq_rd_else _ _ page (by decide)]; exact Dev.setEnable_rdB _ h _
  · exact (refused _ _ _ (by decide) (by decide) (.inr (by decide))).trans htok
  · exact (refused _ _ _ (by decide) (by decide) (.inr (by decide))).trans hltok

/-- In a sound state an answer that waits for a lower page's changes nothing. -/
theorem does_admitHead_waits (h : Head) (s : State) (hs : s.sound) {a : Bool × Nat × Nat} {rest : List (Bool × Nat × Nat)}
    (hq : (s.dev.head h).reqAt = a :: rest) (he : s.dev.earlierAsk h a.2.2 = true) :
    Does (.admitHead h) s (fun t => t.answer = .waits ∧ t.head h = s.dev.head h ∧ s.dev.regsBut (fun _ _ => False) t
      ∧ s.dev.sameMem t) := by
  refine does_of_run _ s (fun d => d.answerAdmit h) _ rfl ?_
  rw [s.dev.begin.answerAdmit_of_earlierAsk h hq he]
  exact ⟨rfl, rfl, fun _ _ _ _ => rfl, Dev.sameMem_finish _ _ hs.2 rfl⟩

/-- The answer to a head's oldest request, when its turn comes: a run is entered, or the pools and the head's state stay. -/
theorem does_admitHead_answers (h : Head) (s : State) {a : Bool × Nat × Nat} {rest : List (Bool × Nat × Nat)}
    (hq : (s.dev.head h).reqAt = a :: rest) (he : s.dev.earlierAsk h a.2.2 = false) (ha : a.1 = true ∨ s.dev.live h = false) :
    Does (.admitHead h) s (fun t => (t.head h).reqAt = rest ∧ (t.head h).code = s.dev.admitCode h a.1
      ∧ t.rdB (pgHD h) Reg.IRQ_STAT 0 = true
      ∧ (s.dev.admitCode h a.1 = 1 → s.dev.runEntered t h (s.dev.runOrigin h a.2.1).2)
      ∧ (s.dev.admitCode h a.1 ≠ 1 → (t.head h).adm = (s.dev.head h).adm
        ∧ t.rdB (pgHD h) Reg.HD_MODE 2 = decide (rest ≠ [])
        ∧ t.rd pgCOMPOSE Reg.TOK_HELD = s.dev.rd pgCOMPOSE Reg.TOK_HELD
        ∧ t.rd pgLEAD Reg.LTOK_HELD = s.dev.rd pgLEAD Reg.LTOK_HELD)) := by
  refine does_of_run _ s (fun d => d.answerAdmit h) _ rfl ?_
  rw [s.dev.begin.answerAdmit_of_turn h hq he ha]
  have head := s.dev.begin.popAsk_head h rest
  have words : ∀ p o, (s.dev.begin.popAsk h rest).rd p o = s.dev.rd p o := fun _ _ => rfl
  have code : (s.dev.begin.popAsk h rest).admitCode h a.1 = s.dev.admitCode h a.1 := rfl
  have granted := (s.dev.begin.popAsk h rest).admitAnswer_granted h a.1 a.2.1 h.isLt
  have refused := (s.dev.begin.popAsk h rest).admitAnswer_refused h a.1 a.2.1 h.isLt
  rw [Dev.runOrigin_congr a.2.1 (words _) (by rw [head]; rfl), code, head] at granted
  rw [code, head, words, words] at refused
  generalize (s.dev.begin.popAsk h rest).admitAnswer h a.1 a.2.1 = t at granted refused ⊢
  rw [Dev.finish_head, Dev.finish_rdB, Dev.finish_rdB, Dev.finish_rd, Dev.finish_rd]
  by_cases hc : s.dev.admitCode h a.1 = 1
  · obtain ⟨hreq, hcode, hirq, hrun⟩ := granted hc
    have run := Dev.runEntered.of_words (d := s.dev) hrun (fun _ _ _ => words _ _) (words _ _) (words _ _)
    exact ⟨hreq, hcode.trans hc.symm, hirq, fun _ => run.finish _, fun hne => absurd hc hne⟩
  · obtain ⟨hreq, hcode, hadm, hirq, hen, hpools⟩ := refused hc
    exact ⟨hreq, hcode, hirq, fun h1 => absurd h1 hc, fun _ => ⟨hadm, hen, hpools⟩⟩

/-! ### A write on its way between commands -/

/-- Heads V0 and V1 have asked for admission in one cycle, and a byte of a command's is still to land in memory, as it never is
between commands. -/
def askedTogether : State :=
  let ask : HeadSt → HeadSt := fun x => { x with reqAt := [(false, 0, 0)] }
  { dev := { (State.reset.dev.onHead 0 ask).onHead 1 ask with wlog := [.put 0 1] } }

/-- Refutes O37, in its clause on an answer that waits for a lower page's: the clause has every byte of memory stay, and does not
ask for a sound state; where a write is on its way before the command, the command begins without it and the byte reads
otherwise. In sound states that clause holds (`does_admitHead_waits`); the others hold in every state
(`does_admissionRequest`, `does_admitHead_answers`, `headStops`). -/
theorem not_headRuns : ¬ Obligations.HeadRuns := by
  intro ⟨admission, _⟩
  obtain ⟨_, answers⟩ := admission 1 askedTogether
  obtain ⟨waits, _⟩ := answers (false, 0, 0) [] (by decide)
  obtain ⟨_, _, _, memory⟩ := post_of_does (fun d => d.answerAdmit 1) (waits (by decide)) rfl
  have kept : askedTogether.dev.begin.answerAdmit 1 = askedTogether.dev.begin.reply .waits :=
    Dev.answerAdmit_of_earlierAsk _ 1 (a := (false, 0, 0)) (rest := []) (by decide) (by decide)
  have byte := memory 0
  rw [kept] at byte
  exact absurd byte (by decide)

end Sys2Proof.Machine
end

/-! PROOFS. What a line engine's commands leave alone: other engines, registers beside those named, memory, and the part of the
engine that neither time nor fetching changes. -/
section
namespace Sys2Proof.Machine

/-! ### The frame of an engine's command -/

/-- Nothing but engine e, the clock, the words of its page that l lists, the outputs and the answer has changed. -/
structure Dev.engineStep (e : Nat) (l : List Nat) (d t : Dev) : Prop where
  only : engineOnly e l d t
  mem : t.mem = d.mem
  wlog : t.wlog = d.wlog

theorem Dev.engineStep_refl (e : Nat) (l : List Nat) (d : Dev) : d.engineStep e l d :=
  ⟨⟨d.regsBut_refl _, fun _ _ => rfl, rfl⟩, rfl, rfl⟩

theorem Dev.engineStep.trans {e : Nat} {l : List Nat} {a b c : Dev} (h : a.engineStep e l b) (h' : b.engineStep e l c) :
    a.engineStep e l c := by
  obtain ⟨⟨hr, he, hh⟩, hm, hw⟩ := h
  obtain ⟨⟨hr', he', hh'⟩, hm', hw'⟩ := h'
  exact ⟨⟨hr.trans hr', fun j hj => (he' j hj).trans (he j hj), hh'.trans hh⟩, hm'.trans hm, hw'.trans hw⟩

theorem Dev.engineStep.mono {e : Nat} {l l' : List Nat} {d t : Dev} (h : d.engineStep e l t) (hl : l ⊆ l') :
    d.engineStep e l' t := by
  obtain ⟨⟨hr, he, hh⟩, hm, hw⟩ := h
  exact ⟨⟨hr.mono (fun _ _ hk => ⟨hk.1, hl hk.2⟩), he, hh⟩, hm, hw⟩

/-- A word that the step does not name. -/
theorem Dev.engineStep.rd {e : Nat} {l : List Nat} {d t : Dev} (h : d.engineStep e l t) {p off : Nat} (ho : off < 4096)
    (hk : ¬(p = pgLE e ∧ off ∈ l)) : t.rd p off = d.rd p off := h.only.1 p off ho hk

/-- A word of the engine's own page that the step does not name. -/
theorem Dev.engineStep.own {e : Nat} {l : List Nat} {d t : Dev} (h : d.engineStep e l t) {off : Nat} (ho : off < 4096)
    (hk : off ∉ l) : t.rd (pgLE e) off = d.rd (pgLE e) off := h.rd ho (fun hc => hk hc.2)

theorem Dev.engineStep.byte {e : Nat} {l : List Nat} {d t : Dev} (h : d.engineStep e l t) (a : Nat) : t.byte a = d.byte a := by
  rw [Dev.byte, h.mem, h.wlog, Dev.byte]

theorem Dev.bytes_congr {d t : Dev} (h : ∀ a, t.byte a = d.byte a) (a n : Nat) : t.bytes a n = d.bytes a n := by
  rw [Dev.bytes_eq_map, Dev.bytes_eq_map]
  simp only [h]

/-- What the command did, when it has ended. -/
theorem Dev.engineStep.finish {e : Nat} {l : List Nat} {d t : Dev} (h : d.begin.engineStep e l t) (hd : d.wlog = []) :
    engineOnly e l d (t.finish d.mem) ∧ d.sameMem (t.finish d.mem) :=
  ⟨h.only, Dev.sameMem_finish _ _ hd h.wlog⟩

theorem Dev.engineStep_setEng {e : Nat} {l : List Nat} (d : Dev) (x : Engine) : d.engineStep e l (d.setEng e x) :=
  ⟨⟨fun _ _ _ _ => rfl, fun _ hj => Dev.eng_setEng_ne _ _ _ _ hj, rfl⟩, rfl, rfl⟩

theorem Dev.engineStep_onEng {e : Nat} {l : List Nat} (d : Dev) (f : Engine → Engine) : d.engineStep e l (d.onEng e f) :=
  d.engineStep_setEng _

theorem Dev.engineStep_pass {e : Nat} {l : List Nat} (d : Dev) (n : Nat) : d.engineStep e l (d.pass n) :=
  ⟨⟨fun _ _ _ _ => rfl, fun _ _ => rfl, rfl⟩, rfl, rfl⟩

theorem Dev.engineStep_reply {e : Nat} {l : List Nat} (d : Dev) (a : Answer) : d.engineStep e l (d.reply a) :=
  ⟨⟨fun _ _ _ _ => rfl, fun _ _ => rfl, rfl⟩, rfl, rfl⟩

theorem Dev.engineStep_wr {e : Nat} {l : List Nat} (d : Dev) {off : Nat} (v : Word) (hl : off ∈ l) (hoff : off < 4096) :
    d.engineStep e l (d.wr (pgLE e) off v) :=
  ⟨⟨d.regsBut_wr v ⟨rfl, hl⟩ hoff, fun _ _ => rfl, rfl⟩, rfl, rfl⟩

theorem Dev.engineStep_irq {e : Nat} {l : List Nat} (d : Dev) (n : Nat) (hl : Reg.IRQ_STAT ∈ l) :
    d.engineStep e l (d.irq (pgLE e) n) :=
  ⟨⟨d.regsBut_irq n ⟨rfl, hl⟩, fun _ _ => rfl, rfl⟩, rfl, rfl⟩

theorem Dev.engineStep_add64 {e : Nat} {l : List Nat} (d : Dev) {off : Nat} (n : Nat) (hl : off ∈ l) (hl' : off + 4 ∈ l)
    (hoff : off + 4 < 4096) : d.engineStep e l (d.add64 (pgLE e) off n) :=
  (d.engineStep_wr _ hl (by omega)).trans (Dev.engineStep_wr _ _ hl' hoff)

@[simp] theorem Dev.eng_onEng (d : Dev) (e : Nat) (f : Engine → Engine) : (d.onEng e f).eng e = f (d.eng e) :=
  Dev.eng_setEng _ _ _

@[simp] theorem Dev.onEng_mem (d : Dev) (e : Nat) (f : Engine → Engine) : (d.onEng e f).mem = d.mem := rfl
@[simp] theorem Dev.onEng_byte (d : Dev) (e : Nat) (f : Engine → Engine) (a : Nat) : (d.onEng e f).byte a = d.byte a := rfl

/-! ### What neither time nor fetching changes of an engine -/

/-- An engine without its results in flight and where they arrive, its fetch path, its stall, and the cycle from which it may
issue. -/
def Engine.core (x : Engine) : Engine :=
  { x with
    flights := [], mres := 0, macc := 0, lres := 0, macAt := none, ready := 0, stallAt := none, syncAt := none
    cache := [], fbuf := none, missing := none, btb := [], lbuf := [], lbufOn := false, stale := [], fq := [], fpc := 0, fcyc := 0 }

/-- Beside time, registers that l lists and what the engine's core leaves out, the engine and all else stay. -/
structure Dev.coreKept (e : Nat) (l : List Nat) (d t : Dev) : Prop where
  step : d.engineStep e l t
  core : (t.eng e).core = (d.eng e).core
  answer : t.answer = d.answer

theorem Dev.coreKept_refl (e : Nat) (l : List Nat) (d : Dev) : d.coreKept e l d := ⟨d.engineStep_refl e l, rfl, rfl⟩

theorem Dev.coreKept.trans {e : Nat} {l : List Nat} {a b c : Dev} (h : a.coreKept e l b) (h' : b.coreKept e l c) :
    a.coreKept e l c := ⟨h.step.trans h'.step, h'.core.trans h.core, h'.answer.trans h.answer⟩

theorem Dev.coreKept.mono {e : Nat} {l l' : List Nat} {d t : Dev} (h : d.coreKept e l t) (hl : l ⊆ l') : d.coreKept e l' t :=
  ⟨h.step.mono hl, h.core, h.answer⟩

/-- A field of the engine that its core holds. -/
theorem Dev.coreKept.keeps {α : Type} {e : Nat} {l : List Nat} {d t : Dev} (h : d.coreKept e l t) (f : Engine → α)
    (hf : ∀ x : Engine, f x.core = f x := by intro x; rfl) : f (t.eng e) = f (d.eng e) := by
  rw [← hf, h.core, hf]

theorem Dev.coreKept_setEng {e : Nat} {l : List Nat} (d : Dev) (x : Engine) (hx : x.core = (d.eng e).core) :
    d.coreKept e l (d.setEng e x) := ⟨d.engineStep_setEng x, by rw [Dev.eng_setEng, hx], rfl⟩

theorem Dev.coreKept_onEng {e : Nat} {l : List Nat} (d : Dev) (f : Engine → Engine) (hf : (f (d.eng e)).core = (d.eng e).core) :
    d.coreKept e l (d.onEng e f) := d.coreKept_setEng _ hf

theorem Dev.coreKept_pass {e : Nat} {l : List Nat} (d : Dev) (n : Nat) : d.coreKept e l (d.pass n) :=
  ⟨d.engineStep_pass n, rfl, rfl⟩

theorem Dev.coreKept_wr {e : Nat} {l : List Nat} (d : Dev) {off : Nat} (v : Word) (hl : off ∈ l) (hoff : off < 4096) :
    d.coreKept e l (d.wr (pgLE e) off v) := ⟨d.engineStep_wr v hl hoff, rfl, rfl⟩

theorem Dev.coreKept_toCyc {e : Nat} {l : List Nat} (d : Dev) (c : Nat) : d.coreKept e l (d.toCyc c) := d.coreKept_pass _

theorem Engine.arrive_core (x : Engine) (c : Nat) (f : Flight) : (x.arrive c f).core = x.core := by
  cases f <;> rfl

theorem Engine.arriveAll_core (l : List (Nat × Flight)) (x : Engine) :
    (forL l (fun f x => x.arrive f.1 f.2) x).core = x.core :=
  forL_rel (fun a b : Engine => b.core = a.core) (fun _ => rfl) (fun _ _ _ h h' => h'.trans h) l _
    (fun f x => x.arrive_core f.1 f.2) x

theorem Dev.coreKept_settle {e : Nat} {l : List Nat} (d : Dev) : d.coreKept e l (d.settle e) :=
  d.coreKept_onEng _ (Engine.arriveAll_core _ _)

theorem Dev.coreKept_endStall {e : Nat} {l : List Nat} (d : Dev) (hl : Reg.LE_STALLS ∈ l) : d.coreKept e l (d.endStall e) := by
  unfold Dev.endStall
  split
  · exact .trans (d.coreKept_onEng _ rfl) (Dev.coreKept_wr _ _ hl (by decide))
  · exact d.coreKept_refl e l

theorem Engine.engage_core (x : Engine) (pc : Nat) : (x.engage pc).core = x.core := by
  unfold Engine.engage
  split <;> rfl

theorem Engine.touch_core (x : Engine) (pc : Nat) : (x.touch pc).core = x.core := by
  unfold Engine.touch
  split <;> rfl

theorem Dev.fetchStart_cases (d : Dev) (e : Nat) : d.fetchStart e = d
    ∨ d.fetchStart e = d.onEng e (fun x => { x with fq := [], fpc := d.lePc e, fcyc := min x.fcyc (d.cyc - 2) }) := by
  unfold Dev.fetchStart
  exact ite_eq_or_eq _ _ _

theorem Dev.coreKept_fetchStart {e : Nat} {l : List Nat} (d : Dev) : d.coreKept e l (d.fetchStart e) := by
  obtain h | h := d.fetchStart_cases e
  · rw [h]; exact d.coreKept_refl e l
  · rw [h]; exact d.coreKept_onEng _ rfl

theorem Dev.coreKept_fetchAhead {e : Nat} {l : List Nat} (n : Nat) (d : Dev) : d.coreKept e l (d.fetchAhead e n) := by
  induction n generalizing d with
  | zero => exact d.coreKept_refl e l
  | succ n ih =>
    have engaged : d.coreKept e l
        (d.onEng e (fun x => if x.fq.length < fetchDepth ∧ x.fcyc + 1 ≤ d.cyc then x.engage x.fpc else x)) :=
      d.coreKept_onEng _ (by split; exacts [Engine.engage_core _ _, rfl])
    refine engaged.trans ?_
    rw [Dev.fetchAhead]
    generalize d.onEng e _ = a
    dsimp only
    split
    · exact a.coreKept_refl e l
    · split
      · exact a.coreKept_onEng _ rfl
      · refine .trans (a.coreKept_setEng _ ?_) (ih _)
        exact Engine.touch_core _ _

theorem Dev.coreKept_prefetch {e : Nat} {l : List Nat} (d : Dev) : d.coreKept e l (d.prefetch e) := by
  unfold Dev.prefetch
  split
  · exact d.coreKept_refl e l
  · exact d.coreKept_fetchStart.trans (Dev.coreKept_fetchAhead _ _)

theorem Dev.coreKept_redirect {e : Nat} {l : List Nat} (d : Dev) (c pc : Nat) (hpc : Reg.LE_PC ∈ l)
    (hr : Reg.LE_REDIRECTS ∈ l) : d.coreKept e l (d.redirect e c pc) :=
  .trans (.trans (d.coreKept_wr _ hpc (by decide)) (Dev.coreKept_onEng _ _ rfl)) (Dev.coreKept_wr _ _ hr (by decide))

theorem Dev.coreKept_follow {e : Nat} {l : List Nat} (d : Dev) (c pc : Nat) (hpc : Reg.LE_PC ∈ l) :
    d.coreKept e l (d.follow e c pc) := by
  unfold Dev.follow
  exact .trans (d.coreKept_wr _ hpc (by decide)) (Dev.coreKept_onEng _ _ rfl)

@[simp] theorem Dev.redirect_pc (d : Dev) (e c pc : Nat) : (d.redirect e c pc).rd (pgLE e) Reg.LE_PC = word pc :=
  (Dev.rd_wr_off _ _ _ _ _ (by decide)).trans (Dev.rd_wr_same _ _ _ _)

@[simp] theorem Dev.follow_pc (d : Dev) (e c pc : Nat) : (d.follow e c pc).rd (pgLE e) Reg.LE_PC = word pc :=
  Dev.rd_wr_same d _ _ _

end Sys2Proof.Machine
end

/-! PROOFS. The trigger rows of a line engine: ALU triggers (R195), branches, calls, the loop unit and TRET_EVENT (R205 to R209,
R235, R264). -/
section
namespace Sys2Proof.Machine

/-! ### The ports -/

theorem lsuOp_eq_none {p : Nat} (h : p < 0x58 ∨ 0x5F < p) : lsuOp p = none := by
  unfold lsuOp
  split <;> first | rfl | omega

theorem branchTarget_eq_none {link : Word} {a p : Nat} {v : Word} (h : p < 0x60 ∨ 0x63 < p) : branchTarget link a p v = none := by
  unfold branchTarget
  dsimp only
  split <;> first | rfl | omega

/-- The ports whose triggers have faults of their own, beside the load and store unit's. -/
def guardedPort (p : Nat) : Prop := p = 0x69 ∨ p = 0x73 ∨ p = 0x74 ∨ p = 0x79 ∨ p = 0x96 ∨ 0x400 ≤ p

theorem Dev.portFault_eq_none (d : Dev) (e a : Nat) {p : Nat} (v : Word) (hl : lsuOp p = none) (hp : ¬guardedPort p) :
    d.portFault e a p v = none := by
  unfold guardedPort at hp
  simp only [Dev.portFault, hl]
  rw [if_neg (by omega), if_neg (by omega), if_neg (by omega), if_neg (by omega)]

theorem Dev.portFault_tstart (d : Dev) (e a : Nat) (v : Word) :
    d.portFault e a 0x69 v = if loopOk a v.toNat then none else some (7, 0) := rfl

theorem Dev.portFault_tret (d : Dev) (e a : Nat) (v : Word) :
    d.portFault e a 0x96 v = if (d.eng e).evIn = false then some (4, 0) else none := by
  cases h : (d.eng e).evIn <;> simp [Dev.portFault, lsuOp_eq_none, h]

/-- Only the string unit's ports, FENCE and the head-register ports stall beside the load and store unit's. -/
theorem Dev.portStall_eq_false (d : Dev) (e : Nat) {p : Nat} (v : Word) (hl : lsuOp p = none)
    (hp : ¬(0x6C ≤ p ∧ p ≤ 0x70 ∨ p = 0x79 ∨ p = 0x7F ∨ 0x400 ≤ p)) : d.portStall e p v = false := by
  simp only [Dev.portStall, hl]
  rw [if_neg (by omega), if_neg (by omega), if_neg (by omega)]

/-! ### A trigger alone -/

/-- The engine's next issue cycle. -/
def Dev.issueCycle (d : Dev) (e : Nat) : Dev := ((d.toCyc (d.eng e).ready).settle e).prefetch e

theorem Dev.coreKept_issueCycle {e : Nat} {l : List Nat} (d : Dev) : d.coreKept e l (d.issueCycle e) :=
  .trans (.trans (d.coreKept_toCyc _) (Dev.coreKept_settle _)) (Dev.coreKept_prefetch _)

/-- The cycle in which a trigger acts, with the stall before it counted. -/
def Dev.trigCycle (d : Dev) (e p : Nat) (v : Word) : Dev :=
  (((d.issueCycle e).toCyc ((d.issueCycle e).writeFrom e p v)).settle e).endStall e

theorem Dev.coreKept_trigCycle {e : Nat} {l : List Nat} (d : Dev) (p : Nat) (v : Word) (hl : Reg.LE_STALLS ∈ l) :
    d.coreKept e l (d.trigCycle e p v) :=
  .trans (.trans (.trans d.coreKept_issueCycle (Dev.coreKept_toCyc _ _)) (Dev.coreKept_settle _)) (Dev.coreKept_endStall _ hl)

/-- The address of the instruction stays until its trigger acts. -/
theorem Dev.issueCycle_lePc (d : Dev) (e : Nat) : (d.issueCycle e).lePc e = d.lePc e :=
  congrArg BitVec.toNat ((d.coreKept_issueCycle (l := [])).step.own (by decide) (by simp))

theorem Dev.leTrig_faults {d : Dev} {e p : Nat} {v : Word} {c a : Nat}
    (hf : (d.issueCycle e).portFault e (d.lePc e) p v = some (c, a)) :
    ∃ w, d.leTrig e p v = (d.issueCycle e).leFault e c false (d.lePc e) w a := by
  unfold Dev.leTrig
  rw [← Dev.issueCycle]
  dsimp only
  rw [d.issueCycle_lePc, hf]
  exact ⟨_, rfl⟩

/-- Ports whose triggers are no beam waits and change nothing of where execution goes on. -/
def straightPort (p : Nat) : Prop := ¬(0x60 ≤ p ∧ p ≤ 0x63 ∨ p = 0x69 ∨ p = 0x73 ∨ p = 0x74 ∨ p = 0x7E ∨ p = 0x96)

/-- A trigger that neither faults nor stalls and whose port's effect, by an instruction with word w, is g w. -/
theorem Dev.leTrig_acts {d : Dev} {e p : Nat} {v : Word} {g : Word → Dev → Dev}
    (hf : (d.issueCycle e).portFault e (d.lePc e) p v = none) (hs : (d.issueCycle e).portStall e p v = false)
    (hp : straightPort p) (hw : ∀ (u : Dev) w, u.portWrite e (d.lePc e) w false p v = g w u) :
    ∃ w, d.leTrig e p v = (g w (d.trigCycle e p v)).onEng e (fun x => { x with ready := (d.trigCycle e p v).cyc + 1 }) := by
  unfold straightPort at hp
  unfold Dev.leTrig
  rw [← Dev.issueCycle]
  dsimp only
  rw [d.issueCycle_lePc, hf, hs]
  dsimp only
  rw [if_neg (by decide), ← Dev.trigCycle, if_neg (by omega), branchTarget_eq_none (by omega), hw]
  dsimp only
  rw [if_neg (by omega), if_neg (by omega), if_neg (by omega)]
  exact ⟨_, rfl⟩

/-- What a trigger does whose effect is one on the engine alone. -/
theorem Dev.leTrig_onEng {d : Dev} {e p : Nat} {v : Word} {f : Word → Nat → Engine → Engine}
    (hf : (d.issueCycle e).portFault e (d.lePc e) p v = none) (hs : (d.issueCycle e).portStall e p v = false)
    (hp : straightPort p) (hw : ∀ (u : Dev) w, u.portWrite e (d.lePc e) w false p v = u.onEng e (f w u.cyc)) :
    ∃ u w, d.coreKept e [Reg.LE_STALLS] u ∧ (d.leTrig e p v).cyc = u.cyc ∧ d.engineStep e [Reg.LE_STALLS] (d.leTrig e p v)
      ∧ (d.leTrig e p v).eng e = { f w u.cyc (u.eng e) with ready := u.cyc + 1 } := by
  obtain ⟨w, h⟩ := Dev.leTrig_acts hf hs hp hw
  have kept := d.coreKept_trigCycle (e := e) p v (List.mem_singleton_self Reg.LE_STALLS)
  generalize d.trigCycle e p v = u at kept h
  refine ⟨u, w, kept, ?_, ?_, ?_⟩
  · rw [h]; rfl
  · rw [h]; exact kept.step.trans ((u.engineStep_onEng _).trans (Dev.engineStep_onEng _ _))
  · rw [h, Dev.eng_onEng, Dev.eng_onEng]

/-! ### ALU triggers (R195) -/

theorem aluPort_range (u : Alu) {k : Nat} (hk : k ≤ 13) : aluPort u k < 0x58 ∧ ¬guardedPort (aluPort u k)
    ∧ straightPort (aluPort u k) := by
  unfold aluPort guardedPort straightPort
  cases u <;> simp only [reduceCtorEq, if_true, if_false] <;> omega

/-- The result of an operation in its unit. -/
def Engine.setRes (x : Engine) (u : Alu) (k : Nat) (t : Word) : Engine :=
  match u with
  | .a0 => { x with res0 := aluOp k t x.op0 }
  | .a1 => { x with res1 := aluOp k t x.op1 }

theorem Dev.portWrite_alu (d : Dev) (e a : Nat) (w : Word) (u : Alu) {k : Nat} (t : Word) (hk : 1 ≤ k) (hk' : k ≤ 13) :
    d.portWrite e a w false (aluPort u k) t = d.onEng e (fun x => x.setRes u k t) := by
  unfold Dev.portWrite
  cases u
  · rw [if_neg (by simp [aluPort]; omega), if_pos (by simp [aluPort]; omega)]
    simp [aluPort, Engine.setRes]
  · rw [if_neg (by simp [aluPort]; omega), if_neg (by simp [aluPort]; omega), if_pos (by simp [aluPort]; omega)]
    simp [aluPort, Engine.setRes]

/-- The operand of a unit. -/
def Engine.aluOperand (x : Engine) (u : Alu) : Word := if u = .a0 then x.op0 else x.op1

/-- What an ALU trigger leaves: v in its unit's RES, the other unit's RES, the ports and all else as they were. -/
def aluDone (e : Nat) (u : Alu) (s : State) (v : Word) (d : Dev) : Prop :=
  (if u = .a0 then (d.eng e).res0 else (d.eng e).res1) = v ∧ (d.eng e).ready = d.cyc + 1
    ∧ (if u = .a0 then (d.eng e).res1 = (s.dev.eng e).res1 else (d.eng e).res0 = (s.dev.eng e).res0)
    ∧ engineOperands (d.eng e) = engineOperands (s.dev.eng e) ∧ engineOnly e [Reg.LE_STALLS] s.dev d ∧ s.dev.sameMem d

theorem does_alu {e : Le} {u : Alu} {t : Word} {s : State} (hs : s.sound) {i : Instr} (k : Nat) (hk : 1 ≤ k) (hk' : k ≤ 13)
    (hi : exec i s = s.run (fun d => d.leTrig e (aluPort u k) t)) :
    Does i s (aluDone e u s (aluOp k t ((s.dev.eng e).aluOperand u))) := by
  refine does_of_run i s _ _ hi ?_
  obtain ⟨below, free, straight⟩ := aluPort_range u hk'
  have lsu : lsuOp (aluPort u k) = none := lsuOp_eq_none (.inl below)
  obtain ⟨c, _, kept, now, step, eng⟩ := Dev.leTrig_onEng (d := s.dev.begin) (e := e) (v := t)
    (f := fun _ _ x => x.setRes u k t) (Dev.portFault_eq_none _ _ _ _ lsu free)
    (Dev.portStall_eq_false _ _ _ lsu (by unfold guardedPort at free; omega)) straight
    (fun a _ => a.portWrite_alu e _ _ u t hk hk')
  have operands := kept.keeps engineOperands
  rw [aluDone, Dev.finish_eng, eng]
  cases u
  · exact ⟨congrArg (aluOp k t) (kept.keeps Engine.op0), congrArg (· + 1) now.symm, kept.keeps Engine.res1, operands,
      step.finish hs.2⟩
  · exact ⟨congrArg (aluOp k t) (kept.keeps Engine.op1), congrArg (· + 1) now.symm, kept.keeps Engine.res0, operands,
      step.finish hs.2⟩

/-- Settles O9: each trigger's port gives its operation, and until the trigger acts the engine's core stays. -/
theorem aluTriggers : Obligations.AluTriggers := by
  intro e u t s hs
  have slt (x y : Word) : x.slt y = decide (x.toInt < y.toInt) := rfl
  have lt : ∀ o : Word, aluOp 10 t o = if t.toInt < o.toInt then 1 else 0 := fun o => by simp [aluOp, slt]
  have ltu : ∀ o : Word, aluOp 11 t o = if t.toNat < o.toNat then 1 else 0 := fun o => by simp [aluOp, BitVec.ult]
  have least : ∀ o : Word, aluOp 12 t o = if t.toInt < o.toInt then t else o := fun o => by simp [aluOp, slt]
  have most : ∀ o : Word, aluOp 13 t o = if t.toInt < o.toInt then o else t := fun o => by simp [aluOp, slt]
  have did := fun k hk hk' i hi => does_alu (e := e) (u := u) (t := t) hs (i := i) k hk hk' hi
  dsimp only
  rw [← lt, ← ltu, ← least, ← most]
  exact ⟨did 1 (by decide) (by decide) _ rfl, did 2 (by decide) (by decide) _ rfl, did 3 (by decide) (by decide) _ rfl,
    did 4 (by decide) (by decide) _ rfl, did 5 (by decide) (by decide) _ rfl, did 6 (by decide) (by decide) _ rfl,
    did 7 (by decide) (by decide) _ rfl, did 8 (by decide) (by decide) _ rfl, did 9 (by decide) (by decide) _ rfl,
    did 10 (by decide) (by decide) _ rfl, did 11 (by decide) (by decide) _ rfl, did 12 (by decide) (by decide) _ rfl,
    did 13 (by decide) (by decide) _ rfl⟩

end Sys2Proof.Machine
end

/-! PROOFS. Branches, calls, the loop unit and TRET_EVENT of a line engine (R205 to R209, R235, R264), and its faults (R236). -/
section
namespace Sys2Proof.Machine

/-! ### Where execution goes on -/

/-- Execution goes on at address pc: LE_PC and the fetch path apart, the engine stays. -/
structure Dev.goesTo (e pc : Nat) (d t : Dev) : Prop where
  kept : d.coreKept e [Reg.LE_STALLS, Reg.LE_REDIRECTS, Reg.LE_PC] t
  lePc : t.rd (pgLE e) Reg.LE_PC = word pc

theorem Dev.goesTo_redirect (d : Dev) (e c pc : Nat) : d.goesTo e pc (d.redirect e c pc) :=
  ⟨d.coreKept_redirect c pc (by simp) (by simp), d.redirect_pc e c pc⟩

theorem Dev.goesTo_follow (d : Dev) (e c pc : Nat) : d.goesTo e pc (d.follow e c pc) :=
  ⟨d.coreKept_follow c pc (by simp), d.follow_pc e c pc⟩

theorem Dev.coreKept.goesTo {e pc : Nat} {a b c : Dev} (h : a.coreKept e [Reg.LE_STALLS, Reg.LE_REDIRECTS, Reg.LE_PC] b)
    (h' : b.goesTo e pc c) : a.goesTo e pc c := ⟨h.trans h'.kept, h'.lePc⟩

theorem Engine.record_core (x : Engine) (pc target : Nat) (guarded : Bool) : (x.record pc target guarded).core = x.core := by
  unfold Engine.record
  dsimp only
  split <;> rfl

theorem Engine.branched_core (x : Engine) (det : Bool) (pc target : Nat) (guarded : Bool) :
    (x.branched det pc target guarded).core = x.core := by
  have left : (if x.inBody target then x else x.dropLbuf).core = x.core := by split <;> rfl
  unfold Engine.branched
  dsimp only
  split
  · exact left
  · exact (Engine.record_core _ _ _ _).trans left

theorem branchTarget_port {link : Word} {a p n : Nat} {v : Word} (h : branchTarget link a p v = some n) :
    0x60 ≤ p ∧ p ≤ 0x63 := by
  by_contra hc
  rw [branchTarget_eq_none (by omega)] at h
  contradiction

/-- Branch ports other than the call's write nothing. -/
theorem Dev.portWrite_branch (d : Dev) (e a : Nat) (w : Word) {p : Nat} (v : Word) (hp : p = 0x60 ∨ p = 0x61 ∨ p = 0x63) :
    d.portWrite e a w false p v = d := by
  rcases hp with rfl | rfl | rfl <;> rfl

/-- B.LINK set by the call at a. -/
def Dev.linkSet (d : Dev) (e a : Nat) : Dev := d.onEng e (fun x => { x with blink := word (a + 4) })

theorem Dev.portWrite_call (d : Dev) (e a : Nat) (w v : Word) : d.portWrite e a w false 0x62 v = d.linkSet e a := rfl

/-- A branch goes on at its target, after what its port writes. -/
theorem Dev.leTrig_branch {d : Dev} {e p n : Nat} {v : Word} {g : Dev → Dev}
    (ht : branchTarget (d.eng e).blink (d.lePc e) p v = some n)
    (hw : ∀ (u : Dev) w, u.portWrite e (d.lePc e) w false p v = g u) :
    Dev.goesTo e n (g (d.trigCycle e p v)) (d.leTrig e p v) := by
  obtain ⟨low, high⟩ := branchTarget_port ht
  have free : ¬guardedPort p := by unfold guardedPort; omega
  have lsu : lsuOp p = none := lsuOp_eq_none (.inr (by omega))
  have link := (d.coreKept_trigCycle (e := e) p v (List.mem_singleton_self Reg.LE_STALLS)).keeps Engine.blink
  unfold Dev.leTrig
  rw [← Dev.issueCycle]
  dsimp only
  rw [d.issueCycle_lePc, Dev.portFault_eq_none _ _ _ _ lsu free, Dev.portStall_eq_false _ _ _ lsu (by omega)]
  dsimp only
  rw [if_neg (by decide), ← Dev.trigCycle, if_neg (by omega), link, ht, hw]
  have branched : ∀ u : Dev, u.coreKept e [Reg.LE_STALLS, Reg.LE_REDIRECTS, Reg.LE_PC]
      (u.onEng e (fun x => x.branched (u.det e) (d.lePc e) n false)) := fun u => u.coreKept_onEng _ (Engine.branched_core _ _ _ _ _)
  dsimp only
  split
  · exact (branched _).goesTo (Dev.goesTo_follow _ _ _ _)
  · exact (branched _).goesTo (Dev.goesTo_redirect _ _ _ _)

theorem Dev.goesTo.congr {e pc pc' : Nat} {d t : Dev} (h : d.goesTo e pc t) (hp : word pc = word pc') : d.goesTo e pc' t :=
  ⟨h.kept, h.lePc.trans hp⟩

theorem word_mod (n : Nat) : word (n % 2 ^ 32) = word n := BitVec.eq_of_toNat_eq (by simp only [toNat_word]; omega)

/-- The loop unit set up by the TSTART at a of a body of n words. -/
def Dev.loopSet (d : Dev) (e a n : Nat) : Dev := d.onEng e (fun x => x.loopWrite d.cyc x.lpCount (lpStateOf a n) true true)

theorem Dev.portWrite_tstart (d : Dev) (e a : Nat) (w v : Word) : d.portWrite e a w false 0x69 v = d.loopSet e a v.toNat := rfl

/-- The handler left: the predicates are those that event entry saved. -/
def Engine.leaveHandler (x : Engine) : Engine :=
  { x with p1 := x.evPred % 2 == 1, p2 := x.evPred / 2 % 2 == 1, p3 := x.evPred / 4 % 2 == 1, evIn := false, useHeld := x.evWait }

theorem Dev.portWrite_tret (d : Dev) (e a : Nat) (w v : Word) :
    d.portWrite e a w false 0x96 v = d.onEng e Engine.leaveHandler := rfl

/-- TSTART of a body that fits goes on behind the body while LP.COUNT is 0, and in the body otherwise. -/
theorem Dev.leTrig_tstart {d : Dev} {e : Nat} {v : Word} (hv : loopOk (d.lePc e) v.toNat = true) :
    Dev.goesTo e (if (d.eng e).lpCount = 0 then d.lePc e + 4 * (v.toNat + 1) else d.lePc e + 4)
      ((d.trigCycle e 0x69 v).loopSet e (d.lePc e) v.toNat) (d.leTrig e 0x69 v) := by
  have count := (d.coreKept_trigCycle (e := e) 0x69 v (List.mem_singleton_self Reg.LE_STALLS)).keeps Engine.lpCount
  generalize hn : (if (d.eng e).lpCount = 0 then d.lePc e + 4 * (v.toNat + 1) else d.lePc e + 4) = n
  unfold Dev.leTrig
  rw [← Dev.issueCycle]
  dsimp only
  rw [d.issueCycle_lePc, Dev.portFault_tstart, if_pos hv,
    Dev.portStall_eq_false _ _ _ (lsuOp_eq_none (.inr (by decide))) (by decide)]
  dsimp only
  rw [if_neg (by decide), ← Dev.trigCycle, if_neg (by decide), branchTarget_eq_none (.inr (by decide))]
  dsimp only
  rw [if_neg (by decide), if_pos rfl, count, ← hn, Dev.portWrite_tstart]
  generalize (d.trigCycle e 0x69 v).loopSet e (d.lePc e) v.toNat = u
  split
  · exact (u.goesTo_redirect e _ _).congr (word_mod _)
  · exact ⟨.trans (u.coreKept_wr _ (by simp) (by decide)) (Dev.coreKept_onEng _ _ rfl), (u.rd_wr_same _ _ _).trans (word_mod _)⟩

theorem Dev.leTrig_tret {d : Dev} {e : Nat} {v : Word} (hv : (d.eng e).evIn = true) :
    Dev.goesTo e ((d.eng e).epc.toNat / 4 * 4) ((d.trigCycle e 0x96 v).onEng e Engine.leaveHandler)
      (d.leTrig e 0x96 v) := by
  have epc := (d.coreKept_trigCycle (e := e) 0x96 v (List.mem_singleton_self Reg.LE_STALLS)).keeps Engine.epc
  have inHandler := (d.coreKept_issueCycle (e := e) (l := [])).keeps Engine.evIn
  unfold Dev.leTrig
  rw [← Dev.issueCycle]
  dsimp only
  rw [d.issueCycle_lePc, Dev.portFault_tret, if_neg (by simp [inHandler, hv]),
    Dev.portStall_eq_false _ _ _ (lsuOp_eq_none (.inr (by decide))) (by decide)]
  dsimp only
  rw [if_neg (by decide), ← Dev.trigCycle, if_neg (by decide), branchTarget_eq_none (.inr (by decide))]
  dsimp only
  rw [if_pos rfl, epc, Dev.portWrite_tret]
  exact Dev.goesTo_redirect _ _ _ _

/-! ### Faults (R235, R236) -/

theorem Dev.coreKept_irq {e : Nat} {l : List Nat} (d : Dev) (n : Nat) (hl : Reg.IRQ_STAT ∈ l) :
    d.coreKept e l (d.irq (pgLE e) n) := ⟨d.engineStep_irq n hl, rfl, rfl⟩

/-- The words that a fault sets. -/
abbrev faultWords : List Nat :=
  [Reg.LE_STALLS, Reg.IRQ_STAT, Reg.LE_FAULT, Reg.LE_FAULT_PC, Reg.LE_FAULT_WORD, Reg.LE_FAULT_ADDR]

/-- The engine has faulted with that cause: it is FAULTED and its IRQ bit set; the fault registers hold the first fault. -/
structure Dev.faultsWith (e code pc addr : Nat) (d t : Dev) : Prop where
  st : (t.eng e).st = .faulted
  operands : engineOperands (t.eng e) = engineOperands (d.eng e)
  str : (t.eng e).str = (d.eng e).str
  irq : t.rdB (pgLE e) Reg.IRQ_STAT 0 = true
  valid : t.rdB (pgLE e) Reg.LE_FAULT 31 = true
  first : d.rdB (pgLE e) Reg.LE_FAULT 31 = false → t.rdF (pgLE e) Reg.LE_FAULT 3 0 = code
    ∧ t.rd (pgLE e) Reg.LE_FAULT_PC = word pc ∧ t.rd (pgLE e) Reg.LE_FAULT_ADDR = word addr

theorem Dev.leLeave_step (d : Dev) (e : Nat) (st : LeState) : d.engineStep e [Reg.LE_STALLS] (d.leLeave e st) :=
  .trans (d.coreKept_endStall (by simp)).step (Dev.engineStep_onEng _ _)

theorem Dev.leLeave_eng (d : Dev) (e : Nat) (st : LeState) : ((d.leLeave e st).eng e).st = st
    ∧ engineOperands ((d.leLeave e st).eng e) = engineOperands (d.eng e) ∧ ((d.leLeave e st).eng e).str = (d.eng e).str := by
  have kept := d.coreKept_endStall (e := e) (l := [Reg.LE_STALLS]) (by simp)
  have operands := kept.keeps engineOperands
  have str := kept.keeps Engine.str
  unfold Dev.leLeave
  rw [Dev.eng_onEng]
  dsimp only
  split <;> exact ⟨rfl, operands, str⟩

/-- VALID beside a cause and its move. -/
abbrev validBit : Word := 1 <<< 31

theorem faultWord_code : ∀ code < 16, ∀ moveB : Bool, field (word (code + moveB.toNat * 16) ||| validBit) 3 0 = code := by
  decide

theorem bit_valid (w : Word) : bit (w ||| validBit) 31 = true := by
  rw [bit, BitVec.getLsbD_or, Bool.or_eq_true]
  exact .inr (by decide)

@[simp] theorem Dev.setBits_rd (d : Dev) (p off : Nat) (m : Word) (q o : Nat) :
    (d.setBits p off m).rd q o = (d.wr p off (d.rd p off ||| m)).rd q o := rfl

theorem Dev.recordFault_step (d : Dev) (e what pc : Nat) (w : Word) (addr : Nat) :
    d.engineStep e faultWords (d.recordFault e what pc w addr) :=
  have marked (a : Dev) : a.engineStep e faultWords (a.setBits (pgLE e) Reg.LE_FAULT validBit) :=
    have stored := a.engineStep_wr (e := e) (a.rd (pgLE e) Reg.LE_FAULT ||| validBit) (l := faultWords) (by simp) (by decide)
    ⟨stored.only, rfl, rfl⟩
  (((d.engineStep_wr _ (by simp) (by decide)).trans (marked _)).trans (Dev.engineStep_wr _ _ (by simp) (by decide))).trans
    ((Dev.engineStep_wr _ _ (by simp) (by decide)).trans (Dev.engineStep_wr _ _ (by simp) (by decide)))

theorem Dev.recordFault_words (d : Dev) (e what pc : Nat) (w : Word) (addr : Nat) :
    (d.recordFault e what pc w addr).rd (pgLE e) Reg.LE_FAULT = word what ||| validBit
      ∧ (d.recordFault e what pc w addr).rd (pgLE e) Reg.LE_FAULT_PC = word pc
      ∧ (d.recordFault e what pc w addr).rd (pgLE e) Reg.LE_FAULT_ADDR = word addr := by
  simp [Dev.recordFault, Dev.wrN]

/-- A fault noted in device m, where the engine then leaves RUNNING. -/
theorem Dev.faultsWith_leLeave {d m : Dev} {e code pc addr : Nat}
    (operands : engineOperands (m.eng e) = engineOperands (d.eng e)) (str : (m.eng e).str = (d.eng e).str)
    (irq : m.rdB (pgLE e) Reg.IRQ_STAT 0 = true) (valid : m.rdB (pgLE e) Reg.LE_FAULT 31 = true)
    (first : d.rdB (pgLE e) Reg.LE_FAULT 31 = false → m.rdF (pgLE e) Reg.LE_FAULT 3 0 = code
      ∧ m.rd (pgLE e) Reg.LE_FAULT_PC = word pc ∧ m.rd (pgLE e) Reg.LE_FAULT_ADDR = word addr) :
    d.faultsWith e code pc addr (m.leLeave e .faulted) := by
  obtain ⟨leftSt, leftOperands, leftStr⟩ := m.leLeave_eng e .faulted
  have words : ∀ off, off < 4096 → off ≠ Reg.LE_STALLS → (m.leLeave e .faulted).rd (pgLE e) off = m.rd (pgLE e) off :=
    fun off ho hne => (m.leLeave_step e .faulted).own ho (by simpa using hne)
  refine ⟨leftSt, leftOperands.trans operands, leftStr.trans str, ?_, ?_, fun hf => ?_⟩
  · rw [Dev.rdB, words _ (by decide) (by decide)]; exact irq
  · rw [Dev.rdB, words _ (by decide) (by decide)]; exact valid
  · rw [Dev.rdF, words _ (by decide) (by decide), words _ (by decide) (by decide), words _ (by decide) (by decide)]
    exact first hf

theorem Dev.leFault_step (d : Dev) (e code : Nat) (moveB : Bool) (pc : Nat) (w : Word) (addr : Nat) :
    d.engineStep e faultWords (d.leFault e code moveB pc w addr) := by
  unfold Dev.leFault
  refine .trans ?_ ((Dev.leLeave_step _ e .faulted).mono (by simp))
  refine .trans (d.engineStep_irq 0 (by simp)) ?_
  split
  · exact Dev.engineStep_onEng _ _
  · exact Dev.recordFault_step _ _ _ _ _ _

theorem Dev.leFault_faultsWith (d : Dev) (e code : Nat) (moveB : Bool) (pc : Nat) (w : Word) (addr : Nat) (hc : code < 16) :
    d.faultsWith e code pc addr (d.leFault e code moveB pc w addr) := by
  have irq := d.irq_rdB_same (pgLE e) 0 (by decide)
  have valid : (d.irq (pgLE e) 0).rdB (pgLE e) Reg.LE_FAULT 31 = d.rdB (pgLE e) Reg.LE_FAULT 31 :=
    congrArg (bit · 31) (Dev.rd_wr_off _ _ _ _ _ (by decide))
  have eng : (d.irq (pgLE e) 0).eng e = d.eng e := rfl
  unfold Dev.leFault
  dsimp only
  generalize d.irq (pgLE e) 0 = a at *
  split
  · next held =>
    refine Dev.faultsWith_leLeave ?_ ?_ irq held (fun hf => ?_)
    · rw [Dev.eng_onEng, ← eng]; rfl
    · rw [Dev.eng_onEng, ← eng]
    · rw [← valid, held] at hf; contradiction
  · obtain ⟨what, at_, addr_⟩ := a.recordFault_words e (code + moveB.toNat * 16) pc w addr
    refine Dev.faultsWith_leLeave (congrArg engineOperands eng) (congrArg Engine.str eng) ?_ ?_ (fun _ => ⟨?_, at_, addr_⟩)
    · rw [← irq]
      simp [Dev.recordFault, Dev.wrN, Dev.rdB]
    · rw [Dev.rdB, what, bit_valid]
    · rw [Dev.rdF, what, faultWord_code _ hc]

/-! ### Branches, TSTART and TRET_EVENT (R205 to R209, R264) -/

theorem word_toNat (w : Word) : word w.toNat = w := by simp [word]

theorem bit_word {m n : Nat} (hm : m < 2 ^ 32) : bit (word m) n = decide (m / 2 ^ n % 2 = 1) := by
  rw [bit, ← BitVec.testBit_toNat, toNat_word, Nat.mod_eq_of_lt (show m < 4294967296 from hm), Nat.testBit_eq_decide_div_mod_eq]

theorem field_word {m hi lo : Nat} (hm : m < 2 ^ 32) : field (word m) hi lo = m / 2 ^ lo % 2 ^ (hi + 1 - lo) := by
  rw [field, toNat_word, Nat.mod_eq_of_lt (show m < 4294967296 from hm), Nat.shiftRight_eq_div_pow]

/-- LP.STATE of a body of n words after the word-aligned instruction at a gives the body's first and last addresses. -/
theorem lpStateOf_body {a n : Nat} (hok : loopOk a n = true) (hlow : 0x10000 ≤ a) (ha : a % 4 = 0)
    (hregion : a < 0x14000 ∨ 0x18000000 ≤ a) : lpFirst (lpStateOf a n) = a + 4 ∧ lpLast (lpStateOf a n) = a + 4 * n := by
  have hn : 1 ≤ n ∧ n ≤ 4096 := by
    simp only [loopOk, Bool.and_eq_true, decide_eq_true_eq] at hok
    exact hok.1
  obtain hlocal | hshared := hregion
  · have fits : a + 4 * n < 0x14000 := by
      simp only [loopOk, Bool.and_eq_true, if_pos (show a < 0x18000000 by omega), decide_eq_true_eq] at hok
      exact hok.2
    have state : lpStateOf a n = word ((a + 4 - 0x10000) / 4 + (n - 1) * 2 ^ 20) := by
      simp only [lpStateOf, if_pos (show a < 0x18000000 by omega)]
      congr 1
      omega
    have first : lpFirst (lpStateOf a n) = a + 4 := by
      rw [state, lpFirst, bit_word (by omega), field_word (by omega), if_neg (by rw [decide_eq_true_eq]; omega)]
      omega
    refine ⟨first, ?_⟩
    rw [lpLast, first, state, field_word (by omega)]
    omega
  · have fits : a + 4 * n < 0x18200000 := by
      simp only [loopOk, Bool.and_eq_true, if_neg (show ¬a < 0x18000000 by omega), decide_eq_true_eq] at hok
      exact hok.2
    have state : lpStateOf a n = word ((a + 4 - 0x18000000) / 4 + 2 ^ 19 + (n - 1) * 2 ^ 20) := by
      simp only [lpStateOf, if_neg (show ¬a < 0x18000000 by omega)]
      congr 1
      omega
    have first : lpFirst (lpStateOf a n) = a + 4 := by
      rw [state, lpFirst, bit_word (by omega), field_word (by omega), if_pos (by rw [decide_eq_true_eq]; omega)]
      omega
    refine ⟨first, ?_⟩
    rw [lpLast, first, state, field_word (by omega)]
    omega

theorem Engine.loopWrite_ports (x : Engine) (c : Nat) (count state : Word) (start drop : Bool) :
    (x.loopWrite c count state start drop).g = x.g ∧ (x.loopWrite c count state start drop).lpState = state
      ∧ (x.loopWrite c count state start drop).lpCount = count := by
  unfold Engine.loopWrite
  dsimp only
  split <;> exact ⟨rfl, rfl, rfl⟩

section
variable {e : Le} {s : State} {t : Word} {i : Instr} {p : Nat} {post : Dev → Prop}

/-- A trigger after which execution goes on at n: what holds of a device with that LE_PC, and with the engine as the port's
effect g left it beside its fetch path. -/
theorem does_goesTo {n : Nat} {g : Dev → Dev} (hs : s.sound) (hi : exec i s = s.run (fun d => d.leTrig e p t))
    (hg : ∀ u : Dev, u.engineStep e [] (g u)) (h : Dev.goesTo e n (g (s.dev.begin.trigCycle e p t)) (s.dev.begin.leTrig e p t))
    (hp : ∀ u d : Dev, s.dev.begin.coreKept e [Reg.LE_STALLS] u → (d.eng e).core = ((g u).eng e).core →
      d.rd (pgLE e) Reg.LE_PC = word n →
      engineOnly e [Reg.LE_STALLS, Reg.LE_REDIRECTS, Reg.LE_PC] s.dev d → s.dev.sameMem d → post d) : Does i s post := by
  have kept := s.dev.begin.coreKept_trigCycle (e := e) p t (List.mem_singleton_self Reg.LE_STALLS)
  have step := ((kept.step.mono (by simp)).trans ((hg _).mono (List.nil_subset _))).trans h.kept.step
  obtain ⟨only, mem⟩ := step.finish hs.2
  exact does_of_run i s _ _ hi (hp _ _ kept h.kept.core h.lePc only mem)

/-- A trigger that faults. -/
theorem does_fault {code addr : Nat} (hs : s.sound) (hi : exec i s = s.run (fun d => d.leTrig e p t)) (hc : code < 16)
    (hf : (s.dev.begin.issueCycle e).portFault e (s.dev.begin.lePc e) p t = some (code, addr))
    (hp : ∀ d : Dev, s.dev.faultsWith e code (s.dev.lePc e) addr d → engineOnly e faultWords s.dev d → s.dev.sameMem d →
      post d) : Does i s post := by
  obtain ⟨w, h⟩ := Dev.leTrig_faults hf
  refine does_of_run i s _ _ hi ?_
  have kept := s.dev.begin.coreKept_issueCycle (e := e) (l := faultWords)
  have valid := (s.dev.begin.coreKept_issueCycle (e := e) (l := [])).step.own (off := Reg.LE_FAULT) (by decide) (by simp)
  obtain ⟨st, operands, str, irq, set, first⟩ :=
    (s.dev.begin.issueCycle e).leFault_faultsWith e code false (s.dev.begin.lePc e) w addr hc
  obtain ⟨only, mem⟩ := (kept.step.trans (Dev.leFault_step _ e code false (s.dev.begin.lePc e) w addr)).finish hs.2
  rw [h]
  refine hp _ ⟨st, operands.trans (kept.keeps engineOperands), str.trans (kept.keeps Engine.str), irq, set,
    fun hv => first ?_⟩ only mem
  rw [Dev.rdB, valid]
  exact hv

end

/-- Settles O10: a branch, TSTART and TRET_EVENT end in a redirect or go on along the fetch path, which leave the ports alone. -/
theorem branches : Obligations.Branches := by
  intro e t s hs
  dsimp only
  have pc : s.dev.rd (pgLE e) Reg.LE_PC = word (s.dev.lePc e) := (word_toNat _).symm
  have plain : ∀ {i : Instr} {p n : Nat}, (p = 0x60 ∨ p = 0x61 ∨ p = 0x63) →
      exec i s = s.run (fun d => d.leTrig e p t) → branchTarget (s.dev.eng e).blink (s.dev.lePc e) p t = some n →
      Does i s (fun d => (d.rd (pgLE e) Reg.LE_PC = word n ∧ engineOnly e [Reg.LE_STALLS, Reg.LE_REDIRECTS, Reg.LE_PC] s.dev d
        ∧ s.dev.sameMem d ∧ (d.eng e).g = (s.dev.eng e).g) ∧ (d.eng e).blink = (s.dev.eng e).blink) := by
    intro i p n hp hi ht
    refine does_goesTo (g := id) hs hi (fun u => u.engineStep_refl _ _)
      (Dev.leTrig_branch ht (fun u w => u.portWrite_branch e _ w t hp)) (fun u d kept core lePc only mem => ?_)
    exact ⟨⟨lePc, only, mem, (congrArg Engine.g core).trans (kept.keeps Engine.g)⟩,
      (congrArg Engine.blink core).trans (kept.keeps Engine.blink)⟩
  have faults : ∀ {i : Instr} {p code : Nat}, exec i s = s.run (fun d => d.leTrig e p t) → code < 16 →
      (s.dev.begin.issueCycle e).portFault e (s.dev.begin.lePc e) p t = some (code, 0) →
      Does i s (fun d => (d.eng e).st = .faulted ∧ d.rd (pgLE e) Reg.LE_PC = s.dev.rd (pgLE e) Reg.LE_PC
        ∧ d.rdB (pgLE e) Reg.IRQ_STAT 0 = true ∧ d.rdB (pgLE e) Reg.LE_FAULT 31 = true
        ∧ (s.dev.rdB (pgLE e) Reg.LE_FAULT 31 = false → d.rdF (pgLE e) Reg.LE_FAULT 3 0 = code
          ∧ d.rd (pgLE e) Reg.LE_FAULT_PC = s.dev.rd (pgLE e) Reg.LE_PC)
        ∧ (d.eng e).g = (s.dev.eng e).g ∧ s.dev.sameMem d) := by
    intro i p code hi hc hf
    refine does_fault hs hi hc hf (fun d faulted only mem => ?_)
    have lePc := only.1 (pgLE e) Reg.LE_PC (by decide) (by simp)
    have g := congrArg Engine.g faulted.operands
    refine ⟨faulted.st, lePc, faulted.irq, faulted.valid, fun hv => ?_, g, mem⟩
    obtain ⟨cause, at_, _⟩ := faulted.first hv
    exact ⟨cause, at_.trans pc.symm⟩
  refine ⟨plain (.inl rfl) rfl rfl, plain (.inr (.inl rfl)) rfl (by rw [pc]; rfl), ?_, plain (.inr (.inr rfl)) rfl rfl,
    fun hok hlow ha hregion => ?_, fun hbad => ?_, fun hin => ?_, fun hout => ?_⟩
  · have h := Dev.leTrig_branch (d := s.dev.begin) (e := e) (p := 0x62) (v := t) (n := t.toNat / 4 * 4) rfl
      (fun u w => u.portWrite_call e _ w t)
    refine does_goesTo (g := fun u => u.linkSet e (s.dev.lePc e)) hs rfl (fun u => u.engineStep_onEng _) h
      (fun u d kept core lePc only mem => ?_)
    rw [Dev.linkSet, Dev.eng_onEng] at core
    refine ⟨⟨lePc, only, mem, (congrArg Engine.g core).trans (kept.keeps Engine.g)⟩, (congrArg Engine.blink core).trans ?_⟩
    rw [pc]; exact BitVec.ofNat_add _ _
  · refine does_goesTo (g := fun u => u.loopSet e (s.dev.lePc e) t.toNat) hs rfl (fun u => u.engineStep_onEng _)
      (Dev.leTrig_tstart hok) (fun u d kept core lePc only mem => ?_)
    rw [Dev.loopSet, Dev.eng_onEng] at core
    obtain ⟨g, state, count⟩ :=
      (u.eng e).loopWrite_ports u.cyc (u.eng e).lpCount (lpStateOf (s.dev.lePc e) t.toNat) true true
    obtain ⟨first, last⟩ := lpStateOf_body hok hlow ha hregion
    have lpState : (d.eng e).lpState = lpStateOf (s.dev.lePc e) t.toNat := (congrArg Engine.lpState core).trans state
    refine ⟨⟨lePc, only, mem, (congrArg Engine.g core).trans (g.trans (kept.keeps Engine.g))⟩, ?_, ?_,
      (congrArg Engine.lpCount core).trans (count.trans (kept.keeps Engine.lpCount))⟩
    · rw [lpState]; exact first
    · rw [lpState]; exact last
  · have hbad : loopOk (s.dev.begin.lePc e) t.toNat = false := hbad
    exact faults rfl (by decide) ((Dev.portFault_tstart _ _ _ _).trans (if_neg (by rw [hbad]; decide)))
  · have h := Dev.leTrig_tret (d := s.dev.begin) (e := e) (v := t) hin
    refine does_goesTo (g := fun u => u.onEng e Engine.leaveHandler) hs rfl (fun u => u.engineStep_onEng _) h
      (fun u d kept core lePc only mem => ?_)
    rw [Dev.eng_onEng] at core
    have saved : (u.eng e).evPred = (s.dev.eng e).evPred := kept.keeps Engine.evPred
    refine ⟨⟨lePc, only, mem, (congrArg Engine.g core).trans (kept.keeps Engine.g)⟩, congrArg Engine.evIn core, ?_⟩
    rw [← saved]
    exact congrArg (fun x : Engine => (x.p1, x.p2, x.p3)) core
  · have outside : ((s.dev.begin.issueCycle e).eng e).evIn = false :=
      ((s.dev.begin.coreKept_issueCycle (e := e) (l := [])).keeps Engine.evIn).trans hout
    exact faults rfl (by decide) ((Dev.portFault_tret _ _ _ _).trans (if_pos outside))

end Sys2Proof.Machine
end

/-! PROOFS. The string unit of a line engine (R211 to R214): its triggers, its operations within local data memory, and its fault. -/
section
namespace Sys2Proof.Machine

/-! ### The triggers of the string unit (R211, R214) -/

/-- An operation's trigger at the string unit of an engine: nothing starts while ST.LEN is 0. -/
def Engine.startString (x : Engine) (o : StrOp) : Engine := if x.stLen = 0 then x else { x with str := some o }

/-- The operation that a trigger in cycle c by the instruction w at a starts. -/
def strOpOf (fill : Bool) (v : Word) (c a : Nat) (w : Word) : StrOp :=
  { fill := fill, down := !fill && bit v 0, val := v, trig := c, pc := a, iword := w, moveB := false, zeroAtEnd := false, moved := 0 }

theorem Dev.portWrite_string (d : Dev) (e a : Nat) (w : Word) (fill : Bool) (v : Word) :
    d.portWrite e a w false (if fill then 0x70 else 0x6F) v = d.onEng e (fun x => x.startString (strOpOf fill v d.cyc a w)) := by
  cases fill <;> rfl

theorem Dev.portStall_string (d : Dev) (e : Nat) {p : Nat} (v : Word) (hp : 0x6C ≤ p ∧ p ≤ 0x70) :
    d.portStall e p v = (d.eng e).str.isSome := by
  simp only [Dev.portStall, lsuOp_eq_none (p := p) (.inr (by omega))]
  exact if_pos hp

/-- What a string trigger leaves while the unit is idle: its operation in the unit, or nothing done. -/
theorem does_string {e : Le} {v : Word} {s : State} {i : Instr} (fill : Bool) (hs : s.sound)
    (hi : exec i s = s.run (fun d => d.leTrig e (if fill then 0x70 else 0x6F) v)) (hidle : (s.dev.eng e).str = none) :
    Does i s (fun d => (∃ c w, (d.eng e).str =
        if (s.dev.eng e).stLen = 0 then none else some (strOpOf fill v c (s.dev.lePc e) w))
      ∧ engineOperands (d.eng e) = engineOperands (s.dev.eng e) ∧ engineOnly e [Reg.LE_STALLS] s.dev d ∧ s.dev.sameMem d) := by
  refine does_of_run i s _ _ hi ?_
  have ports : ∀ p, p = (if fill then 0x70 else 0x6F) → 0x6F ≤ p ∧ p ≤ 0x70 := by cases fill <;> simp
  obtain ⟨low, high⟩ := ports _ rfl
  have lsu := lsuOp_eq_none (.inr (by omega : 0x5F < if fill then 0x70 else 0x6F))
  have idle := ((s.dev.begin.coreKept_issueCycle (e := e) (l := [])).keeps Engine.str).trans hidle
  obtain ⟨u, w, kept, _, step, eng⟩ := Dev.leTrig_onEng (d := s.dev.begin) (e := e) (v := v)
    (f := fun w c x => x.startString (strOpOf fill v c (s.dev.lePc e) w))
    (Dev.portFault_eq_none _ _ _ _ lsu (by unfold guardedPort; omega))
    ((Dev.portStall_string _ _ _ (by omega)).trans (congrArg Option.isSome idle))
    (by unfold straightPort; omega) (fun a w => a.portWrite_string e _ w fill v)
  obtain ⟨only, mem⟩ := step.finish hs.2
  have len : (u.eng e).stLen = (s.dev.eng e).stLen := kept.keeps Engine.stLen
  have str : (u.eng e).str = none := (kept.keeps Engine.str).trans hidle
  refine ⟨⟨u.cyc, w, ?_⟩, ?_, only, mem⟩
  · rw [Dev.finish_eng, eng]
    simp only [Engine.startString, len]
    split
    · exact str
    · rfl
  · rw [Dev.finish_eng, eng]
    refine .trans ?_ (kept.keeps engineOperands)
    simp only [Engine.startString]
    split <;> rfl

/-! ### Operations within local data memory (R211, R212) -/

/-- Steps that write val j at base + j, up to n of them from step i on. -/
theorem Dev.strSteps_puts {e : Nat} {x : Engine} {o : StrOp} {base : Nat} {val : Nat → Byte} (n : Nat) {i : Nat} {d : Dev}
    (hstep : ∀ (t : Dev) j, i ≤ j → j < i + n → t.regs = d.regs →
      (∀ y, y < base + i ∨ base + j ≤ y → t.byte y = d.byte y) →
      t.strStop e x o j = none ∧ t.strStep e x o j = t.put (base + j) (val j)) :
    d.strSteps e x o n i = (d.puts (base + i) ((List.range' i n).map val), i + n, none) := by
  induction n generalizing i d with
  | zero => rfl
  | succ n ih =>
    obtain ⟨goes, writes⟩ := hstep d i (Nat.le_refl i) (by omega) rfl (fun _ _ => rfl)
    have rest := ih (i := i + 1) (d := d.put (base + i) (val i)) (fun t j hij hj hregs hbytes =>
      hstep t j (by omega) (by omega) hregs (fun y hy => by
        rw [hbytes y (by omega), Dev.byte_put, if_neg (by omega)]))
    rw [Dev.strSteps, goes]
    dsimp only
    rw [writes, rest, List.range'_succ, List.map_cons, Dev.puts, Nat.add_assoc, Nat.add_assoc, Nat.add_comm 1 n]

theorem Dev.place_data (d : Dev) (e : Nat) {a : Nat} (ha : a < 0x8000) : d.place e a = some ⟨false, dataBase e + a, 0⟩ := if_pos ha

/-- Data memory is no cache and no audio counter. -/
theorem Dev.data_writable (d : Dev) (e : Le) {a : Nat} (ha : a < 0x8000) :
    d.asCache (dataBase e + a) = false ∧ d.writable (dataBase e + a) = true := by
  have lt := e.isLt
  have noCode : ¬(dataBase e + a - localBase) % 0x10000 < 0x4000 := by simp only [dataBase, localBase]; omega
  have noCounter : ¬(audioBase + 0xF0000 ≤ dataBase e + a ∧ dataBase e + a < audioBase + 0x100000) := by
    simp only [dataBase, localBase, audioBase]; omega
  have own : d.asCache (dataBase e + a) = false := by
    rw [Dev.asCache, decide_eq_false noCode, Bool.and_false, Bool.false_and]
  exact ⟨own, by rw [Dev.writable, own, decide_eq_false noCounter]; rfl⟩

theorem dataBase_not_glyph (e a n : Nat) : inGlyph (dataBase e + a) n = false := by
  have beyond : ¬dataBase e + a + n ≤ glyphEnd := by simp only [dataBase, localBase, glyphEnd]; omega
  rw [inGlyph, decide_eq_false beyond, Bool.and_false]

/-- An ascending operation of the engine whose bytes all lie in local data memory. -/
structure Engine.localString (x : Engine) (o : StrOp) : Prop where
  op : x.str = some o
  up : o.down = false
  dst : x.stDst.toNat + x.stLen.toNat ≤ 0x8000
  src : o.fill = false → x.stSrc.toNat + x.stLen.toNat ≤ 0x8000
    ∧ (x.stDst.toNat ≤ x.stSrc.toNat ∨ x.stSrc.toNat + x.stLen.toNat ≤ x.stDst.toNat)

/-- The byte that step j of a local operation writes. -/
def Dev.strVal (d : Dev) (e : Nat) (x : Engine) (o : StrOp) (j : Nat) : Byte :=
  if o.fill then byteOf o.val.toNat ((x.stDst.toNat + j) % 4) else d.byte (dataBase e + (x.stSrc.toNat + j))

/-- A step of a local operation, where no earlier step has written the byte that it reads. -/
theorem Dev.strStep_local {e : Le} {x : Engine} {o : StrOp} (h : x.localString o) (d : Dev) {j : Nat} (hj : j < x.stLen.toNat) :
    d.strStop e x o j = none
      ∧ d.strStep e x o j = d.put (dataBase e + x.stDst.toNat + j) (d.strVal e x o j) := by
  obtain ⟨_, up, dst, src⟩ := h
  have dstAt : strDst x o j = x.stDst.toNat + j := by
    rw [strDst, up]
    exact Nat.mod_eq_of_lt (by omega)
  have toPlace := d.place_data e (a := x.stDst.toNat + j) (by omega)
  obtain ⟨_, writable⟩ := d.data_writable e (a := x.stDst.toNat + j) (by omega)
  have free : ∀ a p, d.place e a = some ⟨false, p, 0⟩ → d.strBar e a = none := fun a p hp => by rw [Dev.strBar, hp]; rfl
  cases hfill : o.fill
  · obtain ⟨hsrc, _⟩ := src hfill
    have srcAt : strSrc x o j = some (x.stSrc.toNat + j) := by
      rw [strSrc, hfill, up]
      exact congrArg some (Nat.mod_eq_of_lt (by omega))
    have fromPlace := d.place_data e (a := x.stSrc.toNat + j) (by omega)
    obtain ⟨own, _⟩ := d.data_writable e (a := x.stSrc.toNat + j) (by omega)
    constructor
    · simp only [Dev.strStop, srcAt, Option.bind_some, dstAt, free _ _ fromPlace, free _ _ toPlace, Option.map_none]
    · simp only [Dev.strStep, srcAt, dstAt, fromPlace, toPlace, writable, Dev.sharedByte, own, Dev.strVal, hfill, viewByte,
        Nat.add_assoc]
      rfl
  · have srcAt : strSrc x o j = none := by rw [strSrc, hfill]; rfl
    constructor
    · simp only [Dev.strStop, srcAt, Option.bind_none, dstAt, free _ _ toPlace, Option.map_none]
    · simp only [Dev.strStep, srcAt, dstAt, toPlace, writable, Dev.strVal, hfill, viewByte, Nat.add_assoc]
      rfl

/-- A local operation writes every byte from its own bytes as they were. -/
theorem Dev.strSteps_local {e : Le} {x : Engine} {o : StrOp} (h : x.localString o) (d : Dev) :
    d.strSteps e x o x.stLen.toNat 0
      = (d.puts (dataBase e + x.stDst.toNat) ((List.range x.stLen.toNat).map (d.strVal e x o)), x.stLen.toNat, none) := by
  have all := Dev.strSteps_puts (e := e) (x := x) (o := o) (base := dataBase e + x.stDst.toNat) (val := d.strVal e x o)
    (i := 0) (d := d) x.stLen.toNat (fun t j _ hj _ hbytes => by
      obtain ⟨goes, writes⟩ := Dev.strStep_local h t (j := j) (by omega)
      refine ⟨goes, writes.trans (congrArg _ ?_)⟩
      unfold Dev.strVal
      split
      · rfl
      · next hfill =>
        have apart := h.src (by simpa using hfill)
        exact hbytes _ (by omega))
  rw [all, List.range_eq_range', Nat.zero_add, Nat.add_zero]

/-- The bytes of a local operation written. -/
def Dev.strPuts (d : Dev) (e : Nat) (o : StrOp) : Dev :=
  let x := d.eng e
  d.puts (dataBase e + x.stDst.toNat) ((List.range x.stLen.toNat).map (d.strVal e x o))

/-- The string unit's ports after n bytes upwards. -/
def Engine.strMoved (x : Engine) (o : StrOp) (n : Nat) : Engine :=
  { x with stLen := x.stLen - word n, stDst := x.stDst + word n, str := some { o with moved := o.moved + n }
           stSrc := if o.fill then x.stSrc else x.stSrc + word n }

theorem Engine.strMoved_all (x : Engine) (o : StrOp) : (x.strMoved o x.stLen.toNat).stLen = 0
    ∧ (x.strMoved o x.stLen.toNat).stDst = x.stDst + x.stLen
    ∧ (x.strMoved o x.stLen.toNat).stSrc = if o.fill then x.stSrc else x.stSrc + x.stLen := by
  simp [Engine.strMoved, word_toNat]

theorem Dev.strRun_local {e : Le} {d : Dev} {o : StrOp} (h : (d.eng e).localString o) :
    d.strRun e (d.eng e).stLen.toNat = ((d.strPuts e o).onEng e (fun x => x.strMoved o (d.eng e).stLen.toNat), none) := by
  have up : ¬o.down = true := by simp [h.up]
  have dst := h.dst
  have first : ∀ n ≠ 0, n ≤ (d.eng e).stLen.toNat →
      d.place e (strDst (d.eng e) o 0) = some ⟨false, dataBase e + (d.eng e).stDst.toNat, 0⟩ := by
    intro n _ _
    rw [strDst, if_neg up, Nat.add_zero, Nat.mod_eq_of_lt (BitVec.isLt _)]
    exact d.place_data e (by omega)
  unfold Dev.strRun
  simp only [h.op, Nat.min_self, Dev.strSteps_local h, if_neg up]
  by_cases hn : (d.eng e).stLen.toNat = 0
  · rw [if_pos hn]; rfl
  · simp only [if_neg hn, first _ hn (Nat.le_refl _), dataBase_not_glyph]; rfl

theorem Dev.strPuts_out (d : Dev) (e : Nat) (o : StrOp) {y : Nat}
    (hy : y < dataBase e + (d.eng e).stDst.toNat ∨ dataBase e + (d.eng e).stDst.toNat + (d.eng e).stLen.toNat ≤ y) :
    (d.strPuts e o).byte y = d.byte y :=
  Dev.byte_puts_out _ _ _ _ (by simpa using hy)

theorem Dev.strPuts_in (d : Dev) (e : Nat) (o : StrOp) {i : Nat} (hi : i < (d.eng e).stLen.toNat) :
    (d.strPuts e o).byte (dataBase e + ((d.eng e).stDst.toNat + i)) = d.strVal e (d.eng e) o i := by
  rw [← Nat.add_assoc, Dev.strPuts, Dev.byte_puts_in _ _ _ _ (by simpa using hi)]
  simp

theorem Dev.puts_frame (bs : List Byte) (d : Dev) (a : Nat) :
    (d.puts a bs).mem = d.mem ∧ ∀ e, (d.puts a bs).eng e = d.eng e := by
  induction bs generalizing d a with
  | nil => exact ⟨rfl, fun _ => rfl⟩
  | cons b bs ih => exact ih _ _

theorem Dev.strPuts_frame (d : Dev) (e : Nat) (o : StrOp) :
    (d.strPuts e o).mem = d.mem ∧ (d.strPuts e o).eng e = d.eng e := by
  obtain ⟨mem, eng⟩ := Dev.puts_frame ((List.range (d.eng e).stLen.toNat).map (d.strVal e (d.eng e) o)) d
    (dataBase e + (d.eng e).stDst.toNat)
  exact ⟨mem, eng e⟩

/-- The string unit at the end of an operation, in cycle c. -/
def Engine.strEnded (x : Engine) (c : Nat) : Engine := { x with str := none, storeDone := max x.storeDone c }

/-- STRING_DONE of a local operation: in the cycle of its end every byte is written, and its ports stand behind the last one. -/
theorem Dev.stringDone_local {e : Le} {d : Dev} {o : StrOp} (h : (d.eng e).localString o) (hz : o.zeroAtEnd = false) :
    ∃ c k, d.stringDone e =
      (((d.toCyc c).strPuts e o).onEng e (fun x => x.strMoved o (d.eng e).stLen.toNat)).onEng e (fun x => x.strEnded k) := by
  have run := fun c => Dev.strRun_local (d := d.toCyc c) h
  have len : ∀ c, ((d.toCyc c).eng e).stLen.toNat = (d.eng e).stLen.toNat := fun _ => rfl
  simp only [len] at run
  refine ⟨o.trig + d.strTime e, ((d.toCyc (o.trig + d.strTime e)).strRun e (d.eng e).stLen.toNat).1.cyc, ?_⟩
  unfold Dev.stringDone
  simp only [h.op, run, hz]
  rfl

/-- What STRING_DONE of a local operation leaves. -/
theorem does_stringDone {e : Le} {s : State} {o : StrOp} (hs : s.sound) (h : (s.dev.eng e).localString o)
    (hz : o.zeroAtEnd = false) : Does (.stringDone e) s (fun d =>
      (d.eng e).str = none ∧ (d.eng e).stLen = 0 ∧ (d.eng e).stDst = (s.dev.eng e).stDst + (s.dev.eng e).stLen
      ∧ (d.eng e).stSrc = (if o.fill then (s.dev.eng e).stSrc else (s.dev.eng e).stSrc + (s.dev.eng e).stLen)
      ∧ s.dev.sameMemBut (dataBase e + (s.dev.eng e).stDst.toNat) (s.dev.eng e).stLen.toNat d
      ∧ ∀ i < (s.dev.eng e).stLen.toNat, d.byte (dataBase e + ((s.dev.eng e).stDst.toNat + i)) = s.dev.strVal e (s.dev.eng e) o i) := by
  refine does_of_run _ s (fun d => d.stringDone e) _ rfl ?_
  obtain ⟨c, k, eq⟩ := Dev.stringDone_local (d := s.dev.begin) h hz
  rw [eq]
  have byte : ∀ y, (s.dev.begin.toCyc c).byte y = s.dev.byte y := fun y => (Dev.byte_sound _ hs.2 y).symm
  have val : (s.dev.begin.toCyc c).strVal e (s.dev.eng e) o = s.dev.strVal e (s.dev.eng e) o := by
    funext j
    simp only [Dev.strVal, byte]
  have now : (s.dev.begin.toCyc c).eng e = s.dev.eng e := rfl
  obtain ⟨mem, eng⟩ := (s.dev.begin.toCyc c).strPuts_frame e o
  have outside := fun y => (s.dev.begin.toCyc c).strPuts_out e o (y := y)
  have inside := fun i => (s.dev.begin.toCyc c).strPuts_in e o (i := i)
  simp only [now, byte, val] at eng outside inside
  generalize (s.dev.begin.toCyc c).strPuts e o = t at mem eng outside inside ⊢
  have bytes : ∀ f g y, (((t.onEng e f).onEng e g).finish s.dev.mem).byte y = t.byte y := fun f g y => by
    rw [Dev.byte_of_finish s.dev _ (by rw [Dev.onEng_mem, Dev.onEng_mem, mem]; rfl), Dev.onEng_byte, Dev.onEng_byte]
  obtain ⟨len, dst, src⟩ := (s.dev.eng e).strMoved_all o
  rw [Dev.finish_eng, Dev.eng_onEng, Dev.eng_onEng, eng]
  refine ⟨rfl, len, dst, src, fun y hy => ?_, fun i hi => ?_⟩
  · rw [bytes]; exact outside y hy
  · rw [bytes]; exact inside i hi

/-! ### A byte that a fill may not touch (R214, R234) -/

theorem Engine.strMoved_zero {x : Engine} {o : StrOp} (h : x.str = some o) : x.strMoved o 0 = x := by
  simp [Engine.strMoved, word, ← h]

/-- An ascending fill with bytes to do whose first byte leads nowhere. -/
structure Dev.barredFill (d : Dev) (e : Nat) (o : StrOp) : Prop where
  op : (d.eng e).str = some o
  up : o.down = false
  fill : o.fill = true
  len : (d.eng e).stLen ≠ 0
  place : d.place e (d.eng e).stDst.toNat = none

theorem Dev.barredFill.strStop {d : Dev} {e : Nat} {o : StrOp} (h : d.barredFill e o) :
    d.strStop e (d.eng e) o 0 = some (5, (d.eng e).stDst.toNat) := by
  have dst : strDst (d.eng e) o 0 = (d.eng e).stDst.toNat := by
    rw [strDst, h.up]
    exact Nat.mod_eq_of_lt (BitVec.isLt _)
  have src : strSrc (d.eng e) o 0 = none := by rw [strSrc, h.fill]; rfl
  simp only [Dev.strStop, src, dst, Dev.strBar, h.place, Option.bind_none, Option.map_some]

theorem Dev.barredFill.strRun {d : Dev} {e : Nat} {o : StrOp} (h : d.barredFill e o) :
    d.strRun e (d.eng e).stLen.toNat = (d.onEng e (fun x => x.strMoved o 0), some (5, (d.eng e).stDst.toNat)) := by
  have up : ¬o.down = true := by simp [h.up]
  obtain ⟨n, hn⟩ : ∃ n, (d.eng e).stLen.toNat = n + 1 :=
    Nat.exists_eq_succ_of_ne_zero (fun hz => h.len (BitVec.eq_of_toNat_eq hz))
  unfold Dev.strRun
  simp only [h.op, Nat.min_self, hn, Dev.strSteps, h.strStop, if_neg up, if_true]
  rfl

/-- What bars a fill stays as long as the engine's core and LE_CTL stay. -/
theorem Dev.barredFill.kept {d t : Dev} {e : Nat} {l : List Nat} {o : StrOp} (h : d.barredFill e o) (k : d.coreKept e l t)
    (hl : Reg.LE_CTL ∉ l) : t.barredFill e o := by
  have locked : t.pmemLocked e = d.pmemLocked e := congrArg (bit · 2) (k.step.own (by decide) hl)
  refine ⟨(k.keeps Engine.str).trans h.op, h.up, h.fill, (k.keeps Engine.stLen) ▸ h.len, ?_⟩
  rw [k.keeps Engine.stDst, ← h.place]
  simp only [Dev.place, locked]

theorem Dev.coreKept_trySync {e : Nat} {l : List Nat} (d : Dev) (hpc : Reg.LE_PC ∈ l) (hr : Reg.LE_REDIRECTS ∈ l) :
    d.coreKept e l (d.trySync e) := by
  unfold Dev.trySync
  dsimp only
  split
  · exact d.coreKept_refl e l
  · split
    · exact .trans (d.coreKept_onEng _ rfl) (Dev.coreKept_redirect _ _ _ hpc hr)
    · exact d.coreKept_refl e l

/-- The fault of a barred fill acts where no swap is due and nothing holds the engine up. -/
theorem Dev.barredFill.interrupt {d : Dev} {e : Nat} {o : StrOp} (h : d.barredFill e o) (hswap : d.swapDue e = none)
    (hheld : d.heldUp e = false) (hrun : d.rdB (pgLE e) Reg.LE_CTL 0 = true) (hhalt : (d.eng e).haltReq = none) :
    d.interrupt e = some ((d.onEng e (fun x => { x with str := none })).leFault e 5 o.moveB o.pc o.iword
      (d.eng e).stDst.toNat) := by
  have barred : d.strBarred e = some (5, (d.eng e).stDst.toNat) := by
    simp only [Dev.strBarred, h.op, h.strStop, if_neg h.len]
  unfold Dev.interrupt
  simp only [hswap, hheld, hrun, hhalt, barred, h.op]
  rfl

/-- The device at the boundary at which the fault of a string operation acts, and what of its engine it found. -/
theorem Dev.barredFill.boundary {d : Dev} {e : Nat} {o : StrOp} (h : d.barredFill e o) :
    let u := (d.strRun e (d.eng e).stLen.toNat).1.trySync e
    d.coreKept e [Reg.LE_REDIRECTS, Reg.LE_PC] (((u.toCyc (u.eng e).ready).settle e).prefetch e) := by
  dsimp only
  rw [h.strRun]
  have moved : d.coreKept e [Reg.LE_REDIRECTS, Reg.LE_PC] (d.onEng e (fun x => x.strMoved o 0)) :=
    d.coreKept_onEng _ (by rw [Engine.strMoved_zero h.op])
  exact .trans (.trans moved (Dev.coreKept_trySync _ (by simp) (by simp))) (Dev.coreKept_issueCycle _)

theorem does_stringFault {e : Le} {s : State} {o : StrOp} (hs : s.sound) (h : s.dev.barredFill e o)
    (hst : (s.dev.eng e).st = .running) (hrun : s.dev.rdB (pgLE e) Reg.LE_CTL 0 = true) (hhalt : (s.dev.eng e).haltReq = none)
    (hswap : let u := (s.dev.begin.strRun e (s.dev.eng e).stLen.toNat).1.trySync e
      (((u.toCyc (u.eng e).ready).settle e).prefetch e).swapDue e = none)
    (hheld : let u := (s.dev.begin.strRun e (s.dev.eng e).stLen.toNat).1.trySync e
      (((u.toCyc (u.eng e).ready).settle e).prefetch e).heldUp e = false) :
    Does (.stringFault e) s (fun d => (d.eng e).st = .faulted ∧ (d.eng e).str = none
      ∧ (s.dev.rdB (pgLE e) Reg.LE_FAULT 31 = false → d.rdF (pgLE e) Reg.LE_FAULT 3 0 = 5
        ∧ d.rd (pgLE e) Reg.LE_FAULT_ADDR = (s.dev.eng e).stDst) ∧ s.dev.sameMem d) := by
  refine does_of_run _ s (fun d => d.stringFault e) _ rfl ?_
  have hb : s.dev.begin.barredFill e o := ⟨h.op, h.up, h.fill, h.len, h.place⟩
  have kept := hb.boundary
  have run := hb.strRun
  dsimp only [Dev.begin_eng] at kept run hswap hheld
  unfold Dev.stringFault
  rw [Dev.begin_eng, h.op]
  dsimp only
  rw [if_neg (by rw [hst]; decide), run]
  dsimp only
  rw [run] at kept hswap hheld
  dsimp only at kept hswap hheld
  generalize ((((s.dev.begin.onEng e _).trySync e).toCyc _).settle e).prefetch e = t at kept hswap hheld ⊢
  rw [(hb.kept kept (by simp)).interrupt hswap hheld ((congrArg (bit · 0) (kept.step.own (by decide) (by simp))).trans hrun)
    ((kept.keeps Engine.haltReq).trans hhalt)]
  dsimp only
  have step := (((kept.step.mono (l' := Reg.LE_REDIRECTS :: Reg.LE_PC :: faultWords) (by simp)).trans
    (t.engineStep_onEng (fun x => { x with str := none }))).trans
      ((Dev.leFault_step _ e 5 o.moveB o.pc o.iword (t.eng e).stDst.toNat).mono (by simp)))
  have faulted := (t.onEng e (fun x => { x with str := none })).leFault_faultsWith e 5 o.moveB o.pc o.iword
    (t.eng e).stDst.toNat (by decide)
  obtain ⟨_, mem⟩ := step.finish hs.2
  have str := faulted.str
  rw [Dev.eng_onEng] at str
  refine ⟨faulted.st, str, fun hv => ?_, mem⟩
  obtain ⟨cause, _, addr⟩ := faulted.first ((congrArg (bit · 31) (kept.step.own (by decide) (by simp))).trans hv)
  exact ⟨cause, addr.trans ((word_toNat _).trans (kept.keeps Engine.stDst))⟩

/-- A weaker result. -/
theorem Does.imp {i : Instr} {s : State} {p q : Dev → Prop} (h : Does i s p) (hpq : ∀ d, p d → q d) : Does i s q := by
  obtain ⟨t, next, pending, post⟩ := h
  exact ⟨t, next, pending, hpq _ post⟩

/-- Settles O11: a trigger's port starts the unit; a local operation writes each byte from its own bytes as they were; a fill
that may not touch its first byte faults at the boundary. -/
theorem strings : Obligations.Strings := by
  intro e v s hs
  dsimp only
  refine ⟨fun hidle hlen => ⟨?_, ?_⟩, fun hidle hlen => ⟨?_, ?_⟩,
    fun o hop hup hz hdst => ⟨fun hfill => ?_, fun hfill hsrc hapart => ?_⟩,
    fun o hop hup hfill hlen hst hswap hheld hrun hhalt hplace => ?_⟩
  · refine (does_string false hs rfl hidle).imp (fun d ⟨⟨c, w, str⟩, operands, only, mem⟩ => ?_)
    rw [if_neg hlen] at str
    exact ⟨⟨_, str, rfl, rfl⟩, operands, only, mem⟩
  · refine (does_string true hs rfl hidle).imp (fun d ⟨⟨c, w, str⟩, operands, only, mem⟩ => ?_)
    rw [if_neg hlen] at str
    exact ⟨⟨_, str, rfl, rfl⟩, operands, only, mem⟩
  · exact (does_string false hs rfl hidle).imp (fun d ⟨⟨_, _, str⟩, _, _, mem⟩ => ⟨str.trans (if_pos hlen), mem⟩)
  · exact (does_string true hs rfl hidle).imp (fun d ⟨⟨_, _, str⟩, _, _, mem⟩ => ⟨str.trans (if_pos hlen), mem⟩)
  · refine (does_stringDone hs ⟨hop, hup, hdst, by simp [hfill]⟩ hz).imp (fun d ⟨str, len, dst, _, outside, inside⟩ => ?_)
    simp only [Dev.strVal, if_pos hfill] at inside
    exact ⟨str, len, dst, outside, inside⟩
  · have moves : ¬o.fill = true := by simp [hfill]
    refine (does_stringDone hs ⟨hop, hup, hdst, fun _ => ⟨hsrc, hapart⟩⟩ hz).imp
      (fun d ⟨str, len, dst, src, outside, inside⟩ => ?_)
    simp only [Dev.strVal, if_neg moves] at inside
    exact ⟨str, len, dst, src.trans (if_neg moves), outside, inside⟩
  · exact does_stringFault hs ⟨hop, hup, hfill, hlen, hplace⟩ hst hrun hhalt hswap hheld

end Sys2Proof.Machine
end

/-! PROOFS. The fetch of a long immediate move: its decoding (R184, R235), the fetch path (R245, R248), and what waits for it. -/
section
namespace Sys2Proof.Machine

/-! ### A long immediate move (R184, R235) -/

/-- The word of the long immediate move of i to port k. -/
abbrev longMove (k i : Nat) : Word := word (0x40000000 + k * 65536 + i)

/-- The instruction: its one move, always performed. -/
def immMove (k i : Nat) : LeInstr := { moves := [{ dst := k, imm := true, src := unsign 32 (signed 16 i) }], pred := 0, want := true }

section
variable {k i : Nat} (hk : k < 32) (hi : i < 65536)
include hk hi

theorem longMove_fields : bit (longMove k i) 31 = false ∧ bit (longMove k i) 30 = true ∧ field (longMove k i) 29 27 = 0
    ∧ field (longMove k i) 26 16 = k ∧ field (longMove k i) 15 0 = i := by
  have small : 0x40000000 + k * 65536 + i < 2 ^ 32 := by omega
  simp only [longMove, bit_word small, field_word small]
  exact ⟨decide_eq_false (by omega), decide_eq_true (by omega), by omega, by omega, by omega⟩

theorem leDecode_longMove : leDecode (longMove k i) = immMove k i := by
  obtain ⟨long, imm, guard, dst, src⟩ := longMove_fields hk hi
  simp only [leDecode, long, imm, guard, dst, src, immMove]
  rfl

theorem encodingFault_longMove : encodingFault (longMove k i) (immMove k i) = none := by
  obtain ⟨long, imm, guard, _, _⟩ := longMove_fields hk hi
  have writes : portWrites k = true := by simp [portWrites, hk]
  simp [encodingFault, immMove, long, imm, guard, writes]

end

/-- The value that the move writes. -/
def immValue (i : Nat) : Word := word (unsign 32 (signed 16 i))

theorem Dev.performed_immMove (d : Dev) (e k i : Nat) : d.performed e (immMove k i) = [(k, immValue i)] := rfl

theorem Dev.instrStalls_immMove (d : Dev) (e i : Nat) {k : Nat} (hk : k < 32) : d.instrStalls e (immMove k i) = false := by
  have goes := d.portStall_eq_false e (p := k) (immValue i) (lsuOp_eq_none (by omega)) (by omega)
  have noRead : (immMove k i).moves.any (fun m => !m.imm && m.src == 0x59) = false := rfl
  simp [Dev.instrStalls, Dev.performed_immMove, noRead, goes]

theorem Dev.issueFrom_immMove (d : Dev) (e i : Nat) {k : Nat} (hk : k < 32) : d.issueFrom e (immMove k i) = 0 := by
  have now : d.writeFrom e k (immValue i) = 0 := by
    simp only [Dev.writeFrom, lsuOp_eq_none (.inl (by omega : k < 0x58))]
    exact if_neg (by omega)
  have noRead : (immMove k i).moves.map (fun m => if !m.imm && m.src == 0x59 then (d.eng e).sharedAt else 0) = [0] := rfl
  unfold Dev.issueFrom
  dsimp only
  rw [Dev.performed_immMove, noRead]
  simp [now]

theorem Dev.issueOrWait_immMove (d : Dev) (e pc : Nat) (w : Word) {k : Nat} (i : Nat) (hk : k < 32) (toEnd : Bool) :
    d.issueOrWait e pc w false (immMove k i) toEnd = d.issue e pc w false (immMove k i) := by
  have lsu : lsuOp k = none := lsuOp_eq_none (by omega)
  have noFault := d.portFault_eq_none e pc (immValue i) lsu (by unfold guardedPort; omega)
  have noWait : (k == 0x73 || k == 0x74) = false := by simp; omega
  simp only [Dev.issueOrWait, Dev.performed_immMove, Dev.moveFault, noFault, Option.map_none, List.find?_cons, noWait, List.find?_nil]

/-! ### The fetch path (R245, R248, R250) -/

/-- The part of an engine that fetching changes, and a FETCH_SYNC that it waits for. -/
def Engine.path (x : Engine) : Engine :=
  { ({} : Engine) with
    fq := x.fq, fpc := x.fpc, fcyc := x.fcyc, missing := x.missing, btb := x.btb, stale := x.stale, lbufOn := x.lbufOn
    syncAt := x.syncAt }

theorem Dev.settle_path (d : Dev) (e : Nat) : ((d.settle e).eng e).path = (d.eng e).path := by
  rw [Dev.settle, Dev.eng_onEng]
  exact forL_rel (fun a b : Engine => b.path = a.path) (fun _ => rfl) (fun _ _ _ h h' => h'.trans h) _ _
    (fun f x => by cases f.2 <;> rfl) _

/-- Fetch goes on at pc, and takes its word from memory. -/
structure Engine.aims (x : Engine) (pc : Nat) : Prop where
  fq : x.fq = []
  fpc : x.fpc = pc
  missing : x.missing = none
  btb : x.btb = []
  stale : x.stale = []
  lbufOn : x.lbufOn = false
  syncAt : x.syncAt = none

/-- The word w at pc is fetched, its F2 in cycle c, and the path goes on with the next word. -/
structure Engine.holds (x : Engine) (pc : Nat) (w : Word) (c : Nat) : Prop where
  head : x.fq.head? = some (pc, w, false, false, c)
  next : x.pathNext = pc + 4
  syncAt : x.syncAt = none

theorem Engine.aims.of_path {x y : Engine} {pc : Nat} (h : x.aims pc) (hp : y.path = x.path) : y.aims pc := by
  have same : x.path.aims pc := ⟨h.fq, h.fpc, h.missing, h.btb, h.stale, h.lbufOn, h.syncAt⟩
  rw [← hp] at same
  exact ⟨same.fq, same.fpc, same.missing, same.btb, same.stale, same.lbufOn, same.syncAt⟩

theorem Engine.holds.of_path {x y : Engine} {pc c : Nat} {w : Word} (h : x.holds pc w c) (hp : y.path = x.path) :
    y.holds pc w c := by
  have same : x.path.holds pc w c := ⟨h.head, h.next, h.syncAt⟩
  rw [← hp] at same
  exact ⟨same.head, same.next, same.syncAt⟩

/-- A further word fetched leaves the first word and the one after it. -/
theorem Engine.holds.append {x y : Engine} {pc c : Nat} {w : Word} {r : Word × Bool × Bool × Nat} (h : x.holds pc w c)
    (hq : y.fq = x.fq ++ [(x.fpc, r)]) (hs : y.syncAt = x.syncAt) : y.holds pc w c := by
  obtain ⟨head, next, sync⟩ := h
  obtain ⟨l, hl⟩ : ∃ l, x.fq = (pc, w, false, false, c) :: l := List.head?_eq_some_iff.mp head
  refine ⟨by rw [hq, hl]; rfl, ?_, hs.trans sync⟩
  rw [← next, Engine.pathNext, Engine.pathNext, hq, hl]
  cases l <;> rfl

theorem Engine.engage_holds {x : Engine} {pc c : Nat} {w : Word} (h : x.holds pc w c) (a : Nat) : (x.engage a).holds pc w c := by
  unfold Engine.engage
  split
  · exact ⟨h.head, h.next, h.syncAt⟩
  · exact h

theorem Engine.touch_syncAt (x : Engine) (a : Nat) : (x.touch a).syncAt = x.syncAt := by
  unfold Engine.touch
  split <;> rfl

theorem Dev.fetchAhead_holds {e pc c : Nat} {w : Word} (n : Nat) {d : Dev} (h : (d.eng e).holds pc w c) :
    ((d.fetchAhead e n).eng e).holds pc w c := by
  induction n generalizing d with
  | zero => exact h
  | succ n ih =>
    have engaged : ((d.onEng e (fun x => if x.fq.length < fetchDepth ∧ x.fcyc + 1 ≤ d.cyc then x.engage x.fpc else x)).eng e).holds
        pc w c := by
      rw [Dev.eng_onEng]
      split
      · exact Engine.engage_holds h _
      · exact h
    rw [Dev.fetchAhead]
    generalize d.onEng e _ = a at engaged ⊢
    dsimp only
    split
    · exact engaged
    · split
      · rw [Dev.eng_onEng]; exact ⟨engaged.head, engaged.next, engaged.syncAt⟩
      · exact ih (by rw [Dev.eng_setEng]; exact engaged.append rfl (Engine.touch_syncAt _ _))

/-! ### An engine at a long immediate move -/

/-- The engine has nothing else to do, and no loop is active. -/
structure Engine.calm (x : Engine) : Prop where
  wait : x.wait = none
  haltReq : x.haltReq = none
  epend : x.epend = 0
  count : x.lpCount = 0
  str : x.str = none
  inval : x.invalReq = false

/-- The engine is calm and stands at the word w of its locked program memory, with no stop, swap or breakpoint set. -/
structure Dev.standsAt (d : Dev) (e pc : Nat) (w : Word) : Prop where
  calm : (d.eng e).calm
  run : d.rdB (pgLE e) Reg.LE_CTL 0 = true
  locked : d.pmemLocked e = true
  noSwap : d.rdB (pgLE e) Reg.LE_SWAP_CTL 8 = false
  noBreak : field (d.rd (pgLE e) Reg.LE_DBG) 7 0 = 0
  lePc : d.lePc e = pc
  inside : 0x10000 ≤ pc ∧ pc < 0x13FFC
  word : word (d.num (progBase e + (pc - 0x10000)) 4) = w

theorem bit_of_field_zero {w : Word} {n hi : Nat} (h : field w hi 0 = 0) (hn : n ≤ hi) : bit w n = false := by
  have low := congrArg (Nat.testBit · n) h
  rw [bit, ← BitVec.testBit_toNat]
  simpa [field, Nat.testBit_mod_two_pow, Nat.lt_succ_of_le hn] using low

section
variable {d t : Dev} {e pc : Nat} {w : Word}

theorem Dev.coreKept.calm (k : d.coreKept e [] t) (h : (d.eng e).calm) : (t.eng e).calm :=
  ⟨(k.keeps Engine.wait).trans h.wait, (k.keeps Engine.haltReq).trans h.haltReq,
    (k.keeps Engine.epend).trans h.epend, (k.keeps Engine.lpCount).trans h.count, (k.keeps Engine.str).trans h.str,
    (k.keeps Engine.invalReq).trans h.inval⟩

theorem Dev.standsAt.kept (h : d.standsAt e pc w) (k : d.coreKept e [] t) : t.standsAt e pc w := by
  have words : ∀ off, off < 4096 → t.rd (pgLE e) off = d.rd (pgLE e) off := fun off ho => k.step.own ho (by simp)
  refine ⟨k.calm h.calm, ?_, ?_, ?_, ?_, ?_, h.inside, ?_⟩
  · rw [Dev.rdB, words _ (by decide)]; exact h.run
  · rw [Dev.pmemLocked, Dev.rdB, words _ (by decide)]; exact h.locked
  · rw [Dev.rdB, words _ (by decide)]; exact h.noSwap
  · rw [words _ (by decide)]; exact h.noBreak
  · rw [Dev.lePc, Dev.rdN, words _ (by decide)]; exact h.lePc
  · rw [Dev.num, Dev.bytes_congr k.step.byte]; exact h.word

theorem Dev.standsAt.interrupt (h : d.standsAt e pc w) : d.interrupt e = none := by
  have noSwap : d.swapDue e = none := by simp [Dev.swapDue, h.noSwap]
  have noFault : d.strBarred e = none := by simp [Dev.strBarred, h.calm.str]
  have noEvent : (d.eng e).takeable = false := by simp [Engine.takeable, h.calm.epend]
  simp [Dev.interrupt, noSwap, noFault, noEvent, h.run, h.calm.haltReq]

theorem Dev.standsAt.bpHit (h : d.standsAt e pc w) (a : Nat) : d.bpHit e a = false := by
  have clear : ∀ n < 4, d.rdB (pgLE e) Reg.LE_DBG (4 + n) = false := fun n hn => bit_of_field_zero h.noBreak (by omega)
  have noMatch : (List.range 4).any (fun n => d.rdB (pgLE e) Reg.LE_DBG (4 + n) && d.rdN (pgLE e) (Reg.LE_BP + 4 * n) == a)
      = false := by
    rw [List.any_eq_false]
    intro n hn
    simp [clear n (List.mem_range.mp hn)]
  rw [Dev.bpHit, noMatch, Bool.and_false]

theorem Dev.standsAt.fetchFault (h : d.standsAt e pc w) : d.fetchFault e pc = none := by
  have inside : 0x10000 ≤ pc ∧ pc < 0x14000 := ⟨h.inside.1, by have := h.inside.2; omega⟩
  simp [Dev.fetchFault, h.locked, inside]

theorem Dev.standsAt.fetched (h : d.standsAt e pc w) (ha : (d.eng e).aims pc) : d.fetched e pc = some (w, false) := by
  have inside : pc < 0x18000000 := by have := h.inside.2; omega
  simp [Dev.fetched, ha.lbufOn, ha.stale, inside, h.word]

theorem Engine.aims.predict {x : Engine} (ha : x.aims pc) (hc : x.lpCount = 0) (low : 0x10000 ≤ pc) (high : pc < 0x13FFC)
    (det : Bool) : x.predict det pc = (pc + 4, false) := by
  have noEntry : (if det then (0, 0, false) else spGet (fun _ => (0, 0, false)) x.btb (pc / 4 % 64)) = (0, 0, false) := by
    rw [ha.btb]; exact ite_self _
  have behind : pc + 4 < 4294967296 := by omega
  have other : 0 ≠ pc := by omega
  simp [Engine.predict, noEntry, other, hc, seqNext, Nat.mod_eq_of_lt behind]

theorem Dev.standsAt.fetchAhead (h : d.standsAt e pc w) (ha : (d.eng e).aims pc) (n : Nat) :
    (d.cyc < (d.eng e).fcyc + 1 ∧ (d.fetchAhead e (n + 1)).eng e = d.eng e)
      ∨ ((d.eng e).fcyc + 1 ≤ d.cyc ∧ ((d.fetchAhead e (n + 1)).eng e).holds pc w ((d.eng e).fcyc + 1)) := by
  obtain ⟨low, high⟩ := h.inside
  have noLoop : ∀ a, (d.eng e).engage a = d.eng e := fun a => if_neg (by simp [Engine.inBody, h.calm.count])
  have same : (d.onEng e (fun x => if x.fq.length < fetchDepth ∧ x.fcyc + 1 ≤ d.cyc then x.engage x.fpc else x)).eng e = d.eng e := by
    rw [Dev.eng_onEng, noLoop, ite_self]
  have kept : d.coreKept e [] (d.onEng e (fun x => if x.fq.length < fetchDepth ∧ x.fcyc + 1 ≤ d.cyc then x.engage x.fpc else x)) :=
    d.coreKept_onEng _ (by rw [noLoop, ite_self])
  have cyc : (d.onEng e (fun x => if x.fq.length < fetchDepth ∧ x.fcyc + 1 ≤ d.cyc then x.engage x.fpc else x)).cyc = d.cyc := rfl
  rw [Dev.fetchAhead]
  generalize d.onEng e _ = a at same kept cyc ⊢
  have word := (h.kept kept).fetched (same ▸ ha)
  have noFault := (h.kept kept).fetchFault
  dsimp only
  rw [same, cyc, ha.fpc, ha.fq, ha.missing, noFault]
  by_cases now : (d.eng e).fcyc + 1 ≤ d.cyc
  · rw [if_neg (by simp; omega), word]
    dsimp only
    rw [ha.predict h.calm.count low high]
    refine .inr ⟨now, Dev.fetchAhead_holds n ?_⟩
    rw [Dev.eng_setEng]
    exact ⟨rfl, rfl, (Engine.touch_syncAt _ _).trans ha.syncAt⟩
  · exact .inl ⟨by omega, by rw [if_pos (by omega)]; exact same⟩

/-- Fetching ahead gives the word once its F2 has come. -/
theorem Dev.standsAt.prefetch (h : d.standsAt e pc w) (hst : (d.eng e).st = .running) (ha : (d.eng e).aims pc) :
    (d.cyc < (d.eng e).fcyc + 1 ∧ ((d.prefetch e).eng e) = d.eng e)
      ∨ ((d.eng e).fcyc + 1 ≤ d.cyc ∧ ((d.prefetch e).eng e).holds pc w ((d.eng e).fcyc + 1)) := by
  have start : d.fetchStart e = d := by simp [Dev.fetchStart, ha.fq, ha.fpc, h.lePc]
  rw [Dev.prefetch, if_neg (by simp [hst]), start]
  exact h.fetchAhead ha 4

/-! ### The instruction issues (R245) -/

theorem Dev.leReady_eq_issueCycle (hs : (d.eng e).syncAt = none) (hstr : (d.eng e).str = none) : d.leReady e = d.issueCycle e := by
  have noSync : d.trySync e = d := by simp [Dev.trySync, hs]
  have settled : (((d.toCyc (d.eng e).ready).settle e).eng e).str = none :=
    ((Dev.coreKept_toCyc (e := e) (l := []) d _).trans (Dev.coreKept_settle _) |>.keeps Engine.str).trans hstr
  have noOp : ((d.toCyc (d.eng e).ready).settle e).strDue e = (d.toCyc (d.eng e).ready).settle e := by
    simp [Dev.strDue, Dev.strAdvance, settled]
  unfold Dev.leReady
  dsimp only
  rw [noSync, noOp, ← Dev.issueCycle]

theorem Dev.settled_path (d : Dev) (e n : Nat) : (((d.toCyc n).settle e).eng e).path = (d.eng e).path := by
  rw [Dev.settle_path, Dev.toCyc, Dev.pass_eng]

/-- By its issue cycle the engine has fetched the word, or will have fetched it when its F2 has come. -/
theorem Dev.standsAt.issueCycle (h : d.standsAt e pc w) (hst : (d.eng e).st = .running) (ha : (d.eng e).aims pc) :
    ((d.issueCycle e).eng e).aims pc ∨ ∃ c, ((d.issueCycle e).eng e).holds pc w c := by
  have aims : (((d.toCyc (d.eng e).ready).settle e).eng e).aims pc := ha.of_path (d.settled_path e _)
  have kept := (d.coreKept_toCyc (e := e) (l := []) (d.eng e).ready).trans (Dev.coreKept_settle _)
  rw [Dev.issueCycle]
  obtain ⟨_, same⟩ | ⟨_, holds⟩ := (h.kept kept).prefetch ((kept.keeps Engine.st).trans hst) aims
  · exact .inl (by rw [same]; exact aims)
  · exact .inr ⟨_, holds⟩

theorem Dev.coreKept_leFetch (d : Dev) : d.coreKept e [] (d.leFetch e) := by
  unfold Dev.leFetch
  dsimp only
  split
  · exact (d.coreKept_toCyc _).trans (Dev.coreKept_settle _)
  · split
    · exact d.coreKept_refl e []
    · exact ((d.coreKept_toCyc _).trans (Dev.coreKept_settle _)).trans (Dev.coreKept_prefetch _)

theorem Dev.cyc_toCyc (d : Dev) (c : Nat) : c ≤ (d.toCyc c).cyc := by
  show c ≤ d.clock.cyc + (c - d.clock.cyc)
  omega

theorem Dev.standsAt.leFetch (h : d.standsAt e pc w) (hst : (d.eng e).st = .running)
    (hf : (d.eng e).aims pc ∨ ∃ c, (d.eng e).holds pc w c) : ∃ c, ((d.leFetch e).eng e).holds pc w c := by
  obtain ha | ⟨c, held⟩ := hf
  · have aims : (((d.toCyc ((d.eng e).fcyc + 2)).settle e).eng e).aims pc := ha.of_path (d.settled_path e _)
    have kept := (d.coreKept_toCyc (e := e) (l := []) ((d.eng e).fcyc + 2)).trans (Dev.coreKept_settle _)
    have path := d.settled_path e ((d.eng e).fcyc + 2)
    have fcyc : (((d.toCyc ((d.eng e).fcyc + 2)).settle e).eng e).fcyc = (d.eng e).fcyc := by
      have fcyc := congrArg Engine.fcyc path
      exact fcyc
    have came : (d.eng e).fcyc + 2 ≤ ((d.toCyc ((d.eng e).fcyc + 2)).settle e).cyc := d.cyc_toCyc _
    have fetches : d.leFetch e = ((d.toCyc ((d.eng e).fcyc + 2)).settle e).prefetch e := by
      simp [Dev.leFetch, ha.fq, ha.missing, h.lePc, h.fetchFault]
    rw [fetches]
    obtain ⟨late, _⟩ | ⟨_, holds⟩ := (h.kept kept).prefetch ((kept.keeps Engine.st).trans hst) aims
    · omega
    · exact ⟨_, holds⟩
  · have fetches : d.leFetch e = (d.toCyc (c + 1)).settle e := by simp [Dev.leFetch, held.head]
    rw [fetches]
    exact ⟨c, held.of_path (d.settled_path e _)⟩

end

section
variable {d : Dev} {e pc k i : Nat} (hk : k < 32) (hi : i < 65536)
include hk hi

/-- The long immediate move at LE_PC issues as soon as it is fetched. -/
theorem Dev.standsAt.leNext (h : d.standsAt e pc (longMove k i)) (hst : (d.eng e).st = .running) (ha : (d.eng e).aims pc) :
    ∃ b c, d.coreKept e [] b ∧ (b.eng e).holds pc (longMove k i) c
      ∧ d.leNext e false = b.issue e pc (longMove k i) false (immMove k i) := by
  have kept := d.coreKept_issueCycle (e := e) (l := [])
  have stands := h.kept kept
  have path := h.issueCycle hst ha
  have sync : ((d.issueCycle e).eng e).syncAt = none := by
    obtain aims | ⟨_, holds⟩ := path
    · exact aims.syncAt
    · exact holds.syncAt
  obtain ⟨c, holds⟩ := stands.leFetch ((kept.keeps Engine.st).trans hst) path
  refine ⟨_, c, kept.trans (Dev.coreKept_leFetch _), holds, ?_⟩
  unfold Dev.leNext
  dsimp only
  rw [if_neg (by simp [hst]), Dev.leReady_eq_issueCycle ha.syncAt h.calm.str, stands.interrupt]
  dsimp only
  rw [sync, stands.calm.wait, if_neg (by simp), if_neg (by simp), stands.lePc, stands.bpHit, if_neg (by simp), holds.head]
  dsimp only
  rw [leDecode_longMove hk hi, encodingFault_longMove hk hi]
  dsimp only
  rw [Dev.instrStalls_immMove _ _ _ hk, Dev.issueFrom_immMove _ _ _ hk, if_neg (by simp), if_neg (by simp),
    Dev.issueOrWait_immMove _ _ _ _ _ hk]

end

/-- The registers that an issue changes. -/
abbrev issueWords : List Nat := [Reg.LE_STALLS, Reg.LE_PC, Reg.LE_ISSUED, Reg.LE_ISSUED + 4]

/-- The move has issued: its register is written, it is counted, and execution goes on at the next word. -/
structure Dev.moved (e k i pc : Nat) (l : List Nat) (d t : Dev) : Prop where
  step : d.engineStep e l t
  g : (t.eng e).g = (d.eng e).g.set k (immValue i)
  lePc : t.rd (pgLE e) Reg.LE_PC = word (pc + 4)
  count : t.rd64 (pgLE e) Reg.LE_ISSUED = (d.rd64 (pgLE e) Reg.LE_ISSUED + 1) % 2 ^ 64

end Sys2Proof.Machine
end

/-! PROOFS. A long immediate move issues and is counted (R181, R190, R245); STEP (R267); a line that arrives (R241, R243). -/
section
namespace Sys2Proof.Machine

theorem Dev.endStall_path (d : Dev) (e : Nat) : ((d.endStall e).eng e).path = (d.eng e).path := by
  unfold Dev.endStall
  split
  · have eng (a : Dev) (off n : Nat) : (a.add32 (pgLE e) off n).eng e = a.eng e := rfl
    rw [eng, Dev.eng_onEng]
    rfl
  · rfl

/-- An issued instruction's traces in the engine. -/
def Engine.issued (x : Engine) (pc : Nat) (w : Word) : Engine :=
  { (x.capture pc w).loopAction pc with wait := none, useHeld := false, skipBp := false }

/-- The engine's traces beside its ports, its state, what may still act on it, and where its fetch path goes on. -/
theorem Engine.issued_kept {x : Engine} (hc : x.lpCount = 0) (pc : Nat) (w : Word) :
    (x.issued pc w).g = x.g ∧ (x.issued pc w).st = x.st ∧ (x.issued pc w).invalReq = x.invalReq
      ∧ (x.issued pc w).stepping = x.stepping ∧ (x.issued pc w).pathNext = x.pathNext := by
  have noBody : x.capture pc w = x := if_neg (by simp [Engine.inBody, hc])
  have noLoop : x.loopAction pc = x := if_neg (by simp [hc])
  rw [Engine.issued, noBody, noLoop]
  exact ⟨rfl, rfl, rfl, rfl, rfl⟩

theorem Dev.add64_eng (d : Dev) (p off n e : Nat) : (d.add64 p off n).eng e = d.eng e := by
  obtain ⟨r, hr⟩ := d.add64_eq p off n
  rw [hr]
  rfl

/-- The device in which the move to port k has been made, and execution goes on at the next word. -/
def Dev.madeMove (d : Dev) (e pc : Nat) (w : Word) (k i : Nat) : Dev :=
  ((((d.endStall e).add64 (pgLE e) Reg.LE_ISSUED 1).onEng e (fun x => x.issued pc w)).onEng e
    (fun x => { x with g := x.g.set k (immValue i) })).follow e d.cyc (pc + 4)

theorem Dev.madeMove_eng {d : Dev} {e pc : Nat} {w : Word} (h : (d.eng e).calm) (k i : Nat) :
    let x := (d.madeMove e pc w k i).eng e
    x.g = (d.eng e).g.set k (immValue i) ∧ x.st = (d.eng e).st ∧ x.invalReq = false ∧ x.stepping = (d.eng e).stepping := by
  have kept := d.coreKept_endStall (e := e) (l := [Reg.LE_STALLS]) (by simp)
  unfold Dev.madeMove Dev.follow
  generalize d.endStall e = u at kept ⊢
  have counted : (u.add64 (pgLE e) Reg.LE_ISSUED 1).eng e = u.eng e := u.add64_eng _ _ _ _
  obtain ⟨g, st, inval, stepping, _⟩ := Engine.issued_kept ((kept.keeps Engine.lpCount).trans h.count) pc w
  generalize u.add64 (pgLE e) Reg.LE_ISSUED 1 = a at counted ⊢
  dsimp only
  rw [Dev.eng_onEng]
  rw [Dev.setPc, Dev.wrN, Dev.wr_eng, Dev.eng_onEng, Dev.eng_onEng, counted]
  dsimp only
  rw [g, st, inval, stepping, kept.keeps Engine.g, kept.keeps Engine.st, kept.keeps Engine.invalReq, kept.keeps Engine.stepping]
  exact ⟨rfl, rfl, h.inval, rfl⟩

theorem Dev.issue_immMove {d : Dev} {e pc k i c : Nat} {w : Word} (h : d.standsAt e pc w) (hx : (d.eng e).holds pc w c) (hk : k < 32) :
    d.issue e pc w false (immMove k i) =
      if (d.eng e).stepping then (d.madeMove e pc w k i).leHalt e 2 else d.madeMove e pc w k i := by
  obtain ⟨low, high⟩ := h.inside
  obtain ⟨_, _, inval, stepping⟩ := Dev.madeMove_eng (pc := pc) (w := w) h.calm k i
  have kept := d.coreKept_endStall (e := e) (l := [Reg.LE_STALLS]) (by simp)
  have held := hx.of_path (d.endStall_path e)
  delta Dev.issue
  extract_lets p det now u ms u1 u2 x branch start tret sync skip next taken loop fetched u3 u4 last u5 u6 u7
  have moves : ms = [(k, immValue i)] := rfl
  have eng : x = u.eng e := u.add64_eng _ _ _ _
  have count : x.lpCount = 0 := eng ▸ (kept.keeps Engine.lpCount).trans h.calm.count
  have noBranch : branch = none := by
    simp [branch, moves, branchTarget_eq_none (.inl (by omega : k < 0x60))]
  have noStart : start = none := by simp [start, moves]; omega
  have noTret : tret = false := by simp [tret, moves]; omega
  have noSync : sync = false := by simp [sync, moves]; omega
  have behind : next = pc + 4 := by
    simp only [next, noBranch, noTret, noStart, count, seqNext]
    simp
    omega
  have goesOn : fetched = true := by
    have path : next = x.pathNext := by rw [behind, eng]; exact held.next.symm
    simp [fetched, path]
  have noSkip : skip = false := by simp [skip, noStart]
  have same : u3 = (u.add64 (pgLE e) Reg.LE_ISSUED 1).onEng e (fun x => x.issued pc w) := by
    simp only [u3, noBranch]
    rfl
  have wrote : u4 = u3.onEng e (fun x => { x with g := x.g.set k (immValue i) }) := by
    simp only [u4, moves, Dev.doWrites]
    exact if_pos hk
  have lastNow : last = d.cyc := by simp [last, now, immMove]
  have done : u5 = d.madeMove e pc w k i := by
    have straight : ¬(tret || !fetched || det && (branch.isSome || skip)) = true := by simp [noTret, goesOn, noBranch, noSkip]
    have follows : u5 = u4.follow e last next := if_neg straight
    rw [follows, lastNow, behind, wrote, same]
    rfl
  have noSyncs : u6 = d.madeMove e pc w k i := by simp [u6, noSync, done]
  have noInval : u7 = d.madeMove e pc w k i := by simp [u7, noSyncs, inval]
  rw [noInval, stepping]

theorem Dev.engineStep.own64 {e : Nat} {l : List Nat} {d t : Dev} (h : d.engineStep e l t) {off : Nat} (ho : off + 4 < 4096)
    (hk : off ∉ l) (hk' : off + 4 ∉ l) : t.rd64 (pgLE e) off = d.rd64 (pgLE e) off := by
  rw [Dev.rd64, Dev.rdN, Dev.rdN, h.own (by omega) hk, h.own ho hk']
  rfl

theorem Dev.madeMove_moved {d : Dev} {e pc : Nat} {w : Word} (h : (d.eng e).calm) (k i : Nat) :
    d.moved e k i pc issueWords (d.madeMove e pc w k i) := by
  obtain ⟨g, _, _, _⟩ := Dev.madeMove_eng (pc := pc) (w := w) h k i
  have stalled := (d.coreKept_endStall (e := e) (l := [Reg.LE_STALLS]) (by simp)).step
  have counted : (d.endStall e).engineStep e [Reg.LE_ISSUED, Reg.LE_ISSUED + 4] ((d.endStall e).add64 (pgLE e) Reg.LE_ISSUED 1) :=
    Dev.engineStep_add64 _ _ (by simp) (by simp) (by decide)
  have sum := (d.endStall e).rd64_add64 (pgLE e) Reg.LE_ISSUED 1
  have pc_ : ∀ u : Dev, u.engineStep e [Reg.LE_PC] (u.follow e d.cyc (pc + 4)) := fun u => (u.coreKept_follow _ _ (by simp)).step
  rw [stalled.own64 (by decide) (by decide) (by decide)] at sum
  refine ⟨?_, g, Dev.follow_pc _ _ _ _, ?_⟩
  · refine (stalled.mono (by simp)).trans ((counted.mono (by simp)).trans ?_)
    unfold Dev.madeMove
    generalize (d.endStall e).add64 (pgLE e) Reg.LE_ISSUED 1 = a
    exact ((Dev.engineStep_onEng _ _).trans (Dev.engineStep_onEng _ _)).trans ((pc_ _).mono (by simp))
  · rw [← sum, Dev.madeMove, (pc_ _).own64 (by decide) (by decide) (by decide)]
    generalize (d.endStall e).add64 (pgLE e) Reg.LE_ISSUED 1 = a
    exact ((Dev.engineStep_onEng (l := []) _ _).trans (Dev.engineStep_onEng _ _)).own64 (by decide) (by decide) (by decide)

/-- What has changed before the move, beside its register and its count. -/
theorem Dev.moved.after {e k i pc : Nat} {l l' : List Nat} {d b t : Dev} (h : b.moved e k i pc l t) (before : d.engineStep e l' b)
    (hg : (b.eng e).g = (d.eng e).g) (hl : Reg.LE_ISSUED ∉ l' ∧ Reg.LE_ISSUED + 4 ∉ l') : d.moved e k i pc (l' ++ l) t := by
  obtain ⟨step, g, lePc, count⟩ := h
  refine ⟨(before.mono (by simp)).trans (step.mono (by simp)), by rw [g, hg], lePc, ?_⟩
  rw [count, before.own64 (by decide) hl.1 hl.2]

/-- The long immediate move at LE_PC is made, and where the engine steps it then halts. -/
theorem Dev.standsAt.leNext_moves {d : Dev} {e pc k i : Nat} (h : d.standsAt e pc (longMove k i)) (hk : k < 32) (hi : i < 65536)
    (hst : (d.eng e).st = .running) (ha : (d.eng e).aims pc) :
    ∃ t, d.moved e k i pc issueWords t ∧ (t.eng e).st = .running
      ∧ d.leNext e false = if (d.eng e).stepping then t.leHalt e 2 else t := by
  obtain ⟨b, c, kept, holds, next⟩ := h.leNext hk hi hst ha
  have stands := h.kept kept
  obtain ⟨_, st, _, _⟩ := Dev.madeMove_eng (pc := pc) (w := longMove k i) stands.calm k i
  refine ⟨b.madeMove e pc (longMove k i) k i, ?_, st.trans ((kept.keeps Engine.st).trans hst), ?_⟩
  · exact (Dev.madeMove_moved stands.calm k i).after kept.step (kept.keeps Engine.g) (by simp)
  · rw [next, Dev.issue_immMove stands holds hk, kept.keeps Engine.stepping]

/-! ### STEP (R267) -/

theorem Dev.leHalt_step (d : Dev) (e why : Nat) : d.engineStep e [Reg.LE_STALLS, Reg.IRQ_STAT] (d.leHalt e why) :=
  ((d.leLeave_step e .halted).mono (by simp)).trans ((Dev.engineStep_onEng _ _).trans (Dev.engineStep_irq _ 1 (by simp)))

theorem Dev.leHalt_eng (d : Dev) (e why : Nat) : ((d.leHalt e why).eng e).st = .halted ∧ ((d.leHalt e why).eng e).why = why
    ∧ ((d.leHalt e why).eng e).g = (d.eng e).g := by
  obtain ⟨st, operands, _⟩ := d.leLeave_eng e .halted
  have raised (a : Dev) : (a.irq (pgLE e) 1).eng e = a.eng e := rfl
  rw [Dev.leHalt, raised, Dev.eng_onEng]
  have g := congrArg Engine.g operands
  exact ⟨st, rfl, g⟩

/-- A halt after the move leaves what the move did. -/
theorem Dev.moved.halts {e k i pc : Nat} {l : List Nat} {d t : Dev} (h : d.moved e k i pc l t) (why : Nat) :
    d.moved e k i pc (l ++ [Reg.LE_STALLS, Reg.IRQ_STAT]) (t.leHalt e why) := by
  obtain ⟨step, g, lePc, count⟩ := h
  have halts := t.leHalt_step e why
  obtain ⟨_, _, haltG⟩ := t.leHalt_eng e why
  exact ⟨(step.mono (by simp)).trans (halts.mono (by simp)), haltG.trans g, (halts.own (by decide) (by decide)).trans lePc,
    (halts.own64 (by decide) (by decide) (by decide)).trans count⟩

theorem Dev.coreKept_disarm (d : Dev) (e : Le) : d.coreKept e [] (d.disarm (pgLE e)) := by
  have page : pgLE e ≠ pgGPIO := by have := e.isLt; simp only [pgLE, pgGPIO]; omega
  rw [d.disarm_eq _ page]
  exact ⟨⟨⟨fun _ _ _ _ => rfl, fun _ _ => rfl, rfl⟩, rfl, rfl⟩, rfl, rfl⟩

/-- A halted engine as STEP starts it: it runs from LE_PC again, and steps. -/
def Engine.stepped (x : Engine) (c ft pc : Nat) : Engine :=
  { x with
    st := .running, useHeld := x.waitHeld, waitHeld := false, skipBp := true, haltReq := none, runAt := ft, stallAt := none
    ready := c + 3, stale := [], missing := none, fq := [], fpc := pc, fcyc := c + 1, stepping := true }

theorem Dev.redirect_eng (d : Dev) (e c pc : Nat) : (d.redirect e c pc).eng e =
    { d.eng e with ready := c + 3, stale := [], missing := none, fq := [], fpc := pc, fcyc := c + 1 } := by
  rw [Dev.redirect, Dev.add32, Dev.wrN, Dev.wr_eng, Dev.eng_onEng, Dev.setPc, Dev.wrN, Dev.wr_eng]

theorem low_cleared {w : Word} (h : field w 7 0 = 0) : (w ||| 4) &&& 0xF8 = 0 ∧ bit (w ||| 4) 1 = false ∧ bit (w ||| 4) 2 = true := by
  have clear : ∀ n ≤ 7, w.getLsbD n = false := fun n hn => bit_of_field_zero h hn
  have apart : ∀ n ≤ 7, ((4 : Word).getLsbD n && (0xF8 : Word).getLsbD n) = false := by decide
  refine ⟨BitVec.eq_of_getLsbD_eq (fun n _ => ?_), ?_, ?_⟩
  · refine .trans ?_ BitVec.getLsbD_zero.symm
    rw [BitVec.getLsbD_and, BitVec.getLsbD_or]
    by_cases hn : n ≤ 7
    · rw [clear n hn, Bool.false_or, apart n hn]
    · have beyond : (0xF8 : Word).getLsbD n = false :=
        Nat.testBit_lt_two_pow (lt_of_lt_of_le (by decide : (0xF8 : Word).toNat < 2 ^ 8) (Nat.pow_le_pow_right (by decide) (by omega)))
      rw [beyond, Bool.and_false]
  · rw [bit, BitVec.getLsbD_or, clear 1 (by decide)]; rfl
  · rw [bit, BitVec.getLsbD_or, Bool.or_eq_true]; exact .inr rfl

/-- The engine started anew at LE_PC, as STEP and RESUME start it. -/
def Dev.runAgain (d : Dev) (e : Nat) : Dev :=
  (d.onEng e (fun x => { x with
    st := .running, useHeld := x.waitHeld, waitHeld := false, skipBp := true, haltReq := none, runAt := d.ft
    stallAt := none })).redirect e d.cyc (d.lePc e)

theorem Dev.runAgain_step (d : Dev) (e : Nat) : d.engineStep e [Reg.LE_PC, Reg.LE_REDIRECTS] (d.runAgain e) :=
  (d.engineStep_onEng _).trans (Dev.coreKept_redirect _ _ _ (by simp) (by simp)).step

theorem Dev.leRun_of_thawed {d : Dev} {e : Nat} (hfr : d.frozen (pgLE e) = false) : d.leRun e true true = d.runAgain e := by
  have step := d.runAgain_step e
  have thawed : (d.runAgain e).frozen (pgLE e) = false := by
    have sys : (d.runAgain e).sys = d.sys := rfl
    rw [← hfr]
    simp only [Dev.frozen, Dev.rdB, step.own (off := Reg.BLK_CTL) (by decide) (by decide), sys]
  exact if_neg (Bool.eq_false_iff.mp thawed)

/-- The device in which STEP issues the instruction at LE_PC. -/
def Dev.stepStart (d : Dev) (e : Nat) : Dev :=
  ((d.wr (pgLE e) Reg.LE_DBG 0).runAgain e).onEng e (fun x => { x with stepping := true })

theorem Dev.stepStart_eng (d : Dev) (e : Nat) : (d.stepStart e).eng e = (d.eng e).stepped d.cyc d.ft (d.lePc e) := by
  have lePc : (d.wr (pgLE e) Reg.LE_DBG 0).lePc e = d.lePc e := congrArg BitVec.toNat (Dev.rd_wr_off _ _ _ _ _ (by decide))
  rw [Dev.stepStart, Dev.eng_onEng, Dev.runAgain, Dev.redirect_eng, Dev.eng_onEng, Dev.wr_eng, lePc]
  rfl

theorem Dev.stepStart_step (d : Dev) (e : Nat) : d.engineStep e [Reg.LE_DBG, Reg.LE_PC, Reg.LE_REDIRECTS] (d.stepStart e) :=
  have stored := d.engineStep_wr (e := e) (l := [Reg.LE_DBG, Reg.LE_PC, Reg.LE_REDIRECTS]) (off := Reg.LE_DBG) 0 (by simp) (by decide)
  have run := (Dev.runAgain_step (d.wr (pgLE e) Reg.LE_DBG 0) e).mono (l' := [Reg.LE_DBG, Reg.LE_PC, Reg.LE_REDIRECTS]) (by simp)
  (stored.trans run).trans (Dev.engineStep_onEng _ _)

theorem Dev.stepStart_words (d : Dev) (e : Nat) : (d.stepStart e).rd (pgLE e) Reg.LE_DBG = 0
    ∧ (d.stepStart e).rd (pgLE e) Reg.LE_PC = d.rd (pgLE e) Reg.LE_PC := by
  have dbg := (Dev.runAgain_step (d.wr (pgLE e) Reg.LE_DBG 0) e).own (off := Reg.LE_DBG) (by decide) (by decide)
  have lePc : ((d.wr (pgLE e) Reg.LE_DBG 0).runAgain e).rd (pgLE e) Reg.LE_PC = word ((d.wr (pgLE e) Reg.LE_DBG 0).lePc e) :=
    Dev.redirect_pc _ _ _ _
  have same : (d.wr (pgLE e) Reg.LE_DBG 0).rd (pgLE e) Reg.LE_PC = d.rd (pgLE e) Reg.LE_PC := Dev.rd_wr_off _ _ _ _ _ (by decide)
  rw [Dev.lePc, Dev.rdN, word_toNat, same] at lePc
  rw [Dev.rd_wr_same] at dbg
  unfold Dev.stepStart
  generalize (d.wr (pgLE e) Reg.LE_DBG 0).runAgain e = a at dbg lePc ⊢
  exact ⟨dbg, lePc⟩

/-- STEP of a halted engine on a thawed page issues its next instruction. -/
theorem Dev.leDbg_step {d : Dev} {e : Nat} (hdbg : field (d.rd (pgLE e) Reg.LE_DBG) 7 0 = 0) (hst : (d.eng e).st = .halted)
    (hfr : d.frozen (pgLE e) = false) : d.leDbg e (d.rd (pgLE e) Reg.LE_DBG ||| 4) = (d.stepStart e).leNext e false := by
  obtain ⟨zero, noResume, step⟩ := low_cleared hdbg
  have thawed : (d.wr (pgLE e) Reg.LE_DBG 0).frozen (pgLE e) = false := by
    rw [← hfr]
    simp only [Dev.frozen, Dev.rdB, Dev.rd_wr_off _ _ _ _ _ (show Reg.BLK_CTL ≠ Reg.LE_DBG by decide)]
    rfl
  have running : (((d.wr (pgLE e) Reg.LE_DBG 0).runAgain e).eng e).st = .running := by
    rw [Dev.runAgain, Dev.redirect_eng, Dev.eng_onEng]
  unfold Dev.leDbg
  dsimp only
  rw [zero, noResume, step, Dev.wr_eng, hst, Bool.false_and, if_neg (by decide), if_pos (by decide), Dev.leRun_of_thawed thawed,
    if_pos running, ← Dev.stepStart]

/-- The engine stands at its instruction again when STEP has started it. -/
theorem Dev.standsAt.stepStart {d : Dev} {e pc : Nat} {w : Word} (h : d.standsAt e pc w) : (d.stepStart e).standsAt e pc w := by
  have step := d.stepStart_step e
  obtain ⟨dbg, lePc⟩ := d.stepStart_words e
  have same : ∀ off, off < 4096 → off ∉ [Reg.LE_DBG, Reg.LE_PC, Reg.LE_REDIRECTS] →
    (d.stepStart e).rd (pgLE e) off = d.rd (pgLE e) off := fun off ho hn => step.own ho hn
  refine ⟨?_, ?_, ?_, ?_, ?_, ?_, h.inside, ?_⟩
  · rw [Dev.stepStart_eng]
    exact ⟨h.calm.wait, rfl, h.calm.epend, h.calm.count, h.calm.str, h.calm.inval⟩
  · rw [Dev.rdB, same _ (by decide) (by decide)]; exact h.run
  · rw [Dev.pmemLocked, Dev.rdB, same _ (by decide) (by decide)]; exact h.locked
  · rw [Dev.rdB, same _ (by decide) (by decide)]; exact h.noSwap
  · rw [dbg]; decide
  · rw [Dev.lePc, Dev.rdN, lePc]; exact h.lePc
  · rw [Dev.num, Dev.bytes_congr step.byte]; exact h.word

/-- STEP of a halted engine makes the long immediate move at LE_PC and halts. -/
theorem Dev.standsAt.leDbg_moves {d : Dev} {e pc k i : Nat} (h : d.standsAt e pc (longMove k i)) (hk : k < 32) (hi : i < 65536)
    (hst : (d.eng e).st = .halted) (hfr : d.frozen (pgLE e) = false) (hb : (d.eng e).btb = []) (hl : (d.eng e).lbufOn = false)
    (hs : (d.eng e).syncAt = none) :
    ∃ (t : Dev) (l : List Nat), d.moved e k i pc l (t.leHalt e 2)
      ∧ d.leDbg e (d.rd (pgLE e) Reg.LE_DBG ||| 4) = t.leHalt e 2 := by
  have eng := d.stepStart_eng e
  rw [h.lePc] at eng
  obtain ⟨t, moved, _, next⟩ := h.stepStart.leNext_moves hk hi (by rw [eng]; rfl)
    (by rw [eng]; exact ⟨rfl, rfl, rfl, hb, rfl, hl, hs⟩)
  refine ⟨t, _, (moved.after (d.stepStart_step e) (by rw [eng]; rfl) (by decide)).halts 2, ?_⟩
  rw [Dev.leDbg_step h.noBreak hst hfr, next, eng]
  exact if_pos rfl

/-! ### A line that arrives (R241, R243) -/

theorem Dev.fetchAhead_missing {d : Dev} {e n : Nat} {m : Nat × Nat} (h : (d.eng e).missing = some m) :
    ((d.fetchAhead e n).eng e).missing = some m := by
  cases n with
  | zero => exact h
  | succ n =>
    have engaged : ((d.onEng e (fun x => if x.fq.length < fetchDepth ∧ x.fcyc + 1 ≤ d.cyc then x.engage x.fpc else x)).eng e).missing
        = some m := by
      rw [Dev.eng_onEng]
      split
      · unfold Engine.engage
        split <;> exact h
      · exact h
    rw [Dev.fetchAhead]
    generalize d.onEng e _ = a at engaged ⊢
    dsimp only
    rw [engaged, if_pos (by simp)]
    exact engaged

/-- A missing line holds fetching up. -/
theorem Dev.prefetch_missing {d : Dev} {e : Nat} {m : Nat × Nat} (h : (d.eng e).missing = some m) :
    ((d.prefetch e).eng e).missing = some m := by
  unfold Dev.prefetch
  split
  · exact h
  · refine Dev.fetchAhead_missing ?_
    obtain start | start := d.fetchStart_cases e
    · rw [start]; exact h
    · rw [start, Dev.eng_onEng]; exact h

theorem Engine.fill_missing (x : Engine) (locked : Bool) (line : Nat) (bs : List Byte) : (x.fill locked line bs).missing = none := by
  cases locked <;> rfl

theorem does_fetchFill {e : Le} {s : State} (hs : s.sound) {line c : Nat} (hm : (s.dev.eng e).missing = some (line, c)) :
    Does (.fetchFill e) s (fun d =>
      let bs := s.dev.bytes (storeBase + (line - 0x18000000)) 64
      (d.eng e).missing = none ∧ c + 12 ≤ d.cyc ∧ (s.dev.pmemLocked e = true → (d.eng e).fbuf = some (line, bs))
        ∧ (s.dev.pmemLocked e = false → (d.eng e).cache.head? = some (line, bs))
        ∧ engineOnly e [Reg.LE_FILLS] s.dev d ∧ s.dev.sameMem d) := by
  refine does_of_run _ s (fun d => d.fetchFill e) _ rfl ?_
  have kept := (s.dev.begin.coreKept_prefetch (e := e) (l := [Reg.LE_FILLS])).trans (Dev.coreKept_toCyc _ (c + 12))
  have missing : ((s.dev.begin.prefetch e).eng e).missing = some (line, c) := Dev.prefetch_missing hm
  have came := (s.dev.begin.prefetch e).cyc_toCyc (c + 12)
  unfold Dev.fetchFill
  dsimp only
  rw [missing]
  dsimp only
  generalize (s.dev.begin.prefetch e).toCyc (c + 12) = u at kept came ⊢
  have bytes : u.bytes (storeBase + (line - 0x18000000)) 64 = s.dev.bytes (storeBase + (line - 0x18000000)) 64 :=
    Dev.bytes_congr (fun a => (kept.step.byte a).trans (Dev.byte_sound _ hs.2 a).symm) _ _
  have locked : u.pmemLocked e = s.dev.pmemLocked e := congrArg (bit · 2) (kept.step.own (by decide) (by decide))
  rw [bytes, locked]
  have eng (a : Dev) (n : Nat) : (a.add32 (pgLE e) Reg.LE_FILLS n).eng e = a.eng e := Dev.wr_eng _ _ _ _ _
  have step (f : Engine → Engine) : u.engineStep e [Reg.LE_FILLS] ((u.onEng e f).add32 (pgLE e) Reg.LE_FILLS 1) :=
    (u.engineStep_onEng f).trans (Dev.engineStep_wr _ _ (by simp) (by decide))
  obtain ⟨only, mem⟩ := (kept.step.trans (step _)).finish hs.2
  refine ⟨?_, came, fun hl => ?_, fun hl => ?_, only, mem⟩
  · rw [Dev.finish_eng, eng, Dev.eng_onEng]
    exact Engine.fill_missing _ _ _ _
  · rw [Dev.finish_eng, eng, Dev.eng_onEng, hl]; rfl
  · rw [Dev.finish_eng, eng, Dev.eng_onEng, hl]; rfl

/-! ### O13 -/

theorem Dev.num_begin (d : Dev) (hd : d.wlog = []) (a n : Nat) : d.begin.num a n = d.num a n := by
  have byte (x : Nat) : d.begin.byte x = d.byte x := (Dev.byte_sound _ hd x).symm
  rw [Dev.num, Dev.bytes_congr byte, Dev.num]

/-- Settles O13: the engine fetches the word and issues it, since nothing interrupts it and the move neither faults nor stalls. -/
theorem instruction : Obligations.Instruction := by
  intro e k i s hs hk hi x pc ready issued
  have stands : ready → s.dev.begin.standsAt e pc (longMove k i) := by
    intro ⟨_, wait, halt, epend, _, _, _, _, count, _, str, inval, run, locked, noSwap, noBreak, low, high, _, holds⟩
    exact ⟨⟨wait, halt, epend, count, str, inval⟩, run, locked, noSwap, noBreak, rfl, ⟨low, high⟩,
      congrArg word ((Dev.num_begin _ hs.2 _ _).trans holds)⟩
  have below : ready → (word (pc + 4)).toNat = pc + 4 := by
    intro ⟨_, _, _, _, _, _, _, _, _, _, _, _, _, _, _, _, _, high, _⟩
    exact Nat.mod_eq_of_lt (by omega)
  refine ⟨fun hready hst hstep hfq hfpc hmiss _ _ => ?_, fun r hr hready hst hfr _ => ?_, fun line c hm => does_fetchFill hs hm⟩
  · have path := hready
    obtain ⟨sync, _, _, _, lbufOn, stale, btb, _⟩ := path
    obtain ⟨t, ⟨step, g, lePc, count⟩, st, next⟩ :=
      (stands hready).leNext_moves hk hi hst ⟨hfq, hfpc, hmiss, btb, stale, lbufOn, sync⟩
    refine does_of_run _ s (fun d => d.leNext e false) _ rfl ?_
    obtain ⟨only, mem⟩ := step.finish hs.2
    rw [next, if_neg (by simp [x, hstep])]
    exact ⟨⟨g, (congrArg BitVec.toNat lePc).trans (below hready), count, mem⟩, st, only⟩
  · have path := hready
    obtain ⟨sync, _, _, _, lbufOn, stale, btb, _⟩ := path
    have kept := s.dev.begin.coreKept_disarm e
    have page : pgLE e ≠ pgGPIO := by have := e.isLt; simp only [pgLE, pgGPIO]; omega
    have same : s.dev.begin.disarm (pgLE e) = { s.dev.begin with armed := spPut (fun _ => none) s.dev.armed (pgLE e) none } :=
      Dev.disarm_eq _ _ page
    have stands := (stands hready).kept kept
    refine does_onPage (f := fun d => d.leDbg e (d.rd (pgLE e) Reg.LE_DBG ||| 4)) hr rfl ?_
    have hst : ((s.dev.begin.disarm (pgLE e)).eng e).st = .halted := (kept.keeps Engine.st).trans hst
    obtain ⟨t, l, moved, next⟩ := stands.leDbg_moves hk hi hst (by rw [same]; exact hfr) (by rw [same]; exact btb)
      (by rw [same]; exact lbufOn) (by rw [same]; exact sync)
    obtain ⟨step, g, lePc, count⟩ := moved.after kept.step (kept.keeps Engine.g) (by simp)
    obtain ⟨haltSt, haltWhy, _⟩ := t.leHalt_eng e 2
    have irq : (t.leHalt e 2).rdB (pgLE e) Reg.IRQ_STAT 1 = true := Dev.irq_rdB_same _ _ _ (by decide)
    obtain ⟨_, mem⟩ := step.finish hs.2
    rw [next]
    exact ⟨⟨g, (congrArg BitVec.toNat lePc).trans (below hready), count, mem⟩, haltSt, haltWhy, irq⟩

end Sys2Proof.Machine
end

/-! PROOFS. Refutations: a shared load of another engine's local memory, and a beam wait on a head that has no slots. -/
section
namespace Sys2Proof.Machine

/-! ### A load of another engine's local memory (R204) -/

/-- Engine 0's oldest shared access loads a word of the data memory of engine 1, which runs. -/
def loadFromEngineOne : State where
  dev := (State.reset.dev.onEng 1 (fun x => { x with st := .running })).onEng 0 (fun x => { x with
    shared := [{ trig := 0, phys := dataBase 1, view := 0, len := 4, bytes := [], load := some (4, false), part := 0, drop := false }] })

/-- Refutes O46, in its clause on LOAD_COMPLETE: the clause has every other engine stay as it was, but engine 1's local accesses of
this cycle come before engine 0's access to its memory (R204), so engine 1 performs none from now until the next cycle. -/
theorem not_engineUnits : ¬ Obligations.EngineUnits := by
  intro ⟨_, shared, _⟩
  obtain ⟨loads, _⟩ := shared 0 loadFromEngineOne ⟨rfl, rfl⟩
  have completes := loads _ _ 4 false rfl rfl rfl rfl rfl
  obtain ⟨_, _, _, ⟨_, others, _⟩, _⟩ := post_of_does (fun d => d.completeLoad 0) completes rfl
  have stays : (loadFromEngineOne.dev.begin.completeLoad 0).eng 1 = loadFromEngineOne.dev.eng 1 := others 1 (by decide)
  have held : ((loadFromEngineOne.dev.begin.completeLoad 0).eng 1).localFrom = 11 := by decide
  rw [stays] at held
  exact absurd held (by decide)

/-! ### A wait on a head without slots (R217) -/

/-- Software has written 0 to HD_HTIME of V0, which is OFF. -/
def headWithoutSlots : State where
  dev := State.reset.dev.wr (pgHD 0) Reg.HD_HTIME 0

/-- Refutes O12, in its clause on BM.TWAITL: the clause has the wait for line 0 wait, since the head does not run; but TWAITL waits
for slot 0, which is at or beyond an HTOTAL of 0, so the instruction raises a wait fault (R217). -/
theorem not_waitsAndHeadWrites : ¬ Obligations.WaitsAndHeadWrites := by
  intro h
  obtain ⟨twaitl, _⟩ := h 0 0 headWithoutSlots ⟨by decide, rfl⟩
  obtain ⟨_, later⟩ := twaitl (by decide) (by decide)
  obtain ⟨waits, _⟩ := post_of_does (fun d => d.leTrig 0 0x73 0) (later (by decide)) rfl
  have faults : (headWithoutSlots.dev.begin.leTrig 0 0x73 0).answer = .none := by decide
  rw [Dev.finish_answer, faults] at waits
  contradiction

end Sys2Proof.Machine
end

/-! PROOFS. A refutation: an event between the halves of a split local load. -/
section
namespace Sys2Proof.Machine

/-! ### Event entry between the halves of a split load (R233, R261) -/

/-- Engine 0 runs and takes mailbox events. -/
def takingMboxEvents : Dev :=
  (State.reset.dev.wrB (pgLE 0) Reg.LE_CTL 0 true).onEng 0 (fun x => { x with st := .running, emask := 2 })

/-- It has triggered a load of the word at address 2, which is split, and in the same cycle a mailbox write came. -/
def mailWithinSplitLoad : State where
  dev := (takingMboxEvents.leTrig 0 0x5C 2).leMbox 0 0

/-- Refutes O47, in its clause on EVENT_ENTRY: the clause counts only shared accesses, head-register writes and string operations as
outstanding, and has the event be taken; but the second half of the local load is performed in the cycle in which the next
instruction would issue, and an event waits until both halves have been performed (R233, R261), so the engine has not entered it. -/
theorem not_engineEvents : ¬ Obligations.EngineEvents := by
  intro ⟨events, _⟩
  obtain ⟨_, _, entry, _⟩ := events (.hart 0) 0 0 mailWithinSplitLoad ⟨by decide, rfl⟩ ⟨rfl, by decide⟩
  have enters := entry (by decide) (by decide) (by decide) (by decide) (by decide) (by decide) (by decide)
  obtain ⟨evIn, _⟩ := post_of_does (fun d => d.eventRow 0) enters rfl
  have waits : ((mailWithinSplitLoad.dev.begin.eventRow 0).eng 0).evIn = false := by decide
  rw [Dev.finish_eng] at evIn
  exact absurd (waits.symm.trans evIn) (by decide)

end Sys2Proof.Machine
end

/-! PROOFS. A refutation: a coded frame whose head is served later. -/
section
namespace Sys2Proof.Machine

/-! ### A coded frame waits for a head that is served before its own (R317) -/

/-- A coded frame that need not fall back to coding by pixels, of a head that is served later, does not commit yet. -/
theorem Dev.commitFrame_servedLater {d : Dev} {h : Nat} {e : EncFrame} {rest : List EncFrame} {c : Coded}
    (hf : (d.head h).frames = e :: rest) (hc : e.coded = some c) (stands : d.mustFallBack h e c = false)
    (later : d.servedLater h e = true) : d.commitFrame h = d.reply .waits := by
  simp only [Dev.commitFrame, hf, hc, stands, later]
  rfl

/-- What coding left of a frame of one tile: a PRUN record. -/
def oneTileCoded : Coded where
  tiles := [(0, some (kcs 0x14 0 0 [0, 0, 0, 0, 1, 0, 0, 0]))]
  keyTiles := none
  copies := []
  cellRecs := []
  keyCells := []
  flags := 0
  hashes := [0]
  lines := [0]
  cell := false
  layer := []
  palette := []

/-- A coded frame of one pixel, started at an instant, whose tile is still in ENC_BACKLOG. -/
def codedFrom (start : Nat) : EncFrame where
  num := 0
  start := start
  bank := 0
  epoch := 0
  key := false
  fence := false
  wd := 1
  ht := 1
  s0 := start
  s1 := start
  surf := 0
  lines := [{ frame := 0, line := 0, pixels := [1], regs := [], badges := [], final := true }]
  coded := some oneTileCoded
  backlog := 256

/-- V0 and V1, of equal ENC_PRIO, have each coded a frame; V1's started first. -/
def twoCodedHeads : State where
  dev := (State.reset.dev.onHead 0 (fun x => { x with frames := [codedFrom 200] })).onHead 1
    (fun x => { x with frames := [codedFrom 100] })

/-- Refutes O48, in its clause on FRAME_COMMIT: the clause has every coded frame commit; but the encoder serves V1 first, whose frame
started earlier and has block-coded pixels left, so V0's frame stays pending (R317). -/
theorem not_encoderAndDictionary : ¬ Obligations.EncoderAndDictionary := by
  intro ⟨encoding, _⟩
  obtain ⟨_, commits, _⟩ := encoding 0 twoCodedHeads ⟨by decide, rfl⟩
  obtain ⟨committed, _⟩ := post_of_does (fun d => d.commitFrame 0) (commits (codedFrom 200) [] rfl rfl) rfl
  have waits : twoCodedHeads.dev.begin.commitFrame 0 = twoCodedHeads.dev.begin.reply .waits :=
    Dev.commitFrame_servedLater (e := codedFrom 200) (c := oneTileCoded) rfl rfl (by decide) (by decide)
  rw [Dev.finish_head, waits] at committed
  have pending : ((twoCodedHeads.dev.begin.reply .waits).head 0).frames = [codedFrom 200] := rfl
  exact absurd (pending.symm.trans committed) (by decide)

end Sys2Proof.Machine
end

/-! PROOFS. What a store that heads may read (R39, R87, R164, R165, R286) changes beside its bytes: heads, their counters, and what
a migration has still to copy. -/
section
namespace Sys2Proof.Machine

/-! ### The frame of a report -/

/-- Pages of the encoder, the lead window, the host lanes, the heads and the host functions. -/
def reportPage (p : Nat) : Prop := p = pgENC ∨ p = pgLEAD ∨ 0x080 ≤ p

/-- Nothing but words of those pages, the note of the bits set in this cycle, heads and the fabric's state differs. -/
def Dev.reported (d t : Dev) : Prop :=
  (∃ r k hs f, t = { d with regs := r, setNow := k, heads := hs, fab := f }) ∧ d.regsBut (fun p _ => reportPage p) t

theorem Dev.reported_refl (d : Dev) : d.reported d := ⟨⟨_, _, _, _, rfl⟩, d.regsBut_refl _⟩

theorem Dev.reported.trans {a b c : Dev} (h : a.reported b) (h' : b.reported c) : a.reported c := by
  obtain ⟨⟨_, _, _, _, rfl⟩, hr⟩ := h
  obtain ⟨⟨_, _, _, _, rfl⟩, hr'⟩ := h'
  exact ⟨⟨_, _, _, _, rfl⟩, hr.trans hr'⟩

theorem Dev.reported_ite {c : Prop} [Decidable c] {d a b : Dev} (ha : d.reported a) (hb : d.reported b) :
    d.reported (if c then a else b) := by
  split
  · exact ha
  · exact hb

theorem Dev.reported_forL {α : Type} (l : List α) (f : α → Dev → Dev) (hf : ∀ x d, Dev.reported d (f x d)) (d : Dev) :
    d.reported (forL l f d) := forL_rel Dev.reported Dev.reported_refl (fun _ _ _ => Dev.reported.trans) l f hf d

theorem Dev.reported_forN (n : Nat) (f : Nat → Dev → Dev) (hf : ∀ i d, Dev.reported d (f i d)) (d : Dev) :
    d.reported (forN n f d) := Dev.reported_forL (List.range n) f hf d

theorem Dev.reported_wr (d : Dev) {p off : Nat} (v : Word) (hp : reportPage p) (hoff : off < 4096) : d.reported (d.wr p off v) :=
  ⟨⟨_, _, _, _, rfl⟩, d.regsBut_wr v hp hoff⟩

theorem Dev.reported_add64 (d : Dev) {p off : Nat} (n : Nat) (hp : reportPage p) (hoff : off + 4 < 4096) :
    d.reported (d.add64 p off n) := (d.reported_wr _ hp (by omega)).trans (Dev.reported_wr _ _ hp hoff)

theorem Dev.reported_irq (d : Dev) {p : Nat} (n : Nat) (hp : reportPage p) : d.reported (d.irq p n) :=
  ⟨⟨_, _, _, _, rfl⟩, d.regsBut_irq n hp⟩

theorem Dev.reported_setHead (d : Dev) (h : Nat) (x : HeadSt) : d.reported (d.setHead h x) :=
  ⟨⟨_, _, _, _, rfl⟩, d.regsBut_setHead h x⟩

theorem Dev.reported_onHead (d : Dev) (h : Nat) (f : HeadSt → HeadSt) : d.reported (d.onHead h f) := d.reported_setHead h _

theorem reportPage_head (h : Nat) : reportPage (pgHD h) := .inr (.inr (by simp only [pgHD]; omega))

theorem reportPage_lane (n : Nat) : reportPage (pgHP n) := .inr (.inr (by simp only [pgHP]; omega))

/-! ### Squashes and violations -/

theorem Dev.reported_squash (d : Dev) (h c : Nat) (p : LineBuf → Bool) : d.reported (d.squash h c p) := by
  obtain ⟨⟨_, _, _, heq⟩, hregs, _⟩ := d.squashOnly_squash h c p
  refine ⟨⟨_, _, _, d.fab, heq⟩, hregs.mono (fun q _ hq => ?_)⟩
  rcases hq with hlead | ⟨hpage, _⟩
  · exact .inr (.inl hlead)
  · exact .inr (.inr (by omega))

theorem Dev.reported_enc (d : Dev) {off : Nat} (v : Nat) (hoff : off < 4096) : d.reported (d.wrN pgENC off v) :=
  d.reported_wr _ (.inl rfl) hoff

theorem Dev.reported_dropRegion (d : Dev) (h : Nat) : d.reported (d.dropRegion h) :=
  ((d.reported_setHead h _).trans (Dev.reported_enc _ _ (by decide))).trans (Dev.reported_enc _ _ (by decide))

theorem Dev.reported_endPending (d : Dev) (h f : Nat) {counter : Nat} (hc : counter + 4 < 4096) :
    d.reported (d.endPending h f counter) := by
  have ended : ∀ e rest, d.reported (d.unpend h counter e rest) := fun e rest =>
    ((d.reported_setHead h _).trans (Dev.reported_add64 _ 1 (reportPage_head h) hc)).trans (Dev.reported_enc _ _ (by decide))
  obtain ⟨_, heq⟩ | ⟨e, heq | heq⟩ := d.endPending_cases h f counter <;> rw [heq]
  · exact d.reported_refl
  · exact ended e _
  · exact (ended e _).trans (Dev.reported_dropRegion _ h)

theorem Dev.reported_withhold (d : Dev) (h f : Nat) : d.reported (d.withhold h f false) := by
  have page := reportPage_head h
  have counted := (d.reported_add64 1 page (by decide : Reg.WITHHELD_FRAMES + 4 < 4096)).trans (Dev.reported_irq _ 1 page)
  have left : ∀ a : Dev, a.reported (a.abandon h f (a.unfinal h f)) := fun a =>
    (a.reported_onHead h _).trans (Dev.reported_add64 _ _ page (by decide))
  exact ((counted.trans (left _)).trans (Dev.reported_onHead _ h _)).trans (Dev.reported_endPending _ h f (by decide))

theorem Dev.reported_violate (d : Dev) (h f : Nat) : d.reported (d.violate h f) :=
  Dev.reported_ite d.reported_refl (Dev.reported_ite (d.reported_withhold h f) (d.reported_onHead h _))

theorem Dev.reported_countViolation (d : Dev) (h : Nat) : d.reported (d.countViolation h false) := by
  have page := reportPage_lane h
  have counted := (d.reported_wr (word (d.rdN (pgHP h) Reg.HP_FENCE_VIOL + 1)) page (by decide)).trans
    (Dev.reported_irq (d.add32 (pgHP h) Reg.HP_FENCE_VIOL 1) 9 page)
  exact Dev.reported_ite counted d.reported_refl

theorem Dev.reported_judge (d : Dev) (h : Nat) (w : FenceWr) (hw : w.byHost = false) : d.reported (d.judge h w).1 := by
  unfold Dev.judge
  dsimp only
  split
  · split
    · rw [hw]
      exact (d.reported_violate h _).trans (Dev.reported_ite (Dev.reported_refl _) (Dev.reported_countViolation _ h))
    · exact d.reported_refl
  · exact d.reported_refl

theorem Dev.reported_fenceWrite (d : Dev) (h : Nat) (parts : List (Nat × Nat)) (c : Nat) :
    d.reported (d.fenceWrite h parts c false) := by
  obtain ⟨f, hf⟩ := d.fenceWrite_eq h parts c false
  rw [hf]
  exact (d.reported_judge h _ rfl).trans (Dev.reported_onHead _ h f)

/-! ### Reports of a store -/

theorem Dev.reported_encNote (d : Dev) (h : Nat) (parts : List (Nat × Nat)) (c : Nat) (changed : Bool) :
    d.reported (d.encNote h parts c changed) :=
  Dev.reported_forL _ _ (fun _ a => (a.reported_onHead h _).trans
    (Dev.reported_forN 2 _ (fun _ b => Dev.reported_ite (b.reported_onHead h _) b.reported_refl) _)) d

theorem Dev.reported_reportMem (d : Dev) (h : Nat) (parts : List (Nat × Nat)) (c : Nat) (changed : Bool) :
    d.reported (d.reportMem h parts c false changed) := by
  unfold Dev.reportMem
  extract_lets x noted badged ranges isOpen whole judged
  have hnoted : d.reported noted := Dev.reported_ite (d.reported_encNote h parts c changed) d.reported_refl
  have hbadged : d.reported badged := hnoted.trans (Dev.reported_ite (Dev.reported_squash _ h c _) noted.reported_refl)
  have hjudged : d.reported judged := hbadged.trans (Dev.reported_ite (badged.reported_fenceWrite h parts c) badged.reported_refl)
  exact Dev.reported_ite hnoted (Dev.reported_ite hbadged
    (hjudged.trans (Dev.reported_ite (judged.reported_squash h c _) (judged.reported_squash h c _))))

theorem Dev.reported_keepDue (d : Dev) : d.reported d.keepDue :=
  Dev.reported_forL _ _ (fun h a => Dev.reported_ite a.reported_refl (a.reported_onHead h _)) d

theorem Dev.reported_noteDirty (d : Dev) (a n : Nat) : d.reported (d.noteDirty a n) := by
  refine Dev.reported_forN 8 _ (fun k e => Dev.reported_ite (Dev.reported_ite e.reported_refl ?_) e.reported_refl) d
  exact ⟨⟨_, _, _, _, rfl⟩, fun _ _ _ _ => rfl⟩

/-! ### A store and its reports -/

/-- What a device is after the bytes bs have been stored at a and reported: beside heads and words of their pages, memory reads
those bytes there and all else as before, and nothing has left the block. -/
structure Dev.stored (a : Nat) (bs : List Byte) (d t : Dev) : Prop where
  regs : d.regsBut (fun p _ => reportPage p) t
  mem : t.mem = d.mem
  outs : t.outs = d.outs
  byte : ∀ x, t.byte x = (d.puts a bs).byte x

theorem Dev.byte_puts_congr {d t : Dev} (h : ∀ x, t.byte x = d.byte x) (a : Nat) (bs : List Byte) (x : Nat) :
    (t.puts a bs).byte x = (d.puts a bs).byte x := by
  by_cases hx : x < a ∨ a + bs.length ≤ x
  · rw [Dev.byte_puts_out _ _ _ _ hx, Dev.byte_puts_out _ _ _ _ hx, h]
  · obtain ⟨i, rfl⟩ := Nat.exists_eq_add_of_le (show a ≤ x by omega)
    rw [Dev.byte_puts_in _ _ _ _ (by omega), Dev.byte_puts_in _ _ _ _ (by omega)]

/-- Nothing but what is known of DRAM, and the load reservations that stand, differs. -/
def Dev.ramOnly (d t : Dev) : Prop := ∃ m v, t = { d with ram := m, resv := v }

theorem Dev.ramOnly_refl (d : Dev) : d.ramOnly d := ⟨_, _, rfl⟩

theorem Dev.ramOnly.trans {a b c : Dev} (h : a.ramOnly b) (h' : b.ramOnly c) : a.ramOnly c := by
  obtain ⟨_, _, rfl⟩ := h
  obtain ⟨_, _, rfl⟩ := h'
  exact ⟨_, _, rfl⟩

theorem Dev.ramOnly_ite {c : Prop} [Decidable c] {d a b : Dev} (ha : d.ramOnly a) (hb : d.ramOnly b) :
    d.ramOnly (if c then a else b) := by
  split
  · exact ha
  · exact hb

/-- Storing bytes is writing them, beside what is known of DRAM and which load reservations stand. -/
theorem Dev.store_eq (d : Dev) (a : Nat) (bs : List Byte) : ∃ t, d.ramOnly t ∧ d.store a bs = t.puts a bs := by
  unfold Dev.store
  extract_lets n marked known unpoisoned unreserved
  have hmarked : d.ramOnly marked := Dev.ramOnly_ite (Dev.ramOnly_ite d.ramOnly_refl ⟨_, _, rfl⟩) d.ramOnly_refl
  have hunpoisoned : marked.ramOnly unpoisoned := Dev.ramOnly_ite marked.ramOnly_refl ⟨_, _, rfl⟩
  have hunreserved : unpoisoned.ramOnly unreserved := Dev.ramOnly_ite unpoisoned.ramOnly_refl ⟨_, _, rfl⟩
  exact ⟨unreserved, (hmarked.trans hunpoisoned).trans hunreserved, rfl⟩

theorem Dev.puts_outs (d : Dev) (a : Nat) (bs : List Byte) : (d.puts a bs).outs = d.outs := by
  induction bs generalizing d a with
  | nil => rfl
  | cons b bs ih => exact ih _ _

theorem Dev.stored_store (d : Dev) (a : Nat) (bs : List Byte) : d.stored a bs (d.store a bs) := by
  have regs : d.regsBut (fun p _ => reportPage p) (d.store a bs) :=
    (Dev.regsBut_of_regs (Dev.store_regs d a bs)).mono (fun _ _ h => h.elim)
  obtain ⟨t, ⟨m, v, rfl⟩, heq⟩ := d.store_eq a bs
  rw [heq] at regs ⊢
  exact ⟨regs, (Dev.puts_frame _ _ _).1, Dev.puts_outs _ _ _, Dev.byte_puts_congr (fun _ => by rfl) a bs⟩

theorem Dev.reported.stored {a : Nat} {bs : List Byte} {d b c t : Dev} (before : d.reported b) (h : b.stored a bs c)
    (after : c.reported t) : d.stored a bs t := by
  obtain ⟨⟨_, _, _, _, rfl⟩, hb⟩ := before
  obtain ⟨⟨_, _, _, _, rfl⟩, ht⟩ := after
  exact ⟨(hb.trans h.regs).trans ht, h.mem, h.outs, fun x => (h.byte x).trans (Dev.byte_puts_congr (fun _ => by rfl) a bs x)⟩

theorem Dev.stored_storeBy (d : Dev) (a : Nat) (bs : List Byte) : d.stored a bs (d.storeBy a bs) :=
  d.reported_keepDue.stored (Dev.stored_store _ a bs)
    ((Dev.reported_noteDirty _ _ _).trans (Dev.reported_forL _ _ (fun h e => e.reported_reportMem h _ _ _) _))

end Sys2Proof.Machine
end

/-! PROOFS. An Ethernet port (R336 to R340, R540): one frame sent, a frame received or dropped, and its link. -/
section
namespace Sys2Proof.Machine

/-! ### A port's page -/

theorem portPage_range (p : Port) : 0x17 ≤ portPage p ∧ portPage p ≤ 0x19 := by cases p <;> decide

theorem portPage_ne_gpio (p : Port) : portPage p ≠ pgGPIO := by cases p <;> decide

theorem not_reportPage_port (p : Port) : ¬reportPage (portPage p) := by
  have := portPage_range p
  simp only [reportPage, pgENC, pgLEAD]
  omega

/-- A report of a store changes no word of a port. -/
theorem Dev.stored.port {a : Nat} {bs : List Byte} {d t : Dev} (h : d.stored a bs t) (p : Port) {off : Nat} (ho : off < 4096) :
    t.rd (portPage p) off = d.rd (portPage p) off := h.regs _ _ ho (not_reportPage_port p)

theorem Dev.stored.port64 {a : Nat} {bs : List Byte} {d t : Dev} (h : d.stored a bs t) (p : Port) {off : Nat}
    (ho : off + 4 < 4096) : t.rd64 (portPage p) off = d.rd64 (portPage p) off :=
  h.regs.rd64 ho (not_reportPage_port p) (not_reportPage_port p)

/-! ### Bytes in memory -/

theorem Dev.bytes_length (d : Dev) (a n : Nat) : (d.bytes a n).length = n := by simp [Dev.bytes_eq_map]

/-- The first n of the bytes that were written. -/
theorem Dev.bytes_puts_take (d : Dev) (a : Nat) (bs : List Byte) {n : Nat} (hn : n ≤ bs.length) :
    (d.puts a bs).bytes a n = bs.take n := by
  rw [Dev.bytes_eq_map]
  refine List.ext_getElem (by simp [hn]) (fun i hi _ => ?_)
  have hi' : i < n := by simpa using hi
  simp only [List.getElem_map, List.getElem_range, List.getElem_take]
  exact d.byte_puts_in bs _ _ (by omega)

theorem Dev.bytes_puts_out (d : Dev) (a : Nat) (bs : List Byte) {b n : Nat} (h : b + n ≤ a ∨ a + bs.length ≤ b) :
    (d.puts a bs).bytes b n = d.bytes b n := by
  rw [Dev.bytes_eq_map, Dev.bytes_eq_map]
  refine List.map_congr_left (fun i hi => d.byte_puts_out bs _ _ ?_)
  have := List.mem_range.1 hi
  omega

theorem ofLe_leBytes (k n : Nat) : ofLe (leBytes k n) = n % 256 ^ k := by
  induction k generalizing n with
  | zero => simp [leBytes, ofLe, Nat.mod_one]
  | succ k ih =>
    have tail : leBytes (k + 1) n = byteOf n 0 :: leBytes k (n / 256) := by
      simp only [leBytes, List.range_succ_eq_map, List.map_cons, List.map_map, List.cons.injEq, true_and]
      refine List.map_congr_left (fun i _ => ?_)
      simp only [Function.comp, byteOf, Nat.shiftRight_eq_div_pow]
      rw [Nat.div_div_eq_div_mul, show 8 * (i + 1) = 8 + 8 * i by omega, Nat.pow_add]
    rw [tail, ofLe, ih, Nat.pow_succ', Nat.mod_mul]
    simp [byteOf]

/-! ### A ring's index advances -/

theorem word_succ (w : Word) : word (w.toNat + 1) = w + 1 := by
  refine BitVec.eq_of_toNat_eq ?_
  rw [toNat_word, BitVec.toNat_add]
  rfl

/-- The index of a ring set, and the interrupt raised that says so. -/
def Dev.advance (d : Dev) (pg off v n : Nat) : Dev := (d.wrN pg off v).irq pg n

theorem Dev.advance_mem (d : Dev) (pg off v n : Nat) : (d.advance pg off v n).mem = d.mem := rfl

theorem Dev.advance_byte (d : Dev) (pg off v n x : Nat) : (d.advance pg off v n).byte x = d.byte x := rfl

theorem Dev.advance_raised (d : Dev) (pg off v : Nat) {n : Nat} (hn : n < 32) :
    (d.advance pg off v n).rdB pg Reg.IRQ_STAT n = true := Dev.irq_rdB_same _ _ _ hn

theorem Dev.advance_regs (d : Dev) (pg v n : Nat) {off : Nat} (ho : off < 4096) :
    d.regsBut (fun _ o => o = off ∨ o = Reg.IRQ_STAT) (d.advance pg off v n) :=
  (d.regsBut_wr _ (.inl rfl) ho).trans (Dev.regsBut_irq _ n (.inr rfl))

/-- A running index that counts on. -/
theorem Dev.advance_next (d : Dev) (pg n : Nat) {off : Nat} (ho : off < 4096) (hirq : off ≠ Reg.IRQ_STAT) (w : Word) :
    (d.advance pg off (w.toNat + 1) n).rd pg off = w + 1 := by
  rw [Dev.advance, Dev.irq_stat_else _ _ _ _ _ ho hirq, Dev.wrN, Dev.rd_wr_same, word_succ]

/-! ### Transmission (R338, R339) -/

/-- One frame sent and its descriptor closed. -/
def Dev.closeOne (d : Dev) (p : Port) (f : List Byte) : Dev :=
  let cons := d.rdN (portPage p) Reg.TXQ_CONS
  ((d.sendFrame p false f).txMark p cons 1).advance (portPage p) Reg.TXQ_CONS (cons + 1) 0

/-- A descriptor with EOP makes a frame of its own. -/
theorem Dev.chainLen_one {d : Dev} {p : Port} {i : Nat} (hf : d.txFlags p i = 2) {n : Nat} (hn : 0 < n) :
    d.chainLen p i n 0 = some 1 := by
  obtain ⟨m, rfl⟩ := Nat.exists_eq_succ_of_ne_zero hn.ne'
  simp only [Dev.chainLen, Nat.add_zero, hf]
  rfl

/-- A port that has posted anything has at least one descriptor to send. -/
theorem Dev.posted_pos {d : Dev} {p : Port} (h : d.rd (portPage p) Reg.TXQ_PROD ≠ d.rd (portPage p) Reg.TXQ_CONS) :
    0 < min (d.portRing p Reg.TXQ_SIZE)
      ((d.rdN (portPage p) Reg.TXQ_PROD + 2 ^ 32 - d.rdN (portPage p) Reg.TXQ_CONS) % 2 ^ 32) := by
  have ring : 0 < d.portRing p Reg.TXQ_SIZE := Nat.two_pow_pos _
  have differ : d.rdN (portPage p) Reg.TXQ_PROD ≠ d.rdN (portPage p) Reg.TXQ_CONS := fun hc => h (BitVec.eq_of_toNat_eq hc)
  have hprod : d.rdN (portPage p) Reg.TXQ_PROD < 2 ^ 32 := BitVec.isLt _
  have hcons : d.rdN (portPage p) Reg.TXQ_CONS < 2 ^ 32 := BitVec.isLt _
  omega

theorem Dev.poisoned_none {d : Dev} (h : d.ram.poison = []) (a n : Nat) : d.poisoned a n = false := by
  rw [Dev.poisoned, h]
  rfl

theorem Dev.toBase_eq (d : Dev) (n : Nat) : ∃ k c, d.toBase n = { d with setNow := k, clock := c } := ⟨_, _, rfl⟩

/-- TX_DONE of one descriptor that asks for no offload, when its PAUSE has ended. -/
theorem Dev.txDone_one {d : Dev} {p : Port} (hon : d.portOn p = true)
    (hposted : d.rd (portPage p) Reg.TXQ_PROD ≠ d.rd (portPage p) Reg.TXQ_CONS)
    (hflags : d.txFlags p (d.rdN (portPage p) Reg.TXQ_CONS) = 2) (hclean : d.ram.poison = [])
    {a len : Nat} (ha : a = d.txDesc p (d.rdN (portPage p) Reg.TXQ_CONS)) (hlen : len = d.num (a + 8) 4 % 2 ^ 24)
    (hfits : len ≤ d.portLimit p) :
    ∃ k c, d.txDone p = Dev.closeOne { d with setNow := k, clock := c } p (d.bytes (d.num a 8) len) := by
  obtain ⟨k, c, he⟩ := d.toBase_eq (spGet (fun _ => 0) d.mgmt.pauseEnd (portKey p))
  refine ⟨k, c, ?_⟩
  unfold Dev.txDone
  simp only [hon, Dev.chainLen_one hflags (Dev.posted_pos hposted), he]
  generalize hx : ({ d with setNow := k, clock := c } : Dev) = x
  have hbytes : ∀ b n, x.bytes b n = d.bytes b n := fun b n => Dev.bytes_congr (fun _ => by rw [← hx]; rfl) b n
  have hnum : ∀ b n, x.num b n = d.num b n := fun b n => congrArg ofLe (hbytes b n)
  have hdesc : ∀ i, x.txDesc p i = d.txDesc p i := fun i => by rw [← hx]; rfl
  have hcons : x.rdN (portPage p) Reg.TXQ_CONS = d.rdN (portPage p) Reg.TXQ_CONS := by rw [← hx]; rfl
  have hxflags : x.txFlags p (d.rdN (portPage p) Reg.TXQ_CONS) = 2 := by
    rw [Dev.txFlags, hnum, hdesc]
    exact hflags
  have hpoison : ∀ b n, x.poisoned b n = false := Dev.poisoned_none (by rw [← hx]; exact hclean)
  have hlength : d.num (a + 8) 4 % 16777216 = len := hlen.symm
  have hlimit : len ≤ x.portLimit p := by rw [← hx]; exact hfits
  simp [List.range_succ, hnum, hdesc, hbytes, hpoison, hxflags, bit, forL, forN, ← ha, hlength, Dev.bytes_length, hlimit,
    Nat.not_lt.2 hlimit, Dev.closeOne, Dev.advance, hcons]

theorem Dev.out_rd64 (d : Dev) (o : Output) (p off : Nat) : (d.out o).rd64 p off = d.rd64 p off := by
  simp only [Dev.rd64, Dev.rdN, Dev.out_rd]

/-- A frame whose data is not poisoned is counted and leaves. -/
theorem Dev.sendFrame_good (d : Dev) (p : Port) (f : List Byte) :
    d.sendFrame p false f = (d.add64 (portPage p) Reg.TX_FRAMES 1).out (.frame p f) := rfl

theorem Dev.sendFrame_rd (d : Dev) (p : Port) (f : List Byte) {off : Nat} (ho : off < 4096)
    (hk : off ≠ Reg.TX_FRAMES ∧ off ≠ Reg.TX_FRAMES + 4) :
    (d.sendFrame p false f).rd (portPage p) off = d.rd (portPage p) off := by
  rw [Dev.sendFrame_good, Dev.out_rd, Dev.add64]
  exact Dev.wr64_rd_else d _ ho (by decide) (fun h => h.2.elim hk.1 hk.2)

/-- The descriptor whose frame is sent stays where it is. -/
theorem Dev.sendFrame_txDesc (d : Dev) (p : Port) (f : List Byte) (i : Nat) :
    (d.sendFrame p false f).txDesc p i = d.txDesc p i := by
  simp only [Dev.txDesc, Dev.portBase, Dev.portRing, Dev.rdN, Dev.rdF]
  rw [Dev.sendFrame_rd _ _ _ (by decide) (by decide), Dev.sendFrame_rd _ _ _ (by decide) (by decide),
    Dev.sendFrame_rd _ _ _ (by decide) (by decide)]

theorem Dev.sendFrame_eq (d : Dev) (p : Port) (f : List Byte) :
    ∃ r, d.sendFrame p false f = { d with regs := r, outs := d.outs ++ [.frame p f] } := by
  obtain ⟨r, heq⟩ := d.add64_eq (portPage p) Reg.TX_FRAMES 1
  rw [Dev.sendFrame_good, heq]
  exact ⟨r, rfl⟩

/-- A descriptor marked: DONE beside the EOP that it has. -/
theorem Dev.stored_txMark {d : Dev} {p : Port} {i : Nat} (hf : d.txFlags p i = 2) :
    d.stored (d.txDesc p i + 12) [3] (d.txMark p i 1) := by
  rw [Dev.txMark, hf]
  exact d.stored_storeBy _ _

/-- What is left when one frame has been sent and its descriptor closed. -/
structure Dev.closed (p : Port) (a : Nat) (f : List Byte) (d t : Dev) : Prop where
  outs : t.outs = d.outs ++ [.frame p f]
  mem : t.mem = d.mem
  byte : ∀ x, t.byte x = (d.puts (a + 12) [3]).byte x
  frames : t.rd64 (portPage p) Reg.TX_FRAMES = (d.rd64 (portPage p) Reg.TX_FRAMES + 1) % 2 ^ 64
  cons : t.rd (portPage p) Reg.TXQ_CONS = d.rd (portPage p) Reg.TXQ_CONS + 1
  raised : t.rdB (portPage p) Reg.IRQ_STAT 0 = true

theorem Dev.closed_closeOne {d : Dev} {p : Port} (f : List Byte) (hf : d.txFlags p (d.rdN (portPage p) Reg.TXQ_CONS) = 2) :
    d.closed p (d.txDesc p (d.rdN (portPage p) Reg.TXQ_CONS)) f (d.closeOne p f) := by
  have counted : (d.sendFrame p false f).rd64 (portPage p) Reg.TX_FRAMES = (d.rd64 (portPage p) Reg.TX_FRAMES + 1) % 2 ^ 64 := by
    rw [Dev.sendFrame_good, Dev.out_rd64, Dev.rd64_add64]
  obtain ⟨r, hsent⟩ := d.sendFrame_eq p f
  have flags : (d.sendFrame p false f).txFlags p (d.rdN (portPage p) Reg.TXQ_CONS) = 2 := by
    rw [Dev.txFlags, Dev.sendFrame_txDesc, hsent]
    exact hf
  have marked := Dev.stored_txMark flags
  rw [Dev.sendFrame_txDesc] at marked
  unfold Dev.closeOne
  dsimp only
  generalize (d.sendFrame p false f).txMark p (d.rdN (portPage p) Reg.TXQ_CONS) 1 = m at marked ⊢
  refine ⟨marked.outs.trans (by rw [hsent]), marked.mem.trans (by rw [hsent]), fun x => (marked.byte x).trans ?_, ?_,
    m.advance_next _ 0 (by decide) (by decide) _, m.advance_raised _ _ _ (by decide)⟩
  · exact Dev.byte_puts_congr (fun _ => by rw [hsent]; rfl) _ _ x
  · rw [(m.advance_regs _ _ 0 (by decide)).rd64 (by decide) (by decide) (by decide), marked.port64 p (by decide), counted]

/-- Time that has passed before it does not show. -/
theorem Dev.closed.of_time {p : Port} {a : Nat} {f : List Byte} {d t : Dev} {k : Sparse Word} {c : Clock}
    (h : Dev.closed p a f { d with setNow := k, clock := c } t) : d.closed p a f t := by
  obtain ⟨outs, mem, byte, frames, cons, raised⟩ := h
  have same : Dev.rd64 { d with setNow := k, clock := c } (portPage p) Reg.TX_FRAMES = d.rd64 (portPage p) Reg.TX_FRAMES := rfl
  rw [same] at frames
  exact ⟨outs, mem, fun x => (byte x).trans (Dev.byte_puts_congr (fun _ => by rfl) _ _ x), frames, cons, raised⟩

theorem Dev.closed_txDone {d : Dev} {p : Port} (hon : d.portOn p = true)
    (hposted : d.rd (portPage p) Reg.TXQ_PROD ≠ d.rd (portPage p) Reg.TXQ_CONS)
    (hflags : d.txFlags p (d.rdN (portPage p) Reg.TXQ_CONS) = 2) (hclean : d.ram.poison = [])
    {a len : Nat} (ha : a = d.txDesc p (d.rdN (portPage p) Reg.TXQ_CONS)) (hlen : len = d.num (a + 8) 4 % 2 ^ 24)
    (hfits : len ≤ d.portLimit p) : d.closed p a (d.bytes (d.num a 8) len) (d.txDone p) := by
  obtain ⟨k, c, heq⟩ := Dev.txDone_one hon hposted hflags hclean ha hlen hfits
  have closed := Dev.closed_closeOne (d := { d with setNow := k, clock := c }) (d.bytes (d.num a 8) len) hflags
  rw [heq, ha]
  rw [ha] at closed
  exact closed.of_time

theorem ethernetTransmit : Claims.EthernetTransmit := by
  intro p s hs d pg cons a len
  refine ⟨fun prod => ?_, fun hon hposted hflags hclean hfits hthawed => ?_⟩
  · refine does_of_run _ s (fun d => (d.disarm pg).wr pg Reg.TXQ_PROD prod) _ rfl ⟨?_, ?_⟩
    · rw [Dev.finish_rd, Dev.rd_wr_same]
    · exact s.dev.onlyRegs_wr pg Reg.TXQ_PROD prod hs.2 (portPage_ne_gpio p) (by decide)
  · have num : ∀ b n, d.begin.num b n = d.num b n := Dev.num_begin d hs.2
    have same : ∀ x, d.begin.byte x = d.byte x := fun x => (d.byte_sound hs.2 x).symm
    have flags : d.begin.txFlags p cons = 2 := by
      rw [Dev.txFlags, num]
      exact hflags
    have length : len = d.begin.num (a + 8) 4 % 2 ^ 24 := by rw [num]
    have closed := Dev.closed_txDone (d := d.begin) (a := a) hon hposted flags hclean rfl length hfits
    have thawed : d.begin.thawed pg (fun d => d.txDone p) = d.begin.txDone p :=
      if_neg (ne_true_of_eq_false hthawed)
    refine does_of_run _ s (fun d => d.thawed pg (fun d => d.txDone p)) _ rfl ?_
    rw [thawed]
    generalize d.begin.txDone p = t at closed
    have byte : ∀ x, (t.finish s.dev.mem).byte x = (d.begin.puts (a + 12) [3]).byte x := fun x =>
      (Dev.byte_of_finish _ _ closed.mem x).trans (closed.byte x)
    refine ⟨?_, ?_, closed.cons, closed.raised, ?_, fun x hx => ?_⟩
    · rw [Dev.finish_outs, closed.outs, num, Dev.bytes_congr same]
      simp
    · rw [Dev.finish_rd64, closed.frames, Dev.begin_rd64]
    · rw [byte]
      exact Dev.byte_puts_in [3] _ _ 0 (by decide)
    · rw [byte, Dev.byte_puts_out _ _ _ _ hx, same]

/-! ### Commands that change registers alone -/

/-- Nothing but the words that k names, and the note of the bits set in this cycle, differs. -/
def Dev.regsOnly (k : Nat → Nat → Prop) (d t : Dev) : Prop := (∃ r n, t = { d with regs := r, setNow := n }) ∧ d.regsBut k t

section RegsOnly
variable {k : Nat → Nat → Prop}

theorem Dev.regsOnly.trans {a b c : Dev} (h : a.regsOnly k b) (h' : b.regsOnly k c) : a.regsOnly k c := by
  obtain ⟨⟨_, _, rfl⟩, hr⟩ := h
  obtain ⟨⟨_, _, rfl⟩, hr'⟩ := h'
  exact ⟨⟨_, _, rfl⟩, hr.trans hr'⟩

theorem Dev.regsOnly_wr (d : Dev) {p off : Nat} (v : Word) (hk : k p off) (ho : off < 4096) : d.regsOnly k (d.wr p off v) :=
  ⟨⟨_, _, rfl⟩, d.regsBut_wr v hk ho⟩

theorem Dev.regsOnly_irq (d : Dev) {p : Nat} (n : Nat) (hk : k p Reg.IRQ_STAT) : d.regsOnly k (d.irq p n) :=
  ⟨⟨_, _, rfl⟩, d.regsBut_irq n hk⟩

theorem Dev.regsOnly_add64 (d : Dev) {p off : Nat} (n : Nat) (hk : k p off) (hk' : k p (off + 4)) (ho : off + 4 < 4096) :
    d.regsOnly k (d.add64 p off n) := (d.regsOnly_wr _ hk (by omega)).trans (Dev.regsOnly_wr _ _ hk' ho)

theorem Dev.regsOnly_ite {c : Prop} [Decidable c] {d a b : Dev} (ha : d.regsOnly k a) (hb : d.regsOnly k b) :
    d.regsOnly k (if c then a else b) := by
  split
  · exact ha
  · exact hb

theorem Dev.regsOnly.mono {k' : Nat → Nat → Prop} {d t : Dev} (h : d.regsOnly k t) (hk : ∀ p o, k p o → k' p o) :
    d.regsOnly k' t :=
  ⟨h.1, h.2.mono hk⟩

/-- What such a command leaves when it has ended. -/
theorem Dev.regsOnly.finish {d t : Dev} (h : d.begin.regsOnly k t) (hd : d.wlog = []) : d.onlyRegs k (t.finish d.mem) := by
  obtain ⟨⟨_, _, rfl⟩, hr⟩ := h
  exact Dev.onlyRegs_finish _ _ _ hd rfl hr rfl

end RegsOnly

/-! ### Reception (R338, R339) -/

/-- The receive descriptor that the next frame takes. -/
def Dev.rxDesc (d : Dev) (p : Port) : Nat :=
  d.portBase p Reg.RXQ_BASE_LO + d.rdN (portPage p) Reg.RXQ_CONS % d.portRing p Reg.RXQ_SIZE * 16

/-- What reception writes into a descriptor behind the buffer's address: length, status and VLAN tag. -/
def rxStatus (f : List Byte) : List Byte :=
  let tagged := be16 f 12 == 0x8100
  leBytes 2 f.length ++ leBytes 2 (1 + 2 * (ipGood f).toNat + 4 * (l4Good f).toNat + 8 * tagged.toNat)
    ++ leBytes 2 (if tagged then be16 f 14 else 0)

theorem rxStatus_length (f : List Byte) : (rxStatus f).length = 6 := rfl

section Receive
variable {d : Dev} {p : Port} {f : List Byte} (hon : d.portOn p = true) (hpause : d.rdB (portPage p) Reg.ETH_CTL 2 = false)
include hon hpause

/-- A frame that finds a buffer is stored there, then its descriptor is written. -/
theorem Dev.ethRx_stored (hfits : f.length ≤ d.portLimit p)
    (hposted : d.rd (portPage p) Reg.RXQ_PROD ≠ d.rd (portPage p) Reg.RXQ_CONS) :
    d.ethRx p f = (((d.storeBy (d.num (d.rxDesc p) 8) f).storeBy (d.rxDesc p + 8) (rxStatus f)).add64 (portPage p) Reg.RX_FRAMES
      1).advance (portPage p) Reg.RXQ_CONS (d.rdN (portPage p) Reg.RXQ_CONS + 1) 1 := by
  have differ : d.rdN (portPage p) Reg.RXQ_PROD ≠ d.rdN (portPage p) Reg.RXQ_CONS := fun hc => hposted (BitVec.eq_of_toNat_eq hc)
  simp only [Dev.ethRx, hon, hpause, Nat.not_lt.2 hfits, differ, Bool.not_true, Bool.false_eq_true, if_false, Dev.rxDesc, rxStatus,
    Dev.advance]

/-- A frame that finds no buffer is dropped, whatever its length. -/
theorem Dev.ethRx_dropped (hempty : d.rd (portPage p) Reg.RXQ_PROD = d.rd (portPage p) Reg.RXQ_CONS) :
    d.ethRx p f = d.rxDrop p := by
  have equal : d.rdN (portPage p) Reg.RXQ_PROD = d.rdN (portPage p) Reg.RXQ_CONS := congrArg BitVec.toNat hempty
  simp [Dev.ethRx, hon, hpause, equal, Dev.pauseSend]

end Receive

/-- The words in which a port counts and reports a dropped frame. -/
def dropWord (p : Port) (q o : Nat) : Prop := q = portPage p ∧ (o = Reg.IRQ_STAT ∨ o = Reg.RX_DROPS ∨ o = Reg.RX_DROPS + 4)

theorem Dev.regsOnly_rxDrop (d : Dev) (p : Port) : d.regsOnly (dropWord p) (d.rxDrop p) :=
  (d.regsOnly_add64 1 ⟨rfl, .inr (.inl rfl)⟩ ⟨rfl, .inr (.inr rfl)⟩ (by decide)).trans (Dev.regsOnly_irq _ 3 ⟨rfl, .inl rfl⟩)

theorem Dev.rxDrop_counted (d : Dev) (p : Port) :
    (d.rxDrop p).rd64 (portPage p) Reg.RX_DROPS = (d.rd64 (portPage p) Reg.RX_DROPS + 1) % 2 ^ 64 := by
  have raised := Dev.regsBut_irq (k := fun _ o => o = Reg.IRQ_STAT) (d.add64 (portPage p) Reg.RX_DROPS 1)
    (p := portPage p) 3 rfl
  rw [Dev.rxDrop, raised.rd64 (by decide) (by decide) (by decide), Dev.rd64_add64]

theorem Dev.rxDrop_raised (d : Dev) (p : Port) : (d.rxDrop p).rdB (portPage p) Reg.IRQ_STAT 3 = true := by
  rw [Dev.rxDrop]
  exact Dev.irq_rdB_same _ _ _ (by decide)

/-- What is left when a frame has been received into a buffer. -/
structure Dev.received (p : Port) (f : List Byte) (d t : Dev) : Prop where
  mem : t.mem = d.mem
  byte : ∀ x, t.byte x = ((d.puts (d.num (d.rxDesc p) 8) f).puts (d.rxDesc p + 8) (rxStatus f)).byte x
  frames : t.rd64 (portPage p) Reg.RX_FRAMES = (d.rd64 (portPage p) Reg.RX_FRAMES + 1) % 2 ^ 64
  cons : t.rd (portPage p) Reg.RXQ_CONS = d.rd (portPage p) Reg.RXQ_CONS + 1
  raised : t.rdB (portPage p) Reg.IRQ_STAT 1 = true

theorem Dev.received_ethRx {d : Dev} {p : Port} {f : List Byte} (hon : d.portOn p = true)
    (hpause : d.rdB (portPage p) Reg.ETH_CTL 2 = false) (hfits : f.length ≤ d.portLimit p)
    (hposted : d.rd (portPage p) Reg.RXQ_PROD ≠ d.rd (portPage p) Reg.RXQ_CONS) : d.received p f (d.ethRx p f) := by
  rw [Dev.ethRx_stored hon hpause hfits hposted]
  have frame := d.stored_storeBy (d.num (d.rxDesc p) 8) f
  generalize d.storeBy (d.num (d.rxDesc p) 8) f = x at frame ⊢
  have status := x.stored_storeBy (d.rxDesc p + 8) (rxStatus f)
  generalize x.storeBy (d.rxDesc p + 8) (rxStatus f) = y at status ⊢
  have counted := y.rd64_add64 (portPage p) Reg.RX_FRAMES 1
  obtain ⟨r, heq⟩ := y.add64_eq (portPage p) Reg.RX_FRAMES 1
  generalize y.add64 (portPage p) Reg.RX_FRAMES 1 = z at counted heq ⊢
  have bytes : ∀ a, z.byte a = y.byte a := fun a => by rw [heq]; rfl
  refine ⟨?_, fun a => ?_, ?_, z.advance_next _ 1 (by decide) (by decide) _, z.advance_raised _ _ _ (by decide)⟩
  · rw [Dev.advance_mem, heq]
    exact status.mem.trans frame.mem
  · rw [Dev.advance_byte, bytes, status.byte]
    exact Dev.byte_puts_congr frame.byte _ _ a
  · rw [(z.advance_regs _ _ 1 (by decide)).rd64 (by decide) (by decide) (by decide), counted, status.port64 p (by decide),
      frame.port64 p (by decide)]

/-! ### Links (R337, R540) -/

/-- The words in which a port shows its link. -/
def portLinkWord (p : Port) (q o : Nat) : Prop := q = portPage p ∧ (o = Reg.IRQ_STAT ∨ o = Reg.ETH_STAT)

/-- A port's link as ETH_STAT shows it. -/
def Dev.showLink (d : Dev) (p : Port) (up fec : Bool) : Dev :=
  let d := d.wrB (portPage p) Reg.ETH_STAT 0 up
  if p = .mgmt then d else d.wrB (portPage p) Reg.ETH_STAT 1 (fec && d.rdB (portPage p) Reg.ETH_CTL 1)

theorem Dev.linkChange_def (d : Dev) (p : Port) (on fec : Bool) :
    d.linkChange p on fec = (d.showLink p (on && !d.portsOff) fec).irq (portPage p) 2 := rfl

theorem Dev.showLink_up (d : Dev) (p : Port) (up fec : Bool) : (d.showLink p up fec).rdB (portPage p) Reg.ETH_STAT 0 = up := by
  have shown : (d.wrB (portPage p) Reg.ETH_STAT 0 up).rdB (portPage p) Reg.ETH_STAT 0 = up := by
    rw [Dev.rdB, Dev.wrB, Dev.rd_wr_same, bit_putBit _ _ _ (by decide)]
  unfold Dev.showLink
  dsimp only
  split
  · exact shown
  · rw [Dev.rdB, Dev.wrB, Dev.rd_wr_same, bit_putBit_other _ _ _ _ (by decide) (by decide)]
    exact shown

theorem Dev.regsOnly_showLink (d : Dev) (p : Port) (up fec : Bool) : d.regsOnly (portLinkWord p) (d.showLink p up fec) := by
  have shown : d.regsOnly (portLinkWord p) (d.wrB (portPage p) Reg.ETH_STAT 0 up) := d.regsOnly_wr _ ⟨rfl, .inr rfl⟩ (by decide)
  exact Dev.regsOnly_ite shown (shown.trans (Dev.regsOnly_wr _ _ ⟨rfl, .inr rfl⟩ (by decide)))

theorem Dev.regsOnly_linkChange (d : Dev) (p : Port) (on fec : Bool) : d.regsOnly (portLinkWord p) (d.linkChange p on fec) := by
  rw [Dev.linkChange_def]
  exact (d.regsOnly_showLink p _ fec).trans (Dev.regsOnly_irq _ 2 ⟨rfl, .inl rfl⟩)

theorem Dev.linkChange_up (d : Dev) (p : Port) (on fec : Bool) :
    (d.linkChange p on fec).rdB (portPage p) Reg.ETH_STAT 0 = (on && !d.portsOff) := by
  rw [Dev.linkChange_def, Dev.rdB, Dev.irq_stat_else _ _ _ _ _ (by decide) (by decide)]
  exact d.showLink_up p _ fec

/-- SGMII_STAT when auto-negotiation has ended. -/
def sgmiiStat (up : Bool) (speed : Nat) (duplex : Bool) : Nat := 1 + 2 * up.toNat + 4 * speed + 16 * duplex.toNat

/-- The result of auto-negotiation shown, and refused where the PHY is too slow. -/
def Dev.showSgmii (d : Dev) (up : Bool) (speed : Nat) (duplex : Bool) : Dev :=
  let d := d.wrN pgMGMT Reg.SGMII_STAT (sgmiiStat up speed duplex)
  if up && speed != 2 then d.irq pgMGMT 4 else d

/-- The words that auto-negotiation changes before the link follows it. -/
def sgmiiWord (q o : Nat) : Prop := q = pgMGMT ∧ (o = Reg.IRQ_STAT ∨ o = Reg.SGMII_STAT)

theorem Dev.regsOnly_showSgmii (d : Dev) (up : Bool) (speed : Nat) (duplex : Bool) :
    d.regsOnly sgmiiWord (d.showSgmii up speed duplex) := by
  have shown : d.regsOnly sgmiiWord (d.wrN pgMGMT Reg.SGMII_STAT (sgmiiStat up speed duplex)) :=
    d.regsOnly_wr _ ⟨rfl, .inr rfl⟩ (by decide)
  exact Dev.regsOnly_ite (shown.trans (Dev.regsOnly_irq _ 4 ⟨rfl, .inl rfl⟩)) shown

theorem Dev.showSgmii_stat (d : Dev) (up : Bool) {speed : Nat} (hs : speed < 3) (duplex : Bool) :
    (d.showSgmii up speed duplex).rdN pgMGMT Reg.SGMII_STAT = sgmiiStat up speed duplex := by
  have small : sgmiiStat up speed duplex < 2 ^ 32 := by
    have := up.toNat_lt
    have := duplex.toNat_lt
    rw [sgmiiStat]
    omega
  have shown : (d.wrN pgMGMT Reg.SGMII_STAT (sgmiiStat up speed duplex)).rdN pgMGMT Reg.SGMII_STAT
      = sgmiiStat up speed duplex := by
    rw [Dev.rdN, Dev.wrN, Dev.rd_wr_same, toNat_word]
    exact Nat.mod_eq_of_lt small
  unfold Dev.showSgmii
  dsimp only
  split
  · rw [Dev.rdN, Dev.irq_stat_else _ _ _ _ _ (by decide) (by decide)]
    exact shown
  · exact shown

/-- Auto-negotiation ends: its result is shown, and the link follows where it differs. -/
theorem Dev.sgmii_def (d : Dev) (up : Bool) (speed : Nat) (duplex : Bool) : d.sgmii up speed duplex =
    if (d.wrN pgMGMT Reg.SGMII_STAT (sgmiiStat up speed duplex)).rdB pgMGMT Reg.ETH_STAT 0 == (up && speed == 2)
    then d.showSgmii up speed duplex else (d.showSgmii up speed duplex).linkChange .mgmt (up && speed == 2) false := rfl

/-- The words that auto-negotiation changes, with those in which the link follows it. -/
def sgmiiLinkWord (q o : Nat) : Prop := q = pgMGMT ∧ (o = Reg.IRQ_STAT ∨ o = Reg.ETH_STAT ∨ o = Reg.SGMII_STAT)

theorem Dev.regsOnly_sgmii (d : Dev) (up : Bool) (speed : Nat) (duplex : Bool) :
    d.regsOnly sgmiiLinkWord (d.sgmii up speed duplex) := by
  have shown : d.regsOnly sgmiiLinkWord (d.showSgmii up speed duplex) :=
    (d.regsOnly_showSgmii up speed duplex).mono (fun _ _ h => ⟨h.1, h.2.imp_right .inr⟩)
  rw [Dev.sgmii_def]
  exact Dev.regsOnly_ite shown (shown.trans ((Dev.regsOnly_linkChange _ .mgmt _ false).mono
    (fun _ _ h => ⟨h.1, h.2.imp_right .inl⟩)))

/-- Only a PHY at 1,000 Mbit/s brings the port up. -/
theorem Dev.sgmii_up (d : Dev) (hoff : d.portsOff = false) (up : Bool) (speed : Nat) (duplex : Bool) :
    (d.sgmii up speed duplex).rdB pgMGMT Reg.ETH_STAT 0 = (up && speed == 2) := by
  have shown := (d.regsOnly_showSgmii up speed duplex).2
  have on : (d.showSgmii up speed duplex).portsOff = false := by
    rw [Dev.portsOff, Dev.mode, Dev.rdF, shown _ _ (by decide) (by unfold sgmiiWord; decide)]
    exact hoff
  rw [Dev.sgmii_def]
  split
  · next was =>
    rw [Dev.rdB, shown _ _ (by decide) (by unfold sgmiiWord; decide)]
    rw [Dev.rdB, Dev.wrN, Dev.rd_wr_off _ _ _ _ _ (by decide)] at was
    exact eq_of_beq was
  · rw [show pgMGMT = portPage .mgmt from rfl, Dev.linkChange_up, on, Bool.not_false, Bool.and_true]

theorem Dev.sgmii_stat (d : Dev) (up : Bool) {speed : Nat} (hs : speed < 3) (duplex : Bool) :
    (d.sgmii up speed duplex).rdN pgMGMT Reg.SGMII_STAT = sgmiiStat up speed duplex := by
  have shown := d.showSgmii_stat up hs duplex
  rw [Dev.sgmii_def]
  split
  · exact shown
  · have linked := ((d.showSgmii up speed duplex).regsOnly_linkChange .mgmt (up && speed == 2) false).2
    rw [Dev.rdN, linked _ _ (by decide) (by unfold portLinkWord; decide)]
    exact shown

theorem ethernetReceiveAndLinks : Claims.EthernetReceiveAndLinks := by
  intro p f s hs d pg a buf
  have num : ∀ b n, d.begin.num b n = d.num b n := Dev.num_begin d hs.2
  refine ⟨fun hon hpause => ⟨fun hfits hposted apart => ?_, fun hempty => ?_⟩, fun on fec => ?_, fun on speed dup hoff => ?_⟩
  · refine does_of_run _ s (fun d => d.ethRx p f) _ rfl ?_
    have received := Dev.received_ethRx (d := d.begin) (f := f) hon hpause hfits hposted
    generalize d.begin.ethRx p f = t at received ⊢
    have desc : d.begin.rxDesc p = a := rfl
    have byte : ∀ x, (t.finish s.dev.mem).byte x = ((d.begin.puts buf f).puts (a + 8) (rxStatus f)).byte x := fun x =>
      (Dev.byte_of_finish s.dev _ received.mem x).trans (by rw [received.byte, desc, num])
    refine ⟨?_, ?_, ?_, received.cons, received.raised⟩
    · rw [Dev.bytes_congr byte, Dev.bytes_puts_out _ _ _ (by rw [rxStatus_length]; omega), Dev.bytes_puts_take _ _ _ (le_refl _),
        List.take_length]
    · rw [Dev.num, Dev.bytes_congr byte, Dev.bytes_puts_take _ _ _ (by rw [rxStatus_length]; omega)]
      exact ofLe_leBytes 2 f.length
    · rw [Dev.finish_rd64, received.frames, Dev.begin_rd64]
  · refine does_of_run _ s (fun d => d.ethRx p f) _ rfl ?_
    rw [Dev.ethRx_dropped (d := s.dev.begin) hon hpause hempty]
    refine ⟨?_, ?_, (d.begin.regsOnly_rxDrop p).finish hs.2⟩
    · rw [Dev.finish_rd64, Dev.rxDrop_counted, Dev.begin_rd64]
    · rw [Dev.finish_rdB, Dev.rxDrop_raised]
  · exact does_of_run _ s (fun d => d.linkChange p on fec) _ rfl
      ⟨d.begin.linkChange_up p on fec, Dev.irq_rdB_same _ _ _ (by decide), (d.begin.regsOnly_linkChange p on fec).finish hs.2⟩
  · exact does_of_run _ s (fun d => d.sgmii on speed dup) _ rfl
      ⟨d.begin.sgmii_stat on speed.isLt dup, d.begin.sgmii_up hoff on speed dup, (d.begin.regsOnly_sgmii on speed dup).finish hs.2⟩

/-- Settles O50: a store's reports change no word of a port, so each command's few operations, taken one after another, leave the
claimed words, bytes and outputs. -/
theorem ethernet : Obligations.Ethernet := ⟨ethernetTransmit, ethernetReceiveAndLinks⟩

end Sys2Proof.Machine
end

/-! PROOFS. What sending on the fabric (R378, R379, R391 to R394) changes: the queues of links, what is remembered of items and
packets, and the words that count packets and hold credits. -/
section
namespace Sys2Proof.Machine

/-! ### The frame of what is sent -/

/-- The words in which packets are counted, and those of the credits of the link that a packet came in on. -/
def sendWord (p o : Nat) : Prop :=
  p = pgFAB ∧ (o = Reg.IRQ_STAT ∨ Reg.EP_INJ ≤ o ∧ o < Reg.HOLD_BASE) ∨ pgAL 0 ≤ p ∧ Reg.AL_CRED ≤ o ∧ o < Reg.AL_CSNAP

/-- No word at all. -/
def noWord (_ _ : Nat) : Prop := False

/-- Nothing but words that k names, the note of the bits set in this cycle and the fabric's state differs; of that, migrations stay
as they are, and a link but for its queue. -/
structure Dev.sent (k : Nat → Nat → Prop) (d t : Dev) : Prop where
  shape : ∃ r n f, t = { d with regs := r, setNow := n, fab := f }
  regs : d.regsBut k t
  migs : t.fab.migs = d.fab.migs
  links : ∀ l, ∃ q, t.link l = { d.link l with queue := q }

section Sent
variable {k : Nat → Nat → Prop} {d t : Dev}

theorem Dev.sent_refl (k : Nat → Nat → Prop) (d : Dev) : d.sent k d := ⟨⟨_, _, _, rfl⟩, d.regsBut_refl k, rfl, fun _ => ⟨_, rfl⟩⟩

theorem Dev.sent.trans {a b c : Dev} (h : a.sent k b) (h' : b.sent k c) : a.sent k c := by
  obtain ⟨⟨_, _, _, rfl⟩, hr, hm, hl⟩ := h
  obtain ⟨⟨_, _, _, rfl⟩, hr', hm', hl'⟩ := h'
  refine ⟨⟨_, _, _, rfl⟩, hr.trans hr', hm'.trans hm, fun l => ?_⟩
  obtain ⟨q, hq⟩ := hl l
  obtain ⟨q', hq'⟩ := hl' l
  exact ⟨q', by rw [hq', hq]⟩

theorem Dev.sent.mono {k' : Nat → Nat → Prop} (h : d.sent k t) (hk : ∀ p o, k p o → k' p o) : d.sent k' t :=
  ⟨h.shape, h.regs.mono hk, h.migs, h.links⟩

/-- What is sent without a word of the registers. -/
theorem Dev.sent.any (h : d.sent noWord t) (k : Nat → Nat → Prop) : d.sent k t := h.mono (fun _ _ hk => hk.elim)

theorem Dev.sent_ite {c : Prop} [Decidable c] {a b : Dev} (ha : d.sent k a) (hb : d.sent k b) : d.sent k (if c then a else b) := by
  split
  · exact ha
  · exact hb

theorem Dev.sent_forL {α : Type} (l : List α) (f : α → Dev → Dev) (hf : ∀ x e, Dev.sent k e (f x e)) (d : Dev) :
    d.sent k (forL l f d) := forL_rel (Dev.sent k) (Dev.sent_refl k) (fun _ _ _ => Dev.sent.trans) l f hf d

theorem Dev.link_of_fab {d t : Dev} (h : t.fab.links = d.fab.links) (l : Nat) : t.link l = d.link l := by rw [Dev.link, Dev.link, h]

theorem Dev.sent_onFab (d : Dev) (f : FabricSt → FabricSt) (hm : (f d.fab).migs = d.fab.migs)
    (hl : (f d.fab).links = d.fab.links) : d.sent k (d.onFab f) :=
  ⟨⟨_, _, _, rfl⟩, fun _ _ _ _ => rfl, hm, fun l => ⟨_, Dev.link_of_fab hl l⟩⟩

theorem Dev.sent_wr (d : Dev) {p o : Nat} (v : Word) (hk : k p o) (ho : o < 4096) : d.sent k (d.wr p o v) :=
  ⟨⟨_, _, _, rfl⟩, d.regsBut_wr v hk ho, rfl, fun _ => ⟨_, rfl⟩⟩

theorem Dev.sent_irq (d : Dev) {p : Nat} (n : Nat) (hk : k p Reg.IRQ_STAT) : d.sent k (d.irq p n) :=
  ⟨⟨_, _, _, rfl⟩, d.regsBut_irq n hk, rfl, fun _ => ⟨_, rfl⟩⟩

theorem Dev.sent_add64 (d : Dev) {p o : Nat} (n : Nat) (hk : k p o) (hk' : k p (o + 4)) (ho : o + 4 < 4096) :
    d.sent k (d.add64 p o n) := (d.sent_wr _ hk (by omega)).trans (Dev.sent_wr _ _ hk' ho)

/-! ### What stays -/

/-- What a link holds beside its queue. -/
theorem Dev.sent.keeps {α : Type} (h : d.sent k t) (f : Link → α) (hf : ∀ x q, f { x with queue := q } = f x) (l : Nat) :
    f (t.link l) = f (d.link l) := by
  obtain ⟨q, hq⟩ := h.links l
  rw [hq, hf]

theorem Dev.sent.wlog (h : d.sent k t) : t.wlog = d.wlog := by
  obtain ⟨_, _, _, rfl⟩ := h.shape
  rfl

theorem Dev.sent.clock (h : d.sent k t) : t.clock = d.clock := by
  obtain ⟨_, _, _, rfl⟩ := h.shape
  rfl

theorem Dev.sent.heads (h : d.sent k t) : t.heads = d.heads := by
  obtain ⟨_, _, _, rfl⟩ := h.shape
  rfl

theorem Dev.sent.st (h : d.sent k t) (l : Nat) : (t.link l).st = (d.link l).st := h.keeps Link.st (fun _ _ => rfl) l

end Sent

/-! ### Links -/

@[simp] theorem Dev.link_setLink (d : Dev) (l : Nat) (x : Link) : (d.setLink l x).link l = x := by
  simp [Dev.link, Dev.setLink, Dev.onFab]

theorem Dev.link_setLink_ne (d : Dev) {l m : Nat} (x : Link) (h : m ≠ l) : (d.setLink l x).link m = d.link m :=
  spGet_put_other _ _ _ _ _ h

@[simp] theorem Dev.link_onLink (d : Dev) (l : Nat) (f : Link → Link) : (d.onLink l f).link l = f (d.link l) := d.link_setLink l _

@[simp] theorem Dev.link_wr (d : Dev) (p o : Nat) (v : Word) (l : Nat) : (d.wr p o v).link l = d.link l := rfl

@[simp] theorem Dev.link_irq (d : Dev) (p n l : Nat) : (d.irq p n).link l = d.link l := rfl

@[simp] theorem Dev.link_add64 (d : Dev) (p o n l : Nat) : (d.add64 p o n).link l = d.link l := by
  obtain ⟨_, h⟩ := d.add64_eq p o n
  rw [h]; rfl

@[simp] theorem Dev.link_finish (d : Dev) (old : List Host.Cell) (l : Nat) : (Dev.finish old d).link l = d.link l := rfl

@[simp] theorem Dev.link_begin (d : Dev) (l : Nat) : d.begin.link l = d.link l := rfl

/-! ### One packet -/

theorem Dev.sent_toLink {k : Nat → Nat → Prop} (d : Dev) (l : Nat) (p : Packet) : d.sent k (d.toLink l p) := by
  refine ⟨⟨_, _, _, rfl⟩, fun _ _ _ _ => rfl, rfl, fun m => ?_⟩
  by_cases hm : m = l
  · exact ⟨_, by rw [hm, Dev.toLink, Dev.link_onLink]⟩
  · exact ⟨_, d.link_setLink_ne _ hm⟩

theorem sendWord_counter {o : Nat} (h : Reg.EP_INJ ≤ o ∧ o < Reg.HOLD_BASE) : sendWord pgFAB o := .inl ⟨rfl, .inr h⟩

theorem Dev.sent_raised (d : Dev) (n : Nat) : d.sent sendWord (d.irq pgFAB n) := d.sent_irq n (.inl ⟨rfl, .inl rfl⟩)

/-- Buffers that are freed are credits to be returned. -/
theorem Dev.sent_freeBufs (d : Dev) (via : Option Nat) (cls n : Nat) : d.sent sendWord (d.freeBufs via cls n) := by
  cases via with
  | none => exact d.sent_refl _
  | some l =>
    rw [Dev.freeBufs]
    split
    · exact d.sent_refl _
    · exact d.sent_wr _ (.inr ⟨by simp only [pgAL]; omega, by simp only [Reg.AL_CRED]; omega,
        by simp only [Reg.AL_CRED, Reg.AL_CSNAP]; omega⟩) (by simp only [Reg.AL_CRED]; omega)

theorem Dev.sent_counted (d : Dev) {o : Nat} (n : Nat) (h : Reg.EP_INJ ≤ o ∧ o + 4 < Reg.HOLD_BASE) :
    d.sent sendWord (d.add64 pgFAB o n) :=
  d.sent_add64 n (sendWord_counter ⟨h.1, by omega⟩) (sendWord_counter ⟨by omega, h.2⟩)
    (by have := h.2; simp only [Reg.HOLD_BASE] at this; omega)

theorem Dev.sent_epEnd (d : Dev) (p : Packet) : d.sent sendWord (d.epEnd p) :=
  (d.sent_freeBufs _ _ _).trans (Dev.sent_counted _ 1 (by cases p.epoch <;> decide))

theorem Dev.sent_noRoute (d : Dev) (p : Packet) : d.sent sendWord (d.noRoute p) :=
  ((d.sent_counted 1 (by decide)).trans (Dev.sent_raised _ 9)).trans (Dev.sent_epEnd _ p)

theorem Dev.sent_atHome (d : Dev) (p : Packet) : d.sent sendWord (d.atHome p).1 := by
  have dropped : d.sent sendWord (((d.add32 pgFAB Reg.HOLD_DROPS 1).irq pgFAB 8).epEnd p) :=
    ((d.sent_wr _ (sendWord_counter (by decide)) (by decide)).trans (Dev.sent_raised _ 8)).trans (Dev.sent_epEnd _ p)
  have held : ∀ f : FabricSt → FabricSt, (∀ x, (f x).migs = x.migs) → (∀ x, (f x).links = x.links) →
      d.sent sendWord ((d.freePkt p).onFab f).setHoldUsed := fun f hm hl =>
    ((d.sent_freeBufs _ _ _).trans (Dev.sent_onFab _ f (hm _) (hl _))).trans
      (Dev.sent_wr _ _ (sendWord_counter (by decide)) (by decide))
  unfold Dev.atHome
  split
  · dsimp only
    split
    · exact dropped
    · exact held _ (fun _ => rfl) (fun _ => rfl)
  · exact d.sent_epEnd p

theorem Dev.sent_routePkt (d : Dev) (p : Packet) : d.sent sendWord (d.routePkt p).1 := by
  have lacking : d.sent sendWord ((d.add32 pgFAB Reg.FEAT_DROPS 1).epEnd p) :=
    (d.sent_wr _ (sendWord_counter (by decide)) (by decide)).trans (Dev.sent_epEnd _ p)
  unfold Dev.routePkt
  simp only [apply_ite Prod.fst]
  exact Dev.sent_ite (d.sent_atHome p) (Dev.sent_ite (d.sent_atHome p) (Dev.sent_ite (d.sent_noRoute p)
    (Dev.sent_ite (d.sent_noRoute p) (Dev.sent_ite lacking (d.sent_toLink _ p)))))

theorem Dev.sent_inject1 (d : Dev) (p : Packet) : d.sent sendWord (d.inject1 p) := by
  rw [Dev.inject1_def]
  exact (d.sent_counted 1 (by cases d.rtActive <;> decide)).trans (Dev.sent_routePkt _ _)

theorem Dev.sent_injectPkt (d : Dev) (cls dst : Nat) (bytes : List Byte) : d.sent sendWord (d.injectPkt cls dst bytes) :=
  Dev.sent_ite (d.sent_refl _) (d.sent_inject1 _)

/-! ### Items (R378) -/

theorem Dev.sent_depart (d : Dev) (u : Unacked) : d.sent sendWord (d.depart u) :=
  Dev.sent_ite (d.sent_toLink _ _) (d.sent_inject1 _)

theorem Dev.sent_sendItem (d : Dev) (u : Unacked) : d.sent sendWord (d.sendItem u) :=
  Dev.sent_ite (d.sent_depart u) (Dev.sent_ite (d.sent_onFab _ rfl rfl) ((d.sent_onFab _ rfl rfl).trans (Dev.sent_depart _ u)))

/-- A LINK packet takes no word of the registers. -/
theorem Dev.sent_linkMsg (d : Dev) (l kind : Nat) (bytes : List Byte) : d.sent noWord (d.linkMsg l kind bytes) := by
  rw [Dev.linkMsg, Dev.sendItem, if_neg (by simp)]
  exact Dev.sent_ite (d.sent_onFab _ rfl rfl) ((d.sent_onFab _ rfl rfl).trans (Dev.sent_toLink _ _ _))

theorem Dev.sent_linkSend (d : Dev) (l kind : Nat) (args : List Nat) : d.sent noWord (d.linkSend l kind args) := d.sent_linkMsg l kind _

theorem Dev.sent_sendWaiting (d : Dev) : d.sent sendWord d.sendWaiting :=
  (d.sent_onFab _ rfl rfl).trans (Dev.sent_forL _ _ (fun u e => e.sent_sendItem u) _)

theorem Dev.sent_acked (d : Dev) (test : Unacked → Bool) : d.sent sendWord (d.acked test) := by
  unfold Dev.acked
  split
  · exact d.sent_refl _
  · exact (d.sent_onFab _ rfl rfl).trans (Dev.sent_sendWaiting _)

theorem Dev.sent_msgItem (d : Dev) (cls dst kind key seq : Nat) (args : List Nat) :
    d.sent sendWord (d.msgItem cls dst kind key seq args) := Dev.sent_ite (d.sent_refl _) (d.sent_sendItem _)

theorem Dev.sent_msg (d : Dev) (cls dst kind : Nat) (args : List Nat) : d.sent sendWord (d.msg cls dst kind args) :=
  Dev.sent_ite (d.sent_refl _) ((d.sent_onFab _ rfl rfl).trans (Dev.sent_msgItem _ _ _ _ _ _ _))

end Sys2Proof.Machine
end

/-! PROOFS. The state of an Auver link (R376, R384 to R387): what enters it, what leaves it alone, a loss. -/
section
namespace Sys2Proof.Machine

/-! ### Time and log records beside the links -/

theorem le_ceilDiv_mul (a : Nat) {b : Nat} (hb : 0 < b) : a ≤ ceilDiv a b * b := by
  have := Nat.div_add_mod (a + b - 1) b
  have := Nat.mod_lt (a + b - 1) hb
  rw [ceilDiv, Nat.mul_comm]
  omega

theorem Dev.stretch_pos (d : Dev) : 0 < d.stretch := by
  unfold Dev.stretch
  split <;> decide

/-- The clock moved on to an instant has reached it. -/
theorem Dev.toBase_reaches (d : Dev) (n : Nat) : n ≤ (d.toBase n).clock.base := by
  have := le_ceilDiv_mul (n - d.clock.base) d.stretch_pos
  show n ≤ d.clock.base + ceilDiv (n - d.clock.base) d.stretch * d.stretch
  omega

@[simp] theorem Dev.link_toBase (d : Dev) (n l : Nat) : (d.toBase n).link l = d.link l := rfl

/-- What log records change: words of the LOG page, their queue and its counts in memory. -/
def Dev.logged (d t : Dev) : Prop :=
  (∃ r n m v w g c, t = { d with regs := r, setNow := n, ram := m, resv := v, wlog := w, log := g, draws := c })
    ∧ d.regsBut (fun p _ => p = pgLOG) t

theorem Dev.logged_refl (d : Dev) : d.logged d := ⟨⟨_, _, _, _, _, _, _, rfl⟩, d.regsBut_refl _⟩

theorem Dev.logged.trans {a b c : Dev} (h : a.logged b) (h' : b.logged c) : a.logged c := by
  obtain ⟨⟨_, _, _, _, _, _, _, rfl⟩, hr⟩ := h
  obtain ⟨⟨_, _, _, _, _, _, _, rfl⟩, hr'⟩ := h'
  exact ⟨⟨_, _, _, _, _, _, _, rfl⟩, hr.trans hr'⟩

theorem Dev.logged_ite {c : Prop} [Decidable c] {d a b : Dev} (ha : d.logged a) (hb : d.logged b) :
    d.logged (if c then a else b) := by
  split
  · exact ha
  · exact hb

theorem Dev.logged_irq (d : Dev) (n : Nat) : d.logged (d.irq pgLOG n) := ⟨⟨_, _, _, _, _, _, _, rfl⟩, d.regsBut_irq n rfl⟩

theorem Dev.puts_wlog (d : Dev) (a : Nat) (bs : List Byte) : ∃ w, d.puts a bs = { d with wlog := w } := by
  induction bs generalizing d a with
  | nil => exact ⟨_, rfl⟩
  | cons b bs ih =>
    obtain ⟨w, h⟩ := ih (d.put a b) (a + 1)
    exact ⟨w, h⟩

/-- A store into an area changes what is known of DRAM, the reservations that stand and what is to be written, and nothing else. -/
theorem Dev.storeArea_eq (d : Dev) (a : Nat) (bs : List Byte) :
    ∃ m v w, d.storeArea a bs = { d with ram := m, resv := v, wlog := w } := by
  unfold Dev.storeArea
  split
  · obtain ⟨t, ⟨m, v, rfl⟩, heq⟩ := d.store_eq a bs
    obtain ⟨w, hw⟩ := Dev.puts_wlog { d with ram := m, resv := v } a bs
    exact ⟨m, v, w, heq.trans hw⟩
  · exact ⟨_, _, _, rfl⟩

theorem Dev.logged_storeArea (d : Dev) (a : Nat) (bs : List Byte) : d.logged (d.storeArea a bs) := by
  obtain ⟨m, v, w, heq⟩ := d.storeArea_eq a bs
  rw [heq]
  exact ⟨⟨_, _, _, _, _, _, _, rfl⟩, d.regsBut_refl _⟩

theorem Dev.logged_logCount (d : Dev) (src k : Nat) (n : Int) : d.logged (d.logCount src k n) := d.logged_storeArea _ _

theorem Dev.logged_queue (d : Dev) (g : LogSt) : d.logged { d with log := g } := ⟨⟨_, _, _, _, _, _, _, rfl⟩, d.regsBut_refl _⟩

theorem Dev.logged_logMerge (d : Dev) (typed : Bool) (r : LogRec) : d.logged (d.logMerge typed r) :=
  ((d.logged_queue _).trans (Dev.logged_logCount _ _ _ _)).trans (Dev.logged_irq _ 2)

theorem Dev.logged_logAdmit (d : Dev) (r : LogRec) : d.logged (d.logAdmit r) := by
  have dropped : d.logged (d.logCount r.source 3 1) := d.logged_logCount _ _ _
  have taken : ∀ b, d.logged ((d.logPush b r).logCount r.source 4 1) := fun b =>
    (d.logged_queue _).trans (Dev.logged_logCount _ _ _ _)
  have merged := fun b => d.logged_logMerge b r
  exact Dev.logged_ite (dropped.trans (Dev.logged_irq _ 1)) (Dev.logged_ite (taken _) (Dev.logged_ite (taken _) (Dev.logged_ite
    (Dev.logged_ite (merged _) (Dev.logged_ite (taken _) (Dev.logged_ite (merged _) dropped)))
    (Dev.logged_ite (merged _) (Dev.logged_ite (merged _) (taken _))))))

theorem Dev.logged_logRecord (d : Dev) (r : LogRec) : d.logged (d.logRecord r) := by
  have tail : d.logged ((d.logTail r).irq pgLOG 0) :=
    (show d.logged (d.logTail r) from ⟨⟨_, _, _, _, _, _, _, rfl⟩, d.regsBut_refl _⟩).trans (Dev.logged_irq _ 0)
  have produced : ∀ e : Dev, e.logged (if e.rdB pgLOG Reg.LOG_CTL 0 then (e.logCount r.source 0 1).logAdmit r else e) := fun e =>
    Dev.logged_ite ((e.logged_logCount _ _ _).trans (Dev.logged_logAdmit _ r)) e.logged_refl
  exact (Dev.logged_ite tail d.logged_refl).trans (produced _)

theorem Dev.logged_alarm (d : Dev) (page cause : Nat) : d.logged (d.alarm page cause) :=
  (d.logged_logRecord _).trans ⟨⟨_, _, _, _, _, _, _, rfl⟩, Dev.regsBut_refl _ _⟩

theorem Dev.logged.fab {d t : Dev} (h : d.logged t) : t.fab = d.fab := by
  obtain ⟨⟨_, _, _, _, _, _, _, rfl⟩, _⟩ := h
  rfl

theorem Dev.logged.clock {d t : Dev} (h : d.logged t) : t.clock = d.clock := by
  obtain ⟨⟨_, _, _, _, _, _, _, rfl⟩, _⟩ := h
  rfl

theorem Dev.logged.link {d t : Dev} (h : d.logged t) (l : Nat) : t.link l = d.link l := Dev.link_of_fab (by rw [h.fab]) l

/-! ### A step that leaves the state of a link -/

/-- The state of link l, the clock, the outputs, what waits to be written to memory, and every word but those that k names stay. -/
structure Dev.linkStep (l : Nat) (k : Nat → Nat → Prop) (d t : Dev) : Prop where
  st : (t.link l).st = (d.link l).st
  regs : d.regsBut k t
  clock : t.clock = d.clock
  wlog : t.wlog = d.wlog
  outs : t.outs = d.outs

section LinkStep
variable {l : Nat} {k : Nat → Nat → Prop} {d t : Dev}

theorem Dev.linkStep.trans {a b c : Dev} (h : a.linkStep l k b) (h' : b.linkStep l k c) : a.linkStep l k c :=
  ⟨h'.st.trans h.st, h.regs.trans h'.regs, h'.clock.trans h.clock, h'.wlog.trans h.wlog, h'.outs.trans h.outs⟩

theorem Dev.linkStep_refl (l : Nat) (k : Nat → Nat → Prop) (d : Dev) : d.linkStep l k d := ⟨rfl, d.regsBut_refl k, rfl, rfl, rfl⟩

theorem Dev.linkStep.mono {k' : Nat → Nat → Prop} (h : d.linkStep l k t) (hk : ∀ p o, k p o → k' p o) : d.linkStep l k' t :=
  ⟨h.st, h.regs.mono hk, h.clock, h.wlog, h.outs⟩

theorem Dev.sent.outs (h : d.sent k t) : t.outs = d.outs := by
  obtain ⟨_, _, _, rfl⟩ := h.shape
  rfl

theorem Dev.sent.linkStep (h : d.sent k t) (l : Nat) : d.linkStep l k t := ⟨h.st l, h.regs, h.clock, h.wlog, h.outs⟩

theorem Dev.linkStep_wr (d : Dev) (l : Nat) {p o : Nat} (v : Word) (hk : k p o) (ho : o < 4096) : d.linkStep l k (d.wr p o v) :=
  ⟨rfl, d.regsBut_wr v hk ho, rfl, rfl, rfl⟩

theorem Dev.linkStep_irq (d : Dev) (l : Nat) {p : Nat} (n : Nat) (hk : k p Reg.IRQ_STAT) : d.linkStep l k (d.irq p n) :=
  ⟨rfl, d.regsBut_irq n hk, rfl, rfl, rfl⟩

theorem Dev.linkStep_wr64 (d : Dev) (l : Nat) {p o : Nat} (v : Nat) (hk : k p o) (hk' : k p (o + 4)) (ho : o + 4 < 4096) :
    d.linkStep l k (d.wr64 p o v) := (d.linkStep_wr l _ hk (by omega)).trans (Dev.linkStep_wr _ l _ hk' ho)

theorem Dev.linkStep_onLink (d : Dev) (l : Nat) (f : Link → Link) (hf : ∀ x, (f x).st = x.st) : d.linkStep l k (d.onLink l f) :=
  ⟨by rw [Dev.link_onLink, hf], fun _ _ _ _ => rfl, rfl, rfl, rfl⟩

end LinkStep

/-! ### Entering a state -/

/-- Link l is in a state, and AL_STAT says so. -/
def Dev.stands (l : Nat) (st : LinkState) (d : Dev) : Prop := (d.link l).st = st ∧ d.rdF (pgAL l) Reg.AL_STAT 2 0 = st.code

theorem Dev.stands.keep {l : Nat} {st : LinkState} {d t : Dev} (h : d.stands l st) (hst : (t.link l).st = (d.link l).st)
    (hw : t.rd (pgAL l) Reg.AL_STAT = d.rd (pgAL l) Reg.AL_STAT) : t.stands l st := by
  obtain ⟨hs, hc⟩ := h
  exact ⟨hst.trans hs, by rw [Dev.rdF, hw]; exact hc⟩

theorem Dev.linkStep.stands {l : Nat} {k : Nat → Nat → Prop} {st : LinkState} {d t : Dev} (h : d.linkStep l k t)
    (hk : ¬k (pgAL l) Reg.AL_STAT) (hs : d.stands l st) : t.stands l st := hs.keep h.st (h.regs _ _ (by decide) hk)

theorem Dev.stands.finish {l : Nat} {st : LinkState} {d : Dev} (h : d.stands l st) (old : List Host.Cell) :
    (d.finish old).stands l st := h

theorem LinkState.code_lt (st : LinkState) : st.code < 8 := by cases st <;> decide

theorem Dev.setLinkSt_link (d : Dev) (l : Nat) (st : LinkState) :
    (d.setLinkSt l st).link l = { d.link l with st := st, enteredAt := d.clock.base } := by
  rw [Dev.setLinkSt, Dev.wrF, Dev.link_wr, Dev.link_onLink]

theorem Dev.setLinkSt_stands (d : Dev) (l : Nat) (st : LinkState) : (d.setLinkSt l st).stands l st := by
  refine ⟨by rw [Dev.setLinkSt_link], ?_⟩
  rw [Dev.setLinkSt, Dev.wrF, Dev.rdF, Dev.rd_wr_same, field_putField _ _ _ _ (by decide) (by decide)]
  exact Nat.mod_eq_of_lt st.code_lt

theorem Dev.setLinkSt_regs (d : Dev) (l : Nat) (st : LinkState) :
    d.regsBut (fun p o => p = pgAL l ∧ o = Reg.AL_STAT) (d.setLinkSt l st) :=
  (show d.regsBut _ (d.onLink l _) from fun _ _ _ _ => rfl).trans (Dev.regsBut_wr _ _ ⟨rfl, rfl⟩ (by decide))

theorem Dev.stands.wrB {l : Nat} {st : LinkState} {d : Dev} (h : d.stands l st) {n : Nat} (b : Bool) (hn : 2 < n) (hn' : n < 32) :
    (d.wrB (pgAL l) Reg.AL_STAT n b).stands l st := by
  obtain ⟨hs, hc⟩ := h
  refine ⟨hs, ?_⟩
  rw [Dev.rdF, Dev.wrB, Dev.rd_wr_same, field_putBit_other _ _ _ _ _ hn' (.inr hn)]
  exact hc

/-- QUARANTINE is entered with ATTEST_FAIL raised. -/
theorem Dev.quarantine_stands (d : Dev) {l : Nat} (hl : l < 8) : (d.quarantine l).stands l .quarantine
    ∧ (d.quarantine l).rdB (pgAL l) Reg.IRQ_STAT 2 = true ∧ (d.quarantine l).clock = d.clock := by
  have alarm := ((d.setLinkSt l .quarantine).irq (pgAL l) 2).logged_alarm (pgAL l) 2
  have apart : ¬pgAL l = pgLOG := by simp only [pgAL, pgLOG]; omega
  have entered : ((d.setLinkSt l .quarantine).irq (pgAL l) 2).stands l .quarantine :=
    (d.setLinkSt_stands l .quarantine).keep rfl (Dev.irq_stat_else _ _ _ _ _ (by decide) (by decide))
  refine ⟨entered.keep (congrArg Link.st (alarm.link l)) (alarm.2 _ _ (by decide) apart), ?_, alarm.clock⟩
  rw [Dev.rdB, Dev.quarantine, alarm.2 _ _ (by decide) apart]
  exact Dev.irq_rdB_same _ _ _ (by decide)

/-! ### A loss (R384) -/

/-- The words that a loss of link l counts in. -/
def lossWord (l p o : Nat) : Prop := sendWord p o ∨ p = pgAL l ∧ o = Reg.AL_LOST

theorem sendWord_credit (l : Nat) {c w : Nat} (hc : c < 6) (hw : w < 4) : sendWord (pgAL l) (credOff c w) :=
  .inr ⟨by simp only [pgAL]; omega, by simp only [credOff, Reg.AL_CRED]; omega, by simp only [credOff, Reg.AL_CRED, Reg.AL_CSNAP]; omega⟩

theorem Dev.sent_credit (d : Dev) (l : Nat) {c w : Nat} (v : Word) (hc : c < 6) (hw : w < 4) :
    d.sent sendWord (d.wr (pgAL l) (credOff c w) v) :=
  d.sent_wr v (sendWord_credit l hc hw) (by simp only [credOff, Reg.AL_CRED]; omega)

theorem not_sendWord_link {l o : Nat} (h : o < Reg.AL_CRED ∨ Reg.AL_CSNAP ≤ o) (hl : l < 8) : ¬sendWord (pgAL l) o := by
  simp only [sendWord, pgAL, pgFAB]
  omega

/-- A flit of a whole packet that waits for a lost link: its buffer is free, and the packet's first flit ends it. -/
theorem Dev.sent_wholeLost (d : Dev) (e : Option Nat × List Byte) : d.sent sendWord
    (let ctl := e.2.getD 2 0
     let d := d.freeBufs e.1 (ctl.toNat % 8) 1
     if ctl.getLsbD 4 then ((d.add64 pgFAB Reg.NOROUTE 1).irq pgFAB 9).add64 pgFAB (Reg.EP_END + 8 * (ctl.getLsbD 3).toNat) 1
     else d) := by
  refine (d.sent_freeBufs e.1 _ 1).trans (Dev.sent_ite ?_ (Dev.sent_refl _ _))
  exact ((Dev.sent_counted _ 1 (by decide)).trans (Dev.sent_raised _ 9)).trans
    (Dev.sent_counted _ 1 (by cases (e.2.getD 2 0).getLsbD 3 <;> decide))

/-- What R384 does to the flits that wait for a lost link, and to its buffers and credits: link l alone loses more than its queue. -/
theorem Dev.lossEffects_eq (d : Dev) (l : Nat) : ∃ e, d.sent (lossWord l) e ∧ d.lossEffects l = e.onLink l (fun x =>
    { x with held := [], resend := [], queue := [], asm := [], replays := 0, waitReplay := false, peerHops := none }) := by
  have part : ∀ (e : Nat × Option Nat) (d : Dev), d.sent sendWord (d.freeBufs e.2 e.1 1) := fun e d => d.sent_freeBufs _ _ _
  refine ⟨_, ?_, rfl⟩
  have credits : ∀ c < 6, ∀ e : Dev, e.sent sendWord
      (let e := e.wrF (pgAL l) (credOff c 2) 15 0 (e.rxOcc l c - (spGet (fun _ => []) (d.link l).asm c).length)
       let e := e.wrN (pgAL l) (credOff c 1) (e.rdF (pgAL l) (credOff c 0) 15 0)
       (e.wrF (pgAL l) (credOff c 2) 31 16 (e.rdF (pgAL l) (credOff c 0) 31 16 - e.rxOcc l c)).wrN (pgAL l) (credOff c 3) 0) :=
    fun c hc e => (((e.sent_credit l _ hc (by decide)).trans (Dev.sent_credit _ l _ hc (by decide))).trans
      (Dev.sent_credit _ l _ hc (by decide))).trans (Dev.sent_credit _ l _ hc (by decide))
  refine Dev.sent.trans ?_ ((forN_rel_lt (Dev.sent sendWord) (Dev.sent_refl _) (fun _ _ _ => Dev.sent.trans) 6 _ credits _).mono
    (fun _ _ => .inl))
  refine Dev.sent.trans ?_ (Dev.sent_onFab _ _ ?_ ?_)
  · refine Dev.sent.trans ?_ ((Dev.sent_forL _ _ (fun e d => d.sent_wholeLost e) _).mono (fun _ _ => .inl))
    exact (Dev.sent_wr _ _ (.inr ⟨rfl, rfl⟩) (by decide)).trans ((Dev.sent_forL _ _ part _).mono (fun _ _ => .inl))
  · rfl
  · rfl

/-- The words that say which link leads to the time root. -/
def parentWord (p o : Nat) : Prop := p = pgTIME ∧ (o = Reg.TIME_STAT ∨ o = Reg.IRQ_STAT)

theorem Dev.sent_pickParent (d : Dev) : d.sent parentWord d.pickParent := by
  have shown : ∀ a b : Nat, d.sent parentWord ((d.wrF pgTIME Reg.TIME_STAT 6 3 a).wrF pgTIME Reg.TIME_STAT 11 7 b) :=
    fun a b => Dev.sent.trans (d.sent_wr _ ⟨rfl, .inl rfl⟩ (by decide)) (Dev.sent_wr _ _ ⟨rfl, .inl rfl⟩ (by decide))
  have changed : ∀ (a b : Nat) (f : FabricSt → FabricSt), (∀ x, (f x).migs = x.migs) → (∀ x, (f x).links = x.links) →
      d.sent parentWord ((((d.wrF pgTIME Reg.TIME_STAT 6 3 a).wrF pgTIME Reg.TIME_STAT 11 7 b).onFab f).irq pgTIME 4) :=
    fun a b f hm hl => ((shown a b).trans (Dev.sent_onFab _ f (hm _) (hl _))).trans (Dev.sent_irq _ _ ⟨rfl, .inr rfl⟩)
  exact Dev.sent_ite (shown _ _) (changed _ _ _ (fun _ => rfl) (fun _ => rfl))

end Sys2Proof.Machine
end

/-! PROOFS. The states of an Auver link: its commands (R376, R384 to R387). -/
section
namespace Sys2Proof.Machine

/-! ### Training -/

theorem Dev.signalDetect_eq {d : Dev} {l : Nat} (hst : (d.link l).st = .down) (hen : d.rdB (pgAL l) Reg.AL_CTL 0 = true)
    (hon : d.portsOff = false) : d.signalDetect l = d.setLinkSt l .train := if_pos ⟨hst, hen, by rw [hon]; rfl⟩

/-- The state of a link after training: HELLO, what training found, and fresh sequence numbers. -/
theorem Dev.trainDone_stands {d : Dev} {l : Nat} (hst : (d.link l).st = .train) (hocc : ∀ c < 6, d.rxOcc l c = 0) (swap : Bool) :
    (d.trainDone l swap).stands l .hello ∧ (d.trainDone l swap).rdB (pgAL l) Reg.AL_STAT 4 = swap
    ∧ ((d.trainDone l swap).link l).txSeq = 0 ∧ ((d.trainDone l swap).link l).rxSeq = 255
    ∧ (d.trainDone l swap).wlog = d.wlog := by
  have idle : ¬((d.link l).st ≠ .train ∨ (List.range 6).any (fun c => d.rxOcc l c != 0)) := by
    simp only [hst, List.any_eq_true, List.mem_range, not_or, not_exists, not_and]
    exact ⟨by simp, fun c hc => by simp [hocc c hc]⟩
  rw [Dev.trainDone, if_neg idle]
  extract_lets e shown b fresh
  have sent := fresh.sent_linkMsg l msgHello b
  have hshown : shown.stands l .hello := ((d.setLinkSt_stands l .hello).wrB _ (by decide) (by decide)).wrB _ (by decide) (by decide)
  have hfresh : fresh.stands l .hello := by
    refine Dev.linkStep.stands (k := noWord) (Dev.linkStep_onLink _ l _ ?_) id hshown
    exact fun _ => rfl
  refine ⟨(sent.linkStep l).stands id hfresh, ?_, ?_, ?_, sent.wlog⟩
  · rw [Dev.rdB, sent.regs _ _ (by decide) id]
    exact (Dev.wrB_bit _ _ _ 4 4 swap (by decide)).trans (if_pos rfl)
  · rw [sent.keeps Link.txSeq (fun _ _ => rfl), Dev.link_onLink]
  · rw [sent.keeps Link.rxSeq (fun _ _ => rfl), Dev.link_onLink]

theorem Dev.trainTimeout_eq {d : Dev} {l : Nat} (hst : (d.link l).st = .train) :
    d.trainTimeout l = (d.toBase ((d.link l).enteredAt + msBase 100)).setLinkSt l .down := if_neg (by simp [hst])

theorem Dev.attestTimeout_eq {d : Dev} {l : Nat} (hst : (d.link l).st = .attest) :
    d.attestTimeout l = (d.toBase ((d.link l).enteredAt + msBase 200)).quarantine l := if_neg (by simp [hst])

theorem Dev.quarantineExpiry_eq {d : Dev} {l : Nat} (hst : (d.link l).st = .quarantine) :
    d.quarantineExpiry l = (d.toBase ((d.link l).enteredAt + msBase 10000)).setLinkSt l .train := if_neg (by simp [hst])

/-! ### HELLO (R385, R388) -/

/-- The words that take in what a HELLO packet says of the peer. -/
def helloWord (l p o : Nat) : Prop :=
  p = pgAL l ∧ (o = Reg.AL_PEER_SN_LO ∨ o = Reg.AL_PEER_SN_HI ∨ o = Reg.AL_STAT) ∨ p = pgFAB ∧ o = Reg.FAB_STAT

/-- The serial, address and election data of the peer taken in. -/
def Dev.helloHeard (d : Dev) (l : Nat) (m : HelloMsg) : Dev :=
  ((((d.wr64 (pgAL l) Reg.AL_PEER_SN_LO m.serial.toNat).wrF (pgAL l) Reg.AL_STAT 27 16 m.addr.toNat).wrB (pgAL l) Reg.AL_STAT 28
    m.addrValid).onLink l (fun x => { x with peerAddr := m.addr.toNat })).electUpdate l m.coordSerial.toNat m.coordHops.toNat

theorem Dev.sent_sendElect (d : Dev) : d.sent noWord d.sendElect := Dev.sent_forL _ _ (fun l e => e.sent_linkSend l _ _) d

theorem Dev.sent_electUpdate (d : Dev) (l serial hops : Nat) :
    d.sent (fun p o => p = pgFAB ∧ o = Reg.FAB_STAT) (d.electUpdate l serial hops) := by
  refine Dev.sent_ite (d.sent_refl _) (Dev.sent_ite ?_ (Dev.sent_ite (d.sent_onFab _ rfl rfl) (d.sent_refl _)))
  exact (((d.sent_onFab _ rfl rfl).trans (Dev.sent_wr _ _ ⟨rfl, rfl⟩ (by decide))).trans
    (Dev.sent_wr _ _ ⟨rfl, rfl⟩ (by decide))).trans ((Dev.sent_sendElect _).any _)

theorem Dev.helloHeard_step (d : Dev) (l : Nat) (m : HelloMsg) : d.linkStep l (helloWord l) (d.helloHeard l m) := by
  have serial : d.linkStep l (helloWord l) (d.wr64 (pgAL l) Reg.AL_PEER_SN_LO m.serial.toNat) :=
    d.linkStep_wr64 l _ (.inl ⟨rfl, .inl rfl⟩) (.inl ⟨rfl, .inr (.inl rfl)⟩) (by decide)
  refine Dev.linkStep.trans (Dev.linkStep.trans ?_ (Dev.linkStep_onLink _ l _ ?_))
    (((Dev.sent_electUpdate _ _ _ _).linkStep l).mono (fun _ _ => .inr))
  · exact (serial.trans (Dev.linkStep_wr _ l _ (.inl ⟨rfl, .inr (.inr rfl)⟩) (by decide))).trans
      (Dev.linkStep_wr _ l _ (.inl ⟨rfl, .inr (.inr rfl)⟩) (by decide))
  · exact fun _ => rfl

theorem Dev.helloHeard_rd64 (d : Dev) {l : Nat} (hl : l < 8) (m : HelloMsg) {o : Nat} (ho : o = Reg.FAB_ID_LO ∨ o = Reg.FAB_OFFER_LO) :
    (d.helloHeard l m).rd64 pgFAB o = d.rd64 pgFAB o := by
  have free : ∀ o', o' ≠ Reg.FAB_STAT → ¬helloWord l pgFAB o' := fun o' h hc => by
    simp only [helloWord, pgAL, pgFAB] at hc
    omega
  rcases ho with rfl | rfl
  · exact (d.helloHeard_step l m).regs.rd64 (by decide) (free _ (by decide)) (free _ (by decide))
  · exact (d.helloHeard_step l m).regs.rd64 (by decide) (free _ (by decide)) (free _ (by decide))

/-- Another fabric's identity. -/
theorem Dev.hello_stranger {d : Dev} {l : Nat} (hl : l < 8) {m : HelloMsg} (hst : (d.link l).st = .hello)
    (hid : m.fabricId.toNat ≠ d.rd64 pgFAB Reg.FAB_ID_LO) : d.hello l m = (d.helloHeard l m).quarantine l := by
  have heard : (d.helloHeard l m).rd64 pgFAB Reg.FAB_ID_LO = d.rd64 pgFAB Reg.FAB_ID_LO := d.helloHeard_rd64 hl m (.inl rfl)
  exact (if_neg (by simp [hst])).trans (if_pos (by rw [← heard] at hid; exact hid))

/-- The choice of a taker reaches the chip that offered. -/
theorem Dev.hello_choice {d : Dev} {l : Nat} (hl : l < 8) {m : HelloMsg} (hst : (d.link l).st = .hello)
    (hid : m.fabricId.toNat = d.rd64 pgFAB Reg.FAB_ID_LO) (hrole : m.role = 1) (hserial : ownSerial ≤ m.serial.toNat) :
    d.hello l m =
      if m.feat.toNat &&& d.fabOffer = m.feat.toNat ∧ fabDepsOk m.feat.toNat then
        ((d.helloHeard l m).linkMsg l msgHello ((d.helloHeard l m).helloBytes 2 m.feat.toNat)).negotiated l m.feat.toNat
      else ((d.helloHeard l m).linkMsg l msgHello ((d.helloHeard l m).helloBytes 3 m.feat.toNat)).quarantine l := by
  have heard : (d.helloHeard l m).rd64 pgFAB Reg.FAB_ID_LO = d.rd64 pgFAB Reg.FAB_ID_LO := d.helloHeard_rd64 hl m (.inl rfl)
  have offer : d.fabOffer = (d.helloHeard l m).fabOffer := by
    rw [Dev.fabOffer, Dev.fabOffer, d.helloHeard_rd64 hl m (.inr rfl)]
  rw [offer]
  refine (if_neg (by simp [hst])).trans ((if_neg (by rw [← heard] at hid; exact not_not.2 hid)).trans ?_)
  simp only [hrole, decide_eq_true_eq]
  exact if_neg (by omega)

/-- The negotiated set, and ATTEST. -/
theorem Dev.negotiated_stands (d : Dev) (l feat : Nat) : (d.negotiated l feat).stands l .attest
    ∧ (d.negotiated l feat).rd64 (pgAL l) Reg.AL_NEG_LO = feat % 2 ^ 64
    ∧ (d.negotiated l feat).rdB (pgAL l) Reg.IRQ_STAT 3 = true := by
  unfold Dev.negotiated
  extract_lets attests n drawn
  have asked := (drawn.onLink l (fun x => { x with nonce := n })).sent_linkSend l msgNonce (n.map BitVec.toNat)
  have regs : d.regsBut noWord d := d.regsBut_refl _
  have later : ∀ o < 4096, o ≠ Reg.AL_STAT →
      ((drawn.onLink l (fun x => { x with nonce := n })).linkSend l msgNonce (n.map BitVec.toNat)).rd (pgAL l) o
        = ((d.wr64 (pgAL l) Reg.AL_NEG_LO feat).irq (pgAL l) 3).rd (pgAL l) o := fun o ho hne =>
    (asked.regs _ _ ho id).trans (Dev.setLinkSt_regs _ l .attest _ _ ho (fun hc => hne hc.2))
  refine ⟨(asked.linkStep l).stands id ?_, ?_, ?_⟩
  · exact (Dev.setLinkSt_stands _ l .attest).keep (by rw [Dev.link_onLink]; rfl) rfl
  · rw [Dev.rd64, Dev.rdN, Dev.rdN, later _ (by decide) (by decide), later _ (by decide) (by decide),
      Dev.irq_stat_else _ _ _ _ _ (by decide) (by decide), Dev.irq_stat_else _ _ _ _ _ (by decide) (by decide)]
    exact Dev.rd64_wr64 d _ _ _
  · rw [Dev.rdB, later _ (by decide) (by decide)]
    exact Dev.irq_rdB_same _ _ _ (by decide)

/-! ### Attestation (R387) -/

theorem Dev.attest_passed {d : Dev} {l : Nat} (hst : (d.link l).st = .attest) :
    d.attest l .passed = (d.onLink l (fun x => { x with peerPassed := true })).attestEnd l := if_neg (by simp [hst])

theorem Dev.attest_unsigned {d : Dev} {l : Nat} (hst : (d.link l).st = .attest) (hq : d.canQuote = false) (nonce : List Byte) :
    d.attest l (.nonce nonce) = (d.onLink l (fun x => { x with peerNonce := nonce })).quarantine l :=
  (if_neg (by simp [hst])).trans (if_pos (by
    have : (d.onLink l (fun x => { x with peerNonce := nonce })).canQuote = d.canQuote := rfl
    rw [this, hq]; rfl))

/-- The credits that a link starts with when it comes UP (R382). -/
def Dev.freshCredits (d : Dev) (l : Nat) : Dev := forN 6 (fun c d =>
  (d.wrF (pgAL l) (credOff c 2) 31 16 0).wrN (pgAL l) (credOff c 3) (d.rdF (pgAL l) (credOff c 0) 31 16)) d

theorem Dev.sent_freshCredits (d : Dev) (l : Nat) : d.sent sendWord (d.freshCredits l) :=
  forN_rel_lt (Dev.sent sendWord) (Dev.sent_refl _) (fun _ _ _ => Dev.sent.trans) 6 _ (fun _ hc e =>
    (e.sent_credit l _ hc (by decide)).trans (Dev.sent_credit _ l _ hc (by decide))) d

theorem Dev.attestEnd_eq {d : Dev} {l : Nat} (hp : (d.link l).passed = true) (hpp : (d.link l).peerPassed = true) :
    d.attestEnd l = ((d.setLinkSt l .up).freshCredits l).irq (pgAL l) 0 := if_pos (by rw [hp, hpp]; rfl)

/-- Both checks have passed. -/
theorem Dev.attestEnd_up {d : Dev} {l : Nat} (hl : l < 8) (hp : (d.link l).passed = true) (hpp : (d.link l).peerPassed = true) :
    (d.attestEnd l).stands l .up ∧ (d.attestEnd l).rdB (pgAL l) Reg.IRQ_STAT 0 = true ∧ (d.attestEnd l).wlog = d.wlog := by
  have credits := (d.setLinkSt l .up).sent_freshCredits l
  have stat : ¬sendWord (pgAL l) Reg.AL_STAT := not_sendWord_link (.inl (by decide)) hl
  rw [Dev.attestEnd_eq hp hpp]
  refine ⟨?_, Dev.irq_rdB_same _ _ _ (by decide), (Dev.setBits_wlog _ _ _ _).trans credits.wlog⟩
  exact ((credits.linkStep l).stands stat (d.setLinkSt_stands l .up)).keep (by rw [Dev.link_irq])
    (Dev.irq_stat_else _ _ _ _ _ (by decide) (by decide))

theorem Dev.attestEnd_waits {d : Dev} {l : Nat} (hp : (d.link l).passed = false) : d.attestEnd l = d :=
  if_neg (by simp [hp])

/-! ### A loss -/

/-- The words that say that a link is down. -/
def downWord (l p o : Nat) : Prop := p = pgAL l ∧ o = Reg.AL_STAT ∨ parentWord p o

/-- The words that a loss of link l changes. -/
def fallWord (l p o : Nat) : Prop := lossWord l p o ∨ p = pgAL l ∧ (o = Reg.AL_DOWNS ∨ o = Reg.IRQ_STAT) ∨ downWord l p o

/-- The loss of a link noted: LINK_DOWN counted and raised, and every effect of R384. -/
def Dev.lossNoted (d : Dev) (l : Nat) : Dev := ((d.lossEffects l).add32 (pgAL l) Reg.AL_DOWNS 1).irq (pgAL l) 1

/-- A link that is lost goes down, outside QUARANTINE. -/
def Dev.falls (d : Dev) (l : Nat) : Dev := ((d.wrB (pgAL l) Reg.AL_STAT 3 false).setLinkSt l .down).pickParent

theorem Dev.linkLoss_eq {d : Dev} {l : Nat} (hd : (d.link l).st ≠ .down) (hq : (d.link l).st ≠ .quarantine) :
    d.linkLoss l = (d.lossNoted l).falls l :=
  (if_neg hd).trans (congrArg Dev.pickParent (if_neg hq))

theorem not_parentWord_link {l o : Nat} (hl : l < 8) : ¬parentWord (pgAL l) o := by
  simp only [parentWord, pgAL, pgTIME]
  omega

theorem not_lossWord_link {l o : Nat} (hl : l < 8) (h : o < Reg.AL_CRED ∨ Reg.AL_CSNAP ≤ o) (hne : o ≠ Reg.AL_LOST) :
    ¬lossWord l (pgAL l) o := fun hc => hc.elim (not_sendWord_link h hl) (fun h => hne h.2)

theorem Dev.falls_regs (d : Dev) (l : Nat) : d.regsBut (downWord l) (d.falls l) := by
  refine Dev.regsBut.trans ?_ ((Dev.sent_pickParent _).regs.mono (fun _ _ => .inr))
  exact (d.regsBut_wr _ (.inl ⟨rfl, rfl⟩) (by decide)).trans ((Dev.setLinkSt_regs _ l .down).mono (fun _ _ => .inl))

theorem Dev.falls_link (d : Dev) {l : Nat} (hl : l < 8) :
    (d.falls l).stands l .down ∧ ((d.falls l).link l).held = (d.link l).held ∧ (d.falls l).wlog = d.wlog := by
  have parent := ((d.wrB (pgAL l) Reg.AL_STAT 3 false).setLinkSt l .down).sent_pickParent
  refine ⟨(parent.linkStep l).stands (not_parentWord_link hl) (Dev.setLinkSt_stands _ l .down), ?_, parent.wlog⟩
  rw [Dev.falls, parent.keeps Link.held (fun _ _ => rfl), Dev.setLinkSt_link]
  rfl

theorem Dev.lossNoted_regs (d : Dev) (l : Nat) :
    d.regsBut (fun p o => lossWord l p o ∨ p = pgAL l ∧ (o = Reg.AL_DOWNS ∨ o = Reg.IRQ_STAT)) (d.lossNoted l) := by
  obtain ⟨e, sent, heq⟩ := d.lossEffects_eq l
  rw [Dev.lossNoted, heq]
  exact ((sent.regs.mono (fun _ _ => .inl)).trans (Dev.regsBut_wr _ _ (.inr ⟨rfl, .inl rfl⟩) (by decide))).trans
    (Dev.regsBut_irq _ _ (.inr ⟨rfl, .inr rfl⟩))

theorem Dev.lossNoted_words (d : Dev) {l : Nat} (hl : l < 8) : (d.lossNoted l).rdB (pgAL l) Reg.IRQ_STAT 1 = true
    ∧ (d.lossNoted l).rd (pgAL l) Reg.AL_DOWNS = d.rd (pgAL l) Reg.AL_DOWNS + 1
    ∧ ((d.lossNoted l).link l).held = [] ∧ (d.lossNoted l).wlog = d.wlog := by
  obtain ⟨e, sent, heq⟩ := d.lossEffects_eq l
  have downs : e.rd (pgAL l) Reg.AL_DOWNS = d.rd (pgAL l) Reg.AL_DOWNS :=
    sent.regs _ _ (by decide) (not_lossWord_link hl (.inr (by decide)) (by decide))
  rw [Dev.lossNoted, heq]
  refine ⟨Dev.irq_rdB_same _ _ _ (by decide), ?_, ?_, sent.wlog⟩
  · rw [Dev.irq_stat_else _ _ _ _ _ (by decide) (by decide), Dev.add32, Dev.wrN, Dev.rd_wr_same, Dev.rdN, ← downs]
    exact word_succ _
  · rw [Dev.add32, Dev.wrN, Dev.link_irq, Dev.link_wr, Dev.link_onLink]

/-- A link that is lost outside QUARANTINE is DOWN, which is counted and raised. -/
theorem Dev.linkLoss_falls {d : Dev} {l : Nat} (hl : l < 8) (hd : (d.link l).st ≠ .down) (hq : (d.link l).st ≠ .quarantine) :
    (d.linkLoss l).stands l .down ∧ (d.linkLoss l).rdB (pgAL l) Reg.IRQ_STAT 1 = true
    ∧ (d.linkLoss l).rd (pgAL l) Reg.AL_DOWNS = d.rd (pgAL l) Reg.AL_DOWNS + 1
    ∧ ((d.linkLoss l).link l).held = [] ∧ (d.linkLoss l).wlog = d.wlog := by
  rw [Dev.linkLoss_eq hd hq]
  obtain ⟨raised, downs, held, wlog⟩ := d.lossNoted_words hl
  obtain ⟨stands, held', wlog'⟩ := (d.lossNoted l).falls_link hl
  have later : ∀ o < 4096, o ≠ Reg.AL_STAT → ((d.lossNoted l).falls l).rd (pgAL l) o = (d.lossNoted l).rd (pgAL l) o :=
    fun o ho hne => Dev.falls_regs _ l _ _ ho (fun hc => hc.elim (fun h => hne h.2) (not_parentWord_link hl))
  exact ⟨stands, by rw [Dev.rdB, later _ (by decide) (by decide)]; exact raised,
    (later _ (by decide) (by decide)).trans downs, held'.trans held, wlog'.trans wlog⟩

theorem Dev.linkLoss_regs {d : Dev} {l : Nat} (hd : (d.link l).st ≠ .down) (hq : (d.link l).st ≠ .quarantine) :
    d.regsBut (fallWord l) (d.linkLoss l) := by
  rw [Dev.linkLoss_eq hd hq]
  exact ((d.lossNoted_regs l).mono (fun _ _ h => h.imp_right .inl)).trans ((Dev.falls_regs _ l).mono (fun _ _ h => .inr (.inr h)))

theorem Dev.disarm_link (d : Dev) (p l : Nat) : (d.disarm p).link l = d.link l := by
  unfold Dev.disarm
  split <;> rfl

/-- Settles O16, command by command: each enters its state by setLinkSt, which sets AL_STAT.STATE, and what a command does beside
that (LINK packets, counters, credits, log records) leaves the state and AL_STAT as they are. -/
theorem linkStates : Obligations.LinkStates := by
  unfold Obligations.LinkStates
  intro l s hs
  obtain ⟨_, hw⟩ := hs
  extract_lets d x p enters
  have same : ∀ {e : Dev}, e.wlog = s.dev.begin.wlog → d.sameMem (e.finish d.mem) := fun he => Dev.sameMem_finish d _ hw he
  refine ⟨fun hst hen hon => ?_, fun hst hocc swap => ?_, fun hst => ?_, fun m hst hid => ?_, fun m hst hid hrole hser => ⟨?_, ?_⟩,
    fun hst hp => ?_, fun hst hp => ?_, fun nonce hst hq => ?_, fun hst => ?_, fun hst => ?_, fun hd hq => ⟨?_, fun r hr => ?_⟩⟩
  · refine does_of_run _ s (fun d => d.signalDetect l) _ rfl ?_
    rw [Dev.signalDetect_eq (d := s.dev.begin) hst hen hon]
    exact ⟨Dev.setLinkSt_stands _ l .train, Dev.setLinkSt_regs _ l .train, same rfl⟩
  · refine does_of_run _ s (fun d => d.trainDone l swap) _ rfl ?_
    obtain ⟨stands, shown, tx, rx, mem⟩ := Dev.trainDone_stands (d := s.dev.begin) hst hocc swap
    exact ⟨stands, shown, tx, rx, same mem⟩
  · refine does_of_run _ s (fun d => d.trainTimeout l) _ rfl ?_
    rw [Dev.trainTimeout_eq (d := s.dev.begin) hst]
    exact ⟨Dev.setLinkSt_stands _ l .down, s.dev.begin.toBase_reaches _, same rfl⟩
  · refine does_of_run _ s (fun d => d.hello l m) _ rfl ?_
    rw [Dev.hello_stranger (d := s.dev.begin) l.isLt hst (by rw [Dev.begin_rd64]; exact hid)]
    obtain ⟨stands, raised, _⟩ := (s.dev.begin.helloHeard l m).quarantine_stands l.isLt
    exact ⟨stands, raised⟩
  · intro hchoice hdeps
    refine does_of_run _ s (fun d => d.hello l m) _ rfl ?_
    rw [Dev.hello_choice (d := s.dev.begin) l.isLt hst (by rw [Dev.begin_rd64]; exact hid) hrole hser, if_pos ⟨hchoice, hdeps⟩]
    obtain ⟨stands, neg, raised⟩ := Dev.negotiated_stands _ l m.feat.toNat
    exact ⟨stands, by rw [Dev.finish_rd64, neg, Nat.mod_eq_of_lt m.feat.isLt], raised⟩
  · intro hchoice
    refine does_of_run _ s (fun d => d.hello l m) _ rfl ?_
    rw [Dev.hello_choice (d := s.dev.begin) l.isLt hst (by rw [Dev.begin_rd64]; exact hid) hrole hser,
      if_neg (fun h => hchoice h.1)]
    exact (Dev.quarantine_stands _ l.isLt).1
  · refine does_of_run _ s (fun d => d.attest l .passed) _ rfl ?_
    rw [Dev.attest_passed (d := s.dev.begin) hst]
    obtain ⟨stands, raised, mem⟩ := Dev.attestEnd_up (d := s.dev.begin.onLink l (fun x => { x with peerPassed := true })) l.isLt
      (by rw [Dev.link_onLink]; exact hp) (by rw [Dev.link_onLink])
    exact ⟨stands, raised, same mem⟩
  · refine does_of_run _ s (fun d => d.attest l .passed) _ rfl ?_
    rw [Dev.attest_passed (d := s.dev.begin) hst, Dev.attestEnd_waits (by rw [Dev.link_onLink]; exact hp), Dev.link_finish,
      Dev.link_onLink]
    exact ⟨hst, rfl, fun _ _ _ _ => rfl, same rfl⟩
  · refine does_of_run _ s (fun d => d.attest l (.nonce nonce)) _ rfl ?_
    rw [Dev.attest_unsigned (d := s.dev.begin) hst hq]
    exact (Dev.quarantine_stands _ l.isLt).1
  · refine does_of_run _ s (fun d => d.attestTimeout l) _ rfl ?_
    rw [Dev.attestTimeout_eq (d := s.dev.begin) hst]
    obtain ⟨stands, raised, clock⟩ := (s.dev.begin.toBase ((s.dev.begin.link l).enteredAt + msBase 200)).quarantine_stands l.isLt
    exact ⟨stands, by rw [Dev.finish_clock, clock]; exact s.dev.begin.toBase_reaches _, raised⟩
  · refine does_of_run _ s (fun d => d.quarantineExpiry l) _ rfl ?_
    rw [Dev.quarantineExpiry_eq (d := s.dev.begin) hst]
    exact ⟨Dev.setLinkSt_stands _ l .train, s.dev.begin.toBase_reaches _, same rfl⟩
  · refine does_of_run _ s (fun d => d.linkLoss l) _ rfl ?_
    obtain ⟨stands, raised, downs, held, mem⟩ := Dev.linkLoss_falls (d := s.dev.begin) l.isLt hd hq
    exact ⟨stands, raised, downs, held, same mem⟩
  · refine does_onPage (p := pgAL l) (f := fun d => d.linkLoss l) hr rfl ?_
    have link := s.dev.begin.disarm_link (pgAL l) l
    obtain ⟨stands, _, downs, _, mem⟩ := Dev.linkLoss_falls (d := s.dev.begin.disarm (pgAL l)) l.isLt
      (by rw [link]; exact hd) (by rw [link]; exact hq)
    rw [Dev.disarm_rd] at downs
    rw [Dev.disarm_wlog] at mem
    exact ⟨stands, downs, same mem⟩

end Sys2Proof.Machine
end

/-! PROOFS. Flits of an Auver link (R375 to R382): sent, received, repeated, acknowledged. -/
section
namespace Sys2Proof.Machine

/-! ### The form of a flit (R375, R377) -/

theorem leBytes_length (k n : Nat) : (leBytes k n).length = k := by simp [leBytes]

/-- A sealed flit has 64 bytes, the CRC of the first 60 in the last 4, and the class that it had. -/
theorem sealFlit_form {f : List Byte} (hf : f.length = 60) (lseq lack cret : Nat) :
    (sealFlit f lseq lack cret).length = 64
    ∧ ofLe ((sealFlit f lseq lack cret).drop 60) = crc32c ((sealFlit f lseq lack cret).take 60) % 2 ^ 32
    ∧ flitClass (sealFlit f lseq lack cret) = flitClass f := by
  obtain ⟨body, hbody⟩ : ∃ b, ([byteOf lseq 0, byteOf lack 0] ++ (f.drop 2).take 1 ++ [byteOf cret 0] ++ f.drop 4).take 60 = b :=
    ⟨_, rfl⟩
  have length : body.length = 60 := by simp [← hbody, hf]
  have third : body.getD 2 0 = f.getD 2 0 := by
    rw [← hbody]
    simp [List.getD, hf]
  rw [sealFlit, hbody]
  refine ⟨by simp [length, leBytes_length], ?_, ?_⟩
  · rw [List.drop_left' length, List.take_left' length, ofLe_leBytes]
    norm_num
  · rw [flitClass, flitClass, List.getD_append _ _ _ _ (by omega), third]

/-! ### A slot (R380, R382) -/

theorem Dev.creditReturn_class (d : Dev) (l : Nat) : (d.creditReturn l).1 < 6 := by
  have range : ∀ c ∈ List.range 6, c < 6 := fun c hc => List.mem_range.1 hc
  refine List.foldlRecOn (motive := fun b => b < 6) _ _ (by decide) (fun b hb c hc => ?_)
  dsimp only
  split
  · exact range c hc
  · exact hb

/-- One flit counted and sent. -/
def Dev.flitOut (d : Dev) (l : Nat) (b : List Byte) : Dev := (d.add64 (pgAL l) Reg.AL_FLITS_TX 1).out (.flit l b)

theorem Dev.flitOut_counted (d : Dev) (l : Nat) (b : List Byte) :
    (d.flitOut l b).rd64 (pgAL l) Reg.AL_FLITS_TX = (d.rd64 (pgAL l) Reg.AL_FLITS_TX + 1) % 2 ^ 64 := by
  rw [Dev.flitOut, Dev.out_rd64, Dev.rd64_add64]

theorem Dev.flitOut_outs (d : Dev) (l : Nat) (b : List Byte) : (d.flitOut l b).outs = d.outs ++ [.flit l b] := by
  obtain ⟨_, h⟩ := d.add64_eq (pgAL l) Reg.AL_FLITS_TX 1
  rw [Dev.flitOut, h]
  rfl

theorem Dev.flitOut_wlog (d : Dev) (l : Nat) (b : List Byte) : (d.flitOut l b).wlog = d.wlog := by
  rw [Dev.flitOut, Dev.out_wlog, Dev.add64_wlog]

theorem Dev.flitOut_link (d : Dev) (l : Nat) (b : List Byte) : (d.flitOut l b).link l = d.link l := by
  obtain ⟨_, h⟩ := d.add64_eq (pgAL l) Reg.AL_FLITS_TX 1
  rw [Dev.flitOut, h]
  rfl

/-- A flit of a slot is sealed and sent; beside, credits may be returned and the flit be held. -/
theorem Dev.putFlit_eq (d : Dev) (l : Nat) (f : List Byte) (idle : Bool) : ∃ e lseq lack cret,
    d.linkStep l sendWord e ∧ d.putFlit l f idle = e.flitOut l (sealFlit f lseq lack cret) := by
  have cls := d.creditReturn_class l
  unfold Dev.putFlit
  generalize d.creditReturn l = cr at cls ⊢
  obtain ⟨rc, rn⟩ := cr
  dsimp -zeta only at cls ⊢
  extract_lets x room rn seq b o returned held
  have hreturned : d.linkStep l sendWord returned := by
    refine (Dev.sent_ite (d.sent_refl _) ?_).linkStep l
    exact (d.sent_credit l _ cls (by decide)).trans (Dev.sent_credit _ l _ cls (by decide))
  refine ⟨held, _, _, _, hreturned.trans ?_, rfl⟩
  simp only [held]
  split
  · refine Dev.linkStep_onLink _ l _ ?_
    exact fun _ => rfl
  · exact returned.linkStep_refl l _

/-- The class of a slot is noted. -/
def Dev.notePast (d : Dev) (l c : Nat) : Dev := d.onLink l (fun x => { x with past := (c :: x.past).take 1023 })

theorem Dev.notePast_frame (d : Dev) (l c : Nat) :
    (d.notePast l c).outs = d.outs ∧ (d.notePast l c).regs = d.regs ∧ (d.notePast l c).wlog = d.wlog := ⟨rfl, rfl, rfl⟩

/-- A slot that sends a flit: the one output, the count, and no write of memory. -/
theorem Dev.flitSent_after (d : Dev) (l c : Nat) (b : List Byte) : ((d.flitOut l b).notePast l c).outs = d.outs ++ [.flit l b]
    ∧ ((d.flitOut l b).notePast l c).rd64 (pgAL l) Reg.AL_FLITS_TX = (d.rd64 (pgAL l) Reg.AL_FLITS_TX + 1) % 2 ^ 64
    ∧ ((d.flitOut l b).notePast l c).wlog = d.wlog := by
  obtain ⟨outs, regs, wlog⟩ := (d.flitOut l b).notePast_frame l c
  refine ⟨outs.trans (d.flitOut_outs l b), ?_, wlog.trans (d.flitOut_wlog l b)⟩
  rw [← d.flitOut_counted l b]
  exact (Dev.regsBut_of_regs regs).rd64 (by decide) id id

theorem Dev.flitSend_repeats {d : Dev} {l : Nat} {f : List Byte} {rest : List (List Byte)} (hd : (d.link l).st ≠ .down)
    (ht : (d.link l).st ≠ .train) (hr : (d.link l).resend = f :: rest) :
    d.flitSend l = ((d.onLink l (fun x => { x with resend := rest })).flitOut l f).notePast l (flitClass f) := by
  rw [Dev.flitSend, if_neg (by simp [hd, ht]), hr]
  rfl

theorem Dev.slotClass_empty {d : Dev} {l : Nat} (hq : (d.link l).queue = []) : d.slotClass l = none := by
  have none_waits : (robin (d.link l).lastClass).filter (fun _ => false) = [] := List.filter_false _
  simp [Dev.slotClass, hq]

theorem Dev.flitSend_idle {d : Dev} {l : Nat} (hd : (d.link l).st ≠ .down) (ht : (d.link l).st ≠ .train)
    (hr : (d.link l).resend = []) (hq : (d.link l).queue = []) :
    d.flitSend l = (d.putFlit l ([0, 0, 7, 0] ++ List.replicate 56 0) true).notePast l 7 := by
  rw [Dev.flitSend, if_neg (by simp [hd, ht]), hr, Dev.slotClass_empty hq]
  rfl

/-! ### Receipt (R381) -/

/-- A discarded flit is counted; a REPLAY may go back. -/
theorem Dev.badFlit_counts (d : Dev) (l : Nat) : (d.badFlit l).rd (pgAL l) Reg.AL_CRC_ERRS = d.rd (pgAL l) Reg.AL_CRC_ERRS + 1
    ∧ d.regsBut (fun q o => q = pgAL l ∧ o = Reg.AL_CRC_ERRS) (d.badFlit l)
    ∧ ((d.badFlit l).link l).rxSeq = (d.link l).rxSeq ∧ (d.badFlit l).wlog = d.wlog := by
  have counted : (d.add32 (pgAL l) Reg.AL_CRC_ERRS 1).rd (pgAL l) Reg.AL_CRC_ERRS = d.rd (pgAL l) Reg.AL_CRC_ERRS + 1 :=
    (Dev.rd_wr_same _ _ _ _).trans (word_succ _)
  have regs : d.regsBut (fun q o => q = pgAL l ∧ o = Reg.AL_CRC_ERRS) (d.add32 (pgAL l) Reg.AL_CRC_ERRS 1) :=
    d.regsBut_wr _ ⟨rfl, rfl⟩ (by decide)
  unfold Dev.badFlit
  extract_lets e x
  split
  · exact ⟨counted, regs, rfl, rfl⟩
  · have asked := (e.onLink l (fun x => { x with waitReplay := true })).sent_linkSend l msgReplay [x.rxSeq]
    refine ⟨(asked.regs _ _ (by decide) id).trans counted, regs.trans (asked.any _).regs, ?_, asked.wlog⟩
    rw [asked.keeps Link.rxSeq (fun _ _ => rfl), Dev.link_onLink]
    rfl

/-- What acknowledged flits leave: words of packets and credits may change, the sequence received last stays. -/
def Dev.ackStep (l : Nat) (d t : Dev) : Prop := d.linkStep l sendWord t ∧ (t.link l).rxSeq = (d.link l).rxSeq

theorem Dev.ackStep.trans {l : Nat} {a b c : Dev} (h : a.ackStep l b) (h' : b.ackStep l c) : a.ackStep l c :=
  ⟨h.1.trans h'.1, h'.2.trans h.2⟩

theorem Dev.sent.ackStep {d t : Dev} (h : d.sent sendWord t) (l : Nat) : d.ackStep l t := ⟨h.linkStep l, h.keeps Link.rxSeq (fun _ _ => rfl) l⟩

theorem Dev.ackFlits_step (d : Dev) (l lack : Nat) : d.ackStep l (d.ackFlits l lack).1 := by
  have covered : ∀ (f : List Byte) (e : Dev), e.sent sendWord (e.linkAcked l f) := fun f e =>
    Dev.sent_ite (e.sent_refl _) (e.sent_acked _)
  unfold Dev.ackFlits
  extract_lets x rest kept
  split
  · refine Dev.ackStep.trans ?_ ((Dev.sent_forL _ _ covered kept).ackStep l)
    exact ⟨by refine Dev.linkStep_onLink _ l _ ?_; exact fun _ => rfl, by rw [Dev.link_onLink]⟩
  · exact (d.sent_refl _).ackStep l

/-- A LACK that covers no held flit. -/
theorem Dev.ackFlits_none {d : Dev} {l lack : Nat} (h : (d.link l).held.any (fun f => (f.getD 0 0).toNat == lack) = false) :
    d.ackFlits l lack = (d, false) :=
  if_neg (Bool.eq_false_iff.1 h)

/-- A received flit acknowledges flits and is counted. -/
def Dev.flitCounted (d : Dev) (l : Nat) (f : List Byte) : Dev :=
  (d.ackFlits l (f.getD 1 0).toNat).1.add64 (pgAL l) Reg.AL_FLITS_RX 1

theorem Dev.flitCounted_words (d : Dev) {l : Nat} (hl : l < 8) (f : List Byte) :
    (d.flitCounted l f).rd64 (pgAL l) Reg.AL_FLITS_RX = (d.rd64 (pgAL l) Reg.AL_FLITS_RX + 1) % 2 ^ 64
    ∧ ((d.flitCounted l f).link l).rxSeq = (d.link l).rxSeq ∧ (d.flitCounted l f).wlog = d.wlog := by
  obtain ⟨step, seq⟩ := d.ackFlits_step l (f.getD 1 0).toNat
  refine ⟨?_, by rw [Dev.flitCounted, Dev.link_add64, seq], by rw [Dev.flitCounted, Dev.add64_wlog, step.wlog]⟩
  rw [Dev.flitCounted, Dev.rd64_add64, step.regs.rd64 (by decide) (not_sendWord_link (.inl (by decide)) hl)
    (not_sendWord_link (.inl (by decide)) hl)]

theorem Dev.flitRx_bad {d : Dev} {l : Nat} {f : List Byte} (hd : (d.link l).st ≠ .down) (ht : (d.link l).st ≠ .train)
    (hcrc : crc32c (f.take 60) ≠ ofLe (f.drop 60)) : d.flitRx l f = d.badFlit l :=
  (if_neg (by simp [hd, ht])).trans (if_pos (.inr (.inl hcrc)))

/-- An IDLE flit that returns no credit. -/
theorem Dev.flitRx_idle {d : Dev} {l : Nat} {f : List Byte} (hlen : f.length = 64) (hd : (d.link l).st ≠ .down)
    (ht : (d.link l).st ≠ .train) (hcrc : crc32c (f.take 60) = ofLe (f.drop 60)) (hc : flitClass f = 7)
    (hempty : (f.getD 8 0).toNat = 0) (hcret : (f.getD 3 0).toNat / 8 = 0) : d.flitRx l f = d.flitCounted l f := by
  have good : ¬(f.length ≠ 64 ∨ crc32c (f.take 60) ≠ ofLe (f.drop 60) ∨ flitClass f = 6) := by simp [hlen, hcrc, hc]
  refine (if_neg (by simp [hd, ht])).trans ((if_neg good).trans ?_)
  simp only [hc, hempty, hcret, beq_self_eq_true, Bool.and_self, Bool.not_true, bne_self_eq_false, Bool.or_self,
    Bool.false_eq_true, false_and, if_false, true_or, if_true]
  rfl

/-- A receive buffer of a class is filled (R382). -/
def Dev.rxFilled (d : Dev) (l c : Nat) : Dev :=
  (d.wrF (pgAL l) (credOff c 2) 15 0 (d.rxOcc l c + 1)).wrN (pgAL l) (credOff c 3) (d.rdN (pgAL l) (credOff c 3) - 1)

theorem Dev.sent_rxFilled (d : Dev) (l : Nat) {c : Nat} (hc : c < 6) : d.sent sendWord (d.rxFilled l c) :=
  (d.sent_credit l _ hc (by decide)).trans (Dev.sent_credit _ l _ hc (by decide))

/-- A flit in sequence is taken: credits that it returns, and the buffer that it fills. -/
def Dev.flitTaken (d : Dev) (l : Nat) (f : List Byte) : Dev :=
  let n := fun i => (f.getD i 0).toNat
  let d := d.onLink l (fun x => { x with rxSeq := n 0, waitReplay := false })
  let cret := n 3 / 8
  let rc := n 3 % 8
  let d := if cret = 0 ∨ 6 ≤ rc then d else
    let o := credOff rc 1
    let k := min cret (d.rdF (pgAL l) o 31 16)
    (d.wrF (pgAL l) o 31 16 (d.rdF (pgAL l) o 31 16 - k)).wrF (pgAL l) o 15 0 (d.rdF (pgAL l) o 15 0 + k)
  d.rxFilled l (flitClass f)

theorem Dev.flitTaken_step (d : Dev) (l : Nat) {f : List Byte} (hc : flitClass f < 6) :
    d.regsBut sendWord (d.flitTaken l f) ∧ ((d.flitTaken l f).link l).rxSeq = (f.getD 0 0).toNat
    ∧ (d.flitTaken l f).wlog = d.wlog := by
  unfold Dev.flitTaken
  extract_lets n seq cret rc o k credited
  have credits : seq.sent sendWord credited := by
    simp only [credited]
    split
    · exact seq.sent_refl _
    · have hrc : rc < 6 := by omega
      exact (seq.sent_credit l _ hrc (by decide)).trans (Dev.sent_credit _ l _ hrc (by decide))
  have filled := credits.trans (credited.sent_rxFilled l hc)
  refine ⟨fun p o ho hk => filled.regs p o ho hk, (filled.keeps Link.rxSeq (fun _ _ => rfl) l).trans ?_, filled.wlog⟩
  rw [Dev.link_onLink]

/-- A data flit in sequence that does not end its packet. -/
theorem Dev.flitRx_data {d : Dev} {l : Nat} {f : List Byte} (hlen : f.length = 64)
    (hcrc : crc32c (f.take 60) = ofLe (f.drop 60)) (hc : flitClass f < 6) (hup : (d.link l).st = .up)
    (hseq : (f.getD 0 0).toNat = ((d.link l).rxSeq + 1) % 256) :
    d.flitRx l f = ((d.flitCounted l f).flitTaken l f).flitPayload l f := by
  have good : ¬(f.length ≠ 64 ∨ crc32c (f.take 60) ≠ ofLe (f.drop 60) ∨ flitClass f = 6) := by
    simp only [hlen, hcrc, ne_eq, not_true_eq_false, false_or]; omega
  have data : (flitClass f == 7) = false := by simp; omega
  refine (if_neg (by simp [hup])).trans ((if_neg good).trans ?_)
  simp only [data, Bool.false_and, Bool.not_false, Bool.true_or, hseq, ne_eq, not_true_eq_false, and_false, if_false, if_true,
    Bool.false_eq_true, hup]
  rw [if_neg (by omega)]
  simp only [← hseq]
  rfl

/-- A flit that does not end its packet is kept with those before it. -/
theorem Dev.flitPayload_kept {d : Dev} {l : Nat} {f : List Byte} (heop : (f.getD 2 0).getLsbD 5 = false) :
    ∃ old, d.flitPayload l f
      = d.onLink l (fun x => { x with asm := spPut (fun _ => []) x.asm (flitClass f) (old ++ [f]) }) :=
  ⟨_, if_pos (by rw [heop]; rfl)⟩

/-! ### Repetition (R378, R381) -/

theorem not_fallWord_replays {l : Nat} (hl : l < 8) : ¬fallWord l (pgAL l) Reg.AL_REPLAYS := by
  rintro (h | ⟨_, h⟩ | ⟨_, h⟩ | h)
  · exact not_lossWord_link hl (.inl (by decide)) (by decide) h
  · exact absurd h (by decide)
  · exact absurd h (by decide)
  · exact not_parentWord_link hl h

/-- A REPLAY without progress counted and raised. -/
def Dev.replayCounted (d : Dev) (l : Nat) : Dev :=
  ((d.add32 (pgAL l) Reg.AL_REPLAYS 1).irq (pgAL l) 4).onLink l (fun x => { x with replays := x.replays + 1 })

theorem Dev.replayCounted_link (d : Dev) (l : Nat) : (d.replayCounted l).link l = { d.link l with replays := (d.link l).replays + 1 } := by
  rw [Dev.replayCounted, Dev.link_onLink]
  rfl

theorem Dev.replayCounted_words (d : Dev) (l : Nat) : (d.replayCounted l).rdB (pgAL l) Reg.IRQ_STAT 4 = true
    ∧ (d.replayCounted l).rd (pgAL l) Reg.AL_REPLAYS = d.rd (pgAL l) Reg.AL_REPLAYS + 1 := by
  refine ⟨Dev.irq_rdB_same _ _ _ (by decide), (Dev.irq_stat_else _ _ _ _ _ (by decide) (by decide)).trans ?_⟩
  exact (Dev.rd_wr_same _ _ _ _).trans (word_succ _)

/-- A REPLAY that acknowledges nothing: tried again or, the eighth time, given up. -/
theorem Dev.replay_eq {d : Dev} {l lack : Nat} (h : (d.link l).held.any (fun f => (f.getD 0 0).toNat == lack) = false) :
    d.replay l lack = if 7 ≤ (d.link l).replays then (d.replayCounted l).linkLoss l
      else (d.replayCounted l).onLink l (fun x => { x with resend := x.held }) := by
  have none := Dev.ackFlits_none (d := (d.add32 (pgAL l) Reg.AL_REPLAYS 1).irq (pgAL l) 4) h
  have count : (7 ≤ (d.link l).replays) = (8 ≤ ((d.replayCounted l).link l).replays) := by
    rw [Dev.replayCounted_link, Nat.add_le_add_iff_right (n := 1) (m := 7)]
  rw [Dev.replay, none]
  simp only [count]
  rfl

theorem Dev.toLink_queue (d : Dev) (l : Nat) (p : Packet) :
    ((d.toLink l p).link l).queue = (d.link l).queue ++ (flitsOf p).map (fun f => (p.via, f)) := by
  rw [Dev.toLink, Dev.link_onLink]

/-- An item that is due is to be acknowledged anew, behind the others. -/
def Dev.renewed (d : Dev) (cls : Nat) (u : Unacked) : Dev :=
  let d := d.toBase u.due
  d.onFab (fun f => { f with unacked := f.unacked.erase u ++ [{ u with due := d.clock.base + classResend cls }] })

/-- A LINK packet sent again. -/
theorem Dev.resend_link {d : Dev} {dst : Nat} {u : Unacked}
    (h : d.fab.unacked.find? (fun u => u.cls == 7 && u.dst == dst) = some u) :
    d.resend 7 dst = (d.renewed 7 u).toLink dst u.packet := by
  obtain ⟨hcls, hdst⟩ : u.cls = 7 ∧ u.dst = dst := by simpa using List.find?_some h
  rw [Dev.resend, h, ← hdst]
  exact if_pos hcls

/-- Settles O17, command by command: a slot's flit is counted and sent last of all, a received one is discarded or counted after
what it acknowledges, and a REPLAY leads to another or to the loss of the link. -/
theorem flits : Obligations.Flits := by
  unfold Obligations.Flits
  intro l s hs
  obtain ⟨_, hw⟩ := hs
  extract_lets d x p
  have same : ∀ {e : Dev}, e.wlog = s.dev.begin.wlog → d.sameMem (e.finish d.mem) := fun he => Dev.sameMem_finish d _ hw he
  refine ⟨fun f rest hd ht hr => ?_, fun hd ht hr hq => ?_, fun f hlen hd ht => ⟨fun hcrc => ?_, fun hcrc hc hempty hcret => ?_,
    fun hcrc hc hup hseq heop => ?_⟩, fun lack hnone => ⟨fun hfew => ?_, fun hmany hup => ?_⟩, fun dst u hu => ?_⟩
  · refine does_of_run _ s (fun d => d.flitSend l) _ rfl ?_
    rw [Dev.flitSend_repeats (d := s.dev.begin) hd ht hr]
    obtain ⟨outs, counted, mem⟩ := (s.dev.begin.onLink l (fun x => { x with resend := rest })).flitSent_after l (flitClass f) f
    refine ⟨outs, ?_, by rw [Dev.finish_rd64, counted]; rfl, same mem⟩
    rw [Dev.link_finish, Dev.notePast, Dev.link_onLink, Dev.flitOut_link, Dev.link_onLink]
  · refine does_of_run _ s (fun d => d.flitSend l) _ rfl ?_
    rw [Dev.flitSend_idle (d := s.dev.begin) hd ht hr hq]
    obtain ⟨e, lseq, lack, cret, step, put⟩ := s.dev.begin.putFlit_eq l ([0, 0, 7, 0] ++ List.replicate 56 0) true
    obtain ⟨len, crc, cls⟩ := sealFlit_form (f := [0, 0, 7, 0] ++ List.replicate 56 0) rfl lseq lack cret
    rw [put]
    obtain ⟨outs, counted, mem⟩ := e.flitSent_after l 7 (sealFlit ([0, 0, 7, 0] ++ List.replicate 56 0) lseq lack cret)
    refine ⟨_, outs.trans (by rw [step.outs]; rfl), len, crc, cls, ?_, same (mem.trans step.wlog)⟩
    rw [Dev.finish_rd64, counted, step.regs.rd64 (by decide) (not_sendWord_link (.inl (by decide)) l.isLt)
      (not_sendWord_link (.inl (by decide)) l.isLt), Dev.begin_rd64]
  · refine does_of_run _ s (fun d => d.flitRx l f) _ rfl ?_
    rw [Dev.flitRx_bad (d := s.dev.begin) hd ht hcrc]
    obtain ⟨counted, regs, seq, mem⟩ := s.dev.begin.badFlit_counts l
    exact ⟨seq, counted, regs, same mem⟩
  · refine does_of_run _ s (fun d => d.flitRx l f) _ rfl ?_
    rw [Dev.flitRx_idle (d := s.dev.begin) hlen hd ht hcrc hc hempty hcret]
    obtain ⟨counted, seq, mem⟩ := s.dev.begin.flitCounted_words l.isLt f
    exact ⟨by rw [Dev.link_finish, seq]; rfl, by rw [Dev.finish_rd64, counted, Dev.begin_rd64], same mem⟩
  · refine does_of_run _ s (fun d => d.flitRx l f) _ rfl ?_
    obtain ⟨counted, _, mem⟩ := s.dev.begin.flitCounted_words l.isLt f
    obtain ⟨regs, seq, mem'⟩ := (s.dev.begin.flitCounted l f).flitTaken_step l hc
    obtain ⟨old, kept⟩ := Dev.flitPayload_kept (d := (s.dev.begin.flitCounted l f).flitTaken l f) (l := l) heop
    rw [Dev.flitRx_data (d := s.dev.begin) hlen hcrc hc hup hseq, kept, Dev.link_finish, Dev.link_onLink]
    refine ⟨seq.trans hseq, ⟨old, spGet_put_same _ _ _ _⟩, ?_, same (mem'.trans mem)⟩
    rw [Dev.finish_rd64, ← s.dev.begin_rd64, ← counted]
    exact regs.rd64 (by decide) (not_sendWord_link (.inl (by decide)) l.isLt) (not_sendWord_link (.inl (by decide)) l.isLt)
  · refine does_of_run _ s (fun d => d.replay l lack.toNat) _ rfl ?_
    rw [Dev.replay_eq (d := s.dev.begin) hnone, if_neg (show ¬7 ≤ (s.dev.begin.link l).replays from Nat.not_le.2 hfew)]
    obtain ⟨raised, counted⟩ := s.dev.begin.replayCounted_words l
    rw [Dev.link_finish, Dev.link_onLink, Dev.replayCounted_link]
    exact ⟨rfl, rfl, raised, counted, same rfl⟩
  · refine does_of_run _ s (fun d => d.replay l lack.toNat) _ rfl ?_
    rw [Dev.replay_eq (d := s.dev.begin) hnone, if_pos (show 7 ≤ (s.dev.begin.link l).replays from hmany)]
    obtain ⟨_, counted⟩ := s.dev.begin.replayCounted_words l
    have up : ((s.dev.begin.replayCounted l).link l).st = .up := by rw [Dev.replayCounted_link]; exact hup
    obtain ⟨⟨down, _⟩, _, _, _, mem⟩ := Dev.linkLoss_falls l.isLt (by rw [up]; decide) (by rw [up]; decide)
    have kept := Dev.linkLoss_regs (l := l) (by rw [up]; decide) (by rw [up]; decide) (pgAL l) Reg.AL_REPLAYS (by decide)
      (not_fallWord_replays l.isLt)
    exact ⟨down, kept.trans counted, same mem⟩
  · refine does_of_run _ s (fun d => d.resend 7 dst.toNat) _ rfl ?_
    rw [Dev.resend_link (d := s.dev.begin) hu]
    refine ⟨?_, s.dev.begin.toBase_reaches _, same rfl⟩
    rw [Dev.link_finish, Dev.toLink_queue]
    rfl

end Sys2Proof.Machine
end

/-! PROOFS. Log records and fabric software messages (R413 to R416, R418, R420). -/
section
namespace Sys2Proof.Machine

/-! ### Bytes stored in an area -/

/-- Memory after bytes have been stored into an area, where usable DRAM is. -/
structure Dev.areaStored (a : Nat) (bs : List Byte) (d t : Dev) : Prop where
  mem : t.mem = d.mem
  byte : ∀ x, t.byte x = (if d.inDram a bs.length then d.puts a bs else d).byte x

theorem Dev.areaStored_storeArea (d : Dev) (a : Nat) (bs : List Byte) : d.areaStored a bs (d.storeArea a bs) := by
  unfold Dev.storeArea
  split
  · next h => exact ⟨(d.stored_store a bs).mem, fun x => by rw [if_pos h]; exact (d.stored_store a bs).byte x⟩
  · next h => exact ⟨rfl, fun x => by rw [if_neg h]⟩

theorem Dev.areaStored.of_regs {a : Nat} {bs : List Byte} {d t u : Dev} (h : d.areaStored a bs t)
    (hu : ∃ r n, u = { t with regs := r, setNow := n }) : d.areaStored a bs u := by
  obtain ⟨_, _, rfl⟩ := hu
  exact ⟨h.mem, h.byte⟩

/-- Bytes of the area after the command, from an offset on. -/
theorem Dev.areaStored.bytes {a : Nat} {bs : List Byte} {d t : Dev} (h : d.begin.areaStored a bs t)
    (hin : d.inDram a bs.length = true) {k : Nat} (hk : k ≤ bs.length) :
    (t.finish d.mem).bytes (a + k) (bs.length - k) = bs.drop k := by
  rw [Dev.bytes_eq_map]
  refine List.ext_getElem (by simp) (fun i hi _ => ?_)
  have hi' : i < bs.length - k := by simpa using hi
  have inside : d.begin.inDram a bs.length = true := hin
  rw [List.getElem_map, List.getElem_range, Dev.byte_of_finish d t h.mem, h.byte, if_pos inside, Nat.add_assoc,
    Dev.byte_puts_in bs _ _ _ (by omega), List.getElem_drop]

theorem Dev.areaStored.but {a : Nat} {bs : List Byte} {d t : Dev} (h : d.begin.areaStored a bs t) (hd : d.wlog = []) :
    d.sameMemBut a bs.length (t.finish d.mem) := fun x hx => by
  have before : d.begin.byte x = d.byte x := by rw [Dev.byte_sound d.begin rfl, Dev.byte_sound d hd]; rfl
  rw [Dev.byte_of_finish d t h.mem, h.byte, ← before]
  split
  · exact Dev.byte_puts_out bs _ _ _ hx
  · rfl

/-! ### Records (R413 to R416) -/

@[simp] theorem Dev.storeArea_log (d : Dev) (a : Nat) (bs : List Byte) : (d.storeArea a bs).log = d.log := by
  obtain ⟨_, _, _, h⟩ := d.storeArea_eq a bs
  rw [h]

@[simp] theorem Dev.logCount_log (d : Dev) (src k : Nat) (n : Int) : (d.logCount src k n).log = d.log := d.storeArea_log _ _

/-- A record of kind 0 or 1 that finds the queue empty takes a general entry. -/
theorem Dev.logAdmit_empty {d : Dev} {r : LogRec} (hq : d.log.queue = []) (hk : r.kind ≤ 1)
    (hlvl : 0 < d.rdN pgLOG Reg.LOG_TRACE_LVL) : d.logAdmit r = (d.logPush false r).logCount r.source 4 1 := by
  have general : d.log.general = 0 := by simp [LogSt.general, hq]
  have kind : r.kind = 0 ∨ r.kind = 1 := by omega
  rcases kind with h | h <;> simp [Dev.logAdmit, general, hq, h, Nat.ne_of_gt hlvl]

/-- A record of kind 0 or 1 produced while the unit's queue is empty. -/
theorem Dev.logRecord_empty {d : Dev} {r : LogRec} (hq : d.log.queue = []) (hk : r.kind ≤ 1)
    (hlvl : 0 < d.rdN pgLOG Reg.LOG_TRACE_LVL) (hen : d.rdB pgLOG Reg.LOG_CTL 0 = true) :
    (d.logRecord r).log.queue = [(false, r)] := by
  have level : (d.logCount r.source 0 1).rdN pgLOG Reg.LOG_TRACE_LVL = d.rdN pgLOG Reg.LOG_TRACE_LVL := by
    rw [Dev.rdN, Dev.rdN, Dev.rd, Dev.rd, Dev.logCount_regs]
  have plain : d.logRecord r = (d.logCount r.source 0 1).logAdmit r := by
    have kind : ¬r.kind = 2 := by omega
    simp only [Dev.logRecord, if_neg kind, hen, if_true]
  rw [plain, Dev.logAdmit_empty (by rw [Dev.logCount_log, hq]) hk (by rw [level]; exact hlvl), Dev.logCount_log, Dev.logPush,
    Dev.logCount_log, hq]
  rfl

/-- The record that software asks for in LOG_SW0 and LOG_SW1. -/
def Dev.softRecord (d : Dev) : LogRec :=
  let w := d.rd pgLOG Reg.LOG_SW0
  { firstFt := d.ft, lastFt := d.ft, source := 0x400 + field w 5 0, origin := d.myAddr, kind := field w 9 8, type := field w 23 16,
    flags := 0, count := 1, data := d.rd pgLOG Reg.LOG_SW1 }

theorem Dev.logSw2_makes {d : Dev} (hk : field (d.rd pgLOG Reg.LOG_SW0) 9 8 ≠ 3) : d.logSw2 = d.logRecord d.softRecord := if_neg hk

theorem Dev.logSw2_none {d : Dev} (hk : field (d.rd pgLOG Reg.LOG_SW0) 9 8 = 3) : d.logSw2 = d := if_pos hk

theorem Dev.disarm_log (d : Dev) (p : Nat) : (d.disarm p).log = d.log := by
  unfold Dev.disarm
  split <;> rfl

/-! ### Delivery -/

/-- The oldest record, which every path has taken, leaves the queue. -/
def Dev.recordTaken (d : Dev) (r : LogRec) (rest : List (Bool × LogRec)) : Dev :=
  ({ d with log := { d.log with queue := rest, flying := none } }.logCount r.source 1 1).logCount r.source 4 (-1)

theorem Dev.recordTaken_log (d : Dev) (r : LogRec) (rest : List (Bool × LogRec)) :
    (d.recordTaken r rest).log = { d.log with queue := rest, flying := none } := by
  rw [Dev.recordTaken, Dev.logCount_log, Dev.logCount_log]

/-- Whether a collector, where one is in use, has taken the oldest record; it goes there once. -/
def Dev.recordTaking (d : Dev) (r : LogRec) : Dev × Bool := if d.rdB pgLOG Reg.LOG_CTL 1 then d.logToCollector r else (d, true)

theorem Dev.recordTaking_off {d : Dev} (h : d.rdB pgLOG Reg.LOG_CTL 1 = false) (r : LogRec) : d.recordTaking r = (d, true) :=
  if_neg (by simp [h])

theorem Dev.recordTaking_flying {d : Dev} {n : Nat} (hon : d.rdB pgLOG Reg.LOG_CTL 1 = true) (h : d.log.flying = some n)
    (r : LogRec) : d.recordTaking r = (d, !(d.fab.unacked ++ d.fab.waiting).any (fun u => u.cls == 5 && u.seq == n)) := by
  rw [Dev.recordTaking, if_pos hon, Dev.logToCollector, h]

theorem Dev.recordTaking_invalid {d : Dev} (hon : d.rdB pgLOG Reg.LOG_CTL 1 = true) (h : d.log.flying = none)
    (hv : d.addrValid = false) (r : LogRec) : d.recordTaking r = (d, false) := by
  rw [Dev.recordTaking, if_pos hon, Dev.logToCollector, h]
  exact if_pos (by rw [hv]; rfl)

section Deliver
variable {d : Dev} {e : Bool × LogRec} {rest : List (Bool × LogRec)} (hq : d.log.queue = e :: rest)
  (hos : d.rdB pgLOG Reg.LOG_CTL 2 = false)
include hq hos

/-- Without the operating-system ring, the oldest record waits for the collector alone. -/
theorem Dev.logDeliver_eq : d.logDeliver = if !(d.recordTaking e.2).2 then (d.recordTaking e.2).1.reply .waits
    else (d.recordTaking e.2).1.recordTaken e.2 rest := by
  obtain ⟨_, r⟩ := e
  rw [Dev.logDeliver, hq]
  simp only [hos, Bool.false_and, Bool.false_eq_true, if_false]
  rfl

theorem Dev.logDeliver_waits (h : d.recordTaking e.2 = (d, false)) : d.logDeliver = d.reply .waits := by
  rw [Dev.logDeliver_eq hq hos, h]
  exact if_pos rfl

theorem Dev.logDeliver_taken (h : d.recordTaking e.2 = (d, true)) : d.logDeliver.log = { d.log with queue := rest, flying := none } := by
  have taken : d.logDeliver = d.recordTaken e.2 rest := by
    rw [Dev.logDeliver_eq hq hos, h]
    exact if_neg Bool.false_ne_true
  rw [taken, Dev.recordTaken_log]

end Deliver

/-! ### A collector's ring -/

/-- The address of the next record of the ring. -/
def Dev.ringSlot (d : Dev) : Nat := d.logArea + 0x100000 + d.rdN pgLOG Reg.LOG_RING_PROD % 32768 * 32

theorem logBytes_length (r : LogRec) : (logBytes r).length = 32 := rfl

/-- A record that a collector takes. -/
structure Dev.ringTook (r : LogRec) (d t : Dev) : Prop where
  prod : t.rd pgLOG Reg.LOG_RING_PROD = word (d.rdN pgLOG Reg.LOG_RING_PROD + 1)
  remote : t.rd64 pgLOG Reg.LOG_RX_REMOTE = (d.rd64 pgLOG Reg.LOG_RX_REMOTE + 1) % 2 ^ 64
  stored : d.areaStored d.ringSlot (logBytes r) t

/-- The index of the ring set after a store, and the interrupt of a full ring. -/
def Dev.ringSet (d : Dev) (n : Nat) : Dev :=
  let d := d.wrN pgLOG Reg.LOG_RING_PROD n
  if d.logRingFull then d.irq pgLOG 3 else d

theorem Dev.logRing_eq (d : Dev) (r : LogRec) :
    d.logRing r = (d.storeArea d.ringSlot (logBytes r)).ringSet (d.rdN pgLOG Reg.LOG_RING_PROD + 1) := by
  rw [Dev.logRing, Dev.ringSet, Dev.ringSlot]

theorem Dev.ringSet_words (d : Dev) (n : Nat) : (d.ringSet n).rd pgLOG Reg.LOG_RING_PROD = word n
    ∧ d.regsBut (fun p o => p = pgLOG ∧ (o = Reg.LOG_RING_PROD ∨ o = Reg.IRQ_STAT)) (d.ringSet n)
    ∧ ∃ r k, d.ringSet n = { d with regs := r, setNow := k } := by
  have index : (d.wrN pgLOG Reg.LOG_RING_PROD n).rd pgLOG Reg.LOG_RING_PROD = word n := Dev.rd_wr_same _ _ _ _
  have next : d.regsBut (fun p o => p = pgLOG ∧ (o = Reg.LOG_RING_PROD ∨ o = Reg.IRQ_STAT)) (d.wrN pgLOG Reg.LOG_RING_PROD n) :=
    d.regsBut_wr _ ⟨rfl, .inl rfl⟩ (by decide)
  unfold Dev.ringSet
  dsimp only
  split
  · exact ⟨(Dev.irq_stat_else _ _ _ _ _ (by decide) (by decide)).trans index, next.trans (Dev.regsBut_irq _ 3 ⟨rfl, .inr rfl⟩),
      _, _, rfl⟩
  · exact ⟨index, next, _, _, rfl⟩

theorem Dev.logRing_words (d : Dev) (r : LogRec) :
    (d.logRing r).rd pgLOG Reg.LOG_RING_PROD = word (d.rdN pgLOG Reg.LOG_RING_PROD + 1)
    ∧ d.regsBut (fun p o => p = pgLOG ∧ (o = Reg.LOG_RING_PROD ∨ o = Reg.IRQ_STAT)) (d.logRing r)
    ∧ d.areaStored d.ringSlot (logBytes r) (d.logRing r) := by
  have stored := d.areaStored_storeArea d.ringSlot (logBytes r)
  have area := Dev.regsBut_of_regs (Dev.storeArea_frame d d.ringSlot (logBytes r)).1
  rw [Dev.logRing_eq]
  obtain ⟨index, regs, shape⟩ := (d.storeArea d.ringSlot (logBytes r)).ringSet_words (d.rdN pgLOG Reg.LOG_RING_PROD + 1)
  exact ⟨index, (area.mono (fun _ _ h => h.elim)).trans regs, stored.of_regs shape⟩

theorem Dev.ringTook_logPacket {d : Dev} (hen : d.rdB pgLOG Reg.LOG_CTL 3 = true) (hroom : d.logRingFull = false) (r : LogRec) :
    d.ringTook r (d.logPacket r) := by
  have taken : d.logPacket r = (d.logRing r).add64 pgLOG Reg.LOG_RX_REMOTE 1 := if_neg (by simp [hen, hroom])
  obtain ⟨prod, regs, stored⟩ := d.logRing_words r
  obtain ⟨_, counted⟩ := (d.logRing r).add64_eq pgLOG Reg.LOG_RX_REMOTE 1
  rw [taken]
  refine ⟨?_, ?_, stored.of_regs ⟨_, _, counted⟩⟩
  · rw [Dev.add64, Dev.wr64_rd_else _ _ (by decide) (by decide) (by decide), prod]
  · rw [Dev.rd64_add64, regs.rd64 (by decide) (by decide) (by decide)]

/-! ### The software rings (R418) -/

theorem not_sendWord_fabric {o : Nat} (h : o ≠ Reg.IRQ_STAT) (h' : o < Reg.EP_INJ ∨ Reg.HOLD_BASE ≤ o) : ¬sendWord pgFAB o := by
  simp only [sendWord, pgAL, pgFAB]
  omega

/-- One posted slot leaves as a message. -/
theorem Dev.sent_fsrLoop (d : Dev) (n cons : Nat) : d.sent sendWord (forN n (fun i d =>
    let a := d.fsrSlot false (cons + i)
    let w := word (d.num a 4)
    let len := field w 31 16
    if len = 0 ∨ 1020 < len then d else d.msg 1 (field w 11 0) msgFsr ((d.bytes (a + 4) len).map BitVec.toNat)) d) :=
  forN_rel (Dev.sent sendWord) (Dev.sent_refl _) (fun _ _ _ => Dev.sent.trans) n _
    (fun _ e => Dev.sent_ite (e.sent_refl _) (e.sent_msg _ _ _ _)) d

theorem word_index_reaches {p : Word} {cons : Nat} (hc : cons < 2 ^ 32) (hn : (p.toNat + 2 ^ 32 - cons) % 2 ^ 32 ≤ 1024) :
    word (cons + min 1024 ((p.toNat + 2 ^ 32 - cons) % 2 ^ 32)) = p := by
  refine BitVec.eq_of_toNat_eq ?_
  have := p.isLt
  rw [toNat_word, Nat.min_eq_right hn]
  omega

/-- FSR_SEND: the index posted stands, and where it posts no more than the ring holds, all is taken. -/
theorem Dev.fsrSend_index (d : Dev) (p : Word) : (d.fsrSend p).rd pgFAB Reg.FSR_TX_PROD = p
    ∧ ((p.toNat + 2 ^ 32 - d.rdN pgFAB Reg.FSR_TX_CONS) % 2 ^ 32 ≤ 1024 → (d.fsrSend p).rd pgFAB Reg.FSR_TX_CONS = p) := by
  have posted := (d.wr pgFAB Reg.FSR_TX_PROD p).sent_fsrLoop (min 1024 ((p.toNat + 2 ^ 32
    - (d.wr pgFAB Reg.FSR_TX_PROD p).rdN pgFAB Reg.FSR_TX_CONS) % 2 ^ 32)) ((d.wr pgFAB Reg.FSR_TX_PROD p).rdN pgFAB Reg.FSR_TX_CONS)
  have cons : (d.wr pgFAB Reg.FSR_TX_PROD p).rdN pgFAB Reg.FSR_TX_CONS = d.rdN pgFAB Reg.FSR_TX_CONS :=
    congrArg BitVec.toNat (Dev.rd_wr_off _ _ _ _ _ (by decide))
  have own : ¬sendWord pgFAB Reg.FSR_TX_PROD := not_sendWord_fabric (by decide) (.inr (by decide))
  refine ⟨?_, fun hn => ?_⟩
  · refine (Dev.rd_wr_off _ _ _ _ _ (by decide)).trans ((posted.regs _ _ (by decide) own).trans (Dev.rd_wr_same _ _ _ _))
  · refine (Dev.rd_wr_same _ _ _ _).trans ?_
    rw [cons]
    exact word_index_reaches (d.rd pgFAB Reg.FSR_TX_CONS).isLt hn

/-- What a slot holds of a received message. -/
def messageBytes (src : Nat) (payload : List Byte) : List Byte := leBytes 4 (src + payload.length * 65536) ++ payload

theorem messageBytes_length (src : Nat) (payload : List Byte) : (messageBytes src payload).length = 4 + payload.length := by
  rw [messageBytes, List.length_append, leBytes_length]

theorem messageBytes_payload (src : Nat) (payload : List Byte) : (messageBytes src payload).drop 4 = payload :=
  List.drop_left' (leBytes_length _ _)

theorem Dev.fsrRx_full {d : Dev} (src : Nat) (payload : List Byte)
    (h : 1024 ≤ (d.rdN pgFAB Reg.FSR_RX_PROD + 2 ^ 32 - d.rdN pgFAB Reg.FSR_RX_CONS) % 2 ^ 32) : d.fsrRx src payload = d :=
  if_pos (.inr (.inr h))

/-- A message that finds room takes the next slot. -/
theorem Dev.fsrRx_takes {d : Dev} {src : Nat} {payload : List Byte} (h1 : 1 ≤ payload.length) (h2 : payload.length ≤ 1020)
    (h : ¬1024 ≤ (d.rdN pgFAB Reg.FSR_RX_PROD + 2 ^ 32 - d.rdN pgFAB Reg.FSR_RX_CONS) % 2 ^ 32) :
    d.fsrRx src payload = (d.storeArea (d.fsrSlot true (d.rdN pgFAB Reg.FSR_RX_PROD)) (messageBytes src payload)).advance pgFAB
      Reg.FSR_RX_PROD (d.rdN pgFAB Reg.FSR_RX_PROD + 1) 7 :=
  if_neg (by omega)

theorem Dev.advance_shape (d : Dev) (pg off v n : Nat) : ∃ r k, d.advance pg off v n = { d with regs := r, setNow := k } :=
  ⟨_, _, rfl⟩

theorem Dev.advance_index (d : Dev) (pg v n : Nat) {off : Nat} (ho : off < 4096) (hirq : off ≠ Reg.IRQ_STAT) :
    (d.advance pg off v n).rd pg off = word v := by
  rw [Dev.advance, Dev.irq_stat_else _ _ _ _ _ ho hirq, Dev.wrN, Dev.rd_wr_same]

/-- Settles O22, command by command: what is stored goes to an area of memory, beside the registers that index it, and what is sent
leaves the indexes of the rings as they are. -/
theorem logsAndMessages : Obligations.LogsAndMessages := by
  unfold Obligations.LogsAndMessages
  intro s hs
  obtain ⟨_, hw⟩ := hs
  extract_lets d w prod rx full
  have waits : d.onlyRegs (fun _ _ => False) ((s.dev.begin.reply .waits).finish d.mem) :=
    Dev.onlyRegs_finish _ d _ hw rfl (fun _ _ _ _ => rfl) rfl
  have taken : ∀ e rest, d.log.queue = e :: rest → d.rdB pgLOG Reg.LOG_CTL 2 = false →
      s.dev.begin.recordTaking e.2 = (s.dev.begin, true) →
      (s.dev.begin.logDeliver.finish d.mem).log.queue = rest ∧ (s.dev.begin.logDeliver.finish d.mem).log.flying = none :=
    fun e rest hq hos h => by
      have log := Dev.logDeliver_taken (d := s.dev.begin) hq hos h
      rw [Dev.finish_log, log]
      exact ⟨rfl, rfl⟩
  refine ⟨fun r v hr hk hen hq hlvl => ?_, fun r v hr hk => ?_, fun e rest hq hos hfr => ⟨fun hoff => ?_, fun hon hfly hv => ?_,
    fun n hon hfly => ⟨fun hany => ?_, fun hnone => ?_⟩⟩, fun rec hen hroom => ?_, fun r p hr => ?_,
    fun src payload h1 h2 => ⟨fun hfull => ?_, fun hfull => ?_⟩⟩
  · refine does_onPage (p := pgLOG) (f := Dev.logSw2) hr rfl ?_
    have word0 : (s.dev.begin.disarm pgLOG).rd pgLOG Reg.LOG_SW0 = w := Dev.disarm_rd _ _ _ _
    rw [Dev.logSw2_makes (by rw [word0]; omega)]
    refine ⟨(s.dev.begin.disarm pgLOG).softRecord, Dev.logRecord_empty ?_ ?_ ?_ ?_, ?_, ?_, ?_, ?_, ?_⟩
    · rw [Dev.disarm_log]; exact hq
    · rw [Dev.softRecord, word0]; exact hk
    · rw [Dev.rdN, Dev.disarm_rd]; exact hlvl
    · rw [Dev.rdB, Dev.disarm_rd]; exact hen
    · rw [Dev.softRecord, word0]
    · rw [Dev.softRecord, word0]
    · rw [Dev.softRecord, word0]
    · rw [Dev.softRecord, Dev.disarm_rd]; rfl
    · rw [Dev.softRecord, Dev.ft, Dev.disarm_clock]; rfl
  · refine does_onPage (p := pgLOG) (f := Dev.logSw2) hr rfl ?_
    rw [Dev.logSw2_none (by rw [Dev.disarm_rd]; exact hk)]
    exact d.onlyRegs_disarm pgLOG hw (by decide)
  · refine does_of_run _ s (fun d => d.thawed pgLOG Dev.logDeliver) _ rfl ?_
    rw [Dev.thawed_of_not_frozen s.dev.begin _ _ hfr]
    exact taken e rest hq hos (Dev.recordTaking_off (d := s.dev.begin) hoff _)
  · refine does_of_run _ s (fun d => d.thawed pgLOG Dev.logDeliver) _ rfl ?_
    rw [Dev.thawed_of_not_frozen s.dev.begin _ _ hfr, Dev.logDeliver_waits (d := s.dev.begin) hq hos
      (Dev.recordTaking_invalid (d := s.dev.begin) hon hfly hv _)]
    exact ⟨rfl, rfl, waits⟩
  · refine does_of_run _ s (fun d => d.thawed pgLOG Dev.logDeliver) _ rfl ?_
    have pending : (s.dev.begin.fab.unacked ++ s.dev.begin.fab.waiting).any (fun u => u.cls == 5 && u.seq == n) = true := hany
    rw [Dev.thawed_of_not_frozen s.dev.begin _ _ hfr, Dev.logDeliver_waits (d := s.dev.begin) hq hos
      (by rw [Dev.recordTaking_flying (d := s.dev.begin) hon hfly, pending]; rfl)]
    exact ⟨rfl, rfl, waits⟩
  · refine does_of_run _ s (fun d => d.thawed pgLOG Dev.logDeliver) _ rfl ?_
    have acked : (s.dev.begin.fab.unacked ++ s.dev.begin.fab.waiting).any (fun u => u.cls == 5 && u.seq == n) = false := hnone
    rw [Dev.thawed_of_not_frozen s.dev.begin _ _ hfr]
    exact taken e rest hq hos (by rw [Dev.recordTaking_flying (d := s.dev.begin) hon hfly, acked]; rfl)
  · refine does_of_run _ s (fun d => d.logPacket rec) _ rfl ?_
    have took := Dev.ringTook_logPacket (d := s.dev.begin) hen hroom rec
    refine ⟨took.prod, by rw [Dev.finish_rd64, took.remote, Dev.begin_rd64], fun hin => ?_, took.stored.but hw⟩
    have bytes := took.stored.bytes (d := s.dev) (k := 0) hin (Nat.zero_le _)
    rw [Nat.add_zero, Nat.sub_zero, List.drop_zero] at bytes
    exact bytes
  · refine does_onPage (p := pgFAB) (f := fun d => d.fsrSend p) hr rfl ?_
    obtain ⟨posted, taken⟩ := (s.dev.begin.disarm pgFAB).fsrSend_index p
    rw [Dev.rdN, Dev.disarm_rd] at taken
    rw [Dev.finish_rd, Dev.finish_rd]
    exact ⟨posted, taken⟩
  · refine does_of_run _ s (fun d => d.fsrRx src.toNat payload) _ rfl ?_
    rw [Dev.fsrRx_full (d := s.dev.begin) _ _ hfull]
    exact Dev.onlyRegs_finish _ d _ hw rfl (fun _ _ _ _ => rfl) rfl
  · refine does_of_run _ s (fun d => d.fsrRx src.toNat payload) _ rfl ?_
    rw [Dev.fsrRx_takes (d := s.dev.begin) h1 h2 hfull]
    have stored := (s.dev.begin.areaStored_storeArea (s.dev.begin.fsrSlot true rx) (messageBytes src.toNat payload)).of_regs
      (Dev.advance_shape _ pgFAB Reg.FSR_RX_PROD (rx + 1) 7)
    have len := messageBytes_length src.toNat payload
    rw [Dev.finish_rd, Dev.finish_rdB]
    refine ⟨Dev.advance_index _ _ _ _ (by decide) (by decide), Dev.advance_raised _ _ _ _ (by decide), fun hin => ?_, ?_⟩
    · have bytes := stored.bytes (d := s.dev) (k := 4) (by rw [len]; exact hin) (by omega)
      rw [messageBytes_payload, len, Nat.add_sub_cancel_left] at bytes
      exact bytes
    · have but := stored.but hw
      rw [len] at but
      exact but

end Sys2Proof.Machine
end

/-! PROOFS. What a migration leaves alone (R409 to R412): messages, mirror slots and stream records beside the heads; a head's run
left; carried state laid in. -/
section
namespace Sys2Proof.Machine

/-! ### Migration slots -/

@[simp] theorem Dev.mig_onMig (d : Dev) (k : Nat) (f : Mig → Mig) : (d.onMig k f).mig k = f (d.mig k) := by
  simp [Dev.mig, Dev.onMig, Dev.onFab]

theorem Dev.mig_onMig_ne (d : Dev) {k j : Nat} (f : Mig → Mig) (h : j ≠ k) : (d.onMig k f).mig j = d.mig j :=
  spGet_put_other _ _ _ _ _ h

theorem Dev.mig_of_migs {d t : Dev} (h : t.fab.migs = d.fab.migs) (k : Nat) : t.mig k = d.mig k := by rw [Dev.mig, Dev.mig, h]

theorem Dev.mig_of_fab {d t : Dev} (h : t.fab = d.fab) (k : Nat) : t.mig k = d.mig k := Dev.mig_of_migs (by rw [h]) k

theorem Dev.sent.mig {kept : Nat → Nat → Prop} {d t : Dev} (h : d.sent kept t) (k : Nat) : t.mig k = d.mig k :=
  Dev.mig_of_migs h.migs k

theorem Dev.sent.head {kept : Nat → Nat → Prop} {d t : Dev} (h : d.sent kept t) (k : Nat) : t.head k = d.head k := by
  rw [Dev.head, Dev.head, h.heads]

theorem Dev.sent_tellHome (d : Dev) (name chip head : Nat) (moving : Bool) : d.sent sendWord (d.tellHome name chip head moving) := by
  unfold Dev.tellHome
  split
  · exact d.sent_refl _
  · exact Dev.sent_ite (d.sent_onFab _ rfl rfl) (d.sent_msg _ _ _ _)

/-- No message writes the words of a head that its timing, its mode and its binding stand in. -/
theorem not_sendWord_head {h o : Nat} (ho : o < Reg.AL_CRED ∨ Reg.AL_CSNAP ≤ o) : ¬sendWord (pgHD h) o := by
  simp only [sendWord, pgAL, pgFAB, pgHD]
  omega

/-! ### Beside the heads -/

/-- The words that messages and the records of sessions may change. -/
def asideWord (p o : Nat) : Prop := sendWord p o ∨ p = pgSESS

/-- No head changes, and of registers only words of messages and sessions. -/
structure Dev.aside (d t : Dev) : Prop where
  regs : d.regsBut asideWord t
  heads : t.heads = d.heads

section Aside
variable {d t : Dev}

theorem Dev.aside_refl (d : Dev) : d.aside d := ⟨d.regsBut_refl _, rfl⟩

theorem Dev.aside.trans {a b c : Dev} (h : a.aside b) (h' : b.aside c) : a.aside c := ⟨h.regs.trans h'.regs, h'.heads.trans h.heads⟩

theorem Dev.sent.aside (h : d.sent sendWord t) : d.aside t := ⟨h.regs.mono (fun _ _ => .inl), h.heads⟩

theorem Dev.aside_of_regs (hr : t.regs = d.regs) (hh : t.heads = d.heads) : d.aside t :=
  ⟨(Dev.regsBut_of_regs hr).mono (fun _ _ h => h.elim), hh⟩

theorem Dev.aside_ite {c : Prop} [Decidable c] {a b : Dev} (ha : d.aside a) (hb : d.aside b) : d.aside (if c then a else b) := by
  split
  · exact ha
  · exact hb

theorem Dev.aside_forL {α : Type} (l : List α) (f : α → Dev → Dev) (hf : ∀ x e, Dev.aside e (f x e)) (d : Dev) :
    d.aside (forL l f d) :=
  forL_rel Dev.aside Dev.aside_refl (fun _ _ _ => Dev.aside.trans) l f hf d

theorem Dev.aside.head (h : d.aside t) (k : Nat) : t.head k = d.head k := by rw [Dev.head, Dev.head, h.heads]

theorem Dev.aside.word (h : d.aside t) (k : Nat) {o : Nat} (ho : o < 4096) (ho' : o < Reg.AL_CRED ∨ Reg.AL_CSNAP ≤ o) :
    t.rd (pgHD k) o = d.rd (pgHD k) o :=
  h.regs _ _ ho (fun hc => hc.elim (not_sendWord_head ho') (fun h => by simp only [pgHD, pgSESS] at h; omega))

theorem Dev.aside_storeArea (d : Dev) (a : Nat) (bs : List Byte) : d.aside (d.storeArea a bs) := by
  obtain ⟨regs, heads⟩ := d.storeArea_frame a bs
  exact Dev.aside_of_regs regs heads

theorem Dev.aside_onFab (d : Dev) (f : FabricSt → FabricSt) : d.aside (d.onFab f) := Dev.aside_of_regs rfl rfl

theorem Dev.aside_onEnc (d : Dev) (f : EncSt → EncSt) : d.aside (d.onEnc f) := Dev.aside_of_regs rfl rfl

theorem Dev.aside_setSd (d : Dev) (s off n v : Nat) : d.aside (d.setSd s off n v) := d.aside_storeArea _ _

/-! ### Records of sessions -/

theorem Dev.aside_ringStore (d : Dev) (base size idx : Nat) (bs : List Byte) : d.aside (d.ringStore base size idx bs) :=
  (d.aside_storeArea _ _).trans (Dev.aside_ite (Dev.aside_refl _) (Dev.aside_storeArea _ _ _))

theorem Dev.aside_txRecord (d : Dev) (s : Nat) (plain : List Byte) (type : Nat) : d.aside (d.txRecord s plain type) :=
  ((d.aside_ringStore _ _ _ _).trans (Dev.aside_setSd _ _ _ _ _)).trans (Dev.aside_setSd _ _ _ _ _)

theorem Dev.aside_sessStream (d : Dev) (s : Nat) (r : List Byte) : d.aside (d.sessStream s r) := by
  have full : d.aside (d.irq pgSESS 3) := ⟨d.regsBut_irq 3 (.inr rfl), rfl⟩
  exact Dev.aside_ite d.aside_refl (Dev.aside_ite (d.aside_onEnc _) (Dev.aside_ite full
    (Dev.aside_forL _ _ (fun c e => e.aside_txRecord s c _) d)))

theorem Dev.aside_slotStream (d : Dev) (k : Nat) (m : Mirror) (r : List Byte) : d.aside (d.slotStream k m r) := by
  unfold Dev.slotStream
  split
  · exact d.aside_sessStream k r
  · exact (d.sent_injectPkt _ _ _).aside

/-! ### Mirror slots -/

theorem Dev.aside_markInit (d : Dev) (lo hi : Nat) : d.aside (d.markInit lo hi) :=
  Dev.aside_ite d.aside_refl (Dev.aside_of_regs rfl rfl)

theorem Dev.aside_clear (d : Dev) (lo hi : Nat) : d.aside (d.clear lo hi) := Dev.aside_of_regs rfl rfl

theorem Dev.aside_clearMirror (d : Dev) (k off n : Nat) : d.aside (d.clearMirror k off n) :=
  Dev.aside_ite ((d.aside_markInit _ _).trans (Dev.aside_clear _ _ _)) d.aside_refl

theorem Dev.aside_setMirror (d : Dev) (k : Nat) (m : Option Mirror) : d.aside (d.setMirror k m) := d.aside_onEnc _

theorem Dev.aside_onMirror (d : Dev) (k : Nat) (f : Mirror → Mirror) : d.aside (d.onMirror k f) :=
  d.aside_setMirror _ _

theorem Dev.aside_needSlot (d : Dev) (k : Nat) (b : Bool) : d.aside (d.needSlot k b) := by
  unfold Dev.needSlot
  split
  · exact d.aside_refl
  · exact (d.aside_onEnc _).trans (Dev.aside_ite (Dev.aside_setSd _ _ _ _ _) (Dev.aside_refl _))

theorem Dev.aside_takeSlot (d : Dev) (k head : Nat) (chip : Option Nat) (sess snd : Nat) : d.aside (d.takeSlot k head chip sess snd) :=
  ((d.aside_clearMirror _ _ _).trans (Dev.aside_onEnc _ _)).trans (Dev.aside_needSlot _ _ _)

theorem Dev.aside_seatViewer (d : Dev) (k vb : Nat) (v : BitVec 12 × Sess × BitVec 16) : d.aside (d.seatViewer k vb v) := by
  obtain ⟨chip, s, snd⟩ := v
  have seated : ∀ chip sess snd, d.aside (d.takeSlot s vb chip sess snd) := fun _ _ _ => d.aside_takeSlot _ _ _ _ _
  unfold Dev.seatViewer
  refine Dev.aside_ite ((seated _ _ _).trans (Dev.aside_ite (Dev.aside_refl _)
    ((Dev.aside_onEnc _ _).trans (Dev.aside_setSd _ _ _ _ _)))) ?_
  split
  · exact d.aside_refl
  · exact (d.aside_takeSlot _ _ _ _ _).trans (Dev.aside_onFab _ _)

theorem Dev.aside_handControl (d : Dev) (name chip : Nat) : d.aside (d.handControl name chip) := by
  unfold Dev.handControl
  extract_lets who
  clear_value who
  split
  · exact (d.aside_onEnc _).trans (Dev.sent_msg _ _ _ _ _).aside
  · exact d.aside_refl

/-- MOVED goes to the viewers of a head, which notes it no longer; all else is beside the heads (R320). -/
theorem Dev.movedDue_aside (d : Dev) (h : Nat) :
    d.aside (d.movedDue h) ∨ (d.onHead h (fun x => { x with moved := none })).aside (d.movedDue h) := by
  unfold Dev.movedDue
  split
  · exact .inl d.aside_refl
  · next next chip head slots _ =>
    split
    · exact .inl d.aside_refl
    · refine .inr (Dev.aside_forL _ _ ?_ _)
      rintro ⟨k, m⟩ e
      refine (e.aside_slotStream k m _).trans (Dev.aside_ite (Dev.aside_onMirror _ _ _)
        (Dev.aside.trans (Dev.aside_setMirror _ k none) ?_))
      split
      · exact ((Dev.aside_onEnc _ _).trans (Dev.aside_setSd _ _ _ _ _)).trans (Dev.aside_setSd _ _ _ _ _)
      · exact Dev.aside_refl _

end Aside

/-! ### Input that waits goes on -/

theorem Dev.add64_heads (d : Dev) (p o n : Nat) : (d.add64 p o n).heads = d.heads := d.wr64_heads p o _

theorem Dev.takePending_heads (d : Dev) (n : Nat) : (d.takePending n).1.heads = d.heads :=
  (Dev.setLane_heads _ _ _).trans ((Dev.wr64_heads _ _ _ _).trans (d.add64_heads _ _ _))

theorem Dev.enqueueEvent_heads (d : Dev) (n : Nat) (e : InputMsg) : (d.enqueueEvent n e).heads = d.heads := by
  have accepted := d.add64_heads (pgHP n) Reg.IN_ACCEPTED 1
  unfold Dev.enqueueEvent
  generalize d.add64 (pgHP n) Reg.IN_ACCEPTED 1 = a at accepted ⊢
  dsimp only
  split
  · exact (Dev.setBits_heads _ _ _ _).trans ((a.add64_heads _ _ _).trans accepted)
  · exact (Dev.setLane_heads _ _ _).trans ((a.add64_heads _ _ _).trans accepted)

theorem Dev.forL_heads {α : Type} (l : List α) (f : α → Dev → Dev) (hf : ∀ x e, (f x e).heads = e.heads) (d : Dev) :
    (forL l f d).heads = d.heads :=
  forL_rel (fun a b : Dev => b.heads = a.heads) (fun _ => rfl) (fun _ _ _ h h' => h'.trans h) l f hf d

/-! ### A head's run left -/

/-- The state of the fabric stays. -/
def Dev.fabKept (d t : Dev) : Prop := t.fab = d.fab

theorem Dev.fabKept.trans {a b c : Dev} (h : a.fabKept b) (h' : b.fabKept c) : a.fabKept c := Eq.trans h' h

theorem Dev.fabKept_ite {c : Prop} [Decidable c] {d a b : Dev} (ha : d.fabKept a) (hb : d.fabKept b) :
    d.fabKept (if c then a else b) := by
  split
  · exact ha
  · exact hb

theorem Dev.fabKept_add64 (d : Dev) (p o n : Nat) : d.fabKept (d.add64 p o n) := by
  obtain ⟨_, h⟩ := d.add64_eq p o n
  rw [Dev.fabKept, h]

theorem Dev.fabKept_wr (d : Dev) (p o : Nat) (v : Word) : d.fabKept (d.wr p o v) := rfl

theorem Dev.fabKept_irq (d : Dev) (p n : Nat) : d.fabKept (d.irq p n) := rfl

theorem Dev.fabKept_onHead (d : Dev) (h : Nat) (f : HeadSt → HeadSt) : d.fabKept (d.onHead h f) := rfl

theorem Dev.fabKept_dropRegion (d : Dev) (h : Nat) : d.fabKept (d.dropRegion h) := rfl

theorem Dev.fabKept_storeArea (d : Dev) (a : Nat) (bs : List Byte) : d.fabKept (d.storeArea a bs) := (d.logged_storeArea a bs).fab

theorem Dev.fabKept_encTake (d : Dev) (h : Nat) (b : LineBuf) : d.fabKept (d.encTake h b) := by
  unfold Dev.encTake
  split
  · exact rfl
  · exact (d.fabKept_onHead h _).trans (Dev.fabKept_storeArea _ _ _)

theorem Dev.fabKept_endPending (d : Dev) (h f counter : Nat) : d.fabKept (d.endPending h f counter) := by
  have counted : ∀ (x : HeadSt) (v : Nat), d.fabKept (((d.setHead h x).add64 (pgHD h) counter 1).wrN pgENC Reg.ENC_BACKLOG v) :=
    fun x v => Dev.fabKept.trans (b := d.setHead h x) rfl ((Dev.fabKept_add64 _ _ _ _).trans (Dev.fabKept_wr _ _ _ _))
  unfold Dev.endPending
  dsimp only
  split
  · exact rfl
  · exact Dev.fabKept_ite ((counted _ _).trans (Dev.fabKept_dropRegion _ _)) (counted _ _)

theorem Dev.fabKept_withhold (d : Dev) (h f : Nat) (late : Bool) : d.fabKept (d.withhold h f late) := by
  have noted : ∀ (e : Dev) (o n : Nat), e.fabKept ((e.add64 (pgHD h) o 1).irq (pgHD h) n) := fun e o n =>
    (e.fabKept_add64 _ _ _).trans (Dev.fabKept_irq _ _ _)
  have abandoned : ∀ (e : Dev) (n : Nat), e.fabKept (e.abandon h f n) := fun e n =>
    (e.fabKept_onHead h _).trans (Dev.fabKept_add64 _ _ _ _)
  exact ((((noted d _ _).trans (Dev.fabKept_ite (noted _ _ _) rfl)).trans (abandoned _ _)).trans (Dev.fabKept_onHead _ _ _)).trans
    (Dev.fabKept_endPending _ _ _ _)

theorem Dev.fabKept_closeRun (d : Dev) (h : Nat) : d.fabKept (d.closeRun h) := by
  unfold Dev.closeRun
  refine Dev.fabKept_ite rfl ?_
  extract_lets a x
  have ha : d.fabKept a := forL_rel Dev.fabKept (fun _ => rfl) (fun _ _ _ => Dev.fabKept.trans) _ _
    (fun b e => e.fabKept_encTake h b) d
  split
  · exact ha.trans (Dev.fabKept_ite (Dev.fabKept_withhold _ _ _ _) rfl)
  · exact ha

theorem Dev.fabKept_leaveRun (d : Dev) (h : Nat) : d.fabKept (d.leaveRun h) := by
  unfold Dev.leaveRun
  refine (d.fabKept_closeRun h).trans ?_
  generalize d.closeRun h = a
  have left : ∀ f : HeadSt → HeadSt, a.fabKept (((a.dropTokens h).onHead h f).setEnable h false) := fun _ => rfl
  exact Dev.fabKept_ite (left _) (Dev.fabKept_ite ((left _).trans (Dev.fabKept_dropRegion _ _))
    ((left _).trans (Dev.fabKept_onHead _ _ _)))

/-! ### DETACHED -/

theorem Dev.fnMsg_frame (d : Dev) (n f vec : Nat) : (d.fnMsg n f vec).fab = d.fab ∧ (d.fnMsg n f vec).clock = d.clock := by
  unfold Dev.fnMsg
  split
  · split
    · exact ⟨rfl, rfl⟩
    · exact ⟨rfl, rfl⟩
  · split
    · exact ⟨rfl, rfl⟩
    · exact ⟨rfl, rfl⟩

theorem Dev.detachFn_frame (d : Dev) (h : Nat) (on : Bool) (f : Nat) :
    (d.detachFn h on f).fab = d.fab ∧ (d.detachFn h on f).clock = d.clock := by
  unfold Dev.detachFn Dev.fnEvent
  extract_lets was shown
  split
  · exact shown.fnMsg_frame h f _
  · exact ⟨rfl, rfl⟩

/-- A change of DETACHED leaves the fabric and the clock; DETACHED reads as it was set. -/
theorem Dev.setDetached_frame (d : Dev) {h : Nat} (hh : h < 128) (on : Bool) : (d.setDetached h on).fab = d.fab
    ∧ (d.setDetached h on).clock = d.clock ∧ (d.setDetached h on).rdB (pgHD h) Reg.HD_MODE 3 = on := by
  by_cases hs : d.rdB (pgHD h) Reg.HD_MODE 3 = on
  · rw [d.setDetached_same h on hs]
    exact ⟨rfl, rfl, hs⟩
  · obtain ⟨x, hx⟩ := d.setDetached_change h on hs
    have stored : ∀ e : Dev, (e.wrB (pgHD h) Reg.HD_MODE 3 on).rdB (pgHD h) Reg.HD_MODE 3 = on := fun e => by
      rw [Dev.rdB, Dev.wrB, Dev.rd_wr_same, bit_putBit _ _ _ (by decide)]
    have fns : ∀ e : Dev, (forN 3 (fun f d => d.detachFn h on f) e).fab = e.fab
        ∧ (forN 3 (fun f d => d.detachFn h on f) e).clock = e.clock :=
      forN_rel (fun a b : Dev => b.fab = a.fab ∧ b.clock = a.clock) (fun _ => ⟨rfl, rfl⟩)
        (fun _ _ _ h h' => ⟨h'.1.trans h.1, h'.2.trans h.2⟩) 3 _ (fun f e => e.detachFn_frame h on f)
    rw [hx]
    split
    · obtain ⟨fab, clock⟩ := fns ((d.setHead h x).wrB (pgHD h) Reg.HD_MODE 3 on)
      refine ⟨fab, clock, ?_⟩
      rw [Dev.rdB, Dev.detachFns_rd_else _ _ _ _ (by simp only [pgHD]; omega) (by decide)]
      exact stored _
    · exact ⟨rfl, rfl, stored _⟩

/-! ### Carried state laid in (R33) -/

/-- What a migration lays into a head leaves fabric, heads, clock and the words that time its frames. -/
structure Dev.laid (h : Nat) (d t : Dev) : Prop where
  fab : t.fab = d.fab
  heads : t.heads = d.heads
  clock : t.clock = d.clock
  words : ∀ o, Reg.HD_FPERIOD ≤ o → o < Reg.HD_LEAD → t.rd (pgHD h) o = d.rd (pgHD h) o

theorem Dev.laid.trans {h : Nat} {a b c : Dev} (r : a.laid h b) (r' : b.laid h c) : a.laid h c :=
  ⟨r'.fab.trans r.fab, r'.heads.trans r.heads, r'.clock.trans r.clock, fun o ho ho' => (r'.words o ho ho').trans (r.words o ho ho')⟩

theorem Dev.laid_refl (h : Nat) (d : Dev) : d.laid h d := ⟨rfl, rfl, rfl, fun _ _ _ => rfl⟩

theorem Dev.laid_of_regs {h : Nat} {d t : Dev} (hr : t.regs = d.regs) (hf : t.fab = d.fab) (hh : t.heads = d.heads)
    (hc : t.clock = d.clock) : d.laid h t := ⟨hf, hh, hc, fun _ _ _ => by rw [Dev.rd, Dev.rd, hr]⟩

theorem Dev.laid_store (h : Nat) (d : Dev) (a : Nat) (bs : List Byte) : d.laid h (d.store a bs) := by
  obtain ⟨t, ⟨m, v, rfl⟩, heq⟩ := d.store_eq a bs
  obtain ⟨w, hw⟩ := Dev.puts_wlog { d with ram := m, resv := v } a bs
  rw [heq, hw]
  exact Dev.laid_of_regs rfl rfl rfl rfl

theorem not_carriedOff_timing {o : Nat} (h : Reg.HD_FPERIOD ≤ o) (h' : o < Reg.HD_LEAD) : carriedOff o = false := by
  simp only [Reg.HD_FPERIOD, Reg.HD_LEAD] at h h'
  simp only [carriedOff, Bool.or_eq_false_iff, decide_eq_false_iff_not]
  omega

theorem Dev.laid_dropCarried (h : Nat) (d : Dev) :
    d.laid h { d with regs := d.regs.filter (fun e => !(e.1 / 4096 == pgHD h && carriedOff (e.1 % 4096))) } := by
  refine ⟨rfl, rfl, rfl, fun o ho ho' => ?_⟩
  have small : o < 4096 := by simp only [Reg.HD_LEAD] at ho'; omega
  have kept : ∀ v : Word, (fun e : Nat × Word => !(e.1 / 4096 == pgHD h && carriedOff (e.1 % 4096))) (regKey (pgHD h) o, v) = true :=
    fun _ => by
      have word : regKey (pgHD h) o % 4096 = o := by simp only [regKey]; omega
      simp [word, not_carriedOff_timing ho ho']
  rw [Dev.rd, Dev.rd, spGet, spGet, spFind_filter _ _ _ kept]

theorem Dev.laid_carriedWord (h : Nat) (d : Dev) {o : Nat} (v : Word) (ho : carriedOff o = true) : d.laid h (d.wr (pgHD h) o v) :=
  ⟨rfl, rfl, rfl, fun q hq hq' => Dev.rd_wr_off _ _ _ _ _ (fun hc => by
    rw [← hc, not_carriedOff_timing hq hq'] at ho
    exact absurd ho (by decide))⟩

theorem Dev.laid_forL {α : Type} (h : Nat) (l : List α) (f : α → Dev → Dev) (hf : ∀ x ∈ l, ∀ e, Dev.laid h e (f x e)) (d : Dev) :
    d.laid h (forL l f d) := by
  unfold forL
  induction l generalizing d with
  | nil => exact d.laid_refl h
  | cons a l ih => exact (hf a (by simp) d).trans (ih (fun x hx => hf x (by simp [hx])) _)

theorem Dev.laid_layIn (d : Dev) (h : Nat) (c : Carried) : d.laid h (d.layIn h c) := by
  have bytes : ∀ (x : Nat × List Byte) (e : Dev), e.laid h (match e.bar2 h x.1 with
      | some a => e.store a x.2
      | none => e) := fun x e => by
    split
    · exact e.laid_store h _ _
    · exact e.laid_refl h
  unfold Dev.layIn
  generalize d.alloc h = al
  obtain ⟨db, ds, gb, gs⟩ := al
  dsimp -zeta only
  extract_lets cleared written dropped carried
  have h₁ : d.laid h written := Dev.laid.trans (b := cleared) (Dev.laid_of_regs rfl rfl rfl rfl)
    (Dev.laid_forL h _ _ (fun x _ e => bytes x e) _)
  have h₂ : d.laid h dropped := h₁.trans (written.laid_dropCarried h)
  clear_value cleared written dropped
  have h₃ : d.laid h carried := by
    refine h₂.trans (Dev.laid_forL h _ _ ?_ _)
    exact fun x hx e => e.laid_carriedWord h x.2 (List.mem_filter.1 hx).2
  refine h₃.trans (Dev.laid_forL h _ _ ?_ _)
  exact fun _ _ _ => Dev.laid_of_regs rfl rfl rfl rfl

section Laid
variable {h : Nat} {d t : Dev} (r : d.laid h t)
include r

theorem Dev.laid.fperiod : t.fperiod h = d.fperiod h := congrArg BitVec.toNat (r.words _ (by decide) (by decide))

theorem Dev.laid.origin : t.origin h = d.origin h := by
  rw [Dev.origin, Dev.origin, Dev.rd64, Dev.rd64, Dev.rdN, Dev.rdN, r.words _ (by decide) (by decide),
    r.words _ (by decide) (by decide)]
  rfl

theorem Dev.laid.cutFrame : t.cutFrame h = d.cutFrame h := by
  rw [Dev.cutFrame, Dev.cutFrame, Dev.ft, Dev.ft, r.clock, r.origin, r.fperiod]

theorem Dev.laid.startFt (f : Nat) : t.startFt h f = d.startFt h f := by
  rw [Dev.startFt, Dev.startFt, r.origin, r.fperiod]

end Laid

end Sys2Proof.Machine
end

/-! PROOFS. The steps of a migration (R409 to R412). -/
section
namespace Sys2Proof.Machine

/-! ### Failure -/

/-- The slot's migration has failed with the code. -/
def Dev.migFailed (slot code : Nat) (d : Dev) : Prop := (d.mig slot).st = .failed ∧ (d.mig slot).result = code

theorem Dev.migFailed.of_mig {slot code : Nat} {d t : Dev} (h : d.migFailed slot code) (ht : t.mig slot = d.mig slot) :
    t.migFailed slot code := by
  rw [Dev.migFailed, ht]
  exact h

theorem Dev.migFailed.msg {slot code : Nat} {d : Dev} (h : d.migFailed slot code) (cls dst kind : Nat) (args : List Nat) :
    (d.msg cls dst kind args).migFailed slot code := h.of_mig ((d.sent_msg cls dst kind args).mig slot)

theorem Dev.mig_drainCheck (d : Dev) (was : Bool) (k : Nat) : (d.drainCheck was).mig k = d.mig k := by
  unfold Dev.drainCheck
  split <;> rfl

theorem Dev.mig_finish (d : Dev) (old : List Host.Cell) (k : Nat) : (d.finish old).mig k = d.mig k := rfl

theorem Dev.failOut_failed (d : Dev) (k code : Nat) : (d.failOut k code).migFailed k code := by
  unfold Dev.failOut Dev.migFailed
  extract_lets m was e
  rw [Dev.mig_drainCheck, Dev.mig_onMig]
  exact ⟨rfl, rfl⟩

theorem Dev.failIn_failed {d : Dev} {k : Nat} (h : (d.mig k).active = true) (code : Nat) : (d.failIn k code).migFailed k code := by
  unfold Dev.failIn Dev.migFailed
  extract_lets m e
  rw [if_neg (by rw [h]; decide), Dev.mig_onMig]
  exact ⟨rfl, rfl⟩

/-- The failure of one slot leaves every other slot's migration. -/
theorem Dev.failIn_mig_ne (d : Dev) {k j : Nat} (code : Nat) (h : j ≠ k) : (d.failIn k code).mig j = d.mig j := by
  unfold Dev.failIn
  extract_lets m e
  split
  · rfl
  · rw [Dev.mig_onMig_ne _ _ h]
    exact Dev.mig_of_fab ((d.fabKept_leaveRun m.vb).trans (Dev.fabKept_onHead _ _ _)) j

theorem Mig.active_cutover {m : Mig} (h : m.st = .cutover) : m.active = true := by rw [Mig.active, h]; rfl

theorem Mig.active_precopy {m : Mig} (h : m.st = .precopy) : m.active = true := by rw [Mig.active, h]; rfl

/-! ### RESERVE at chip A -/

/-- The chip that START asks. -/
def Mig.startChip (m : Mig) : Nat := ({ m with goSrc := m.src, goDst := m.dst } : Mig).chipB

section Start
variable {d : Dev} {k : Nat} (auto : Bool) (hk : d.migSel = k) (hlt : k < 8) (hrun : (d.mig k).active = false)
  (hfwd : (d.mig k).forwarding = false) (hcon : d.console ((d.mig k).src.toNat % 128) ≠ 0)
include hk hlt hrun hfwd hcon

/-- Nothing keeps START from its slot. -/
theorem Dev.migStart_idle : ¬(8 ≤ d.migSel ∨ (d.mig d.migSel).active ∨ (d.mig d.migSel).forwarding
    ∨ d.console ((d.mig d.migSel).src.toNat % 128) = 0) := by
  subst hk
  rw [hrun, hfwd]
  rintro (h | h | h | h)
  · omega
  · exact absurd h (by decide)
  · exact absurd h (by decide)
  · exact hcon h

theorem Dev.migStart_refused (h : d.startCode (d.mig k).startChip ≠ 0) :
    (d.migStart auto).migFailed k (d.startCode (d.mig k).startChip) := by
  have idle := Dev.migStart_idle hk hlt hrun hfwd hcon
  subst hk
  unfold Dev.migStart
  extract_lets k m va m' code _ e
  rw [if_neg idle, if_pos (show code ≠ 0 from h)]
  exact e.failOut_failed _ _

theorem Dev.migStart_reserves (h : d.startCode (d.mig k).startChip = 0) : ((d.migStart auto).mig k).st = .reserve
    ∧ ((d.migStart auto).mig k).name = BitVec.ofNat 64 (d.console ((d.mig k).src.toNat % 128))
    ∧ ((d.migStart auto).mig k).auto = auto := by
  have idle := Dev.migStart_idle hk hlt hrun hfwd hcon
  subst hk
  unfold Dev.migStart
  extract_lets k m va m' code _ e
  rw [if_neg idle, if_neg (not_not.2 (show code = 0 from h))]
  split
  rw [(e.sent_msg _ _ _ _).mig, Dev.mig_onMig]
  exact ⟨rfl, rfl, rfl⟩

end Start

theorem Dev.reserve_answer_granted {d : Dev} {k : Fin 8} {code : Nat} (hst : (d.mig k).st = .reserve) (h : code = 0) :
    d.reserve (.answer k code) = d.onMig k (fun m => { m with st := .precopy }) := (if_neg (not_not.2 hst)).trans (if_pos h)

theorem Dev.reserve_answer_refused {d : Dev} {k : Fin 8} {code : Nat} (hst : (d.mig k).st = .reserve) (h : code ≠ 0) :
    d.reserve (.answer k code) = d.failOut k code := (if_neg (not_not.2 hst)).trans (if_neg h)

/-! ### RESERVE at chip B -/

theorem Dev.begin_takeTiming (d : Dev) (vb : Nat) (ht vt fp : Word) (origin : Nat) :
    d.begin.takeTiming vb ht vt fp origin = (d.takeTiming vb ht vt fp origin).begin := rfl

theorem Dev.begin_reserveCode (d : Dev) (vb dram glyph need : Nat) (here al : Bool) :
    d.begin.reserveCode vb dram glyph need here al = d.reserveCode vb dram glyph need here al := rfl

/-- The timing that a head takes is read from its word. -/
theorem Dev.takeTiming_htime (d : Dev) (vb : Nat) (ht vt fp : Word) (origin : Nat) :
    (d.takeTiming vb ht vt fp origin).rd (pgHD vb) Reg.HD_HTIME = ht := by
  rw [Dev.takeTiming, Dev.wr64_rd_else _ _ (by decide) (by decide) (fun hc => absurd hc.2 (by decide)),
    Dev.rd_wr_off _ _ _ _ _ (by decide), Dev.rd_wr_off _ _ _ _ _ (by decide), Dev.rd_wr_same]

/-- A head that enters its run keeps its timing. -/
theorem Dev.enterRun_htime (d : Dev) (h origin first : Nat) :
    (d.enterRun h origin first).rd (pgHD h) Reg.HD_HTIME = d.rd (pgHD h) Reg.HD_HTIME := by
  obtain ⟨x, heq, _⟩ := d.enterRun_eq _ h origin first rfl
  rw [heq, Dev.setHead_rd, Dev.runWords_rd_else _ _ _ (by decide) (fun hc => absurd hc.2 (by decide))]
  exact d.takeTokens_regs h _ _ _ _ (by decide) (by simp only [pgHD, pgCOMPOSE, pgLEAD]; omega)

/-- The first incoming slot that nothing runs in. -/
def Dev.inFree (d : Dev) : Option Nat := ((List.range 8).map (fun i => 8 + i)).find? (fun i => !(d.mig i).active)

/-- The code that chip B answers a request with. -/
def Dev.askCode (d : Dev) (a : BitVec 12) (vb : VHead) (ht vt fp : Word) (origin : DWord) (dram glyph n : Nat) (al : Bool) : Nat :=
  (d.takeTiming vb ht vt fp origin.toNat).reserveCode vb dram glyph n (decide (a.toNat = d.myAddr)) al

section Ask
variable {d : Dev} (k : Fin 8) (a : BitVec 12) (va vb : VHead) (name : DWord) (ht vt fp : Word) (origin : DWord) (dram glyph n : Nat)
  (al : Bool) {slot : Nat} (hfree : d.inFree = some slot)
include hfree

theorem Dev.reserve_ask_refuses (h : d.askCode a vb ht vt fp origin dram glyph n al ≠ 0) :
    d.reserve (.ask k a va vb name ht vt fp origin dram glyph n al)
      = d.msg 3 a.toNat msgReserved [k, d.askCode a vb ht vt fp origin dram glyph n al] := by
  unfold Dev.inFree at hfree
  simp only [Dev.reserve, hfree]
  exact if_pos h

theorem Dev.reserve_ask_eq (h : d.askCode a vb ht vt fp origin dram glyph n al = 0) : ∃ slots,
    d.reserve (.ask k a va vb name ht vt fp origin dram glyph n al)
      = ((((d.takeTiming vb ht vt fp origin.toNat).enterRun vb origin.toNat 0).onHead vb (fun x => { x with reserved := 1 })).onMig
        slot (fun _ => { ({} : Mig) with st := .precopy, peer := a.toNat, peerSlot := k, va := va, vb := vb, name := name,
                                         slots := slots })).msg 3 a.toNat msgReserved [k, 0] := by
  unfold Dev.inFree at hfree
  simp only [Dev.reserve, hfree]
  exact ⟨_, if_neg (not_not.2 h)⟩

theorem Dev.reserve_ask_takes {t : Dev} (h : d.askCode a vb ht vt fp origin dram glyph n al = 0)
    (hans : t = d.reserve (.ask k a va vb name ht vt fp origin dram glyph n al)) :
    (t.mig slot).st = .precopy ∧ (t.mig slot).name = name ∧ (t.mig slot).vb = vb.val ∧ (t.head vb).reserved = 1
      ∧ (t.head vb).adm = .waiting ∧ t.rd (pgHD vb) Reg.HD_HTIME = ht := by
  have timing := d.takeTiming_htime vb ht vt fp origin.toNat
  obtain ⟨slots, heq⟩ := Dev.reserve_ask_eq k a va vb name ht vt fp origin dram glyph n al hfree h
  rw [heq] at hans
  generalize d.takeTiming vb ht vt fp origin.toNat = e at timing hans
  have adm := (e.enterRun_entered vb origin.toNat 0).1.adm
  have word := (e.enterRun_htime vb origin.toNat 0).trans timing
  generalize e.enterRun vb origin.toNat 0 = run at adm word hans
  have head := run.head_setHead vb { run.head vb with reserved := 1 }
  have sent := hans ▸ Dev.sent_msg _ _ _ _ _
  rw [sent.mig, sent.head, sent.regs _ _ (by decide) (not_sendWord_head (.inl (by decide))), Dev.mig_onMig]
  exact ⟨rfl, rfl, rfl, congrArg HeadSt.reserved head, (congrArg HeadSt.adm head).trans adm, word⟩

end Ask

/-! ### PRECOPY and FREEZE -/

/-- What the end of a round leaves in a slot. -/
def Dev.roundEnded (d : Dev) (m : Mig) : Mig := { m with
  round := (m.round + 1) % 256, dirtyKiB := 4 * m.dirty.length, dirty := []
  st := if decide (4 * m.dirty.length ≤ d.rdN pgFAB Reg.MIG_DIRTY_LIM) || m.st == .converged then .converged else .precopy }

theorem Dev.precopyRound_eq {d : Dev} {k : Nat} (hst : (d.mig k).st = .precopy) (hauto : (d.mig k).auto = false) :
    d.precopyRound k = (d.onMig k (fun _ => d.roundEnded (d.mig k))).msg 3 (d.mig k).chipB msgRound [k, (d.mig k).round + 1] := by
  refine (if_neg (not_not.2 (.inl hst))).trans (if_neg ?_)
  rw [hauto, Bool.and_false]
  decide

theorem Dev.precopyRound_mig {d : Dev} {k : Nat} (hst : (d.mig k).st = .precopy) (hauto : (d.mig k).auto = false) :
    (d.precopyRound k).mig k = d.roundEnded (d.mig k) := by
  rw [Dev.precopyRound_eq hst hauto, (Dev.sent_msg _ _ _ _ _).mig, Dev.mig_onMig]

theorem Dev.roundEnded_st {d : Dev} {m : Mig} (hst : m.st = .precopy) :
    (d.roundEnded m).st = if 4 * m.dirty.length ≤ d.rdN pgFAB Reg.MIG_DIRTY_LIM then .converged else .precopy := by
  simp [Dev.roundEnded, hst]

/-- FREEZE detaches the head and carries its state as of its commit. -/
theorem Dev.freeze_carries (d : Dev) (k : Nat) : let t := d.freeze k
    (t.mig k).st = .cutover ∧ (t.mig k).carried.isSome = true ∧ t.rdB (pgHD (d.mig k).vaOf) Reg.HD_MODE 3 = true
      ∧ (t.mig k).s1 = t.ft := by
  unfold Dev.freeze
  extract_lets m va a b c t
  obtain ⟨fab, clock, detached⟩ := a.setDetached_frame (Nat.mod_lt _ (by decide) : va < 128) true
  have told : (a.setDetached va true).sent sendWord b := Dev.sent_tellHome _ _ _ _ _
  have sent : (b.onMig k (fun m => { m with carried := some c })).sent sendWord t := Dev.sent_msg _ _ _ _ _
  have mode : ¬sendWord (pgHD va) Reg.HD_MODE := not_sendWord_head (.inl (by decide))
  have last : t.mig k = { b.mig k with carried := some c } := (sent.mig k).trans (b.mig_onMig k _)
  have first : b.mig k = a.mig k := (told.mig k).trans (Dev.mig_of_fab fab k)
  have frozen : (a.mig k).st = .cutover ∧ (a.mig k).s1 = d.ft := by
    rw [show a = d.onMig k _ from rfl, Dev.mig_onMig]
    exact ⟨rfl, rfl⟩
  have time : t.ft = d.ft := congrArg Clock.ft (sent.clock.trans (told.clock.trans clock))
  have word := (sent.regs _ _ (by decide) mode).trans (told.regs _ _ (by decide) mode)
  rw [last, first, time]
  exact ⟨frozen.1, rfl, (congrArg (bit · 3) word).trans detached, frozen.2⟩

theorem Dev.migCutover_freezes {d : Dev} {k : Nat} (hk : d.migSel = k) (hlt : k < 8) (hst : (d.mig k).st = .converged) :
    d.migCutover = d.freeze k := by
  subst hk
  exact if_pos ⟨hst, hlt⟩

/-! ### SCHEDULE -/

/-- A copy in time: chip B schedules the cut-over at frame f of head vb. -/
def Dev.scheduled (d : Dev) (k : Nat) (c : Carried) (vb f : Nat) : Dev :=
  (d.onMig k (fun m => { m with st := .cutover, frame := f, s1 := c.s1, carried := some c })).onHead vb (fun x =>
    { x with reserved := 2, first := f, next := (f, 0), high := (f, 0), fin := (f, 0) })

theorem Dev.scheduled_head (d : Dev) (k : Nat) (c : Carried) (vb f : Nat) :
    ((d.scheduled k c vb f).head vb).first = f ∧ ((d.scheduled k c vb f).head vb).reserved = 2 := by
  rw [Dev.scheduled, Dev.onHead, Dev.head_setHead]
  exact ⟨rfl, rfl⟩

theorem Dev.scheduled_mig (d : Dev) (k : Nat) (c : Carried) (vb f : Nat) :
    ((d.scheduled k c vb f).mig k).st = .cutover ∧ ((d.scheduled k c vb f).mig k).frame = f := by
  rw [Dev.scheduled, Dev.mig_of_fab (Dev.fabKept_onHead _ _ _), Dev.mig_onMig]
  exact ⟨rfl, rfl⟩

section Copy
variable {d : Dev} {k : Nat} {c : Carried} (hst : (d.mig k).st = .precopy) (hpeer : (d.mig k).peer ≠ d.myAddr)
include hst hpeer

theorem Dev.copyComplete_eq : d.copyComplete k (some c) =
    let m := d.mig k
    let e := d.layIn m.vb c
    let f := d.cutFrame m.vb
    if c.s1 + 2 * d.fperiod m.vb < d.startFt m.vb f then (e.failIn k 7).msg 3 m.peer msgAbort [m.peerSlot, 7]
    else (e.scheduled k c m.vb f).msg 3 m.peer msgSchedule [m.peerSlot, f] := by
  have laid := d.laid_layIn (d.mig k).vb c
  simp only [Dev.copyComplete, if_neg hpeer, hst, laid.cutFrame, laid.fperiod, laid.startFt, Dev.scheduled]

theorem Dev.copyComplete_inTime (h : d.startFt (d.mig k).vb (d.cutFrame (d.mig k).vb) ≤ c.s1 + 2 * d.fperiod (d.mig k).vb) :
    ((d.copyComplete k (some c)).mig k).st = .cutover
      ∧ ((d.copyComplete k (some c)).mig k).frame = d.cutFrame (d.mig k).vb
      ∧ ((d.copyComplete k (some c)).head (d.mig k).vb).first = d.cutFrame (d.mig k).vb
      ∧ ((d.copyComplete k (some c)).head (d.mig k).vb).reserved = 2 := by
  have eq := Dev.copyComplete_eq (c := c) hst hpeer
  extract_lets m e f at eq
  rw [if_neg (Nat.not_lt.2 h)] at eq
  obtain ⟨first, reserved⟩ := e.scheduled_head k c m.vb f
  have sent := (e.scheduled k c m.vb f).sent_msg 3 m.peer msgSchedule [m.peerSlot, f]
  obtain ⟨st, frame⟩ := e.scheduled_mig k c m.vb f
  rw [eq, sent.mig, sent.head]
  exact ⟨st, frame, first, reserved⟩

theorem Dev.copyComplete_late (h : c.s1 + 2 * d.fperiod (d.mig k).vb < d.startFt (d.mig k).vb (d.cutFrame (d.mig k).vb)) :
    (d.copyComplete k (some c)).migFailed k 7 := by
  have laid := d.laid_layIn (d.mig k).vb c
  rw [Dev.copyComplete_eq hst hpeer]
  extract_lets m e f
  rw [if_pos h]
  have active : (e.mig k).active = true := by
    rw [Dev.mig_of_fab laid.fab]
    exact Mig.active_precopy hst
  exact (Dev.failIn_failed active 7).msg _ _ _ _

end Copy

theorem Dev.scheduleAck_schedule {d : Dev} {k : Nat} (hst : (d.mig k).st = .cutover) (f : DWord)
    (slots : List (Sess × BitVec 16)) :
    ((d.scheduleAck k (.schedule f slots)).mig k).acked = true
      ∧ ((d.scheduleAck k (.schedule f slots)).mig k).frame = f.toNat := by
  rw [Dev.scheduleAck, if_neg (not_not.2 hst), (Dev.sent_msg _ _ _ _ _).mig, Dev.mig_onMig]
  exact ⟨rfl, rfl⟩

theorem Dev.scheduleAck_acknowledged {d : Dev} {k : Nat} (hst : (d.mig (8 + k)).st = .cutover)
    (h : d.ft + 0x400000 ≤ d.startFt (d.mig (8 + k)).vb (d.mig (8 + k)).frame) :
    d.scheduleAck k .acknowledged = d.onMig (8 + k) (fun m => { m with acked := true }) := if_pos ⟨hst, h⟩

/-! ### CUT-OVER at chip A -/

/-- What stops at chip A: the head is OFF and has no name. -/
def Dev.stopped (va : Nat) (d : Dev) : Prop := (d.head va).adm = .off ∧ d.nameState va = 0

theorem Dev.nameState_setNameState (d : Dev) (h : Nat) {st : Nat} (hst : st < 4) (refuse : Nat) :
    (d.setNameState h st refuse).nameState h = st := by
  rw [Dev.nameState, Dev.setNameState, Dev.rdF, Dev.wrF, Dev.rd_wr_same,
    field_putField_other _ _ _ _ _ _ (by decide) (by decide) (by decide), Dev.wrF, Dev.rd_wr_same,
    field_putField _ _ _ _ (by decide) (by decide)]
  omega

theorem Dev.aside.nameState {d t : Dev} (h : d.aside t) (k : Nat) : t.nameState k = d.nameState k := by
  rw [Dev.nameState, Dev.nameState, Dev.rdF, Dev.rdF, h.word k (by decide) (.inr (by decide))]

theorem Dev.stopped.aside {va : Nat} {d t : Dev} (hs : d.stopped va) (h : d.aside t) : t.stopped va := by
  rw [Dev.stopped, h.head, h.nameState]
  exact hs

theorem Dev.stopped.moved {va : Nat} {d : Dev} (hs : d.stopped va) (h : Nat) (v : Option (Nat × Nat × Nat × List (Nat × Nat))) :
    (d.onHead h (fun x => { x with moved := v })).stopped va := by
  refine ⟨?_, hs.2⟩
  by_cases hv : va = h
  · subst hv
    rw [Dev.onHead, Dev.head_setHead]
    exact hs.1
  · rw [Dev.onHead, Dev.head_setHead_ne _ _ _ _ hv]
    exact hs.1

theorem Dev.stopped.movedDue {va : Nat} {d : Dev} (hs : d.stopped va) (h : Nat) : (d.movedDue h).stopped va :=
  (d.movedDue_aside h).elim hs.aside (hs.moved h none).aside

theorem Dev.clearName_stopped {d : Dev} {va : Nat} (h : (d.head va).adm = .off) : (d.clearName va).stopped va :=
  ⟨h, Dev.nameState_setNameState _ va (by decide) 0⟩

theorem Dev.drainCheck_frame (d : Dev) (was : Bool) : (d.drainCheck was).heads = d.heads
    ∧ ∀ p o, o < 4096 → p ≠ pgSYS → (d.drainCheck was).rd p o = d.rd p o := by
  unfold Dev.drainCheck
  split
  · exact ⟨rfl, fun p o ho hp => Dev.irq_rd_else _ _ hp ho⟩
  · exact ⟨rfl, fun _ _ _ _ => rfl⟩

/-- A migration done is announced in the fabric's page, and what stopped stays so. -/
theorem Dev.stopped.announced {va : Nat} {d : Dev} (hs : d.stopped va) (was : Bool) :
    ((d.irq pgFAB 6).drainCheck was).stopped va ∧ ((d.irq pgFAB 6).drainCheck was).rdB pgFAB Reg.IRQ_STAT 6 = true := by
  obtain ⟨heads, regs⟩ := (d.irq pgFAB 6).drainCheck_frame was
  have stat : (d.irq pgFAB 6).rd (pgHD va) Reg.HB_STAT = d.rd (pgHD va) Reg.HB_STAT :=
    Dev.irq_stat_else _ _ _ _ _ (by decide) (by decide)
  refine ⟨⟨?_, ?_⟩, ?_⟩
  · rw [Dev.head, heads]
    exact hs.1
  · rw [Dev.nameState, Dev.rdF, regs _ _ (by decide) (by simp only [pgHD, pgSYS]; omega), stat]
    exact hs.2
  · rw [Dev.rdB, regs _ _ (by decide) (by decide)]
    exact d.irq_rdB_same pgFAB 6 (by decide)

/-- Input that waits at a head goes where the console went; no head changes. -/
theorem Dev.forwardInput_heads (d : Dev) (evs : List InputMsg) (here : Bool) (vb chip name : Nat) :
    (forL evs (fun e d =>
      let e := { e with origin := 3 }
      if here then d.enqueueEvent vb e else d.sendInput chip name e) d).heads = d.heads := by
  refine Dev.forL_heads _ _ (fun x e => ?_) d
  dsimp only
  split
  · exact e.enqueueEvent_heads vb _
  · exact (e.sent_msgItem _ _ _ _ _ _).heads

section CutOut
variable {d : Dev} {k : Nat} (hst : (d.mig k).st = .cutover) (hack : (d.mig k).acked = true)
include hst hack

theorem Dev.cutOut_waits (hlive : d.live (d.mig k).vaOf = true)
    (hlast : (d.head (d.mig k).vaOf).last.map (fun f => f + 1) ≠ some (d.mig k).frame) : d.cutOut k = d.reply .waits := by
  refine (if_neg ?_).trans (if_pos ⟨hlive, hlast⟩)
  rw [hack]
  simp [hst]

theorem Dev.cutOut_done (hlast : d.live (d.mig k).vaOf = false
      ∨ (d.head (d.mig k).vaOf).last.map (fun f => f + 1) = some (d.mig k).frame) :
    ((d.cutOut k).mig k).st = .done ∧ ((d.cutOut k).mig k).result = 1 ∧ ((d.cutOut k).mig k).forwarding = true
      ∧ (d.cutOut k).stopped (d.mig k).vaOf ∧ (d.cutOut k).rdB pgFAB Reg.IRQ_STAT 6 = true := by
  unfold Dev.cutOut
  extract_lets m va name at_ was held gone views left
  rw [if_neg (by rw [show m.acked = true from hack]; simp [show m.st = .cutover from hst]),
    if_neg (fun h => hlast.elim (fun hl => absurd (hl.symm.trans h.1) (by decide)) h.2)]
  have off : (left.head va).adm = .off := (at_.leaveRun_over va).1
  have taken := left.takePending_heads va
  generalize left.takePending va = p at taken ⊢
  obtain ⟨e, evs⟩ := p
  dsimp -zeta only at taken ⊢
  extract_lets here sent unnamed counted told handed moved done
  clear_value left was held gone views here
  have forwarded : sent.heads = e.heads := e.forwardInput_heads evs here m.vbOf m.chipB name
  have h₁ : unnamed.stopped va := Dev.clearName_stopped (by rw [Dev.head, forwarded, taken]; exact off)
  clear_value unnamed sent
  have h₂ : counted.stopped va := h₁.aside (Dev.aside_ite (Dev.aside_refl _) (Dev.aside_onFab _ _))
  clear_value counted
  have h₃ : told.stopped va := h₂.aside (counted.sent_tellHome _ _ _ _).aside
  clear_value told
  have h₄ : handed.stopped va := h₃.aside (Dev.aside_ite (Dev.aside_refl _) (told.aside_handControl _ _))
  clear_value handed
  have h₅ : moved.stopped va := (h₄.moved va _).movedDue va
  clear_value moved
  obtain ⟨stopped, raised⟩ := Dev.stopped.announced (d := done) (h₅.aside (moved.aside_onFab _)) was
  have mig : ((done.irq pgFAB 6).drainCheck was).mig k = done.mig k := Dev.mig_drainCheck _ _ _
  rw [mig, show done = moved.onMig k _ from rfl, Dev.mig_onMig]
  exact ⟨rfl, rfl, rfl, stopped, raised⟩

end CutOut

/-! ### CUT-OVER at chip B -/

/-- The head serves the console, and nothing reserves it. -/
def Dev.serves (vb name : Nat) (d : Dev) : Prop := d.nameState vb = 2 ∧ d.nameOf vb = name ∧ (d.head vb).reserved = 0

theorem Dev.serves.aside {vb name : Nat} {d t : Dev} (hs : d.serves vb name) (h : d.aside t) : t.serves vb name := by
  have lo := h.word vb (o := Reg.HB_NAME_LO) (by decide) (.inr (by decide))
  have hi := h.word vb (o := Reg.HB_NAME_LO + 4) (by decide) (.inr (by decide))
  rw [Dev.serves, h.nameState, h.head, Dev.nameOf, Dev.rd64, Dev.rdN, Dev.rdN, lo, hi]
  exact hs

/-- A name given to a head that is no longer reserved. -/
theorem Dev.named_serves (d : Dev) (vb : Nat) {name : Nat} (hn : name < 2 ^ 64) :
    (((d.wr64 (pgHD vb) Reg.HB_NAME_LO name).setNameState vb 2 0).onHead vb (fun x => { x with reserved := 0 })).serves vb name := by
  have stored : (d.wr64 (pgHD vb) Reg.HB_NAME_LO name).nameOf vb = name := by
    rw [Dev.nameOf, Dev.rd64_wr64, Nat.mod_eq_of_lt hn]
  generalize d.wr64 (pgHD vb) Reg.HB_NAME_LO name = e at stored ⊢
  have kept : ∀ o, o < 4096 → o ≠ Reg.HB_STAT → (e.setNameState vb 2 0).rd (pgHD vb) o = e.rd (pgHD vb) o := fun o ho hne =>
    (Dev.rd_wr_off _ _ _ _ _ hne).trans (Dev.rd_wr_off _ _ _ _ _ hne)
  refine ⟨e.nameState_setNameState vb (by decide) 0, ?_, ?_⟩
  · rw [Dev.nameOf, Dev.rd64, Dev.rdN, Dev.rdN, Dev.onHead, Dev.setHead_rd, Dev.setHead_rd, kept _ (by decide) (by decide),
      kept _ (by decide) (by decide)]
    exact stored
  · rw [Dev.onHead, Dev.head_setHead]

theorem Dev.serves.raised {vb name : Nat} {d : Dev} (hs : d.serves vb name) (n : Nat) : (d.irq pgFAB n).serves vb name := by
  have kept : ∀ o, o < 4096 → o ≠ Reg.IRQ_STAT → (d.irq pgFAB n).rd (pgHD vb) o = d.rd (pgHD vb) o :=
    fun o ho hne => Dev.irq_stat_else _ _ _ _ _ ho hne
  rw [Dev.serves, Dev.nameState, Dev.rdF, Dev.nameOf, Dev.rd64, Dev.rdN, Dev.rdN, kept _ (by decide) (by decide),
    kept _ (by decide) (by decide), kept _ (by decide) (by decide)]
  exact hs

theorem Dev.cutIn_done {d : Dev} {k : Nat} (hst : (d.mig k).st = .cutover) (hack : (d.mig k).acked = true) :
    ((d.cutIn k).mig k).st = .done ∧ (d.cutIn k).serves (d.mig k).vb (d.mig k).name.toNat
      ∧ (d.cutIn k).rdB pgFAB Reg.IRQ_STAT 6 = true := by
  unfold Dev.cutIn
  extract_lets m vb at_ name c named here counted seated told
  rw [if_neg (by rw [show m.acked = true from hack]; simp [show m.st = .cutover from hst])]
  have h₁ : named.serves vb name := at_.named_serves vb m.name.isLt
  clear_value named
  have h₂ : counted.serves vb name := by
    refine h₁.aside (Dev.aside_ite (Dev.aside_refl _) ?_)
    split
    · refine Dev.aside.trans ?_ (Dev.aside_onFab _ _)
      exact Dev.aside_of_regs rfl rfl
    · exact named.aside_onFab _
  clear_value counted
  have h₃ : seated.serves vb name :=
    h₂.aside (Dev.aside_ite (Dev.aside_refl _) (Dev.aside_forL _ _ (fun v e => e.aside_seatViewer k vb v) _))
  clear_value seated
  have h₄ : told.serves vb name := h₃.aside (seated.sent_tellHome _ _ _ _).aside
  clear_value told
  have done := Dev.mig_onMig told k (fun m => { m with st := .done, result := 1, slots := [], carried := none })
  refine ⟨congrArg Mig.st done, (h₄.aside (told.aside_onFab _)).raised 6, Dev.irq_rdB_same _ pgFAB 6 (by decide)⟩

/-! ### After the cut-over, and ABORT -/

theorem Dev.forwardEnd_eq {d : Dev} {k : Nat} (h : (d.mig k).forwarding = true) : ∃ n c, d.forwardEnd k
    = Dev.onMig { d with setNow := n, clock := c } k (fun m => { m with forwarding := false }) := by
  obtain ⟨n, c, heq⟩ := d.toFt_eq ((d.mig k).cutAt + 0x80000000)
  simp only [Dev.forwardEnd, h, heq]
  exact ⟨n, c, rfl⟩

theorem Dev.inSlot_incoming {d : Dev} {peer k i : Nat} (h : d.inSlot peer k = some i) : 8 ≤ i := by
  obtain ⟨j, _, rfl⟩ := List.mem_map.1 (List.mem_of_find?_eq_some h)
  omega

theorem Dev.migAbort_failed {d : Dev} {k : Nat} (hk : d.migSel = k) (hlt : k < 8) (hrun : (d.mig k).active = true) :
    d.migAbort.migFailed k 9 := by
  have out : ((d.failOut k 9).msg 3 (d.mig k).chipB msgAbort [k, 9]).migFailed k 9 := (d.failOut_failed k 9).msg _ _ _ _
  simp only [Dev.migAbort, hk]
  generalize (d.failOut k 9).msg 3 (d.mig k).chipB msgAbort [k, 9] = failed at out ⊢
  rw [if_neg (by rw [hrun]; simp; exact hlt)]
  split
  · split
    · next i hi => exact out.of_mig (failed.failIn_mig_ne 9 (by have := Dev.inSlot_incoming hi; omega))
    · exact out
  · exact out

theorem Dev.ackDeadline_failed {d : Dev} {k : Nat} (hst : (d.mig k).st = .cutover) (hack : (d.mig k).acked = false) :
    (d.ackDeadline k).migFailed k 8 := by
  have active := Mig.active_cutover hst
  unfold Dev.ackDeadline
  extract_lets m
  rw [if_neg (by rw [show m.acked = false from hack]; simp [show m.st = .cutover from hst])]
  generalize d.startFt m.vb m.frame - 0x400000 = x
  obtain ⟨n, c, heq⟩ := d.toFt_eq x
  rw [heq]
  exact (Dev.failIn_failed (d := { d with setNow := n, clock := c }) active 8).msg _ _ _ _

theorem Dev.abortReceived_running {d : Dev} {k : Nat} (h : (d.mig k).active = true) : d.abortReceived k false = d.failOut k 8 :=
  (if_neg Bool.false_ne_true).trans (if_pos h)

/-! ### Every step -/

theorem Dev.migFailed.finish {slot code : Nat} {d : Dev} (h : d.migFailed slot code) (old : List Host.Cell) :
    (d.finish old).migFailed slot code := h.of_mig (d.mig_finish old slot)

/-- Settles O21, step by step: each equation of a step says what its slot and its head hold, and what is sent leaves both. -/
theorem migration : Obligations.Migration := by
  unfold Obligations.Migration
  intro r k s hs hr
  obtain ⟨_, hw⟩ := hs
  extract_lets d m i failed chip
  have hk := k.isLt
  have same : ∀ {e : Dev}, e.wlog = [] → d.sameMem (e.finish d.mem) := fun he => Dev.sameMem_finish d _ hw he
  refine ⟨fun auto hsel hrun hfwd hcon => ⟨fun h0 => ?_, fun h0 => ?_⟩,
    fun code hst => ⟨fun h0 => ?_, fun h0 => ?_⟩,
    fun a va vb name ht vt fp origin dram glyph n al slot => ?_,
    fun hst hauto => ?_, fun hsel hst => ?_,
    fun c hst hpeer => ⟨fun htime => ?_, fun hlate => ?_⟩,
    fun f slots hst => ?_, fun hst htime => ?_,
    fun hst hack hlast => ?_, fun hst hack hlive hlast => ?_, fun hst hack => ?_,
    fun hfwd => ?_, fun hsel hrun => ?_, fun hst hack => ?_, fun hrun => ?_, fun hrun => ?_⟩
  · refine does_onPage (p := pgFAB) (f := fun d => d.migStart auto) hr rfl ?_
    exact Dev.migStart_reserves (d := s.dev.begin.disarm pgFAB) auto hsel hk hrun hfwd hcon h0
  · refine does_onPage (p := pgFAB) (f := fun d => d.migStart auto) hr rfl ?_
    exact Dev.migStart_refused (d := s.dev.begin.disarm pgFAB) auto hsel hk hrun hfwd hcon h0
  · refine does_of_run _ s (fun d => d.reserve (.answer k code)) _ rfl ?_
    rw [Dev.reserve_answer_granted (d := s.dev.begin) hst h0, Dev.mig_finish, Dev.mig_onMig]
    exact ⟨rfl, fun _ _ _ _ => rfl, same rfl⟩
  · refine does_of_run _ s (fun d => d.reserve (.answer k code)) _ rfl ?_
    rw [Dev.reserve_answer_refused (d := s.dev.begin) hst h0]
    exact (s.dev.begin.failOut_failed k code).finish _
  · extract_lets code
    intro hfree
    have asked : s.dev.begin.askCode a vb ht vt fp origin dram glyph n al = code := by
      rw [Dev.askCode, Dev.begin_takeTiming, Dev.begin_reserveCode]; rfl
    refine ⟨fun h0 => ?_, fun h0 => ?_⟩
    · refine does_of_run _ s (fun d => d.reserve (.ask k a va vb name ht vt fp origin dram glyph n al)) _ rfl ?_
      have takes := Dev.reserve_ask_takes (d := s.dev.begin) k a va vb name ht vt fp origin dram glyph n al hfree (asked.trans h0) rfl
      rw [Dev.mig_finish, Dev.finish_head, Dev.finish_rd]
      exact takes
    · refine does_of_run _ s (fun d => d.reserve (.ask k a va vb name ht vt fp origin dram glyph n al)) _ rfl ?_
      rw [Dev.reserve_ask_refuses (d := s.dev.begin) k a va vb name ht vt fp origin dram glyph n al hfree (by rw [asked]; exact h0)]
      have sent := s.dev.begin.sent_msg 3 a.toNat msgReserved [k, s.dev.begin.askCode a vb ht vt fp origin dram glyph n al]
      rw [Dev.mig_finish, Dev.finish_head, Dev.finish_rd]
      exact ⟨sent.mig _, sent.head _, sent.regs _ _ (by decide) (not_sendWord_head (.inl (by decide)))⟩
  · refine does_of_run _ s (fun d => d.precopyRound k) _ rfl ?_
    rw [Dev.mig_finish, Dev.precopyRound_mig (d := s.dev.begin) hst hauto]
    exact ⟨Dev.roundEnded_st (d := s.dev.begin) hst, rfl, rfl, rfl⟩
  · refine does_onPage (p := pgFAB) (f := Dev.migCutover) hr rfl ?_
    rw [Dev.migCutover_freezes (d := s.dev.begin.disarm pgFAB) hsel hk hst]
    exact Dev.freeze_carries (s.dev.begin.disarm pgFAB) k
  · refine does_of_run _ s (fun d => d.copyComplete (8 + k) (some c)) _ rfl ?_
    exact Dev.copyComplete_inTime (d := s.dev.begin) hst hpeer htime
  · refine does_of_run _ s (fun d => d.copyComplete (8 + k) (some c)) _ rfl ?_
    exact (Dev.copyComplete_late (d := s.dev.begin) hst hpeer hlate).finish _
  · refine does_of_run _ s (fun d => d.scheduleAck k (.schedule f slots)) _ rfl ?_
    exact Dev.scheduleAck_schedule (d := s.dev.begin) hst f slots
  · refine does_of_run _ s (fun d => d.scheduleAck k .acknowledged) _ rfl ?_
    rw [Dev.scheduleAck_acknowledged (d := s.dev.begin) hst htime, Dev.mig_finish, Dev.mig_onMig]
    exact ⟨rfl, fun _ _ _ _ => rfl, same rfl⟩
  · refine does_of_run _ s (fun d => d.cutOut k) _ rfl ?_
    obtain ⟨st, result, fwd, ⟨off, named⟩, raised⟩ := Dev.cutOut_done (d := s.dev.begin) hst hack hlast
    exact ⟨st, result, fwd, off, named, raised⟩
  · refine does_of_run _ s (fun d => d.cutOut k) _ rfl ?_
    rw [Dev.cutOut_waits (d := s.dev.begin) hst hack hlive hlast]
    exact ⟨rfl, Dev.onlyRegs_finish _ d _ hw rfl (fun _ _ _ _ => rfl) rfl⟩
  · refine does_of_run _ s (fun d => d.cutIn (8 + k)) _ rfl ?_
    obtain ⟨st, ⟨bound, named, free⟩, raised⟩ := Dev.cutIn_done (d := s.dev.begin) hst hack
    exact ⟨st, bound, named, free, raised⟩
  · refine does_of_run _ s (fun d => d.forwardEnd k) _ rfl ?_
    obtain ⟨n, c, heq⟩ := Dev.forwardEnd_eq (d := s.dev.begin) hfwd
    rw [heq, Dev.mig_finish, Dev.mig_onMig]
    exact ⟨rfl, fun _ _ _ _ => rfl, same rfl⟩
  · refine does_onPage (p := pgFAB) (f := Dev.migAbort) hr rfl ?_
    exact (Dev.migAbort_failed (d := s.dev.begin.disarm pgFAB) hsel hk hrun).finish _
  · refine does_of_run _ s (fun d => d.ackDeadline (8 + k)) _ rfl ?_
    exact (Dev.ackDeadline_failed (d := s.dev.begin) hst hack).finish _
  · refine does_of_run _ s (fun d => d.abortReceived k true) _ rfl ?_
    exact (Dev.failIn_failed (d := s.dev.begin) hrun 9).finish _
  · refine does_of_run _ s (fun d => d.abortReceived k false) _ rfl ?_
    rw [Dev.abortReceived_running (d := s.dev.begin) hrun]
    exact (s.dev.begin.failOut_failed k 8).finish _

end Sys2Proof.Machine
end

/-! PROOFS. The invariant of every step: memory in canonical form, and no write of a command on its way between commands. -/
section
namespace Sys2Proof.Machine

/-- A step runs an effect on the device it finds. -/
theorem step_shape (s : State) : ∃ rest f, step s = State.run { s with pending := rest } f := by
  obtain ⟨d, queue⟩ := s
  cases queue with
  | nil => exact ⟨[], Dev.idle, rfl⟩
  | cons i rest =>
    obtain ⟨f, hf⟩ := exec_shape i ⟨d, rest⟩
    exact ⟨rest, f, hf⟩

/-- Settles O3: a step runs an effect, and what runs lands its writes in memory at its end. -/
theorem stepKeepsSound : Obligations.StepKeepsSound := by
  intro s t hs h
  obtain ⟨rest, f, hf⟩ := step_shape s
  exact State.run_sound { s with pending := rest } t f hs (hf.symm.trans h)

end Sys2Proof.Machine
end

/-! PROOFS. Accesses of the application cores (R422 to R424): where no memory is, and in DRAM. -/
section
namespace Sys2Proof.Machine

/-! ### Bytes written, when a command has ended -/

theorem Dev.byte_begin (d : Dev) (hd : d.wlog = []) (x : Nat) : d.begin.byte x = d.byte x := (d.byte_sound hd x).symm

section Written
variable {d e t : Dev} {a : Nat} {bs : List Byte} (hm : t.mem = d.mem) (hb : ∀ x, t.byte x = (e.puts a bs).byte x)
include hm hb

/-- The bytes that a command has written are in memory when it has ended. -/
theorem Dev.bytes_finish_puts : (t.finish d.mem).bytes a bs.length = bs := by
  rw [Dev.bytes_congr (fun x => (Dev.byte_of_finish d t hm x).trans (hb x)), Dev.bytes_puts_take _ _ _ (Nat.le_refl _),
    List.take_length]

/-- Every other byte is as the command found it. -/
theorem Dev.sameMemBut_finish_puts (he : ∀ x, e.byte x = d.byte x) : d.sameMemBut a bs.length (t.finish d.mem) := fun x hx => by
  rw [Dev.byte_of_finish d t hm, hb, Dev.byte_puts_out _ _ _ _ hx, he]

end Written

/-- What a store has written when its command has ended with an answer. -/
theorem Dev.stored.answered {d e t : Dev} {a : Nat} {bs : List Byte} (h : e.stored a bs t) (hm : e.mem = d.mem)
    (he : ∀ x, e.byte x = d.byte x) (x : Answer) : ((t.reply x).finish d.mem).bytes a bs.length = bs
      ∧ d.sameMemBut a bs.length ((t.reply x).finish d.mem) :=
  ⟨Dev.bytes_finish_puts (t := t.reply x) (h.mem.trans hm) h.byte,
    Dev.sameMemBut_finish_puts (t := t.reply x) (h.mem.trans hm) h.byte he⟩

/-! ### Where an address leads (R422, R423) -/

/-- An access that does not lie in one region is not performed. -/
theorem Dev.coreAccess_nowhere {d : Dev} {a n : Nat} (h : d.spotN a n = none) (c : Hart) (acc : CoreAcc) :
    d.coreAccess c a n acc = (d, .accessFault) := by
  cases acc <;>
    simp only [Dev.coreAccess, Dev.cpuLoad, Dev.cpuFetch, Dev.cpuStore, Dev.cpuAmo, Dev.cpuLr, Dev.cpuSc, h]

theorem Dev.spotN_of_no_spot {d : Dev} {a : Nat} (h : d.spot a = none) (n : Nat) : d.spotN a n = none := by
  rw [Dev.spotN, h]

theorem Dev.spot_dram {d : Dev} {a : Nat} (lo : dramBase ≤ a) (hi : a < d.dramTop) : d.spot a = some ⟨.dram, a, 0⟩ := by
  have lo' : 0x010000000000 ≤ a := lo
  rw [Dev.spot, if_neg (by omega), if_neg (by simp only [scratchBase]; omega), if_neg (by omega),
    if_neg (by simp only [mramBase]; omega), if_neg (by simp only [flashBase]; omega), if_pos lo, if_pos hi]

section InDram
variable {d : Dev} {a n : Nat} (hin : d.inDram a n = true)
include hin

theorem Dev.inDram_base : dramBase ≤ a := of_decide_eq_true (Bool.and_eq_true_iff.1 hin).1

theorem Dev.spotN_dram (hn : 0 < n) : d.spotN a n = some ⟨.dram, a, 0⟩ := by
  have lo := Dev.inDram_base hin
  have hi : a + n ≤ d.dramTop := of_decide_eq_true (Bool.and_eq_true_iff.1 hin).2
  rw [Dev.spotN, Dev.spot_dram lo (by omega), Dev.spot_dram (a := a + n - 1) (by omega) (by omega)]
  exact if_pos ⟨rfl, rfl⟩

end InDram

/-! ### DRAM is no local memory -/

/-- A write through the plain view writes its bytes as they are. -/
theorem zipWith_viewByte_plain (old bs : List Byte) (h : old.length = bs.length) : old.zipWith (viewByte 0) bs = bs :=
  List.ext_getElem (by simp [h]) (fun i _ _ => by simp [viewByte])

section Dram
variable (d : Dev) {a : Nat} (lo : dramBase ≤ a)
include lo

theorem Dev.asCache_dram : d.asCache a = false := by
  have outside : ¬(localBase ≤ a ∧ a < localBase + 0x200000) := by simp only [dramBase, localBase] at lo ⊢; omega
  rw [Dev.asCache, decide_eq_false outside, Bool.false_and, Bool.false_and]

theorem Dev.sharedBytes_dram (n : Nat) : d.sharedBytes a n = d.bytes a n := by
  rw [Dev.sharedBytes, Dev.bytes_eq_map]
  refine List.map_congr_left (fun i _ => ?_)
  rw [Dev.sharedByte, d.asCache_dram (Nat.le_add_right_of_le lo), if_neg Bool.false_ne_true]

theorem Dev.loadSpot_dram {n : Nat} (hp : d.poisoned a n = false) :
    d.loadSpot ⟨.dram, a, 0⟩ n = (d, .data (BitVec.ofNat 64 (d.num a n))) := by
  rw [Dev.loadSpot, hp, if_neg Bool.false_ne_true, Dev.num, ← d.sharedBytes_dram lo]
  rfl

/-- A store to DRAM is a store that heads may read. -/
theorem Dev.spotStore_dram (bs : List Byte) : d.spotStore ⟨.dram, a, 0⟩ bs = d.storeBy a bs := by
  have noLocal : ¬a < localBase + 0x200000 := by simp only [dramBase, localBase] at lo ⊢; omega
  have noCounter : ¬(audioBase + 0xF0000 ≤ a ∧ a < audioBase + 0x100000) := by simp only [dramBase, audioBase] at lo ⊢; omega
  have writable : d.writable a = true := by rw [Dev.writable, d.asCache_dram lo, decide_eq_false noCounter]; rfl
  have noted : d.noteLocal a = d := if_neg (fun h => noLocal h.2.1)
  have fetched : d.prefetchAt a = d := if_neg (fun h => noLocal h.2.1)
  rw [Dev.spotStore, Dev.sharedStore, if_pos writable, noted, fetched, zipWith_viewByte_plain _ _ (d.bytes_length _ _)]

end Dram

/-! ### Load reservations -/

/-- A store ends reservations and makes none. -/
theorem Dev.store_resv (d : Dev) (a : Nat) (bs : List Byte) : ∀ x ∈ (d.store a bs).resv, x ∈ d.resv := by
  have puts : ∀ e : Dev, (e.puts a bs).resv = e.resv := fun e => by
    obtain ⟨w, heq⟩ := e.puts_wlog a bs
    rw [heq]
  have marked : ∀ lo hi, (d.markInit lo hi).resv = d.resv := fun lo hi => by unfold Dev.markInit; split <;> rfl
  unfold Dev.store
  extract_lets n m known unpoisoned unreserved
  have hm : m.resv = d.resv := by
    simp only [m]
    split
    · exact marked _ _
    · rfl
  have hu : unpoisoned.resv = d.resv := by rw [← hm]; simp only [unpoisoned]; split <;> rfl
  intro x hx
  rw [puts] at hx
  rw [← hu]
  simp only [unreserved] at hx
  split at hx
  · exact hx
  · exact List.mem_of_mem_filter hx

theorem Dev.reported.resv {d t : Dev} (h : d.reported t) : t.resv = d.resv := by
  obtain ⟨⟨_, _, _, _, rfl⟩, _⟩ := h
  rfl

theorem Dev.storeBy_resv (d : Dev) (a : Nat) (bs : List Byte) : ∀ x ∈ (d.storeBy a bs).resv, x ∈ d.resv := by
  have after : (d.keepDue.store a bs).reported (d.storeBy a bs) :=
    (Dev.reported_noteDirty _ _ _).trans (Dev.reported_forL _ _ (fun h e => e.reported_reportMem h _ _ _) _)
  intro x hx
  rw [after.resv] at hx
  rw [← d.reported_keepDue.resv]
  exact d.keepDue.store_resv a bs x hx

/-- The device without the reservation of a hart. -/
def Dev.unreserve (d : Dev) (c : Nat) : Dev := { d with resv := d.resv.filter (fun r => r.1 != c) }

theorem Dev.unreserve_resv (d : Dev) (c : Nat) : ∀ x ∈ (d.unreserve c).resv, x.1 ≠ c := fun x hx => by
  simpa using (List.mem_filter.1 hx).2

/-! ### Loads, stores, LR and SC in DRAM -/

section Access
variable {d : Dev} {a n : Nat} (hin : d.inDram a n = true) (hn : 0 < n)
include hin hn

theorem Dev.cpuLoad_dram (r : Req) (hp : d.poisoned a n = false) :
    d.cpuLoad r a n = (d, .data (BitVec.ofNat 64 (d.num a n))) := by
  simp [Dev.cpuLoad, Dev.spotN_dram hin hn, d.loadSpot_dram (Dev.inDram_base hin) hp]

theorem Dev.cpuStore_dram (r : Req) (v : Nat) : d.cpuStore r a n v = (d.storeBy a (leBytes n v), .done) := by
  simp [Dev.cpuStore, Dev.spotN_dram hin hn, d.spotStore_dram (Dev.inDram_base hin)]

theorem Dev.cpuLr_dram (c : Nat) (hal : a % n = 0) (hp : d.poisoned a n = false) :
    d.cpuLr c a n = ({ d with resv := (c, a / 64) :: d.resv.filter (fun r => r.1 != c) }, .data (BitVec.ofNat 64 (d.num a n))) := by
  simp only [Dev.cpuLr, Dev.spotN_dram hin hn, d.loadSpot_dram (Dev.inDram_base hin) hp, hal]
  rfl

theorem Dev.cpuSc_dram (c v : Nat) (hal : a % n = 0) : d.cpuSc c a n v =
    if (c, a / 64) ∈ d.resv then ((d.unreserve c).storeBy a (leBytes n v), .data 0) else (d.unreserve c, .data 1) := by
  simp only [Dev.cpuSc, Dev.spotN_dram hin hn, hal, Dev.spotStore_dram _ (Dev.inDram_base hin), List.contains_iff_mem]
  rfl

end Access

/-! ### The command -/

theorem exec_coreMemoryAccess (c : Hart) (addr : BitVec 48) (size : Nat) (acc : CoreAcc) (s : State) :
    exec (.coreMemoryAccess c addr size acc) s = s.run (fun d => if accSize size acc then
      (d.coreAccess c addr.toNat size acc).1.reply (d.coreAccess c addr.toNat size acc).2 else d.reply .accessFault) := rfl

/-- An access of a size that exists: what holds of what it does and answers. -/
theorem does_coreAccess {c : Hart} {addr : BitVec 48} {size : Nat} {acc : CoreAcc} {s : State} {t : Dev} {x : Answer}
    {post : Dev → Prop} (hsize : accSize size acc = true) (h : s.dev.begin.coreAccess c addr.toNat size acc = (t, x))
    (hp : post ((t.reply x).finish s.dev.mem)) : Does (.coreMemoryAccess c addr size acc) s post :=
  does_of_run _ s _ post (exec_coreMemoryAccess c addr size acc s) (by rw [if_pos hsize, h]; exact hp)

theorem accSize_pos {n : Nat} {acc : CoreAcc} (h : accSize n acc = true) : 0 < n := by
  cases n with
  | zero => cases acc <;> simp [accSize] at h
  | succ n => exact Nat.succ_pos n

/-- A command that answers and does nothing else. -/
theorem Dev.onlyRegs_reply (d : Dev) (hd : d.wlog = []) (x : Answer) :
    d.onlyRegs (fun _ _ => False) ((d.begin.reply x).finish d.mem) :=
  Dev.onlyRegs_finish _ _ _ hd rfl (fun _ _ _ _ => rfl) rfl

/-- Settles O27, clause by clause through what the accesses do in DRAM. -/
theorem coreAccesses : Obligations.CoreAccesses := by
  intro c addr size s hs
  have hd := hs.2
  have num : s.dev.begin.num addr.toNat size = s.dev.num addr.toNat size := Dev.num_begin _ hd _ _
  have length : ∀ v, (leBytes size v).length = size := leBytes_length size
  refine ⟨fun acc hsize => ?_, fun acc hsize hspot => ?_, fun hin => ⟨fun hsize => ⟨fun hp => ?_, fun v => ?_⟩,
    fun hsize hal => ⟨fun hp => ?_, fun v => ⟨fun hres => ?_, fun hres => ?_⟩⟩⟩⟩
  · refine does_of_run _ s _ _ (exec_coreMemoryAccess c addr size acc s) ?_
    rw [hsize, if_neg Bool.false_ne_true]
    exact ⟨rfl, s.dev.onlyRegs_reply hd _⟩
  · have nowhere : s.dev.begin.spotN addr.toNat size = none := Dev.spotN_of_no_spot hspot size
    exact does_coreAccess hsize (Dev.coreAccess_nowhere nowhere c acc) ⟨rfl, s.dev.onlyRegs_reply hd _⟩
  · refine does_coreAccess hsize (Dev.cpuLoad_dram (d := s.dev.begin) hin (accSize_pos hsize) (.hart c) hp) ?_
    rw [num]
    exact ⟨rfl, s.dev.onlyRegs_reply hd _⟩
  · have stored := s.dev.begin.stored_storeBy addr.toNat (leBytes size v.toNat)
    refine does_coreAccess (acc := .store v) hsize (Dev.cpuStore_dram (d := s.dev.begin) hin (accSize_pos hsize) (.hart c) v.toNat) ?_
    obtain ⟨bytes, but⟩ := stored.answered (d := s.dev) rfl (s.dev.byte_begin hd) .done
    rw [length] at bytes but
    exact ⟨rfl, bytes, but⟩
  · refine does_coreAccess hsize (Dev.cpuLr_dram (d := s.dev.begin) hin (accSize_pos hsize) c hal hp) ?_
    rw [num]
    exact ⟨rfl, List.mem_cons_self, fun _ _ _ _ => rfl, Dev.sameMem_finish _ _ hd rfl⟩
  · have stored := (s.dev.begin.unreserve c).stored_storeBy addr.toNat (leBytes size v.toNat)
    refine does_coreAccess (acc := .sc v) hsize ((Dev.cpuSc_dram (d := s.dev.begin) hin (accSize_pos hsize) c v.toNat hal).trans
      (if_pos hres)) ?_
    obtain ⟨bytes, but⟩ := stored.answered (d := s.dev) rfl (s.dev.byte_begin hd) (.data 0)
    rw [length] at bytes but
    exact ⟨rfl, fun x hx => Dev.unreserve_resv _ c x (Dev.storeBy_resv _ _ _ x hx), bytes, but⟩
  · refine does_coreAccess (acc := .sc v) hsize ((Dev.cpuSc_dram (d := s.dev.begin) hin (accSize_pos hsize) c v.toNat hal).trans
      (if_neg hres)) ?_
    exact ⟨rfl, s.dev.unreserve_resv c, fun _ _ _ _ => rfl, Dev.sameMem_finish _ _ hd rfl⟩

end Sys2Proof.Machine
end

/-! PROOFS. Rules for the commands of the memories: the device as a command's effect finds it, fields of words, and reports. -/
section
namespace Sys2Proof.Machine

/-! ### The device as a command's effect finds it -/

/-- The device as a command begins, with the locks l armed. -/
def Dev.opened (d : Dev) (l : Sparse (Option Req)) : Dev := { d.begin with armed := l }

theorem Dev.disarm_opened (d : Dev) {p : Nat} (hp : p ≠ pgGPIO) : ∃ l, d.begin.disarm p = d.opened l := ⟨_, Dev.disarm_eq _ p hp⟩

/-- A command that changes register words alone, when it has ended. -/
theorem Dev.onlyRegs_opened {d t : Dev} {l : Sparse (Option Req)} {k : Nat → Nat → Prop} (h : (d.opened l).regsOnly k t)
    (hd : d.wlog = []) : d.onlyRegs k (t.finish d.mem) := by
  obtain ⟨⟨r, n, rfl⟩, hr⟩ := h
  exact Dev.onlyRegs_finish k d _ hd rfl hr rfl

/-- A command that changes nothing, when it has ended. -/
theorem Dev.onlyRegs_unchanged {d : Dev} (hd : d.wlog = []) (l : Sparse (Option Req)) (k : Nat → Nat → Prop) :
    d.onlyRegs k ((d.opened l).finish d.mem) :=
  Dev.onlyRegs_opened (l := l) ⟨⟨_, _, rfl⟩, Dev.regsBut_refl k _⟩ hd

section Does
variable {i : Instr} {s : State} {p : Nat} {f : Dev → Dev} {post : Dev → Prop} {k : Nat → Nat → Prop}

/-- A requester's command on a page other than GPIO: what holds of its effect, whatever locks stay armed. -/
theorem does_onPage_opened {r : Req} (h : s.reaches r) (he : exec i s = s.onPage r p f) (hp : p ≠ pgGPIO)
    (hpost : ∀ l, post ((f (s.dev.opened l)).finish s.dev.mem)) : Does i s post := by
  obtain ⟨l, hl⟩ := s.dev.disarm_opened hp
  exact does_onPage h he (by rw [hl]; exact hpost l)

/-- A requester's command on a page other than GPIO that does nothing beside disarming the page's lock. -/
theorem does_onPage_unchanged {r : Req} (hs : s.sound) (h : s.reaches r) (he : exec i s = s.onPage r p f) (hp : p ≠ pgGPIO)
    (hf : ∀ l, f (s.dev.opened l) = s.dev.opened l) : Does i s (fun t => s.dev.onlyRegs k t) :=
  does_onPage_opened h he hp (fun l => by rw [hf l]; exact Dev.onlyRegs_unchanged hs.2 l k)

/-- A command of a block whose page is not frozen (R17). -/
theorem does_thawed (he : exec i s = s.run (fun d => d.thawed p f)) (hfr : s.dev.frozen p = false)
    (hpost : post ((f s.dev.begin).finish s.dev.mem)) : Does i s post :=
  does_of_run i s _ post he (by rw [Dev.thawed_of_not_frozen s.dev.begin _ _ hfr]; exact hpost)

/-- A command of a block whose page is not frozen that does nothing. -/
theorem does_thawed_unchanged (hs : s.sound) (he : exec i s = s.run (fun d => d.thawed p f)) (hfr : s.dev.frozen p = false)
    (hf : f s.dev.begin = s.dev.begin) : Does i s (fun t => s.dev.onlyRegs k t) :=
  does_thawed he hfr (by rw [hf]; exact Dev.onlyRegs_unchanged hs.2 s.dev.armed k)

end Does

theorem Dev.regsBut.finish {d t : Dev} {k : Nat → Nat → Prop} (h : d.regsBut k t) (old : List Host.Cell) :
    d.regsBut k (t.finish old) := h

/-! ### Fields and bits of a word -/

theorem Dev.wrF_field (d : Dev) (p o : Nat) {hi lo : Nat} (v : Nat) (h : hi < 32) (hl : lo ≤ hi) :
    (d.wrF p o hi lo v).rdF p o hi lo = v % 2 ^ (hi + 1 - lo) := by
  rw [Dev.rdF, Dev.wrF, Dev.rd_wr_same, field_putField _ _ _ _ h hl]

theorem Dev.irq_field (d : Dev) (p q n : Nat) {o : Nat} (hi lo : Nat) (ho : o < 4096) (hne : o ≠ Reg.IRQ_STAT) :
    (d.irq p n).rdF q o hi lo = d.rdF q o hi lo := by
  rw [Dev.rdF, Dev.irq_stat_else _ _ _ _ _ ho hne, Dev.rdF]

/-! ### What a report leaves alone -/

theorem Dev.reported.mem {d t : Dev} (h : d.reported t) : t.mem = d.mem := by
  obtain ⟨⟨_, _, _, _, rfl⟩, _⟩ := h
  rfl

theorem Dev.reported.ram {d t : Dev} (h : d.reported t) : t.ram = d.ram := by
  obtain ⟨⟨_, _, _, _, rfl⟩, _⟩ := h
  rfl

theorem Dev.reported.byte {d t : Dev} (h : d.reported t) (x : Nat) : t.byte x = d.byte x := by
  obtain ⟨⟨_, _, _, _, rfl⟩, _⟩ := h
  rfl

end Sys2Proof.Machine
end

/-! PROOFS. MRAM (R454, R455, R457): posted words reach the array, and changed counters are written. -/
section
namespace Sys2Proof.Machine

/-! ### A posted word reaches the array (R454) -/

theorem Dev.mramStep_blocked {d : Dev} (h : d.mramBlocked = true) : d.mramStep = d := if_pos h

/-- The oldest posted word w written to the array, and rest still posted. -/
def Dev.wordLanded (d : Dev) (w : Nat) (bs : List Byte) (rest : List (Nat × List Byte)) : Dev :=
  (d.onRam (fun m => { m with mramBuf := rest })).puts (mramBase + w * 64) bs

theorem Dev.mramStep_posted {d : Dev} {w : Nat} {bs : List Byte} {rest : List (Nat × List Byte)}
    (hbuf : d.ram.mramBuf = (w, bs) :: rest) (h : d.mramBlocked = false) :
    d.mramStep = (d.wordLanded w bs rest).add64 pgMRAM Reg.MRAM_WRITES 1 := by
  rw [Dev.mramStep, h, if_neg Bool.false_ne_true, Dev.mramDrain]
  simp only [hbuf]
  rfl

theorem Dev.wordLanded_eq (d : Dev) (w : Nat) (bs : List Byte) (rest : List (Nat × List Byte)) :
    ∃ l, d.wordLanded w bs rest = { d with ram := { d.ram with mramBuf := rest }, wlog := l } := by
  obtain ⟨l, h⟩ := Dev.puts_wlog (d.onRam (fun m => { m with mramBuf := rest })) (mramBase + w * 64) bs
  exact ⟨l, h⟩

theorem Dev.add64_byte (d : Dev) (p o n x : Nat) : (d.add64 p o n).byte x = d.byte x := by
  obtain ⟨_, h⟩ := d.add64_eq p o n
  rw [h]
  rfl

theorem Dev.add64_ram (d : Dev) (p o n : Nat) : (d.add64 p o n).ram = d.ram := by
  obtain ⟨_, h⟩ := d.add64_eq p o n
  rw [h]

theorem Dev.add64_mem (d : Dev) (p o n : Nat) : (d.add64 p o n).mem = d.mem := by
  obtain ⟨_, h⟩ := d.add64_eq p o n
  rw [h]

/-! ### Changed counters (R455, R457) -/

/-- The persistent counters were written less than a second ago. -/
def Dev.persistRecent (d : Dev) : Prop := ∃ t0, d.ram.persistAt = some t0 ∧ d.clock.base < t0 + 1200000000

/-- One changed counter posted to its word. -/
def Dev.postCounter (e : Nat × Option Nat) (d : Dev) : Dev :=
  match e.2 with
  | some v => d.mramWrite (0x11000 + 64 * e.1) (leBytes 8 v)
  | none => d

/-- All changed counters posted, and none left to write. -/
def Dev.postCounters (d : Dev) : Dev :=
  (forL d.ram.persist Dev.postCounter d).onRam (fun m => { m with persist := [], persistAt := some d.clock.base })

theorem Dev.persistWrite_recent {d : Dev} (h : d.persistRecent) : d.persistWrite = d := by
  obtain ⟨t0, hat, hlt⟩ := h
  simp only [Dev.persistWrite, hat, hlt, decide_true, Bool.true_or, if_true]

theorem Dev.persistWrite_due {d : Dev} (h : ¬d.persistRecent) :
    d.persistWrite = if d.ram.persist.isEmpty then d else d.postCounters := by
  unfold Dev.persistWrite
  cases hat : d.ram.persistAt with
  | none => rfl
  | some t0 =>
    have past : ¬d.clock.base < t0 + 1200000000 := fun hlt => h ⟨t0, hat, hlt⟩
    simp only [past, decide_false, Bool.false_or]
    rfl

/-- Nothing but what is held of the memories differs. -/
def Dev.ramChanged (d t : Dev) : Prop := ∃ m, t = { d with ram := m }

theorem Dev.ramChanged.trans {a b c : Dev} (h : a.ramChanged b) (h' : b.ramChanged c) : a.ramChanged c := by
  obtain ⟨_, rfl⟩ := h
  obtain ⟨_, rfl⟩ := h'
  exact ⟨_, rfl⟩

theorem Dev.ramChanged_postCounter (e : Nat × Option Nat) (d : Dev) : d.ramChanged (Dev.postCounter e d) := by
  unfold Dev.postCounter
  split
  · exact ⟨_, rfl⟩
  · exact ⟨_, rfl⟩

theorem Dev.ramChanged_postCounters (d : Dev) : d.ramChanged d.postCounters :=
  Dev.ramChanged.trans
    (forL_rel Dev.ramChanged (fun _ => ⟨_, rfl⟩) (fun _ _ _ => Dev.ramChanged.trans) _ _ Dev.ramChanged_postCounter _) ⟨_, rfl⟩

/-- After a write that is due no changed counter is left, and only what is held of the memories differs. -/
theorem Dev.persistWrite_done {d : Dev} (h : ¬d.persistRecent) : d.persistWrite.ram.persist = [] ∧ d.ramChanged d.persistWrite := by
  rw [Dev.persistWrite_due h]
  split
  · next hempty => exact ⟨List.isEmpty_iff.1 hempty, _, rfl⟩
  · exact ⟨rfl, d.ramChanged_postCounters⟩

/-- The content of the word that was posted last. -/
theorem Dev.mramWord_last {d : Dev} {l : List (Nat × List Byte)} {w : Nat} {bs : List Byte}
    (h : d.ram.mramBuf = l ++ [(w, bs)]) : d.mramWord w = bs := by
  simp [Dev.mramWord, h]

/-- Bytes written from the start of a word on are posted at its start. -/
theorem Dev.mramWrite_start (d : Dev) (w : Nat) {bs : List Byte} (h : bs.length ≤ 64) :
    ∃ rest, (d.mramWrite (64 * w) bs).ram.mramBuf = d.ram.mramBuf ++ [(w, bs ++ rest)] := by
  have word : 64 * w / 64 = w := by omega
  have start : 64 * w % 64 = 0 := by omega
  refine ⟨((d.mramWord w).drop bs.length).take (64 - bs.length), ?_⟩
  simp [Dev.mramWrite, Dev.mramPost, word, start, List.take_append, List.take_of_length_le h]

/-- One changed counter written when it is due: its word starts with its 8 bytes, and the time is kept. -/
theorem Dev.persistWrite_one {d : Dev} (hdue : ¬d.persistRecent) {k v : Nat} (hp : d.ram.persist = [(k, some v)]) :
    ∃ l rest, d.persistWrite.ram.mramBuf = l ++ [(0x440 + k, leBytes 8 v ++ rest)]
      ∧ d.persistWrite.ram.persistAt = some d.clock.base := by
  have word : 0x11000 + 64 * k = 64 * (0x440 + k) := by omega
  obtain ⟨rest, posted⟩ := d.mramWrite_start (0x440 + k) (bs := leBytes 8 v) (by rw [leBytes_length]; decide)
  have one : forL d.ram.persist Dev.postCounter d = d.mramWrite (64 * (0x440 + k)) (leBytes 8 v) := by
    rw [hp, ← word]
    rfl
  refine ⟨d.ram.mramBuf, rest, ?_, ?_⟩ <;>
    rw [Dev.persistWrite_due hdue, hp, List.isEmpty_cons, if_neg Bool.false_ne_true, Dev.postCounters]
  · rw [one]
    exact posted
  · rfl

theorem Dev.persistTick_due (d : Dev) : ∃ k c, d.persistTick = ({ d with setNow := k, clock := c } : Dev).persistWrite
    ∧ ¬({ d with setNow := k, clock := c } : Dev).persistRecent := by
  unfold Dev.persistTick
  split
  · next t hat =>
    obtain ⟨k, c, h⟩ := d.toBase_eq (t + 1200000000)
    have reached := d.toBase_reaches (t + 1200000000)
    rw [h] at reached ⊢
    refine ⟨k, c, rfl, fun ⟨t0, hat0, hlt⟩ => ?_⟩
    have same : t0 = t := Option.some.inj (hat0.symm.trans hat)
    rw [same] at hlt
    exact Nat.not_lt.2 reached hlt
  · next hat =>
    refine ⟨d.setNow, d.clock, rfl, fun ⟨t0, hat0, _⟩ => ?_⟩
    exact absurd (hat0.symm.trans hat) (by simp)

/-- What a write of the counters leaves when its command has ended. -/
theorem Dev.persistWrite_finished {d : Dev} {l : Sparse (Option Req)} {k : Sparse Word} {c : Clock} (hd : d.wlog = [])
    (h : ¬({ d.opened l with setNow := k, clock := c } : Dev).persistRecent) :
    let t := ({ d.opened l with setNow := k, clock := c } : Dev).persistWrite.finish d.mem
    t.ram.persist = [] ∧ d.regsBut (fun _ _ => False) t ∧ d.sameMem t := by
  obtain ⟨left, m, heq⟩ := Dev.persistWrite_done h
  refine ⟨left, fun _ _ _ _ => ?_, Dev.sameMem_finish _ _ hd ?_⟩ <;> rw [heq] <;> rfl

theorem mramWrites : Claims.MramWrites := by
  intro s hs
  have hd := hs.2
  refine ⟨fun w bs rest hbuf hon hfr => ?_, fun hblk hfr => ?_, fun r hr => ⟨fun hrec => ?_, fun hdue => ?_, fun k v hdue hp => ?_⟩,
    fun hfr => ?_⟩
  · refine does_thawed (f := Dev.mramStep) rfl hfr ?_
    rw [Dev.mramStep_posted (d := s.dev.begin) hbuf hon]
    obtain ⟨l, heq⟩ := s.dev.begin.wordLanded_eq w bs rest
    have mem : ((s.dev.begin.wordLanded w bs rest).add64 pgMRAM Reg.MRAM_WRITES 1).mem = s.dev.mem := by
      rw [Dev.add64_mem, heq]; rfl
    have byte := (s.dev.begin.wordLanded w bs rest).add64_byte pgMRAM Reg.MRAM_WRITES 1
    refine ⟨Dev.bytes_finish_puts mem byte, ?_, ?_, ?_, Dev.sameMemBut_finish_puts mem byte (s.dev.byte_begin hd)⟩
    · rw [Dev.finish_ram, Dev.add64_ram, heq]
    · have before : (s.dev.begin.wordLanded w bs rest).rd64 pgMRAM Reg.MRAM_WRITES = s.dev.rd64 pgMRAM Reg.MRAM_WRITES := by
        rw [heq]; rfl
      rw [Dev.finish_rd64, Dev.rd64_add64, before]
    · have landed : s.dev.regsBut (fun q o => q = pgMRAM ∧ (o = Reg.MRAM_WRITES ∨ o = Reg.MRAM_WRITES + 4))
          (s.dev.begin.wordLanded w bs rest) := fun _ _ _ _ => by rw [heq]; rfl
      exact (landed.trans (Dev.regsBut_add64 _ 1 ⟨rfl, .inl rfl⟩ ⟨rfl, .inr rfl⟩ (by decide))).finish _
  · exact does_thawed_unchanged hs rfl hfr (Dev.mramStep_blocked (d := s.dev.begin) hblk)
  · exact does_onPage_unchanged hs hr rfl (by decide) (fun l => Dev.persistWrite_recent (d := s.dev.opened l) hrec)
  · exact does_onPage_opened hr rfl (by decide) (f := Dev.persistWrite) (fun l =>
      Dev.persistWrite_finished (l := l) (k := s.dev.setNow) (c := s.dev.clock) hd hdue)
  · refine does_onPage_opened hr rfl (by decide) (f := Dev.persistWrite) (fun l => ?_)
    obtain ⟨buf, rest, hbuf, hat⟩ := Dev.persistWrite_one (d := s.dev.opened l) hdue hp
    refine ⟨?_, hat⟩
    rw [Dev.mramWord_last (d := Dev.finish _ _) hbuf, List.take_append_of_le_length (by simp [leBytes_length]),
      List.take_of_length_le (by simp [leBytes_length])]
  · refine does_thawed (f := Dev.persistTick) rfl hfr ?_
    obtain ⟨k, c, heq, hdue⟩ := s.dev.begin.persistTick_due
    rw [heq]
    exact Dev.persistWrite_finished (l := s.dev.armed) hd hdue

end Sys2Proof.Machine
end

/-! PROOFS. March tests of the scratchpads (R446 to R451). -/
section
namespace Sys2Proof.Machine

/-! ### Scratchpads cleared (R446) -/

/-- The scratchpads below n that the mask names, set to what they read as when cleared. -/
def Dev.wipe (d : Dev) (mask n : Nat) : Dev :=
  forN n (fun k d => if mask.testBit k then d.clear (padRange k).1 (padRange k).2 else d) d

theorem Dev.wipe_eq (d : Dev) (mask n : Nat) : ∃ l, d.wipe mask n = { d with wlog := l } :=
  forN_rel (fun a b : Dev => ∃ l, b = { a with wlog := l }) (fun _ => ⟨_, rfl⟩)
    (by rintro _ _ _ ⟨_, rfl⟩ ⟨_, rfl⟩; exact ⟨_, rfl⟩) n _ (fun k a => by
      split
      · exact ⟨_, rfl⟩
      · exact ⟨_, rfl⟩) d

/-- Every byte of a scratchpad that was wiped reads as cleared. -/
theorem Dev.wipe_byte (d : Dev) {mask n k : Nat} (hk : k < n) (hbit : mask.testBit k = true) {a : Nat} (lo : (padRange k).1 ≤ a)
    (hi : a < (padRange k).2) : (d.wipe mask n).byte a = memDefault a := by
  induction n with
  | zero => exact absurd hk (Nat.not_lt_zero k)
  | succ n ih =>
    rw [Dev.wipe, forN_succ]
    rcases Nat.lt_succ_iff_lt_or_eq.1 hk with hlt | rfl
    · have before : (d.wipe mask n).byte a = memDefault a := ih hlt
      split
      · rw [Dev.byte_clear]
        split
        · rfl
        · exact before
      · exact before
    · rw [if_pos hbit, Dev.byte_clear, if_pos ⟨lo, hi⟩]

/-- Clearing wipes the scratchpads between two reports to the heads. -/
theorem Dev.clearPads_eq (d : Dev) (mask : Nat) : ∃ e, d.reported e ∧ (e.wipe mask 8).reported (d.clearPads mask) := by
  unfold Dev.clearPads
  extract_lets noted wiped forgot
  have hnoted : d.reported noted := Dev.reported_ite d.reported_keepDue d.reported_refl
  have hforgot : wiped.reported forgot :=
    Dev.reported_ite (Dev.reported_forL _ _ (fun h e => e.reported_onHead h _) _) wiped.reported_refl
  exact ⟨noted, hnoted, hforgot.trans (Dev.reported_ite
    (Dev.reported_forL _ _ (fun h e => Dev.reported_ite (e.reported_squash h _ _) e.reported_refl) _) forgot.reported_refl)⟩

/-- Cleared scratchpads read as such; memory as it stood before the command, and the words of pages that no report reaches, stay. -/
structure Dev.cleared (mask : Nat) (d t : Dev) : Prop where
  mem : t.mem = d.mem
  regs : d.regsBut (fun p _ => reportPage p) t
  byte : ∀ k < 8, mask.testBit k = true → ∀ a, (padRange k).1 ≤ a → a < (padRange k).2 → t.byte a = memDefault a

theorem Dev.cleared_clearPads (d : Dev) (mask : Nat) : d.cleared mask (d.clearPads mask) := by
  obtain ⟨e, before, after⟩ := d.clearPads_eq mask
  obtain ⟨l, heq⟩ := e.wipe_eq mask 8
  have regs : e.regsBut (fun p _ => reportPage p) (e.wipe mask 8) := by rw [heq]; exact fun _ _ _ _ => rfl
  have mem : (e.wipe mask 8).mem = e.mem := by rw [heq]
  refine ⟨?_, (before.2.trans regs).trans after.2, fun k hk hbit a lo hi => ?_⟩
  · rw [after.mem, mem, before.mem]
  · rw [after.byte, e.wipe_byte hk hbit lo hi]

/-! ### The end of a test (R447, R451) -/

/-- DONE shown and raised. -/
def Dev.showDone (d : Dev) : Dev := (d.wrF pgMARCH Reg.MARCH_STAT 1 0 2).irq pgMARCH 0

/-- What the end of a test shows. -/
def Dev.marchEnded (t : Dev) : Prop := t.rdF pgMARCH Reg.MARCH_STAT 1 0 = 2 ∧ t.rdB pgMARCH Reg.IRQ_STAT 0 = true

theorem Dev.showDone_ended (d : Dev) : d.showDone.marchEnded := by
  refine ⟨?_, Dev.irq_rdB_same _ _ _ (by decide)⟩
  rw [Dev.showDone, Dev.irq_field _ _ _ _ _ _ (by decide) (by decide), Dev.wrF_field _ _ _ _ (by decide) (by decide)]
  rfl

/-- The words that the end of a test sets. -/
def marchWord (q o : Nat) : Prop := q = pgMARCH ∧ (o = Reg.MARCH_STAT ∨ o = Reg.IRQ_STAT)

theorem Dev.regsOnly_showDone (d : Dev) : d.regsOnly marchWord d.showDone :=
  (d.regsOnly_wr _ ⟨rfl, .inl rfl⟩ (by decide)).trans (Dev.regsOnly_irq _ 0 ⟨rfl, .inr rfl⟩)

/-- The scratchpads as a test leaves them: cleared by a destructive one. -/
def Dev.padsLeft (d : Dev) : Dev := if d.ram.marchMode then d.clearPads d.marchPads else d

theorem Dev.marchEnd_eq (d : Dev) : d.marchEnd = d.padsLeft.showDone := rfl

theorem not_reportPage_march : ¬reportPage pgMARCH := by simp only [reportPage, pgENC, pgLEAD, pgMARCH]; omega

/-- The march engine's own words are left as they are. -/
theorem Dev.padsLeft_rd (d : Dev) {o : Nat} (ho : o < 4096) : d.padsLeft.rd pgMARCH o = d.rd pgMARCH o := by
  unfold Dev.padsLeft
  split
  · exact (d.cleared_clearPads _).regs _ _ ho not_reportPage_march
  · rfl

/-- The end of a test keeps the fields of MARCH_STAT beside STATE. -/
theorem Dev.marchEnd_field (d : Dev) {hi lo : Nat} (hl : 1 < lo) : d.marchEnd.rdF pgMARCH Reg.MARCH_STAT hi lo
    = d.rdF pgMARCH Reg.MARCH_STAT hi lo := by
  rw [Dev.marchEnd_eq, Dev.showDone, Dev.irq_field _ _ _ _ _ _ (by decide) (by decide), Dev.rdF, Dev.wrF, Dev.rd_wr_same,
    field_putField_other _ _ _ _ _ _ (by decide) (by decide) (.inl hl), d.padsLeft_rd (by decide), Dev.rdF]

theorem Dev.marchEnd_bit (d : Dev) {n : Nat} (hn : 1 < n) : d.marchEnd.rdB pgMARCH Reg.MARCH_STAT n
    = d.rdB pgMARCH Reg.MARCH_STAT n := by
  rw [Dev.marchEnd_eq, Dev.showDone, Dev.rdB, Dev.irq_stat_else _ _ _ _ _ (by decide) (by decide), Dev.wrF, Dev.rd_wr_same,
    bit_putField _ _ _ _ _ (by decide) (by decide), if_neg (by omega), d.padsLeft_rd (by decide), Dev.rdB]

/-- What was raised stays raised. -/
theorem Dev.marchEnd_raised {d : Dev} {n : Nat} (h : d.rdB pgMARCH Reg.IRQ_STAT n = true) :
    d.marchEnd.rdB pgMARCH Reg.IRQ_STAT n = true := by
  rw [Dev.marchEnd_eq]
  refine Dev.irq_rdB_mono _ _ _ _ ?_
  rw [Dev.rdB, Dev.wrF, Dev.rd_wr_off _ _ _ _ _ (by decide), d.padsLeft_rd (by decide)]
  exact h

/-- A test in destructive mode leaves its scratchpads as cleared. -/
theorem Dev.marchEnd_destructive {d : Dev} (h : d.ram.marchMode = true) : d.marchEnd.mem = d.mem
    ∧ ∀ k < 8, d.marchPads.testBit k = true → ∀ a, (padRange k).1 ≤ a → a < (padRange k).2 → d.marchEnd.byte a = memDefault a := by
  have left : d.padsLeft = d.clearPads d.marchPads := if_pos h
  have wiped := d.cleared_clearPads d.marchPads
  rw [Dev.marchEnd_eq, left]
  exact ⟨wiped.mem, wiped.byte⟩

theorem Dev.marchEnd_preserving {d : Dev} (h : d.ram.marchMode = false) : d.marchEnd = d.showDone := by
  rw [Dev.marchEnd_eq, Dev.padsLeft, h, if_neg Bool.false_ne_true]

/-! ### Failing cells (R449) -/

/-- The last of the failing cells fs shown, and their number. -/
def Dev.showFails (d : Dev) (fs : List MarchFail) (f : MarchFail) : Dev :=
  (((d.wrB pgMARCH Reg.MARCH_STAT 2 true).wrF pgMARCH Reg.MARCH_STAT 31 16 (min fs.length 65535)).wrN pgMARCH Reg.MARCH_LAST
    (f.pad + f.bank * 256 + f.row % 65536 * 65536)).irq pgMARCH 1

theorem Dev.showFails_words (d : Dev) (fs : List MarchFail) (f : MarchFail) :
    (d.showFails fs f).rdB pgMARCH Reg.MARCH_STAT 2 = true
      ∧ (d.showFails fs f).rdF pgMARCH Reg.MARCH_STAT 31 16 = min fs.length 65535
      ∧ (d.showFails fs f).rdB pgMARCH Reg.IRQ_STAT 1 = true
      ∧ (d.showFails fs f).rd pgMARCH Reg.MARCH_CTL = d.rd pgMARCH Reg.MARCH_CTL := by
  have stat : (d.showFails fs f).rd pgMARCH Reg.MARCH_STAT
      = putField (putBit (d.rd pgMARCH Reg.MARCH_STAT) 2 true) 31 16 (min fs.length 65535) := by
    rw [Dev.showFails, Dev.irq_stat_else _ _ _ _ _ (by decide) (by decide), Dev.wrN, Dev.rd_wr_off _ _ _ _ _ (by decide), Dev.wrF,
      Dev.rd_wr_same, Dev.wrB, Dev.rd_wr_same]
  refine ⟨?_, ?_, Dev.irq_rdB_same _ _ _ (by decide), ?_⟩
  · rw [Dev.rdB, stat, bit_putField _ _ _ _ _ (by decide) (by decide), if_neg (by decide), bit_putBit _ _ _ (by decide)]
  · rw [Dev.rdF, stat, field_putField _ _ _ _ (by decide) (by decide)]
    omega
  · rw [Dev.showFails, Dev.irq_stat_else _ _ _ _ _ (by decide) (by decide), Dev.wrN, Dev.rd_wr_off _ _ _ _ _ (by decide), Dev.wrF,
      Dev.rd_wr_off _ _ _ _ _ (by decide), Dev.wrB, Dev.rd_wr_off _ _ _ _ _ (by decide)]

/-- The failing cells that lie in the scratchpads under test. -/
def Dev.failsOf (d : Dev) (fails : List MarchFail) : List MarchFail := fails.filter (fun f => d.marchPads.testBit f.pad)

theorem Dev.marchDone_clean {d : Dev} (h : d.rdF pgMARCH Reg.MARCH_STAT 1 0 = 1) : d.marchDone [] = d.marchEnd := by
  simp [Dev.marchDone, h, forL]

/-- Without repair the cells found are shown, and the test ends. -/
theorem Dev.marchDone_fails {d : Dev} {fails : List MarchFail} {f : MarchFail} (h : d.rdF pgMARCH Reg.MARCH_STAT 1 0 = 1)
    (hctl : d.rdB pgMARCH Reg.MARCH_CTL 2 = false) (hf : f ∈ fails) (hpad : d.marchPads.testBit f.pad = true) :
    ∃ last, d.marchDone fails = (d.showFails (d.failsOf fails) last).marchEnd := by
  have found : d.failsOf fails ≠ [] := List.ne_nil_of_mem (List.mem_filter.2 ⟨hf, hpad⟩)
  refine ⟨(d.failsOf fails).getLast found, ?_⟩
  obtain ⟨_, _, _, ctl⟩ := d.showFails_words (d.failsOf fails) ((d.failsOf fails).getLast found)
  have noRepair : (d.showFails (d.failsOf fails) ((d.failsOf fails).getLast found)).rdB pgMARCH Reg.MARCH_CTL 2 = false := by
    rw [Dev.rdB, ctl]
    exact hctl
  unfold Dev.marchDone
  rw [if_neg (not_not_intro h)]
  extract_lets fs shown banks repaired
  have last : fs.getLast? = some ((d.failsOf fails).getLast found) := List.getLast?_eq_some_getLast found
  have hshown : shown = d.showFails (d.failsOf fails) ((d.failsOf fails).getLast found) := by
    simp only [shown, last]
    rfl
  have hrepaired : repaired = shown := if_neg (by rw [hshown, noRepair]; decide)
  rw [hrepaired, hshown]

/-! ### A test starts (R447) -/

/-- The modes in which a test may start. -/
def Dev.marchMay (d : Dev) (destr : Bool) : Prop := if destr = true then d.mode = 1 ∨ d.mode = 2 else d.mode ≠ 6 ∧ d.mode ≠ 7

section Start
variable {d : Dev}

theorem Dev.marchStart_running (h : d.rdF pgMARCH Reg.MARCH_STAT 1 0 = 1) (destr : Bool) : d.marchStart destr = d := if_pos h

theorem Dev.marchStart_may (h : d.rdF pgMARCH Reg.MARCH_STAT 1 0 ≠ 1) {destr : Bool} (hm : d.marchMay destr) :
    d.marchStart destr = (d.wrN pgMARCH Reg.MARCH_STAT 1).onRam (fun m => { m with marchMode := destr }) := by
  rw [Dev.marchStart, if_neg h]
  cases destr <;> exact if_pos (by simpa [Dev.marchMay] using hm)

theorem Dev.marchStart_refused (h : d.rdF pgMARCH Reg.MARCH_STAT 1 0 ≠ 1) {destr : Bool} (hm : ¬d.marchMay destr) :
    d.marchStart destr = d.wrF pgMARCH Reg.MARCH_STAT 1 0 3 := by
  rw [Dev.marchStart, if_neg h]
  cases destr <;> exact if_neg (by simpa [Dev.marchMay] using hm)

theorem Dev.marchAbort_running (h : d.rdF pgMARCH Reg.MARCH_STAT 1 0 = 1) : d.marchAbort = d.marchEnd := if_pos h

theorem Dev.marchAbort_idle (h : d.rdF pgMARCH Reg.MARCH_STAT 1 0 ≠ 1) : d.marchAbort = d := if_neg h

theorem Dev.marchPeriod_off (h : d.rdF pgMARCH Reg.MARCH_CTL 15 8 = 0) : d.marchPeriod = d := if_pos h

/-- The instant of the next automatic pass. -/
def Dev.nextPass (d : Dev) : Nat := d.ram.marchAt + d.rdF pgMARCH Reg.MARCH_CTL 15 8 * 4320000000000

theorem Dev.marchPeriod_on (h : d.rdF pgMARCH Reg.MARCH_CTL 15 8 ≠ 0) :
    d.marchPeriod = ((d.toBase d.nextPass).onRam (fun m => { m with marchAt := (d.toBase d.nextPass).clock.base })).marchStart false :=
  if_neg h

/-- The period starts a preserving pass. -/
theorem Dev.marchPeriod_starts (hon : d.rdF pgMARCH Reg.MARCH_CTL 15 8 ≠ 0) (h : d.rdF pgMARCH Reg.MARCH_STAT 1 0 ≠ 1)
    (hm : d.marchMay false) : ∃ k c, d.nextPass ≤ c.base ∧ d.marchPeriod
      = (({ d with setNow := k, clock := c, ram := { d.ram with marchAt := c.base } } : Dev).wrN pgMARCH Reg.MARCH_STAT 1).onRam
        (fun m => { m with marchMode := false }) := by
  obtain ⟨k, c, heq⟩ := d.toBase_eq d.nextPass
  have reached := d.toBase_reaches d.nextPass
  rw [Dev.marchPeriod_on hon]
  rw [heq] at reached ⊢
  exact ⟨k, c, reached,
    Dev.marchStart_may (d := { d with setNow := k, clock := c, ram := { d.ram with marchAt := c.base } }) h hm⟩

end Start

theorem exec_marchStart (r : Req) (s : State) : exec (.marchStart r) s
    = s.onPage r pgMARCH (fun d => d.marchStart (d.rdB pgMARCH Reg.MARCH_CTL 1)) := rfl

/-- A preserving test's end, when its command has ended. -/
theorem Dev.marchEnd_onlyRegs {d : Dev} (hd : d.wlog = []) (l : Sparse (Option Req)) (h : d.ram.marchMode = false) :
    d.onlyRegs marchWord ((d.opened l).marchEnd.finish d.mem) := by
  rw [Dev.marchEnd_preserving (d := d.opened l) h]
  exact Dev.onlyRegs_opened (Dev.regsOnly_showDone _) hd

theorem marchTests : Claims.MarchTests := by
  intro s hs
  have hd := hs.2
  refine ⟨fun r hr => ⟨fun hrun => ⟨?_, ?_⟩, fun hidle => ⟨?_, fun hmay => ?_, fun hmay => ?_⟩⟩, fun hrun hm hfr => ?_,
    fun fails f hrun hctl hf hpad hfr => ?_, fun hoff hfr => ?_, fun hon hidle hrest hlock hfr => ?_⟩
  · exact does_onPage_unchanged hs hr (exec_marchStart r s) (by decide)
      (fun l => Dev.marchStart_running (d := s.dev.opened l) hrun _)
  · refine does_onPage_opened hr rfl (by decide) (f := Dev.marchAbort) (fun l => ?_)
    rw [Dev.marchAbort_running (d := s.dev.opened l) hrun]
    refine ⟨Dev.showDone_ended _, fun hm k hk hbit a lo hi => ?_, Dev.marchEnd_onlyRegs hd l⟩
    obtain ⟨mem, cleared⟩ := Dev.marchEnd_destructive (d := s.dev.opened l) hm
    rw [Dev.byte_of_finish s.dev _ mem]
    exact cleared k hk hbit a lo hi
  · exact does_onPage_unchanged hs hr rfl (by decide) (fun l => Dev.marchAbort_idle (d := s.dev.opened l) hidle)
  · refine does_onPage_opened hr (exec_marchStart r s) (by decide) (fun l => ?_)
    rw [Dev.marchStart_may (d := s.dev.opened l) (destr := (s.dev.opened l).rdB pgMARCH Reg.MARCH_CTL 1) hidle hmay]
    exact ⟨Dev.rd_wr_same s.dev pgMARCH Reg.MARCH_STAT (word 1), rfl,
      s.dev.regsBut_wr (p := pgMARCH) (off := Reg.MARCH_STAT) (word 1) ⟨rfl, rfl⟩ (by decide), Dev.sameMem_finish _ _ hd rfl⟩
  · refine does_onPage_opened hr (exec_marchStart r s) (by decide) (fun l => ?_)
    rw [Dev.marchStart_refused (d := s.dev.opened l) (destr := (s.dev.opened l).rdB pgMARCH Reg.MARCH_CTL 1) hidle hmay]
    refine ⟨Dev.wrF_field _ _ _ _ (by decide) (by decide), ?_,
      Dev.onlyRegs_opened (Dev.regsOnly_wr _ _ ⟨rfl, rfl⟩ (by decide)) hd⟩
    exact (congrArg (field · 31 2) (Dev.rd_wr_same _ _ _ _)).trans
      (field_putField_other _ _ _ _ _ _ (by decide) (by decide) (.inl (by decide)))
  · refine does_thawed rfl hfr ?_
    rw [Dev.marchDone_clean (d := s.dev.begin) hrun]
    exact ⟨Dev.showDone_ended _, Dev.marchEnd_onlyRegs hd s.dev.armed hm⟩
  · refine does_thawed rfl hfr ?_
    obtain ⟨last, heq⟩ := Dev.marchDone_fails (d := s.dev.begin) hrun hctl hf hpad
    obtain ⟨bit2, number, raised, _⟩ := s.dev.begin.showFails_words (s.dev.begin.failsOf fails) last
    rw [heq]
    exact ⟨Dev.showDone_ended _, (Dev.marchEnd_bit _ (by decide)).trans bit2, Dev.marchEnd_raised raised,
      (Dev.marchEnd_field _ (by decide)).trans number⟩
  · exact does_thawed_unchanged hs rfl hfr (Dev.marchPeriod_off (d := s.dev.begin) hoff)
  · refine does_thawed (f := Dev.marchPeriod) rfl hfr ?_
    obtain ⟨k, c, reached, heq⟩ := Dev.marchPeriod_starts (d := s.dev.begin) hon hidle ⟨hrest, hlock⟩
    rw [heq]
    exact ⟨Dev.rd_wr_same s.dev pgMARCH Reg.MARCH_STAT (word 1), rfl, reached,
      s.dev.regsBut_wr (p := pgMARCH) (off := Reg.MARCH_STAT) (word 1) ⟨rfl, rfl⟩ (by decide), Dev.sameMem_finish _ _ hd rfl⟩

/-- Settles O54: the march tests, and MRAM. -/
theorem sramAndMram : Obligations.SramAndMram := ⟨marchTests, mramWrites⟩

end Sys2Proof.Machine
end

/-! PROOFS. DRAM training and initialisation (R425, R428 to R430, R439). -/
section
namespace Sys2Proof.Machine

/-! ### Training (R425) -/

/-- The size of a channel's modules in GiB. -/
def channelSize (ms : List SpdInfo) (m : SpdInfo) : Nat := ms.length * m.sizeGB

/-- DDR_STAT of modules that are allowed: their size above bits that leave TRAINED clear. -/
theorem ddrStatus_parts {m : SpdInfo} {rest : List SpdInfo} (h : popOk (m :: rest) = true) {rate : Nat} (hr : rate ≤ 4) :
    ∃ low < 256, ddrStatus (m :: rest) rate = low + channelSize (m :: rest) m * 65536 ∧ channelSize (m :: rest) m ≤ 256 := by
  simp only [popOk, Bool.and_eq_true, decide_eq_true_eq] at h
  obtain ⟨⟨⟨⟨⟨few, _⟩, _⟩, _, size⟩, ranks⟩, _⟩ := h
  have number : (m :: rest).length ≤ 2 := by simpa using Nat.lt_succ_iff.1 few
  have x4 : m.x4.toNat ≤ 1 := Bool.toNat_le _
  refine ⟨(m :: rest).length + m.ranks / 2 * 4 + m.x4.toNat * 16 + rate * 32, by omega, rfl, ?_⟩
  exact Nat.mul_le_mul number size

theorem binRate_le (s : Nat) : binRate s ≤ 4 := by
  unfold binRate
  split_ifs <;> decide

/-- The word that a channel of allowed modules shows once it is trained. -/
theorem trained_word {m : SpdInfo} {rest : List SpdInfo} (h : popOk (m :: rest) = true) {rate : Nat} (hr : rate ≤ 4) :
    ddrStatus (m :: rest) rate / 65536 = channelSize (m :: rest) m
      ∧ bit (word (ddrStatus (m :: rest) rate + 256)) 8 = true
      ∧ field (word (ddrStatus (m :: rest) rate + 256)) 31 16 = channelSize (m :: rest) m := by
  obtain ⟨low, hlow, heq, hsize⟩ := ddrStatus_parts h hr
  rw [heq, bit_word (by omega), field_word (by omega)]
  refine ⟨by omega, ?_, by omega⟩
  exact decide_eq_true (by omega)

theorem pgDDR_ne {c e : Nat} (h : c ≠ e) : pgDDR c ≠ pgDDR e := by simp only [pgDDR]; omega

/-- A word of another channel. -/
theorem Dev.rd_wr_channel (d : Dev) {c e o off : Nat} (v : Word) (h : c ≠ e) (ho : o < 4096) (hoff : off < 4096) :
    (d.wr (pgDDR e) off v).rd (pgDDR c) o = d.rd (pgDDR c) o := Dev.rd_wr_page _ _ _ _ _ _ (pgDDR_ne h) ho hoff

/-- The first channel to train: DDR_STAT shows it trained, and the note of its speed is all else that changes. -/
theorem Dev.trained_first {d : Dev} {ch : Fin 6} {m : SpdInfo} {rest : List SpdInfo} (hen : d.rdB (pgDDR ch) Reg.DDR_CTL 0 = true)
    (hok : popOk (m :: rest) = true) (hnone : ∀ c < 6, d.rdB (pgDDR c) Reg.DDR_STAT 8 = false)
    (hmir : 2 * d.rdF (pgDDR 0) Reg.DDR_MIR 7 0 ≤ channelSize (m :: rest) m) :
    ∃ rate ≤ 4, ∃ f, d.trained ch (m :: rest) = (d.wrN (pgDDR ch) Reg.DDR_STAT (ddrStatus (m :: rest) rate + 256)).onRam f := by
  unfold Dev.trained
  rw [if_neg (by simp [hen, hnone ch ch.isLt])]
  extract_lets speed rate st alike mir shown
  have hrate : rate ≤ 4 := by
    simp only [rate, min_le_iff]
    exact .inl (.inl (binRate_le speed))
  obtain ⟨hsize, _, _⟩ := trained_word hok hrate
  have halike : alike = true := List.all_eq_true.2 (fun c hc => by
    rw [hnone c (List.mem_range.1 hc)]
    rfl)
  have hfits : ¬st / 65536 < 2 * mir := by
    simp only [st, hsize, mir]
    omega
  have hlast : ((List.range 6).all fun c => shown.rdB (pgDDR c) Reg.DDR_STAT 8) = false := by
    obtain ⟨c, hc, hne⟩ : ∃ c < 6, c ≠ ch.val := by
      by_cases h0 : ch.val = 0
      · exact ⟨1, by decide, by omega⟩
      · exact ⟨0, by decide, by omega⟩
    refine List.all_eq_false.2 ⟨c, List.mem_range.2 hc, ?_⟩
    have other : shown.rd (pgDDR c) Reg.DDR_STAT = d.rd (pgDDR c) Reg.DDR_STAT :=
      d.rd_wr_channel (word (st + 256)) hne (by decide) (by decide)
    rw [Dev.rdB, other]
    exact Bool.eq_false_iff.1 (hnone c hc)
  rw [if_neg (by simp [hok, halike, hfits])]
  rw [hlast, if_neg Bool.false_ne_true]
  exact ⟨rate, hrate, _, rfl⟩

/-! ### Modules that are not allowed (R425) -/

/-- POP_ERR shown and raised in one channel, which is not trained. -/
def Dev.popOne (c : Nat) (d : Dev) : Dev :=
  ((d.wrB (pgDDR c) Reg.DDR_STAT 9 true).wrB (pgDDR c) Reg.DDR_STAT 8 false).irq (pgDDR c) 6

/-- What a channel with POP_ERR shows. -/
def Dev.popShown (c : Nat) (d : Dev) : Prop := d.rdB (pgDDR c) Reg.DDR_STAT 9 = true
  ∧ d.rdB (pgDDR c) Reg.DDR_STAT 8 = false ∧ d.rdB (pgDDR c) Reg.IRQ_STAT 6 = true

theorem Dev.popOne_shown (c : Nat) (d : Dev) : (Dev.popOne c d).popShown c := by
  have stat : ∀ n, (Dev.popOne c d).rdB (pgDDR c) Reg.DDR_STAT n
      = ((d.wrB (pgDDR c) Reg.DDR_STAT 9 true).wrB (pgDDR c) Reg.DDR_STAT 8 false).rdB (pgDDR c) Reg.DDR_STAT n := fun n => by
    rw [Dev.rdB, Dev.popOne, Dev.irq_stat_else _ _ _ _ _ (by decide) (by decide), Dev.rdB]
  refine ⟨?_, ?_, Dev.irq_rdB_same _ _ _ (by decide)⟩
  · rw [stat, Dev.wrB_bit _ _ _ _ _ _ (by decide), if_neg (by decide), Dev.wrB_bit _ _ _ _ _ _ (by decide), if_pos rfl]
  · rw [stat, Dev.wrB_bit _ _ _ _ _ _ (by decide), if_pos rfl]

/-- The words that modules that are not allowed change. -/
def popWord (q o : Nat) : Prop := ∃ c < 6, q = pgDDR c ∧ (o = Reg.DDR_STAT ∨ o = Reg.IRQ_STAT ∨ o = Reg.DDR_TOTAL)

theorem Dev.popShown.congr {c : Nat} {d t : Dev} (h : d.popShown c)
    (hr : ∀ o, o = Reg.DDR_STAT ∨ o = Reg.IRQ_STAT → t.rd (pgDDR c) o = d.rd (pgDDR c) o) : t.popShown c := by
  have stat := hr _ (.inl rfl)
  have irq := hr _ (.inr rfl)
  unfold Dev.popShown at h ⊢
  simp only [Dev.rdB, stat, irq] at h ⊢
  exact h

theorem Dev.regsOnly_popOne {k : Nat → Nat → Prop} {c : Nat} (hs : k (pgDDR c) Reg.DDR_STAT) (hi : k (pgDDR c) Reg.IRQ_STAT) (d : Dev) :
    d.regsOnly k (Dev.popOne c d) :=
  ((d.regsOnly_wr _ hs (by decide)).trans (Dev.regsOnly_wr _ _ hs (by decide))).trans (Dev.regsOnly_irq _ 6 hi)

theorem Dev.popAll_shown (d : Dev) (n : Nat) : ∀ c < n, (forN n Dev.popOne d).popShown c := by
  induction n with
  | zero => exact fun c hc => absurd hc (Nat.not_lt_zero c)
  | succ n ih =>
    intro c hc
    rw [forN_succ]
    by_cases heq : c = n
    · rw [heq]
      exact Dev.popOne_shown n _
    · refine (ih c (by omega)).congr (fun o ho => ?_)
      have only := Dev.regsOnly_popOne (k := fun q _ => q = pgDDR n) rfl rfl (forN n Dev.popOne d)
      exact only.2 _ _ (by rcases ho with rfl | rfl <;> decide) (pgDDR_ne heq)

theorem putField_all_zero (w : Word) : putField w 31 0 0 = 0 := by
  refine BitVec.eq_of_getLsbD_eq (fun i hi => ?_)
  rw [putField_getLsbD _ _ _ _ _ (by decide) (by decide), if_pos ⟨Nat.zero_le i, by omega⟩, Nat.zero_testBit]
  simp

theorem Dev.popErr_eq (d : Dev) : d.popErr = (forN 6 Dev.popOne d).wr (pgDDR 0) Reg.DDR_TOTAL 0 := by
  rw [← putField_all_zero ((forN 6 Dev.popOne d).rd (pgDDR 0) Reg.DDR_TOTAL)]
  rfl

theorem Dev.popErr_words (d : Dev) : (∀ c < 6, d.popErr.popShown c) ∧ d.popErr.rd (pgDDR 0) Reg.DDR_TOTAL = 0 := by
  rw [Dev.popErr_eq]
  refine ⟨fun c hc => (d.popAll_shown 6 c hc).congr (fun o ho => Dev.rd_wr_else _ _ ?_ (by decide) ?_), Dev.rd_wr_same _ _ _ _⟩
  · rcases ho with rfl | rfl <;> decide
  · rcases ho with rfl | rfl <;> exact fun h => absurd h.2 (by decide)

theorem Dev.regsOnly_popErr (d : Dev) : d.regsOnly popWord d.popErr := by
  have round : ∀ c < 6, ∀ e : Dev, e.regsOnly popWord (Dev.popOne c e) := fun c hc e =>
    Dev.regsOnly_popOne ⟨c, hc, rfl, .inl rfl⟩ ⟨c, hc, rfl, .inr (.inl rfl)⟩ e
  have all : d.regsOnly popWord (forN 6 Dev.popOne d) :=
    forN_rel_lt (Dev.regsOnly popWord) (fun e => ⟨⟨e.regs, e.setNow, rfl⟩, e.regsBut_refl _⟩) (fun _ _ _ => Dev.regsOnly.trans) 6 _
      round d
  rw [Dev.popErr_eq]
  exact all.trans (Dev.regsOnly_wr _ 0 ⟨0, by decide, rfl, .inr (.inr rfl)⟩ (by decide))

theorem Dev.trained_popErr {d : Dev} {ch : Nat} {ms : List SpdInfo} (hen : d.rdB (pgDDR ch) Reg.DDR_CTL 0 = true)
    (hst : d.rdB (pgDDR ch) Reg.DDR_STAT 8 = false) (hpop : popOk ms = false) : d.trained ch ms = d.popErr := by
  unfold Dev.trained
  rw [if_neg (by simp [hen, hst])]
  simp only [hpop, Bool.not_false, Bool.true_or, if_true]

/-! ### INIT and DISCARD (R428, R429) -/

section Init
variable {d : Dev}

theorem Dev.initCmd_busy (h : d.ram.initOp ≠ none) (op : Nat) : d.initCmd op = d := if_pos (Option.isSome_iff_ne_none.2 h)

theorem Dev.hardRepair_eq (d : Dev) : ∃ m, d.hardRepair = { d with ram := m } := by
  unfold Dev.hardRepair
  split
  · exact ⟨_, rfl⟩
  · exact ⟨_, rfl⟩

/-- INIT records its range and sets DDR_INIT_DONE to 0; beside those, repairs are all it makes. -/
theorem Dev.initCmd_init (h : d.ram.initOp = none) : ∃ m : MemSt, m.initOp = some (1, d.initRange.1, d.initRange.2)
    ∧ d.initCmd 1 = ({ d with ram := m } : Dev).wrN (pgDDR 0) Reg.DDR_INIT_DONE 0 := by
  obtain ⟨m, heq⟩ := d.hardRepair_eq
  refine ⟨{ m with initOp := some (1, d.initRange.1, d.initRange.2) }, rfl, ?_⟩
  have recorded : d.initCmd 1 = (d.hardRepair.wrN (pgDDR 0) Reg.DDR_INIT_DONE 0).onRam
      (fun m => { m with initOp := some (1, d.initRange.1, d.initRange.2) }) := by
    rw [Dev.initCmd, h]
    rfl
  rw [recorded, heq]
  rfl

end Init

/-- A range taken out of another holds none of its blocks. -/
theorem cutRange_out {lo hi b : Nat} (h1 : lo ≤ b) (h2 : b < hi) (r : Nat × Nat) :
    ∀ x ∈ cutRange lo hi r, ¬(x.1 ≤ b ∧ b < x.2) := by
  intro x hx
  simp only [cutRange, List.mem_append] at hx
  rcases hx with hx | hx
  · split at hx
    · rw [List.mem_singleton] at hx
      subst hx
      simp only
      omega
    · exact absurd hx (List.not_mem_nil)
  · split at hx
    · rw [List.mem_singleton] at hx
      subst hx
      simp only
      omega
    · exact absurd hx (List.not_mem_nil)

theorem Dev.dropInit_blockInit (d : Dev) {lo hi b : Nat} (h1 : lo ≤ b) (h2 : b < hi) : (d.dropInit lo hi).blockInit b = false := by
  refine List.any_eq_false.2 (fun x hx => ?_)
  obtain ⟨r, _, hr⟩ := List.mem_flatMap.1 hx
  simpa using cutRange_out h1 h2 r x hr

theorem memDefault_dram {a : Nat} (h : dramBase ≤ a) : memDefault a = 0 := by
  simp only [dramBase] at h
  exact if_neg (by omega)

/-- Blocks discarded: the command recorded, the blocks uninitialised, their bytes 0 and every other byte as before. -/
structure Dev.discarded (lo hi : Nat) (d t : Dev) : Prop where
  mem : t.mem = d.mem
  op : t.ram.initOp = some (2, lo, hi)
  gone : ∀ b, lo ≤ b → b < hi → t.blockInit b = false
  byte : ∀ a, t.byte a = if dramBase + lo * blockBytes ≤ a ∧ a < dramBase + hi * blockBytes then 0 else d.byte a

/-- The command recorded. -/
def Dev.noteDiscard (d : Dev) : Dev := d.onRam (fun m => { m with initOp := some (2, d.initRange.1, d.initRange.2) })

/-- Blocks dropped, where reports to the heads come before and after. -/
theorem Dev.discarded_dropInit {lo hi : Nat} {d e t : Dev} (hop : d.ram.initOp = some (2, lo, hi)) (before : d.reported e)
    (after : (e.dropInit lo hi).reported t) : d.discarded lo hi t := by
  refine ⟨after.mem.trans before.mem, ?_, fun b h1 h2 => ?_, fun a => ?_⟩
  · rw [after.ram, ← hop, ← before.ram]
    rfl
  · rw [Dev.blockInit, after.ram]
    exact e.dropInit_blockInit h1 h2
  · rw [after.byte, Dev.dropInit, Dev.byte_clear]
    split
    · next hin => exact memDefault_dram (Nat.le_trans (Nat.le_add_right _ _) hin.1)
    · exact before.byte a

/-- The blocks lo to hi - 1 dropped, and heads that read of them told. -/
def Dev.dropBlocks (d : Dev) (lo hi : Nat) : Dev :=
  forL (d.keepDue.dropInit lo hi).someHeads (fun h d =>
    if d.live h && !(d.bar2Ranges h (dramBase + lo * blockBytes) ((hi - lo) * blockBytes)).isEmpty then d.squashWindow h d.ft
    else d) (d.keepDue.dropInit lo hi)

theorem Dev.initCmd_two {d : Dev} (h : d.ram.initOp = none) : d.initCmd 2 = if d.initRange.1 < d.initRange.2 then
    d.noteDiscard.dropBlocks d.initRange.1 d.initRange.2 else d.noteDiscard := by
  simp only [Dev.initCmd, h, Option.isSome_none, Bool.false_eq_true, if_false, if_true, Nat.reduceEqDiff]
  rfl

theorem Dev.initCmd_discard {d : Dev} (h : d.ram.initOp = none) : d.discarded d.initRange.1 d.initRange.2 (d.initCmd 2) := by
  have noted : d.noteDiscard.discarded d.initRange.1 d.initRange.2 (d.initCmd 2) := by
    rw [Dev.initCmd_two h]
    split
    · exact Dev.discarded_dropInit rfl d.noteDiscard.reported_keepDue
        (Dev.reported_forL _ _ (fun h e => Dev.reported_ite (e.reported_squash h _ _) e.reported_refl) _)
    · next hempty =>
      refine ⟨rfl, rfl, fun b h1 h2 => absurd (Nat.lt_of_le_of_lt h1 h2) hempty, fun a => ?_⟩
      rw [if_neg (by simp only [blockBytes]; omega)]
  exact ⟨noted.mem, noted.op, noted.gone, noted.byte⟩

/-! ### The end of an INIT (R429) -/

theorem Dev.markInit_blockInit (d : Dev) {lo hi k : Nat} (h1 : lo ≤ k) (h2 : k < hi) : (d.markInit lo hi).blockInit k = true := by
  unfold Dev.markInit
  split
  · next h =>
    obtain ⟨r, hr, hin⟩ := List.any_eq_true.1 (h.resolve_left (by omega))
    simp only [Bool.and_eq_true, decide_eq_true_eq] at hin
    exact List.any_eq_true.2 ⟨r, hr, by simp only [Bool.and_eq_true, decide_eq_true_eq]; omega⟩
  · exact List.any_eq_true.2 ⟨(lo, hi), List.mem_cons_self, by simp only [Bool.and_eq_true, decide_eq_true_eq]; omega⟩

theorem Dev.markInit_eq (d : Dev) (lo hi : Nat) : ∃ l, d.markInit lo hi = { d with ram := { d.ram with inited := l } } := by
  unfold Dev.markInit
  split
  · exact ⟨_, rfl⟩
  · exact ⟨_, rfl⟩

/-- The command over, and the blocks of its range marked. -/
def Dev.initEnd (d : Dev) (a b : Nat) : Dev := (d.onRam (fun m => { m with initOp := none })).markInit a b

theorem Dev.initEnd_eq (d : Dev) (a b : Nat) : ∃ m : MemSt, m.initOp = none ∧ d.initEnd a b = { d with ram := m } := by
  obtain ⟨l, heq⟩ := (d.onRam (fun m => { m with initOp := none })).markInit_eq a b
  exact ⟨_, rfl, heq⟩

theorem Dev.initDone_init {d : Dev} {a b : Nat} (h : d.ram.initOp = some (1, a, b)) :
    ∃ v, d.initDone = ((d.initEnd a b).wr (pgDDR 0) Reg.DDR_INIT_DONE v).irq (pgDDR 0) 7 := by
  unfold Dev.initDone
  simp only [h, if_true]
  exact ⟨_, rfl⟩

/-! ### The statement -/

theorem exec_ddrInit (r : Req) (s : State) : exec (.ddrInit r) s = s.onPage r (pgDDR 0) (fun d => d.initCmd 1) := rfl

theorem exec_ddrDiscard (r : Req) (s : State) : exec (.ddrDiscard r) s = s.onPage r (pgDDR 0) (fun d => d.initCmd 2) := rfl

theorem exec_trained (ch : Fin 6) (ms : List SpdInfo) (s : State) : exec (.trained ch ms) s = s.run (fun d => d.trained ch ms) := rfl

theorem dramInit : Claims.DramInit := by
  intro s hs
  have hd := hs.2
  refine ⟨fun r hr => ⟨fun hidle => ⟨?_, ?_⟩, fun hbusy => ⟨?_, ?_⟩⟩, fun a b hop hfr => ?_,
    fun ch ms hen hst => ⟨fun m rest hms hok hnone hmir => ?_, fun hbad => ?_⟩⟩
  · refine does_onPage_opened hr (exec_ddrInit r s) (by decide) (fun l => ?_)
    obtain ⟨m, recorded, heq⟩ := Dev.initCmd_init (d := s.dev.opened l) hidle
    rw [heq]
    exact ⟨recorded, Dev.rd_wr_same s.dev (pgDDR 0) Reg.DDR_INIT_DONE (word 0),
      s.dev.regsBut_wr (p := pgDDR 0) (off := Reg.DDR_INIT_DONE) (word 0) ⟨rfl, rfl⟩ (by decide), Dev.sameMem_finish _ _ hd rfl⟩
  · refine does_onPage_opened hr (exec_ddrDiscard r s) (by decide) (fun l => ?_)
    obtain ⟨mem, recorded, gone, byte⟩ := Dev.initCmd_discard (d := s.dev.opened l) hidle
    refine ⟨recorded, gone, fun a => ?_⟩
    rw [Dev.byte_of_finish s.dev _ mem, byte]
    exact if_congr Iff.rfl rfl (s.dev.byte_begin hd a)
  · exact does_onPage_unchanged hs hr (exec_ddrInit r s) (by decide) (fun l => Dev.initCmd_busy (d := s.dev.opened l) hbusy 1)
  · exact does_onPage_unchanged hs hr (exec_ddrDiscard r s) (by decide) (fun l => Dev.initCmd_busy (d := s.dev.opened l) hbusy 2)
  · refine does_thawed (f := Dev.initDone) rfl hfr ?_
    obtain ⟨v, heq⟩ := Dev.initDone_init (d := s.dev.begin) hop
    obtain ⟨m, ended, hend⟩ := s.dev.begin.initEnd_eq a b
    have marked := fun k => Dev.markInit_blockInit (s.dev.begin.onRam (fun m => { m with initOp := none })) (lo := a) (hi := b) (k := k)
    rw [heq]
    refine ⟨?_, marked, Dev.irq_rdB_same _ _ _ (by decide), ?_, Dev.sameMem_finish _ _ hd ?_⟩
    · rw [hend]
      exact ended
    · have before : s.dev.regsBut (fun q o => q = pgDDR 0 ∧ (o = Reg.DDR_INIT_DONE ∨ o = Reg.IRQ_STAT)) (s.dev.begin.initEnd a b) := by
        rw [hend]
        exact s.dev.regsBut_refl _
      exact (before.trans ((Dev.regsBut_wr _ v ⟨rfl, .inl rfl⟩ (by decide)).trans (Dev.regsBut_irq _ 7 ⟨rfl, .inr rfl⟩))).finish _
    · rw [hend]
      rfl
  · subst hms
    obtain ⟨rate, hrate, f, heq⟩ := Dev.trained_first (d := s.dev.begin) hen hok hnone hmir
    obtain ⟨_, shown, size⟩ := trained_word hok hrate
    have stat : ∀ f old, (Dev.finish old ((s.dev.begin.wrN (pgDDR ch) Reg.DDR_STAT (ddrStatus (m :: rest) rate + 256)).onRam f)).rd
        (pgDDR ch) Reg.DDR_STAT = word (ddrStatus (m :: rest) rate + 256) := fun _ _ => Dev.rd_wr_same s.dev _ _ _
    refine does_of_run _ s _ _ (exec_trained ch _ s) ?_
    rw [heq]
    refine ⟨?_, ?_, ?_, ?_⟩
    · rw [Dev.rdB, stat]
      exact shown
    · rw [Dev.rdF, stat]
      exact size
    · exact s.dev.regsBut_wr (p := pgDDR ch) (off := Reg.DDR_STAT) (word (ddrStatus (m :: rest) rate + 256)) ⟨rfl, rfl⟩ (by decide)
    · exact Dev.sameMem_finish _ _ hd rfl
  · refine does_of_run _ s _ _ (exec_trained ch ms s) ?_
    rw [Dev.trained_popErr (d := s.dev.begin) hen hst hbad]
    obtain ⟨words, total⟩ := s.dev.begin.popErr_words
    refine ⟨fun c hc => (words c hc).congr (fun _ _ => Dev.finish_rd _ _ _ _), ?_,
      Dev.onlyRegs_opened (l := s.dev.armed) (Dev.regsOnly_popErr _) hd⟩
    rw [Dev.finish_rd]
    exact total

end Sys2Proof.Machine
end

/-! PROOFS. Patrol scrub (R431 to R436, R439): what a patrol read counts, shows and marks. -/
section
namespace Sys2Proof.Machine

/-! ### Records leave poison -/

theorem Dev.poison_puts (d : Dev) (a : Nat) (bs : List Byte) : (d.puts a bs).ram.poison = d.ram.poison := by
  obtain ⟨_, h⟩ := d.puts_wlog a bs
  rw [h]

/-- A write shorter than a burst ends no poison (R433). -/
theorem Dev.poison_store (d : Dev) (a : Nat) {bs : List Byte} (h : bs.length < 64) : (d.store a bs).ram.poison = d.ram.poison := by
  unfold Dev.store
  extract_lets n marked known unpoisoned unreserved
  have hmarked : marked.ram.poison = d.ram.poison := by
    simp only [marked]
    split
    · obtain ⟨l, heq⟩ := d.markInit_eq ((a - dramBase) / blockBytes) ((a + n - 1 - dramBase) / blockBytes + 1)
      rw [heq]
    · rfl
  have whole : ∀ b ∈ marked.ram.poison, (!(decide (a ≤ b * 64) && decide (b * 64 + 64 ≤ a + n))) = true := fun b _ => by
    simp only [Bool.not_eq_true', Bool.and_eq_false_iff, decide_eq_false_iff_not]
    omega
  have hunpoisoned : unpoisoned.ram.poison = marked.ram.poison := by
    simp only [unpoisoned]
    split
    · rfl
    · exact List.filter_eq_self.2 whole
  have hunreserved : unreserved.ram.poison = unpoisoned.ram.poison := by
    simp only [unreserved]
    split <;> rfl
  rw [Dev.poison_puts, hunreserved, hunpoisoned, hmarked]

theorem Dev.poison_logCount (d : Dev) (src k : Nat) (n : Int) : (d.logCount src k n).ram.poison = d.ram.poison := by
  rw [Dev.logCount, Dev.storeArea]
  split
  · exact d.poison_store _ (by rw [leBytes_length]; decide)
  · rfl

theorem Dev.irq_ram (d : Dev) (p n : Nat) : (d.irq p n).ram = d.ram := rfl

theorem Dev.poison_logAdmit (d : Dev) (r : LogRec) : (d.logAdmit r).ram.poison = d.ram.poison := by
  have push : ∀ b, ((d.logPush b r).logCount r.source 4 1).ram.poison = d.ram.poison := fun b => by
    rw [Dev.poison_logCount]; rfl
  have merge : ∀ b, (d.logMerge b r).ram.poison = d.ram.poison := fun b => by
    rw [Dev.logMerge, Dev.irq_ram, Dev.poison_logCount]
  have raise : ∀ e : Dev, (e.irq pgLOG 1).ram.poison = e.ram.poison := fun e => by rw [Dev.irq_ram]
  simp only [Dev.logAdmit, apply_ite (fun e : Dev => e.ram.poison), raise, push, merge, Dev.poison_logCount, ite_self]

theorem Dev.poison_alarm (d : Dev) (page cause : Nat) : (d.alarm page cause).ram.poison = d.ram.poison := by
  have tail : ∀ r, ((d.logTail r).irq pgLOG 0).ram.poison = d.ram.poison := fun _ => by rw [Dev.irq_ram]; rfl
  have record : ∀ r, (d.logRecord r).ram.poison = d.ram.poison := fun r => by
    simp only [Dev.logRecord, apply_ite (fun e : Dev => e.ram.poison), Dev.poison_logAdmit, Dev.poison_logCount, tail, ite_self]
  rw [Dev.alarm, Dev.drew_ram]
  exact record _

/-! ### What the reports of a channel keep -/

/-- The words that show a channel's latest error, and DEGRADED's causes. -/
def scrubWord (ch q o : Nat) : Prop := q = pgDDR ch ∧ (o = Reg.DDR_CE ∨ o = Reg.DDR_UE ∨ o = Reg.DDR_ERR_LO ∨ o = Reg.IRQ_STAT)
  ∨ q = pgSYS ∧ o = Reg.SYS_DEG_CAUSE

/-- The counts and the latest error of a channel stay, what is raised stays raised, and poison stays. -/
structure Dev.scrubKept (ch : Nat) (d t : Dev) : Prop where
  words : ∀ o, o = Reg.DDR_CE ∨ o = Reg.DDR_UE ∨ o = Reg.DDR_ERR_LO → t.rd (pgDDR ch) o = d.rd (pgDDR ch) o
  raised : ∀ n, d.rdB (pgDDR ch) Reg.IRQ_STAT n = true → t.rdB (pgDDR ch) Reg.IRQ_STAT n = true
  cause : ∀ n, d.rdB pgSYS Reg.SYS_DEG_CAUSE n = true → t.rdB pgSYS Reg.SYS_DEG_CAUSE n = true
  poison : t.ram.poison = d.ram.poison

theorem pgDDR_ne_pgSYS (ch : Nat) : pgDDR ch ≠ pgSYS := by simp only [pgDDR, pgSYS]; omega

theorem pgDDR_ne_pgLOG {ch : Nat} (h : ch < 6) : pgDDR ch ≠ pgLOG := by simp only [pgDDR, pgLOG]; omega

section ScrubKept
variable {ch : Nat}

theorem Dev.scrubKept_refl (d : Dev) : d.scrubKept ch d := ⟨fun _ _ => rfl, fun _ h => h, fun _ h => h, rfl⟩

theorem Dev.scrubKept.trans {a b c : Dev} (h : a.scrubKept ch b) (h' : b.scrubKept ch c) : a.scrubKept ch c :=
  ⟨fun o ho => (h'.words o ho).trans (h.words o ho), fun n hn => h'.raised n (h.raised n hn), fun n hn => h'.cause n (h.cause n hn),
    h'.poison.trans h.poison⟩

theorem Dev.scrubKept_of_regsBut {d t : Dev} (h : d.regsBut (fun q o => ¬scrubWord ch q o) t) (hp : t.ram.poison = d.ram.poison) :
    d.scrubKept ch t := by
  have same : ∀ q o, o < 4096 → scrubWord ch q o → t.rd q o = d.rd q o := fun q o ho hw => h q o ho (not_not_intro hw)
  refine ⟨fun o ho => ?_, fun n hn => ?_, fun n hn => ?_, hp⟩
  · refine same _ _ (by rcases ho with rfl | rfl | rfl <;> decide) (.inl ⟨rfl, ?_⟩)
    rcases ho with ho | ho | ho <;> simp only [ho, true_or, or_true]
  · rw [Dev.rdB, same _ _ (by decide) (.inl ⟨rfl, .inr (.inr (.inr rfl))⟩)]
    exact hn
  · rw [Dev.rdB, same _ _ (by decide) (.inr ⟨rfl, rfl⟩)]
    exact hn

theorem Dev.scrubKept_wr (d : Dev) {q o : Nat} (v : Word) (hw : ¬scrubWord ch q o) (ho : o < 4096) : d.scrubKept ch (d.wr q o v) :=
  Dev.scrubKept_of_regsBut (d.regsBut_wr v hw ho) rfl

/-- A word of the channel that shows no error. -/
theorem not_scrubWord_ddr {o : Nat} (h : o ≠ Reg.DDR_CE ∧ o ≠ Reg.DDR_UE ∧ o ≠ Reg.DDR_ERR_LO ∧ o ≠ Reg.IRQ_STAT) :
    ¬scrubWord ch (pgDDR ch) o := by
  obtain ⟨ce, ue, lo, irq⟩ := h
  rintro (⟨_, rfl | rfl | rfl | rfl⟩ | ⟨hp, _⟩)
  · exact ce rfl
  · exact ue rfl
  · exact lo rfl
  · exact irq rfl
  · exact pgDDR_ne_pgSYS ch hp

theorem not_scrubWord_mode : ¬scrubWord ch pgSYS Reg.SYS_MODE := by
  rintro (⟨hp, _⟩ | ⟨_, ho⟩)
  · exact pgDDR_ne_pgSYS ch hp.symm
  · exact absurd ho (by decide)

theorem Dev.scrubKept_irq (d : Dev) (q n : Nat) : d.scrubKept ch (d.irq q n) := by
  refine ⟨fun o ho => d.irq_stat_else _ _ _ _ ?_ ?_, fun b hb => ?_, fun b hb => ?_, rfl⟩
  · rcases ho with rfl | rfl | rfl <;> decide
  · rcases ho with rfl | rfl | rfl <;> decide
  · by_cases hq : pgDDR ch = q
    · exact hq ▸ Dev.irq_rdB_mono _ _ _ _ hb
    · rw [Dev.rdB, d.irq_rd_else n hq (by decide)]
      exact hb
  · rw [Dev.rdB, d.irq_stat_else _ _ _ _ (by decide) (by decide)]
    exact hb

theorem Dev.scrubKept_alarm (hch : ch < 6) (d : Dev) (page cause : Nat) : d.scrubKept ch (d.alarm page cause) := by
  refine Dev.scrubKept_of_regsBut ((d.logged_alarm page cause).2.mono ?_) (d.poison_alarm page cause)
  rintro q o rfl (⟨hp, _⟩ | ⟨hp, _⟩)
  · exact pgDDR_ne_pgLOG hch hp.symm
  · exact absurd hp (by decide)

theorem Dev.scrubKept_setMode (d : Dev) (m : Nat) : d.scrubKept ch (d.setMode m) :=
  ((d.scrubKept_wr _ not_scrubWord_mode (by decide)).trans (Dev.scrubKept_wr _ _ not_scrubWord_mode (by decide))).trans
    (Dev.scrubKept_irq _ _ _)

/-- A cause of DEGRADED shown. -/
theorem Dev.scrubKept_wrB_cause (d : Dev) {k : Nat} (hk : k < 32) : d.scrubKept ch (d.wrB pgSYS Reg.SYS_DEG_CAUSE k true) := by
  have other : ∀ o < 4096, (d.wrB pgSYS Reg.SYS_DEG_CAUSE k true).rd (pgDDR ch) o = d.rd (pgDDR ch) o := fun o ho =>
    d.rd_wr_page _ _ _ _ _ (pgDDR_ne_pgSYS ch) ho (by decide)
  refine ⟨fun o ho => other o (by rcases ho with rfl | rfl | rfl <;> decide), fun n hn => ?_, fun n hn => ?_, rfl⟩
  · rw [Dev.rdB, other _ (by decide)]
    exact hn
  · rw [Dev.wrB_bit _ _ _ _ _ _ hk, hn, ite_self]

theorem Dev.scrubKept_ite {c : Prop} [Decidable c] {d a b : Dev} (ha : d.scrubKept ch a) (hb : d.scrubKept ch b) :
    d.scrubKept ch (if c then a else b) := by
  split
  · exact ha
  · exact hb

theorem Dev.scrubKept_degrade (d : Dev) {k : Nat} (hk : k < 32) : d.scrubKept ch (d.degrade k) :=
  Dev.scrubKept_ite d.scrubKept_refl
    (((d.scrubKept_wrB_cause hk).trans (Dev.scrubKept_irq _ _ _)).trans
      (Dev.scrubKept_ite (Dev.scrubKept_setMode _ _) (Dev.scrubKept_refl _)))

theorem Dev.degrade_cause (d : Dev) {k : Nat} (hk : k < 32) : (d.degrade k).rdB pgSYS Reg.SYS_DEG_CAUSE k = true := by
  unfold Dev.degrade
  split
  · next h => exact h
  · have set : (d.wrB pgSYS Reg.SYS_DEG_CAUSE k true).rdB pgSYS Reg.SYS_DEG_CAUSE k = true := by
      rw [Dev.wrB_bit _ _ _ _ _ _ hk, if_pos rfl]
    have later := (Dev.scrubKept_irq (ch := 0) (d.wrB pgSYS Reg.SYS_DEG_CAUSE k true) pgSYS 2).trans
      (Dev.scrubKept_ite (c := ((d.wrB pgSYS Reg.SYS_DEG_CAUSE k true).irq pgSYS 2).mode = 3) (Dev.scrubKept_setMode _ 4)
        (Dev.scrubKept_refl _))
    exact later.cause k set

/-- What is held of the memories changed without their poison. -/
theorem Dev.scrubKept_onRam (d : Dev) {f : MemSt → MemSt} (hf : (f d.ram).poison = d.ram.poison) : d.scrubKept ch (d.onRam f) :=
  ⟨fun _ _ => rfl, fun _ h => h, fun _ h => h, hf⟩

theorem Dev.scrubKept_repairPost (d : Dev) : d.scrubKept ch d.repairPost := ⟨fun _ _ => rfl, fun _ h => h, fun _ h => h, rfl⟩

/-! ### Repairs and marks (R435, R436) -/

theorem Dev.scrubKept_softRepair (hch : ch < 6) (d : Dev) : d.scrubKept ch (d.softRepair ch) := by
  unfold Dev.softRepair
  extract_lets p thr recent
  refine Dev.scrubKept_ite d.scrubKept_refl ?_
  split
  · exact d.scrubKept_refl
  · next e _ =>
    extract_lets noted repaired
    have hnoted : d.scrubKept ch noted := d.scrubKept_onRam rfl
    have shown : ∀ (a : Dev) hi lo v n, a.scrubKept ch ((a.wrF (pgDDR ch) Reg.DDR_SPPR hi lo v).irq (pgDDR ch) n) := fun a hi lo v n =>
      (a.scrubKept_wr _ (not_scrubWord_ddr (by decide)) (by decide)).trans (Dev.scrubKept_irq _ _ _)
    split
    · have hrepaired : d.scrubKept ch repaired := hnoted.trans (noted.scrubKept_onRam rfl)
      exact (hrepaired.trans (shown _ _ _ _ _)).trans (Dev.scrubKept_repairPost _)
    · exact ((hnoted.trans (shown _ _ _ _ _)).trans (Dev.scrubKept_alarm hch _ _ _)).trans (Dev.scrubKept_degrade _ (by decide))

theorem Dev.scrubKept_markDevice (hch : ch < 6) (d : Dev) (device sub rank : Nat) :
    d.scrubKept ch (d.markDevice ch device sub rank) := by
  have raised : ∀ e : Dev, e.scrubKept ch ((e.irq (pgDDR ch) 2).alarm (pgDDR ch) 2) := fun e =>
    (e.scrubKept_irq _ _).trans (Dev.scrubKept_alarm hch _ _ _)
  have marked := (d.scrubKept_wr (word (1 + device % 16 * 2 + sub % 2 * 32 + rank % 8 * 64)) (not_scrubWord_ddr (ch := ch)
    (o := Reg.DDR_MARK) (by decide)) (by decide))
  unfold Dev.markDevice
  refine Dev.scrubKept_ite d.scrubKept_refl (Dev.scrubKept_ite (raised d) ?_)
  exact ((marked.trans (Dev.scrubKept_wr _ _ (not_scrubWord_ddr (by decide)) (by decide))).trans (raised _)).trans
    (Dev.scrubKept_degrade _ (by decide))

end ScrubKept

/-! ### The place of the scrub (R434, R435) -/

/-- The words that show a channel's scrub. -/
def scrubPlace (ch q o : Nat) : Prop := q = pgDDR ch ∧ (o = Reg.DDR_SCRUB ∨ o = Reg.DDR_PASSES)

/-- The scrub of a channel goes on: its words, and what is held of the memories without poison; no error by row is new. -/
structure Dev.scrubMoved (ch : Nat) (d t : Dev) : Prop where
  shape : ∃ r m, t = { d with regs := r, ram := m }
  regs : d.regsBut (scrubPlace ch) t
  poison : t.ram.poison = d.ram.poison
  rows : d.ram.rowErrs = [] → t.ram.rowErrs = []

theorem Dev.scrubMoved.trans {ch : Nat} {a b c : Dev} (h : a.scrubMoved ch b) (h' : b.scrubMoved ch c) : a.scrubMoved ch c := by
  obtain ⟨⟨_, _, rfl⟩, regs, poison, rows⟩ := h
  obtain ⟨⟨_, _, rfl⟩, regs', poison', rows'⟩ := h'
  exact ⟨⟨_, _, rfl⟩, regs.trans regs', poison'.trans poison, fun h => rows' (rows h)⟩

theorem Dev.scrubMoved_wr (d : Dev) {ch o : Nat} (v : Word) (ho : o = Reg.DDR_SCRUB ∨ o = Reg.DDR_PASSES) :
    d.scrubMoved ch (d.wr (pgDDR ch) o v) :=
  ⟨⟨_, _, rfl⟩, d.regsBut_wr v ⟨rfl, ho⟩ (by rcases ho with rfl | rfl <;> decide), rfl, fun h => h⟩

theorem Dev.scrubMoved_onRam (d : Dev) {ch : Nat} {f : MemSt → MemSt} (hp : (f d.ram).poison = d.ram.poison)
    (hr : d.ram.rowErrs = [] → (f d.ram).rowErrs = []) : d.scrubMoved ch (d.onRam f) :=
  ⟨⟨_, _, rfl⟩, d.regsBut_refl _, hp, hr⟩

theorem Dev.scrubMoved_scrubStep (d : Dev) (ch : Nat) : d.scrubMoved ch (d.scrubStep ch) := by
  have placed : ∀ (e : Dev) v, e.scrubMoved ch ((e.onRam (fun m => { m with scrubPos := spPut (fun _ => 0) m.scrubPos ch v })).wrF
      (pgDDR ch) Reg.DDR_SCRUB 25 0 (v / 4096)) := fun e v =>
    (e.scrubMoved_onRam rfl (fun h => h)).trans (Dev.scrubMoved_wr _ _ (.inl rfl))
  unfold Dev.scrubStep
  extract_lets pos setPos
  split
  · exact placed d _
  · split
    · exact ⟨⟨_, _, rfl⟩, d.regsBut_refl _, rfl, fun h => h⟩
    · refine Dev.scrubMoved.trans (Dev.scrubMoved.trans (d.scrubMoved_wr _ (.inr rfl)) (Dev.scrubMoved_onRam _ rfl fun h => ?_))
        (placed _ _)
      exact (congrArg (List.filter _) h).trans rfl

theorem Dev.scrubMoved.kept {ch : Nat} {d t : Dev} (h : d.scrubMoved ch t) : d.scrubKept ch t := by
  refine Dev.scrubKept_of_regsBut (h.regs.mono ?_) h.poison
  rintro q o ⟨rfl, rfl | rfl⟩
  · exact not_scrubWord_ddr (by decide)
  · exact not_scrubWord_ddr (by decide)

theorem Dev.softRepair_none {d : Dev} (h : d.ram.rowErrs = []) (ch : Nat) : d.softRepair ch = d := by
  simp only [Dev.softRepair, h, List.find?_nil, ite_self]

/-! ### An error counted, raised and shown (R434, R439) -/

/-- An error at address a counted at o and raised as bit n, and shown as kind. -/
def Dev.showError (d : Dev) (ch o n a kind device sub rank : Nat) : Dev :=
  ((d.add32 (pgDDR ch) o 1).irq (pgDDR ch) n).ddrErr ch a kind device sub rank

theorem Dev.showError_words (d : Dev) (ch : Nat) {o n : Nat} (a kind device sub rank : Nat) (ho : o = Reg.DDR_CE ∨ o = Reg.DDR_UE)
    (hn : n < 32) : let t := d.showError ch o n a kind device sub rank
    t.rd (pgDDR ch) o = d.rd (pgDDR ch) o + 1 ∧ t.rdB (pgDDR ch) Reg.IRQ_STAT n = true ∧ t.rd (pgDDR ch) Reg.DDR_ERR_LO = word a := by
  have other : ∀ x, x ≠ Reg.DDR_ERR_LO → x ≠ Reg.DDR_ERR_HI → (d.showError ch o n a kind device sub rank).rd (pgDDR ch) x
      = ((d.add32 (pgDDR ch) o 1).irq (pgDDR ch) n).rd (pgDDR ch) x := fun x hlo hhi => by
    rw [Dev.showError, Dev.ddrErr, Dev.wrN, Dev.wrN, Dev.rd_wr_off _ _ _ _ _ hhi, Dev.rd_wr_off _ _ _ _ _ hlo]
  refine ⟨?_, ?_, ?_⟩
  · rw [other _ (by rcases ho with rfl | rfl <;> decide) (by rcases ho with rfl | rfl <;> decide),
      Dev.irq_stat_else _ _ _ _ _ (by rcases ho with rfl | rfl <;> decide) (by rcases ho with rfl | rfl <;> decide), Dev.add32,
      Dev.wrN, Dev.rd_wr_same]
    exact word_succ _
  · rw [Dev.rdB, other _ (by decide) (by decide)]
    exact Dev.irq_rdB_same _ _ _ hn
  · rw [Dev.showError, Dev.ddrErr, Dev.wrN, Dev.rd_wr_off _ _ _ _ _ (by decide), Dev.wrN, Dev.rd_wr_same]

theorem Dev.showError_ram (d : Dev) (ch o n a kind device sub rank : Nat) :
    (d.showError ch o n a kind device sub rank).ram = d.ram := by
  rw [Dev.showError, Dev.ddrErr, Dev.wrN, Dev.wr_ram, Dev.wrN, Dev.wr_ram, Dev.irq_ram, Dev.add32, Dev.wrN, Dev.wr_ram]

/-- A corrected error is counted, raised and shown; what is counted by row, and a mark, leave that. -/
theorem Dev.corrected_shown {ch : Nat} (hch : ch < 6) (d : Dev) (a device sub rank row : Nat) (spare : Bool) :
    (d.showError ch Reg.DDR_CE 0 a 1 device sub rank).scrubKept ch (d.corrected ch a device sub rank row spare) := by
  unfold Dev.corrected
  extract_lets p dev rows before shown counted
  have hcounted : shown.scrubKept ch counted := shown.scrubKept_onRam rfl
  exact hcounted.trans (Dev.scrubKept_ite (counted.scrubKept_markDevice hch _ _ _) counted.scrubKept_refl)

/-- The burst of an address stored back poisoned. -/
def Dev.poisonBurst (d : Dev) (a : Nat) : Dev :=
  d.onRam (fun m => { m with poison := if m.poison.contains (a / 64) then m.poison else a / 64 :: m.poison })

theorem Dev.poisonBurst_rd (d : Dev) (a p o : Nat) : (d.poisonBurst a).rd p o = d.rd p o := rfl

theorem Dev.poisonBurst_mem (d : Dev) (a : Nat) : a / 64 ∈ (d.poisonBurst a).ram.poison := by
  show a / 64 ∈ if d.ram.poison.contains (a / 64) then d.ram.poison else a / 64 :: d.ram.poison
  split
  · next h => exact List.contains_iff_mem.1 h
  · exact List.mem_cons_self

theorem Dev.uncorrected_eq (d : Dev) (ch a device sub rank : Nat) : d.uncorrected ch a device sub rank false
    = (((d.poisonBurst a).showError ch Reg.DDR_UE 1 a 2 device sub rank).alarm (pgDDR ch) 1).degrade 0 := by
  rw [Dev.uncorrected, Bool.false_and, if_neg Bool.false_ne_true]
  rfl

/-! ### The statement -/

/-- What a patrol read found, acted on. -/
def Dev.foundBurst (d : Dev) (ch : Nat) : BurstResult → Dev
  | .clean => d
  | .corrected a device sub rank row spare => d.corrected ch a.toNat device sub.toNat rank.toNat row spare
  | .uncorrectable a device sub rank good => d.uncorrected ch a.toNat device sub.toNat rank.toNat good

section Patrol
variable {d : Dev} {ch : Nat}

theorem Dev.patrol_off (h : (d.rdB (pgDDR ch) Reg.DDR_STAT 8 && d.rdB (pgDDR ch) Reg.DDR_CTL 4) = false) (found : BurstResult) :
    d.patrol ch found = d := if_pos (by rw [← Bool.not_and, h]; rfl)

theorem Dev.patrol_on (h : (d.rdB (pgDDR ch) Reg.DDR_STAT 8 && d.rdB (pgDDR ch) Reg.DDR_CTL 4) = true) (found : BurstResult) :
    d.patrol ch found = ((d.scrubStep ch).foundBurst ch found).softRepair ch := by
  rw [Dev.patrol, if_neg (by rw [← Bool.not_and, h]; decide)]
  cases found <;> rfl

/-- A corrected error is counted, raised and shown. -/
theorem Dev.patrol_corrected (hch : ch < 6) (h : (d.rdB (pgDDR ch) Reg.DDR_STAT 8 && d.rdB (pgDDR ch) Reg.DDR_CTL 4) = true)
    (a : BitVec 48) (device : Fin 10) (sub : Bool) (rank : BitVec 3) (row : Nat) (spare : Bool) :
    let t := d.patrol ch (.corrected a device sub rank row spare)
    t.rd (pgDDR ch) Reg.DDR_CE = d.rd (pgDDR ch) Reg.DDR_CE + 1 ∧ t.rdB (pgDDR ch) Reg.IRQ_STAT 0 = true
      ∧ t.rd (pgDDR ch) Reg.DDR_ERR_LO = word a.toNat := by
  have moved := (d.scrubMoved_scrubStep ch).kept
  rw [Dev.patrol_on h, Dev.foundBurst]
  obtain ⟨count, bit0, low⟩ := (d.scrubStep ch).showError_words ch (n := 0) a.toNat 1 device sub.toNat rank.toNat (.inl rfl) (by decide)
  have kept := ((d.scrubStep ch).corrected_shown hch a.toNat device sub.toNat rank.toNat row spare).trans
    (Dev.scrubKept_softRepair hch _)
  refine ⟨?_, kept.raised 0 bit0, (kept.words _ (.inr (.inr rfl))).trans low⟩
  rw [kept.words _ (.inl rfl), count, moved.words _ (.inl rfl)]

/-- A burst that no copy recovers is counted, raised and shown, is stored back poisoned, and is a cause of DEGRADED. -/
theorem Dev.patrol_uncorrectable (hch : ch < 6) (h : (d.rdB (pgDDR ch) Reg.DDR_STAT 8 && d.rdB (pgDDR ch) Reg.DDR_CTL 4) = true)
    (a : BitVec 48) (device : Fin 10) (sub : Bool) (rank : BitVec 3) :
    let t := d.patrol ch (.uncorrectable a device sub rank false)
    t.rd (pgDDR ch) Reg.DDR_UE = d.rd (pgDDR ch) Reg.DDR_UE + 1 ∧ t.rdB (pgDDR ch) Reg.IRQ_STAT 1 = true
      ∧ t.rd (pgDDR ch) Reg.DDR_ERR_LO = word a.toNat ∧ a.toNat / 64 ∈ t.ram.poison
      ∧ t.rdB pgSYS Reg.SYS_DEG_CAUSE 0 = true := by
  have moved := (d.scrubMoved_scrubStep ch).kept
  rw [Dev.patrol_on h, Dev.foundBurst, Dev.uncorrected_eq]
  obtain ⟨count, bit1, low⟩ := ((d.scrubStep ch).poisonBurst a.toNat).showError_words ch (n := 1) a.toNat 2 device
    sub.toNat rank.toNat (.inr rfl) (by decide)
  have stored := (d.scrubStep ch).poisonBurst_mem a.toNat
  rw [← Dev.showError_ram _ ch Reg.DDR_UE 1 a.toNat 2 device sub.toNat rank.toNat] at stored
  rw [Dev.poisonBurst_rd, moved.words _ (.inr (.inl rfl))] at count
  generalize ((d.scrubStep ch).poisonBurst a.toNat).showError ch Reg.DDR_UE 1 a.toNat 2 device sub.toNat rank.toNat = shown
    at count bit1 low stored ⊢
  have last := Dev.scrubKept_softRepair hch ((shown.alarm (pgDDR ch) 1).degrade 0)
  have kept := ((Dev.scrubKept_alarm hch shown (pgDDR ch) 1).trans (Dev.scrubKept_degrade _ (k := 0) (by decide))).trans last
  refine ⟨(kept.words _ (.inr (.inl rfl))).trans count, kept.raised 1 bit1, (kept.words _ (.inr (.inr rfl))).trans low, ?_,
    last.cause 0 (Dev.degrade_cause _ (by decide))⟩
  rw [kept.poison]
  exact stored

end Patrol

theorem exec_patrolScrub (ch : Fin 6) (found : BurstResult) (s : State) :
    exec (.patrolScrub ch found) s = s.run (fun d => d.thawed (pgDDR ch) (fun d => d.patrol ch found)) := rfl

theorem patrolScrub : Claims.PatrolScrub := by
  intro ch s hs
  have hd := hs.2
  have moved := s.dev.begin.scrubMoved_scrubStep ch
  refine ⟨fun found hoff hfr => ?_, fun hon hrows hfr => ?_, fun a device sub rank row spare hon hfr => ?_,
    fun a device sub rank hon hfr => ?_⟩
  · exact does_thawed_unchanged hs (exec_patrolScrub ch found s) hfr (Dev.patrol_off (d := s.dev.begin) hoff found)
  · refine does_thawed (exec_patrolScrub ch _ s) hfr ?_
    rw [Dev.patrol_on (d := s.dev.begin) hon, Dev.foundBurst, Dev.softRepair_none (moved.rows hrows)]
    obtain ⟨r, m, heq⟩ := moved.shape
    exact ⟨moved.regs.finish _, Dev.sameMem_finish _ _ hd (by rw [heq]; rfl)⟩
  · refine does_thawed (exec_patrolScrub ch _ s) hfr ?_
    rw [Dev.finish_rd, Dev.finish_rdB, Dev.finish_rd]
    exact Dev.patrol_corrected (d := s.dev.begin) ch.isLt hon a device sub rank row spare
  · refine does_thawed (exec_patrolScrub ch _ s) hfr ?_
    rw [Dev.finish_rd, Dev.finish_rdB, Dev.finish_rd, Dev.finish_ram, Dev.finish_rdB]
    exact Dev.patrol_uncorrectable (d := s.dev.begin) ch.isLt hon a device sub rank

/-- Settles O53: training and initialisation, and patrol scrub. -/
theorem dram : Obligations.Dram := ⟨dramInit, patrolScrub⟩

end Sys2Proof.Machine
end
